-- ==== Sys2Proof/Word.lean ====
section
/-! DEFINITION. Word types and the plainest arithmetic on them (R5). -/
namespace Sys2Proof

/-- A scalar register (R28). -/
abbrev Word := BitVec 64
/-- The smallest addressable unit. -/
abbrev Byte := BitVec 8
/-- A vector register: 128 bytes, lane i at bits 32i+31:32i (R5, R199). -/
abbrev VReg := BitVec 1024

/-- Sorted association list: the plain-data form of every sparse table of the model. -/
abbrev Table (α : Type) := List (Nat × α)

end Sys2Proof
end

