-- ==== Sys2Proof/Config.lean ====
section
/-! DEFINITION. What an implementation fixes and the free values.
A constant without a body is free: nothing in Lean can evaluate it, so a claim holds for every value. -/
namespace Sys2Proof.Config

/-- The number of cycles, beyond one, that the n-th step of unfixed latency takes.
R23, R124, R278 and R346 leave these times open (log 3). -/
opaque latency : Nat → Nat
/-- The n-th choice among orders that R165, R287 and R291 leave open (log 3). -/
opaque choice : Nat → Nat
/-- The i-th fresh key that the Porch makes (R341, R405): the spec fixes only its width (log 6). -/
opaque freshKey : Nat → BitVec 256
/-- AES-256-GCM (R341): key, IV, additional data and plaintext to ciphertext and tag; named, not stated (log 6). -/
opaque gcmSeal : BitVec 256 → BitVec 96 → List (BitVec 8) → List (BitVec 8) → List (BitVec 8)
opaque gcmTag : BitVec 256 → BitVec 96 → List (BitVec 8) → List (BitVec 8) → BitVec 128
opaque gcmOpen : BitVec 256 → BitVec 96 → List (BitVec 8) → List (BitVec 8) → List (BitVec 8)
/-- SHAKE256 (R369): input bytes and output length in bytes; named, not stated (log 6). -/
opaque shake256 : List (BitVec 8) → Nat → List (BitVec 8)
/-- XMSS-SHAKE256_20_256 verification (R369): public key, signature, digest (log 6). -/
opaque xmssVerify : List (BitVec 8) → List (BitVec 8) → List (BitVec 8) → Bool
/-- The flash of a die by byte address, and where slot A (0) and slot B (1) begin (R369): what it holds is fixed outside (log 6). -/
opaque flash : Nat → Nat → BitVec 8
opaque flashSlot : Nat → Nat → Nat
/-- The fields of a slot's 128-byte header (R369): the spec names them and gives no layout (log 6). -/
opaque hdrOff : List (BitVec 8) → Nat
opaque hdrLen : List (BitVec 8) → Nat
opaque hdrLoad : List (BitVec 8) → Nat
opaque hdrEntry : List (BitVec 8) → Nat
opaque hdrPk : List (BitVec 8) → List (BitVec 8)
opaque hdrSig : List (BitVec 8) → List (BitVec 8)
opaque hdrSvn : List (BitVec 8) → Nat
/-- The die's one-time-programmable key hash and minimum version (R369) (log 6). -/
opaque otpPkh : Nat → List (BitVec 8)
opaque otpSvn : Nat → Nat
/-- Energy accumulators at group end, in µJ per cluster (R314): measured, so free (log 3). -/
opaque energy : Nat → Nat

/-- The thermal rank that a die's Hearth gives to a sensor reading below 105 °C (R316): no thresholds are given (log 3). -/
opaque thermalRank : Nat → Nat

end Sys2Proof.Config
end

