-- ==== Sys2Proof/Syntax.lean ====
section
/-! DEFINITION. The instruction set: one constructor per row of spec/opcode_table.json.
C-slot instructions carry the word's head (L, WK, WN of R75); A-slot instructions carry their
fields (R78, R87); the rows without an encoding are the steps of the other units, with the
operands that say where the step falls. -/
namespace Sys2Proof

/-- The head of a C-slot word (R75): L (bit 31), WK (30:27), WN (26:25). -/
structure CHead where
  ln : Bool
  wk : BitVec 4
  wn : BitVec 2
deriving DecidableEq, Repr

/-- Every row of the opcode table. -/
inductive Instr where
  /-- R116: C-slot no-operation; counts as one pair. -/
  | nop (hd : CHead)
  /-- R103: Takes the issue slot for n consecutive pairs. -/
  | dly (hd : CHead) (c : BitVec 6)
  /-- R116: Switching event that passes the issue slot to the next ready context. -/
  | yield (hd : CHead)
  /-- R39: Context issues no further pairs and retires once its tokens and ORC drain. -/
  | halt (hd : CHead)
  /-- R110: Jumps to the address in s31. -/
  | ret (hd : CHead)
  /-- R114: Waits for t0-t3 to drain, restores k0-k15 from the frame and resumes at EPC. -/
  | eret (hd : CHead)
  /-- R50: Dissolves the gang; each member fetches from its own local store. -/
  | gsplit (hd : CHead)
  /-- R46: Registers the context's arrival at its domain instance's barrier and waits for the phase. -/
  | sync (hd : CHead)
  /-- R47: Barrier arrival with a GTS limit; writes 1 on completion or 0 on limit. -/
  | syncT (hd : CHead) (d : BitVec 5) (sl : BitVec 5)
  /-- R118: Arrives at the cluster barrier requesting a gang of the given shape and origin. -/
  | gang (hd : CHead) (hh : BitVec 2) (x : BitVec 2) (y : BitVec 2)
  /-- R105: Issues once token k's count is at most b. -/
  | kwait (hd : CHead) (k : BitVec 4) (b : BitVec 6)
  /-- R106: Writes the count of token k into sD. -/
  | ktst (hd : CHead) (d : BitVec 5) (k : BitVec 4)
  /-- R38: Starts a helper in the lowest free slot with a start PC, argument and quota. -/
  | spawn (hd : CHead) (d : BitVec 5) (a : BitVec 5) (b : BitVec 5) (q : BitVec 3)
  /-- R119: Records the A-slot words of the next n pairs into the repetition buffer. -/
  | rbRec (hd : CHead) (c : BitVec 4)
  /-- R120: Replays the repetition buffer for a pass count with register staggers. -/
  | rbRun (hd : CHead) (a : BitVec 5) (b : BitVec 5)
  /-- R110: Branches when lane 0 of p is 1. -/
  | brT (hd : CHead) (p : BitVec 3) (o : BitVec 15)
  /-- R110: Branches when lane 0 of p is 0. -/
  | brF (hd : CHead) (p : BitVec 3) (o : BitVec 15)
  /-- R110: Branches when any lane of p is 1. -/
  | brAny (hd : CHead) (p : BitVec 3) (o : BitVec 15)
  /-- R110: Branches when no lane of p is 1. -/
  | brNone (hd : CHead) (p : BitVec 3) (o : BitVec 15)
  /-- R110: Jumps to a PC-relative target. -/
  | jmp (hd : CHead) (o : BitVec 18)
  /-- R109: Calls a PC-relative target, writing s31, subject to the token-ownership check. -/
  | call (hd : CHead) (o : BitVec 18)
  /-- R110: Jumps and writes the return address into sD. -/
  | jal (hd : CHead) (d : BitVec 5) (o : BitVec 13)
  /-- R110: Jumps to the address in sA. -/
  | jr (hd : CHead) (r : BitVec 5)
  /-- R112: Issues its pair, then enters the software trap with the code. -/
  | trap (hd : CHead) (c : BitVec 8)
  /-- R124: Sends a signal record to the household's signal queue as a remote request. -/
  | sig (hd : CHead) (a : BitVec 5) (imm : BitVec 13)
  /-- R122: Reads a control register into sD. -/
  | getc (hd : CHead) (d : BitVec 5) (c : BitVec 12)
  /-- R122: Writes sA into a control register, field by field. -/
  | setc (hd : CHead) (a : BitVec 5) (c : BitVec 12)
  /-- R123: Writes the GTS of its issue cycle into sD. -/
  | gts (hd : CHead) (r : BitVec 5)
  /-- R125: Puts a marker record into the core's trace stream. -/
  | tmark (hd : CHead) (a : BitVec 5) (imm : BitVec 13)
  /-- R154: Waits at the event unit until a counter reaches a target. -/
  | ewait (hd : CHead) (d : BitVec 5) (a : BitVec 5)
  /-- R153: After ORC drains, sends an add to an event counter as a cluster release. -/
  | esig (hd : CHead) (a : BitVec 5) (b : BitVec 5)
  /-- R136: Loads a sign-extended byte at sA plus offset. -/
  | ldb (hd : CHead) (d : BitVec 5) (a : BitVec 5) (o : BitVec 8)
  /-- R136: Loads a zero-extended byte at sA plus offset. -/
  | ldbN (hd : CHead) (d : BitVec 5) (a : BitVec 5) (o : BitVec 8)
  /-- R136: Loads a sign-extended halfword at sA plus offset. -/
  | ldh (hd : CHead) (d : BitVec 5) (a : BitVec 5) (o : BitVec 8)
  /-- R136: Loads a zero-extended halfword at sA plus offset. -/
  | ldhN (hd : CHead) (d : BitVec 5) (a : BitVec 5) (o : BitVec 8)
  /-- R136: Loads a sign-extended word at sA plus offset. -/
  | ldw (hd : CHead) (d : BitVec 5) (a : BitVec 5) (o : BitVec 8)
  /-- R136: Loads a zero-extended word at sA plus offset. -/
  | ldwN (hd : CHead) (d : BitVec 5) (a : BitVec 5) (o : BitVec 8)
  /-- R136: Loads a doubleword at sA plus offset. -/
  | ldd (hd : CHead) (d : BitVec 5) (a : BitVec 5) (o : BitVec 8)
  /-- R136: Stores a byte at sA plus offset. -/
  | stb (hd : CHead) (v : BitVec 5) (a : BitVec 5) (o : BitVec 8)
  /-- R136: Stores a halfword at sA plus offset. -/
  | sth (hd : CHead) (v : BitVec 5) (a : BitVec 5) (o : BitVec 8)
  /-- R136: Stores a word at sA plus offset. -/
  | stw (hd : CHead) (v : BitVec 5) (a : BitVec 5) (o : BitVec 8)
  /-- R136: Stores a doubleword at sA plus offset. -/
  | std (hd : CHead) (v : BitVec 5) (a : BitVec 5) (o : BitVec 8)
  /-- R139: Takes a full/empty word when full, or joins its deferred list. -/
  | take (hd : CHead) (d : BitVec 5) (a : BitVec 5) (o : BitVec 8)
  /-- R140: Writes a word and sets it full, granting the oldest deferred take. -/
  | give (hd : CHead) (v : BitVec 5) (a : BitVec 5) (o : BitVec 8)
  /-- R140: Sets a word's FE bit, granting a deferred take when set full. -/
  | feSet (hd : CHead) (f : BitVec 1) (a : BitVec 5) (o : BitVec 8)
  /-- R136: Indexed sign-extended byte load. -/
  | ldbX (hd : CHead) (d : BitVec 5) (a : BitVec 5) (b : BitVec 5)
  /-- R136: Indexed zero-extended byte load. -/
  | ldbNX (hd : CHead) (d : BitVec 5) (a : BitVec 5) (b : BitVec 5)
  /-- R136: Indexed sign-extended halfword load. -/
  | ldhX (hd : CHead) (d : BitVec 5) (a : BitVec 5) (b : BitVec 5)
  /-- R136: Indexed zero-extended halfword load. -/
  | ldhNX (hd : CHead) (d : BitVec 5) (a : BitVec 5) (b : BitVec 5)
  /-- R136: Indexed sign-extended word load. -/
  | ldwX (hd : CHead) (d : BitVec 5) (a : BitVec 5) (b : BitVec 5)
  /-- R136: Indexed zero-extended word load. -/
  | ldwNX (hd : CHead) (d : BitVec 5) (a : BitVec 5) (b : BitVec 5)
  /-- R136: Indexed doubleword load. -/
  | lddX (hd : CHead) (d : BitVec 5) (a : BitVec 5) (b : BitVec 5)
  /-- R136: Indexed byte store. -/
  | stbX (hd : CHead) (v : BitVec 5) (a : BitVec 5) (b : BitVec 5)
  /-- R136: Indexed halfword store. -/
  | sthX (hd : CHead) (v : BitVec 5) (a : BitVec 5) (b : BitVec 5)
  /-- R136: Indexed word store. -/
  | stwX (hd : CHead) (v : BitVec 5) (a : BitVec 5) (b : BitVec 5)
  /-- R136: Indexed doubleword store. -/
  | stdX (hd : CHead) (v : BitVec 5) (a : BitVec 5) (b : BitVec 5)
  /-- R137: Loads 32 lanes from a 128-byte aligned address. -/
  | ldv (hd : CHead) (v : BitVec 6) (a : BitVec 5) (o : BitVec 7)
  /-- R137: Stores 32 lanes to a 128-byte aligned address. -/
  | stv (hd : CHead) (v : BitVec 6) (a : BitVec 5) (o : BitVec 7)
  /-- R137: Strided vector load. -/
  | ldvs (hd : CHead) (v : BitVec 6) (a : BitVec 5) (b : BitVec 5)
  /-- R137: Indexed (gather) vector load. -/
  | ldvx (hd : CHead) (v : BitVec 6) (a : BitVec 5) (imm : BitVec 6)
  /-- R137: Indexed (scatter) vector store. -/
  | stvx (hd : CHead) (v : BitVec 6) (a : BitVec 5) (imm : BitVec 6)
  /-- R148: Opens a single-line region. -/
  | alb (hd : CHead) (a : BitVec 5)
  /-- R148: Closes a region and sends its accesses as one indivisible request. -/
  | ale (hd : CHead)
  /-- R150: Waits for unwritten load destinations, then acquires at its scope. -/
  | fenceAcq (hd : CHead) (sl : BitVec 3)
  /-- R150: Waits for ORC to reach zero, then releases at its scope. -/
  | fenceRel (hd : CHead) (sl : BitVec 3)
  /-- R150: Waits for both conditions, then releases and acquires at its scope. -/
  | fenceAr (hd : CHead) (sl : BitVec 3)
  /-- R156: Dequeues the oldest inbox entry for the context, waiting if none. -/
  | inbx (hd : CHead) (v : BitVec 6)
  /-- R159: Inbox dequeue with a GTS limit. -/
  | inbxT (hd : CHead) (v : BitVec 6) (d : BitVec 5) (sl : BitVec 5)
  /-- R142: Atomic add returning the old value. -/
  | amoAdd (hd : CHead) (d : BitVec 5) (a : BitVec 5) (b : BitVec 5) (z : BitVec 2) (u : BitVec 1)
  /-- R142: Atomic minimum returning the old value. -/
  | amoMin (hd : CHead) (d : BitVec 5) (a : BitVec 5) (b : BitVec 5) (z : BitVec 2) (u : BitVec 1)
  /-- R142: Atomic maximum returning the old value. -/
  | amoMax (hd : CHead) (d : BitVec 5) (a : BitVec 5) (b : BitVec 5) (z : BitVec 2) (u : BitVec 1)
  /-- R142: Atomic and returning the old value. -/
  | amoAnd (hd : CHead) (d : BitVec 5) (a : BitVec 5) (b : BitVec 5) (z : BitVec 2) (u : BitVec 1)
  /-- R142: Atomic or returning the old value. -/
  | amoOr (hd : CHead) (d : BitVec 5) (a : BitVec 5) (b : BitVec 5) (z : BitVec 2) (u : BitVec 1)
  /-- R142: Atomic xor returning the old value. -/
  | amoXor (hd : CHead) (d : BitVec 5) (a : BitVec 5) (b : BitVec 5) (z : BitVec 2) (u : BitVec 1)
  /-- R142: Atomic swap returning the old value. -/
  | amoSwp (hd : CHead) (d : BitVec 5) (a : BitVec 5) (b : BitVec 5) (z : BitVec 2) (u : BitVec 1)
  /-- R142: Atomic compare-and-swap returning the old value. -/
  | amoCas (hd : CHead) (d : BitVec 5) (a : BitVec 5) (b : BitVec 5) (z : BitVec 2) (u : BitVec 1)
  /-- R143: Non-returning atomic add. -/
  | redAdd (hd : CHead) (a : BitVec 5) (b : BitVec 5) (z : BitVec 2) (u : BitVec 1)
  /-- R143: Non-returning atomic minimum. -/
  | redMin (hd : CHead) (a : BitVec 5) (b : BitVec 5) (z : BitVec 2) (u : BitVec 1)
  /-- R143: Non-returning atomic maximum. -/
  | redMax (hd : CHead) (a : BitVec 5) (b : BitVec 5) (z : BitVec 2) (u : BitVec 1)
  /-- R143: Non-returning atomic and. -/
  | redAnd (hd : CHead) (a : BitVec 5) (b : BitVec 5) (z : BitVec 2) (u : BitVec 1)
  /-- R143: Non-returning atomic or. -/
  | redOr (hd : CHead) (a : BitVec 5) (b : BitVec 5) (z : BitVec 2) (u : BitVec 1)
  /-- R143: Non-returning atomic xor. -/
  | redXor (hd : CHead) (a : BitVec 5) (b : BitVec 5) (z : BitVec 2) (u : BitVec 1)
  /-- R160: Sends a 24-byte message entry to a context of the sender's Fen. -/
  | msend (hd : CHead) (e : BitVec 5) (v : BitVec 6) (k : BitVec 4)
  /-- R227: Copies a 64-byte matrix command into the command queue. -/
  | mxq (hd : CHead) (a : BitVec 5) (k : BitVec 4)
  /-- R228: Builds a matrix command from registers and queues it. -/
  | mma (hd : CHead) (m : BitVec 3) (a : BitVec 5) (b : BitVec 5) (k : BitVec 4)
  /-- R226: Queues a clear of a tile and its chunk index. -/
  | mzero (hd : CHead) (m : BitVec 3)
  /-- R231: Reads a committed tile row into a vector register. -/
  | mrd (hd : CHead) (v : BitVec 6) (t : BitVec 3) (sl : BitVec 5) (k : BitVec 4)
  /-- R225: Copies 1-16 KiB from local store into the Loft B store. -/
  | mldB (hd : CHead) (a : BitVec 5) (b : BitVec 5) (k : BitVec 4) (c : BitVec 4)
  /-- R409: Maps a granted peat read-only at a VA. -/
  | pmount (hd : CHead) (d : BitVec 5) (a : BitVec 5) (k : BitVec 4)
  /-- R410: Removes a peat mount and invalidates its range. -/
  | punmount (hd : CHead) (a : BitVec 5)
  /-- R411: Reads one item of information about a peat. -/
  | pinfo (hd : CHead) (d : BitVec 5) (a : BitVec 5)
  /-- R242: Adds 32 FP32 lanes of a vector register into a cistern segment (form 0). -/
  | cadd (hd : CHead) (c : BitVec 5) (v : BitVec 6) (k : BitVec 4)
  /-- R242: Adds a committed tile row into a cistern segment (form 1). -/
  | caddTile (hd : CHead) (c : BitVec 5) (t : BitVec 3) (k : BitVec 4)
  /-- R244: Reads a normalised cistern segment into a vector register. -/
  | ctap (hd : CHead) (v : BitVec 6) (c : BitVec 5) (k : BitVec 4) (f : BitVec 3)
  /-- R248: Recomputes a group's sum of squares and records DRIFT. -/
  | cscrub (hd : CHead) (c : BitVec 5) (k : BitVec 4)
  /-- R249: Writes a cistern group to an image in DRAM-class memory. -/
  | cspill (hd : CHead) (c : BitVec 5) (a : BitVec 5) (k : BitVec 4) (f : BitVec 1)
  /-- R249: Replaces a cistern group from a spill image. -/
  | cfill (hd : CHead) (c : BitVec 5) (a : BitVec 5) (k : BitVec 4) (f : BitVec 1)
  /-- R252: Reads one item of a cistern group's state. -/
  | cinfo (hd : CHead) (d : BitVec 5) (c : BitVec 5)
  /-- R412: Forms a revive group from intact tasks of a mounted peat. -/
  | previve (hd : CHead) (d : BitVec 5) (a : BitVec 5) (k : BitVec 4)
  /-- R263: Creates a chamber and a root handle over a region. -/
  | hnew (hd : CHead) (hh : BitVec 4) (a : BitVec 5) (b : BitVec 5)
  /-- R264: Moves a handle between registers. -/
  | hmov (hd : CHead) (hh : BitVec 4) (g : BitVec 4)
  /-- R265: Splits a handle's view along an axis into two children. -/
  | hsplit (hd : CHead) (x : BitVec 2) (a : BitVec 4) (b : BitVec 4) (c : BitVec 4) (imm : BitVec 4)
  /-- R268: Rejoins two sibling handles into their parent. -/
  | hjoin (hd : CHead) (hh : BitVec 4) (a : BitVec 4) (b : BitVec 4) (k : BitVec 4)
  /-- R266: Sends a handle to a context of the cluster. -/
  | hsend (hd : CHead) (a : BitVec 4) (e : BitVec 5)
  /-- R267: Dequeues the oldest handle entry into a handle register. -/
  | hrecv (hd : CHead) (hh : BitVec 4)
  /-- R270: Reads one item of a handle into sD. -/
  | hinfo (hd : CHead) (d : BitVec 5) (a : BitVec 4) (f : BitVec 3)
  /-- R269: Ends a chamber through its root handle. -/
  | hfree (hd : CHead) (hh : BitVec 4)
  /-- R271: Loads one vector cell of a handle's view. -/
  | hldv (hd : CHead) (v : BitVec 6) (a : BitVec 4) (imm : BitVec 5)
  /-- R271: Stores one vector cell of a handle's view. -/
  | hstv (hd : CHead) (v : BitVec 6) (a : BitVec 4) (imm : BitVec 5)
  /-- R288: Starts a streamer copy from memory to the local side. -/
  | sget (hd : CHead) (a : BitVec 5) (k : BitVec 4)
  /-- R289: Starts a streamer copy from the local side to memory. -/
  | sput (hd : CHead) (a : BitVec 5) (k : BitVec 4)
  /-- R290: Starts an indexed-row gather from memory. -/
  | sgat (hd : CHead) (a : BitVec 5) (k : BitVec 4)
  /-- R291: Starts a reduction of local rows into memory. -/
  | sred (hd : CHead) (a : BitVec 5) (k : BitVec 4)
  /-- R292: Joins a collective of P participants. -/
  | scol (hd : CHead) (a : BitVec 5) (k : BitVec 4)
  /-- R295: Initialises a pantry: all stages Free, cursors 0. -/
  | pinit (hd : CHead) (a : BitVec 5)
  /-- R296: Reserves the pantry stage at HEAD. -/
  | pres (hd : CHead) (d : BitVec 5) (a : BitVec 5)
  /-- R295: Commits the stage at CMTC after ORC drains. -/
  | pcmt (hd : CHead) (a : BitVec 5)
  /-- R296: Acquires the Full stage at TAIL. -/
  | pacq (hd : CHead) (d : BitVec 5) (a : BitVec 5)
  /-- R295: Releases the Held stage at RELC. -/
  | prel (hd : CHead) (a : BitVec 5)
  /-- R87: A-slot no-operation. -/
  | aNop
  /-- R94: Typed scalar add. -/
  | add (d : BitVec 5) (a : BitVec 5) (b : BitVec 5) (t : BitVec 4)
  /-- R94: Typed scalar subtract. -/
  | sub (d : BitVec 5) (a : BitVec 5) (b : BitVec 5) (t : BitVec 4)
  /-- R94: Typed scalar multiply, low bits. -/
  | mul (d : BitVec 5) (a : BitVec 5) (b : BitVec 5) (t : BitVec 4)
  /-- R94: Typed scalar multiply, high bits. -/
  | mulh (d : BitVec 5) (a : BitVec 5) (b : BitVec 5) (t : BitVec 4)
  /-- R94: Typed scalar divide. -/
  | div (d : BitVec 5) (a : BitVec 5) (b : BitVec 5) (t : BitVec 4)
  /-- R94: Typed scalar remainder. -/
  | rem (d : BitVec 5) (a : BitVec 5) (b : BitVec 5) (t : BitVec 4)
  /-- R94: Typed scalar bitwise and. -/
  | and (d : BitVec 5) (a : BitVec 5) (b : BitVec 5) (t : BitVec 4)
  /-- R94: Typed scalar bitwise or. -/
  | or (d : BitVec 5) (a : BitVec 5) (b : BitVec 5) (t : BitVec 4)
  /-- R94: Typed scalar bitwise xor. -/
  | xor (d : BitVec 5) (a : BitVec 5) (b : BitVec 5) (t : BitVec 4)
  /-- R94: Typed scalar shift left. -/
  | shl (d : BitVec 5) (a : BitVec 5) (b : BitVec 5) (t : BitVec 4)
  /-- R94: Typed scalar logical shift right. -/
  | shr (d : BitVec 5) (a : BitVec 5) (b : BitVec 5) (t : BitVec 4)
  /-- R94: Typed scalar arithmetic shift right. -/
  | sra (d : BitVec 5) (a : BitVec 5) (b : BitVec 5) (t : BitVec 4)
  /-- R94: Typed scalar minimum. -/
  | min (d : BitVec 5) (a : BitVec 5) (b : BitVec 5) (t : BitVec 4)
  /-- R94: Typed scalar maximum. -/
  | max (d : BitVec 5) (a : BitVec 5) (b : BitVec 5) (t : BitVec 4)
  /-- R97: Compares two scalars and writes all lanes of a predicate. -/
  | cmp (p : BitVec 3) (c : BitVec 3) (a : BitVec 5) (b : BitVec 5) (t : BitVec 4)
  /-- R98: Selects sA or sB by lane 0 of a predicate. -/
  | sel (d : BitVec 5) (a : BitVec 5) (b : BitVec 5) (p : BitVec 3)
  /-- R98: Counts leading zero bits. -/
  | clz (d : BitVec 5) (a : BitVec 5) (t : BitVec 4)
  /-- R98: Counts one bits. -/
  | popc (d : BitVec 5) (a : BitVec 5) (t : BitVec 4)
  /-- R96: Loads a 20-bit immediate into bits 31:12. -/
  | lih (d : BitVec 5) (imm : BitVec 20)
  /-- R96: Adds a signed immediate to sA. -/
  | adr (d : BitVec 5) (a : BitVec 5) (imm : BitVec 15)
  /-- R95: 64-bit and with an immediate. -/
  | andI (d : BitVec 5) (a : BitVec 5) (imm : BitVec 15)
  /-- R95: 64-bit or with an immediate. -/
  | orI (d : BitVec 5) (a : BitVec 5) (imm : BitVec 15)
  /-- R95: 64-bit xor with an immediate. -/
  | xorI (d : BitVec 5) (a : BitVec 5) (imm : BitVec 15)
  /-- R95: 64-bit shift left by an immediate. -/
  | shlI (d : BitVec 5) (a : BitVec 5) (imm : BitVec 6)
  /-- R95: 64-bit logical shift right by an immediate. -/
  | shrI (d : BitVec 5) (a : BitVec 5) (imm : BitVec 6)
  /-- R95: 64-bit arithmetic shift right by an immediate. -/
  | sraI (d : BitVec 5) (a : BitVec 5) (imm : BitVec 6)
  /-- R95: Signed 64-bit minimum with an immediate. -/
  | minI (d : BitVec 5) (a : BitVec 5) (imm : BitVec 15)
  /-- R95: Signed 64-bit maximum with an immediate. -/
  | maxI (d : BitVec 5) (a : BitVec 5) (imm : BitVec 15)
  /-- R97: Compares a scalar with an immediate into a predicate. -/
  | cmpI (p : BitVec 3) (c : BitVec 3) (a : BitVec 5) (t : BitVec 4) (imm : BitVec 10)
  /-- R99: Scalar FP32 add. -/
  | faddF32 (d : BitVec 5) (a : BitVec 5) (b : BitVec 5)
  /-- R99: Scalar FP32 multiply. -/
  | fmulF32 (d : BitVec 5) (a : BitVec 5) (b : BitVec 5)
  /-- R99: Scalar FP32 fused multiply-add. -/
  | ffmaF32 (d : BitVec 5) (a : BitVec 5) (b : BitVec 5) (c : BitVec 5)
  /-- R100: Converts a scalar between types. -/
  | fcvt (d : BitVec 5) (a : BitVec 5) (x : BitVec 4) (y : BitVec 4)
  /-- R212: Sets a predicate from the low 32 bits of sA. -/
  | pset (d : BitVec 3) (a : BitVec 5)
  /-- R212: Predicate and. -/
  | pand (d : BitVec 3) (a : BitVec 3) (b : BitVec 3)
  /-- R212: Predicate or. -/
  | por (d : BitVec 3) (a : BitVec 3) (b : BitVec 3)
  /-- R212: Predicate not. -/
  | pnot (d : BitVec 3) (a : BitVec 3)
  /-- R202: Lane-wise vector add. -/
  | vadd (d : BitVec 6) (a : BitVec 6) (b : BitVec 6) (t : BitVec 4) (p : BitVec 3)
  /-- R202: Lane-wise vector subtract. -/
  | vsub (d : BitVec 6) (a : BitVec 6) (b : BitVec 6) (t : BitVec 4) (p : BitVec 3)
  /-- R202: Lane-wise vector multiply. -/
  | vmul (d : BitVec 6) (a : BitVec 6) (b : BitVec 6) (t : BitVec 4) (p : BitVec 3)
  /-- R203: Lane-wise fused multiply-add into the destination. -/
  | vfma (d : BitVec 6) (a : BitVec 6) (b : BitVec 6) (t : BitVec 4) (p : BitVec 3)
  /-- R203: Lane-wise fused multiply-subtract from the destination. -/
  | vfms (d : BitVec 6) (a : BitVec 6) (b : BitVec 6) (t : BitVec 4) (p : BitVec 3)
  /-- R204: Lane-wise minimum. -/
  | vmin (d : BitVec 6) (a : BitVec 6) (b : BitVec 6) (t : BitVec 4) (p : BitVec 3)
  /-- R204: Lane-wise maximum. -/
  | vmax (d : BitVec 6) (a : BitVec 6) (b : BitVec 6) (t : BitVec 4) (p : BitVec 3)
  /-- R202: Lane-wise bitwise and. -/
  | vand (d : BitVec 6) (a : BitVec 6) (b : BitVec 6) (t : BitVec 4) (p : BitVec 3)
  /-- R202: Lane-wise bitwise or. -/
  | vor (d : BitVec 6) (a : BitVec 6) (b : BitVec 6) (t : BitVec 4) (p : BitVec 3)
  /-- R202: Lane-wise bitwise xor. -/
  | vxor (d : BitVec 6) (a : BitVec 6) (b : BitVec 6) (t : BitVec 4) (p : BitVec 3)
  /-- R202: Lane-wise shift left. -/
  | vshl (d : BitVec 6) (a : BitVec 6) (b : BitVec 6) (t : BitVec 4) (p : BitVec 3)
  /-- R202: Lane-wise shift right. -/
  | vshr (d : BitVec 6) (a : BitVec 6) (b : BitVec 6) (t : BitVec 4) (p : BitVec 3)
  /-- R204: Clamps the destination lanes into [vA, vB]. -/
  | vclamp (d : BitVec 6) (a : BitVec 6) (b : BitVec 6) (t : BitVec 4) (p : BitVec 3)
  /-- R211: Permutes lanes by indices in vB. -/
  | vperm (d : BitVec 6) (a : BitVec 6) (b : BitVec 6) (t : BitVec 4) (p : BitVec 3)
  /-- R210: Four-way int8 dot product accumulated into each lane. -/
  | vdotI8 (d : BitVec 6) (a : BitVec 6) (b : BitVec 6) (p : BitVec 3)
  /-- R207: Selects vA or vB per lane by a predicate. -/
  | vsel (d : BitVec 6) (a : BitVec 6) (b : BitVec 6) (t : BitVec 4) (p : BitVec 3)
  /-- R206: Lane-wise compare into a predicate. -/
  | vcmp (d : BitVec 3) (c : BitVec 3) (a : BitVec 6) (b : BitVec 6) (t : BitVec 4) (p : BitVec 3)
  /-- R205: Lane-wise absolute value. -/
  | vabs (d : BitVec 6) (a : BitVec 6) (t : BitVec 4) (p : BitVec 3)
  /-- R205: Lane-wise negation. -/
  | vneg (d : BitVec 6) (a : BitVec 6) (t : BitVec 4) (p : BitVec 3)
  /-- R205: Lane-wise correctly rounded reciprocal. -/
  | vrcp (d : BitVec 6) (a : BitVec 6) (t : BitVec 4) (p : BitVec 3)
  /-- R205: Lane-wise correctly rounded reciprocal square root. -/
  | vrsqrt (d : BitVec 6) (a : BitVec 6) (t : BitVec 4) (p : BitVec 3)
  /-- R205: Lane-wise correctly rounded 2^x. -/
  | vexp2 (d : BitVec 6) (a : BitVec 6) (t : BitVec 4) (p : BitVec 3)
  /-- R205: Lane-wise correctly rounded log2. -/
  | vlog2 (d : BitVec 6) (a : BitVec 6) (t : BitVec 4) (p : BitVec 3)
  /-- R208: Converts 32 packed elements between types. -/
  | vcvt (d : BitVec 6) (a : BitVec 6) (x : BitVec 4) (y : BitVec 4) (p : BitVec 3)
  /-- R209: Reduces 32 lanes with a fixed tree and broadcasts the result. -/
  | vred (d : BitVec 6) (a : BitVec 6) (o : BitVec 3) (t : BitVec 4) (p : BitVec 3)
  /-- R211: Broadcasts one lane to all governed lanes. -/
  | vbcast (d : BitVec 6) (a : BitVec 6) (e : BitVec 5) (p : BitVec 3)
  /-- R211: Splats a scalar pattern into all governed lanes. -/
  | vsplat (d : BitVec 6) (sl : BitVec 5) (t : BitVec 4) (p : BitVec 3)
  /-- R211: Extracts one lane into a scalar register. -/
  | vext (d : BitVec 5) (a : BitVec 6) (e : BitVec 5)
  /-- R211: Inserts a scalar into one lane. -/
  | vins (d : BitVec 6) (sl : BitVec 5) (e : BitVec 5)
  /-- R202: Vector add with a scalar second source. -/
  | vaddS (d : BitVec 6) (a : BitVec 6) (sl : BitVec 5) (t : BitVec 4) (p : BitVec 3)
  /-- R202: Vector subtract with a scalar second source. -/
  | vsubS (d : BitVec 6) (a : BitVec 6) (sl : BitVec 5) (t : BitVec 4) (p : BitVec 3)
  /-- R202: Vector multiply with a scalar second source. -/
  | vmulS (d : BitVec 6) (a : BitVec 6) (sl : BitVec 5) (t : BitVec 4) (p : BitVec 3)
  /-- R203: Vector fused multiply-add with a scalar second source. -/
  | vfmaS (d : BitVec 6) (a : BitVec 6) (sl : BitVec 5) (t : BitVec 4) (p : BitVec 3)
  /-- R203: Vector fused multiply-subtract with a scalar second source. -/
  | vfmsS (d : BitVec 6) (a : BitVec 6) (sl : BitVec 5) (t : BitVec 4) (p : BitVec 3)
  /-- R204: Vector minimum with a scalar second source. -/
  | vminS (d : BitVec 6) (a : BitVec 6) (sl : BitVec 5) (t : BitVec 4) (p : BitVec 3)
  /-- R204: Vector maximum with a scalar second source. -/
  | vmaxS (d : BitVec 6) (a : BitVec 6) (sl : BitVec 5) (t : BitVec 4) (p : BitVec 3)
  /-- R202: Vector and with a scalar second source. -/
  | vandS (d : BitVec 6) (a : BitVec 6) (sl : BitVec 5) (t : BitVec 4) (p : BitVec 3)
  /-- R202: Vector or with a scalar second source. -/
  | vorS (d : BitVec 6) (a : BitVec 6) (sl : BitVec 5) (t : BitVec 4) (p : BitVec 3)
  /-- R202: Vector xor with a scalar second source. -/
  | vxorS (d : BitVec 6) (a : BitVec 6) (sl : BitVec 5) (t : BitVec 4) (p : BitVec 3)
  /-- R202: Vector shift left by a scalar. -/
  | vshlS (d : BitVec 6) (a : BitVec 6) (sl : BitVec 5) (t : BitVec 4) (p : BitVec 3)
  /-- R202: Vector shift right by a scalar. -/
  | vshrS (d : BitVec 6) (a : BitVec 6) (sl : BitVec 5) (t : BitVec 4) (p : BitVec 3)
  /-- R206: Vector compare against a scalar into a predicate. -/
  | vcmpS (d : BitVec 3) (c : BitVec 3) (a : BitVec 6) (sl : BitVec 5) (t : BitVec 4) (p : BitVec 3)
  /-- R90: C opcodes 0x7C-0x7E behave as nop with operands ignored. -/
  | cReservedNop (hd : CHead) (op : BitVec 7) (rest : BitVec 18)
  /-- R90: A opcodes 0x7C-0x7E behave as the A-slot nop. -/
  | aReservedNop (op : BitVec 7) (rest : BitVec 25)
  /-- R89: A context's next word carries an illegal opcode and takes the illegal-instruction trap once its wait is met. -/
  | illegalOpcode (slot : Nat) (word : BitVec 32)
  /-- R51: The repetition buffer sequencer issues one recorded word as a pair of the replaying context. -/
  | replayedPair
  /-- R379: A context takes the trap for its oldest late report at its next pair boundary. -/
  | lateTrap
  /-- R284: A context enters the upcall for its oldest KIND 0x05 completion entry. -/
  | upcall
  /-- R39: A halted helper retires once its tokens and ORC are zero, freeing its slot and pool registers. -/
  | helperRetire (core : Nat) (ctx : Nat)
  /-- R39: A halted control context's task ends once helpers retire and its tokens and ORC drain. -/
  | taskEnd (core : Nat)
  /-- R46: A barrier phase completes at T after arrivals and exchange plus the release latency. -/
  | phaseComplete (hid : Nat) (level : Nat) (unit : Nat)
  /-- R47: A sync.t limit is reached before its phase completes; sD receives 0. -/
  | syncTLimit (core : Nat) (ctx : Nat)
  /-- R35: An exchange-plan entry is performed, or refused, at its destination. -/
  | planEntry (core : Nat) (idx : Nat)
  /-- R165: A window or event-window request is performed at its home. -/
  | remoteRequestPerform (id : Nat)
  /-- R141: A take answered busy is sent again 64 cycles later. -/
  | takeRetry (id : Nat)
  /-- R136: A load, take, amo or region reply is written into its destination at the issuing core. -/
  | replyReceive (id : Nat)
  /-- R133: A remote request's acknowledgement lowers ORC.COUNT. -/
  | requestAck (id : Nat)
  /-- R381: A late refusal reaches the core, acknowledges the request and queues a late report. -/
  | refusalReceive (id : Nat)
  /-- R144: A contention predictor entry returns to quiet after 4,096 cycles without conflict. -/
  | predictorDecay (core : Nat) (line : Nat)
  /-- R153: An esig add is applied at the event counter. -/
  | esigAdd (id : Nat)
  /-- R154: The event unit answers an ewait once the counter meets its target. -/
  | ewaitAnswer (core : Nat) (ctx : Nat)
  /-- R160: An msend leaves the core once earlier remote requests are acknowledged. -/
  | msendDepart (id : Nat)
  /-- R442: An entry arrives at a core and is placed in the inbox, box or input queue, dequeued if a context waits. -/
  | entryPlace (id : Nat)
  /-- R159: An inbx.t limit is reached with no entry; sD receives 0. -/
  | inbxTLimit (core : Nat) (ctx : Nat)
  /-- R442: A box write of an entry is performed, counting the entry as placed. -/
  | boxWrite (core : Nat)
  /-- R442: The oldest box entry moves back into a freed inbox slot. -/
  | boxMoveBack (core : Nat)
  /-- R443: An msend or hsend entry waiting at an input reaches the stall limit. -/
  | stallTimeout (core : Nat)
  /-- R229: A queued command or mzero starts, samples formats and is checked. -/
  | matrixCommandStart (core : Nat)
  /-- R230: A command completes, commits its tile and lowers its token. -/
  | matrixCommit (core : Nat)
  /-- R225: An mld.b starts after the previous one finishes. -/
  | mldBStart (core : Nat)
  /-- R225: An mld.b writes its last line and lowers its token. -/
  | mldBDone (core : Nat)
  /-- R245: The add path applies one cadd, cscrub, cspill or cfill request. -/
  | cisternAddPath (cl : Nat)
  /-- R245: The tap path applies one ctap or cinfo request. -/
  | cisternTapPath (cl : Nat)
  /-- R248: At the end of its hold, a scrub replaces S and records DRIFT. -/
  | scrubEnd (cl : Nat) (row : Nat)
  /-- R249: A spill's last image byte is performed; the token is lowered. -/
  | spillComplete (cl : Nat) (row : Nat)
  /-- R250: A fill's header is checked and the group replaced. -/
  | fillComplete (cl : Nat) (row : Nat)
  /-- R266: An hsend leaves once the handle's and ancestors' WOUT are zero. -/
  | hsendDepart (id : Nat)
  /-- R268: A join completes once WOUT drains; the parent becomes Live. -/
  | hjoinComplete (core : Nat) (ctx : Nat) (reg : Nat)
  /-- R269: A freeing root entry becomes Free once WOUT drains. -/
  | hfreeComplete (cl : Nat) (entry : Nat)
  /-- R282: The owner accepts a streamer command into its queue. -/
  | streamerAccept (id : Nat)
  /-- R287: A streamer reads or writes one element of an operation. -/
  | streamerStep (op : Nat)
  /-- R281: An operation completes and is delivered as its MODE gives. -/
  | streamerComplete (op : Nat)
  /-- R297: A streamer commit makes a Reserved stage Full at the pantry's home. -/
  | pantryCommit (op : Nat)
  /-- R292: A collective runs once P distinct participants have arrived. -/
  | collectiveRun (hid : Nat) (colid : Nat)
  /-- R6: A write to a register with no row of its own sets its fields. -/
  | registerWrite (off : Nat) (val : BitVec 64)
  /-- R303: A CAS on TKR reserves a run of tickets. -/
  | tkrCas (q : Nat) (cmp : BitVec 64) (new : BitVec 64)
  /-- R304: A host commits a ticket. -/
  | cmt (q : Nat) (val : BitVec 64)
  /-- R319: A host cancels a ticket, producing a cancel record. -/
  | cancel (q : Nat) (val : BitVec 64)
  /-- R313: Every 16 cycles the Porch takes in tickets, applies events and dispatches at most one group. -/
  | schedulerTick
  /-- R317: A core acknowledges its load. -/
  | coreLoadAck (q : Nat) (t : Nat) (core : Nat)
  /-- R317: At S = A + 96 every control context of the launch starts. -/
  | groupStart (q : Nat) (t : Nat)
  /-- R318: A task's end report reaches the Porch; the last one completes the group. -/
  | taskEndReport (core : Nat)
  /-- R309: A Draining group becomes Free and releases clusters and charge. -/
  | groupFree (q : Nat) (t : Nat)
  /-- R353: A completion, signal or fault record is written to its ring when room exists. -/
  | recordWrite (q : Nat) (ring : Nat)
  /-- R353: A held record's write is retried every 1,900,000 cycles or after TINV completion. -/
  | recordRetry (q : Nat) (ring : Nat)
  /-- R354: A host HEAD write makes room and lets held records be written. -/
  | ringHeadWrite (q : Nat) (ring : Nat) (val : BitVec 64)
  /-- R325: Arms a save or writes a held frame. -/
  | swcmdSave (q : Nat) (val : BitVec 64)
  /-- R344: Checks and starts restoring a saved frame. -/
  | swcmdRestore (q : Nat) (val : BitVec 64)
  /-- R325: Disarms a pending save before its stop. -/
  | swcmdDisarm (q : Nat) (val : BitVec 64)
  /-- R330: At G every holder of the household stops. -/
  | switchStop (hid : Nat)
  /-- R332: At stop + 64 the sluice closes on caught messages. -/
  | sluiceClose (hid : Nat)
  /-- R327: The last frame section is written and sealed, or a write is refused. -/
  | saveComplete (hid : Nat)
  /-- R346: After loads and re-injection, the household resumes at R = A + 96. -/
  | restoreResume (hid : Nat)
  /-- R346: A saved sluice record is re-injected at its router. -/
  | reinject (id : Nat)
  /-- R349: A message meets a forwarding stub and is forwarded. -/
  | stubForward (id : Nat)
  /-- R349: A correction updates the sending cluster's directory entry. -/
  | stubCorrection (id : Nat)
  /-- R352: Clearing PBIND.VALID stops host requests under the PASID. -/
  | pasidTeardown (q : Nat)
  /-- R352: A response under a torn-down PASID is discarded. -/
  | hostResponseDiscard (q : Nat)
  /-- R356: A WAITCTL write arms a wait packet. -/
  | waitArm (q : Nat) (val : BitVec 64)
  /-- R356: A watch slot reads the signal word at a snoop or poll. -/
  | watchRead (q : Nat)
  /-- R357: A faulted watch packet yields its slot after 38,000 cycles. -/
  | watchYield (q : Nat)
  /-- R357: A page response lets a watch packet read again. -/
  | pageResponse (q : Nat)
  /-- R358: A TDISP state change reaches the Porch. -/
  | tdiStateChange (q : Nat) (st : Nat)
  /-- R361: Starts a TLB invalidation. -/
  | tinv (q : Nat) (val : BitVec 64)
  /-- R361: An invalidation completes and BUSY clears. -/
  | tinvComplete (q : Nat)
  /-- R366: At Boardwalk join a module's GTS steps forward to the reference. -/
  | gtsJoin (ref : Nat)
  /-- R366: Every 65,536 cycles a module adds or withholds one GTS count. -/
  | gtsCorrect (add : Bool)
  /-- R368: A Hearth takes or renews the leadership lease by CAS. -/
  | leaseCas (cmp : BitVec 64) (new : BitVec 64)
  /-- R7: Cold reset of the module sets reset values and erases keys. -/
  | coldReset
  /-- R369: Each Hearth verifies and measures its firmware image. -/
  | firstStageBoot (die : Nat)
  /-- R370: The leader answers SPDM GET_MEASUREMENTS. -/
  | getMeasurements
  /-- R350: The host port trains to the first shared mode. -/
  | hostPortTrain (modes : BitVec 4)
  /-- R391: A KILL write arms a kill of the household. -/
  | kill (q : Nat) (val : BitVec 64)
  /-- R390: A warm reset kills every household at reset + 4,096. -/
  | warmReset
  /-- R394: At K every holder freezes and starts writing the peat. -/
  | killStop (hid : Nat)
  /-- R402: Once section lengths are reported, well space and a peat number are allotted. -/
  | peatAllocate (hid : Nat)
  /-- R394: The last peat section is written and the household ends. -/
  | peatFormed (hid : Nat)
  /-- R401: Releases a peat's well space, retained memory and key. -/
  | pwrel (val : BitVec 64)
  /-- R413: A revive group resumes at R' = A + 96. -/
  | reviveResume (q : Nat) (t : Nat)
  /-- R419: An uncorrectable on-die SRAM error kills the holding household. -/
  | sramUe (kind : Nat) (holder : Nat) (addr : Nat)
  /-- R420: The management core or Hearth scrubs an atom. -/
  | patrolScrub (pa : Nat)
  /-- R424: A link receiver checks a flit and passes it or sends a NAK. -/
  | flitReceive (link : Nat) (seq : BitVec 12) (good : Bool)
  /-- R424: A sender resends from a NAKed flit. -/
  | nakReplay (link : Nat) (seq : BitVec 12)
  /-- R426: A retraining ends; the link comes up or goes down. -/
  | retrainEnd (link : Nat) (up : Bool)
  /-- R428: A module event record is written to the host ring. -/
  | eventRecordWrite
  /-- R431: A bank activates a row; reaching TH triggers refresh management. -/
  | rowActivate (pa : Nat)
  /-- R431: A bank's 1,900-cycle back-off ends. -/
  | backoffEnd (bank : Nat)
  /-- R430: An open row closes 128 cycles after its last access. -/
  | rowClose (bank : Nat)
  /-- R430: A new 32 ms refresh window begins and ACT counts clear. -/
  | refreshWindow (stack : Nat)
  /-- R433: The management core issues a per-bank refresh. -/
  | bankRefresh (bank : Nat)
  /-- R433: The management core sends a heartbeat to its controllers. -/
  | heartbeat (stack : Nat)
  /-- R433: With no heartbeat for 3,800 cycles the sequencer takes over refresh. -/
  | refreshTakeover (stack : Nat)
  /-- R433: The sequencer issues an all-bank refresh. -/
  | sequencerRefresh (stack : Nat)
  /-- R434: The sequencer hands refresh back to the management core. -/
  | refreshHandback (stack : Nat)
  /-- R435: A hot page is copied to a spare and remapped. -/
  | pageMigrate (page : Nat)
  /-- R437: The Hearth reads die sensors every 19,000 cycles. -/
  | sensorRead (die : Nat) (temp : Nat)
  /-- R444: A router checks a message's Fen and forwards, detours, holds or discards it. -/
  | routerReceive (id : Nat)
  /-- R439: A held item is delivered after the item its PREV names. -/
  | orderRestoreDeliver (core : Nat)
  /-- R446: The Porch Hearth raises a security alarm. -/
  | securityAlarm (cls : Nat)
  /-- R446: At alarm + 4,096 the policy kills households and erases keys. -/
  | alarmAction (cls : Nat)
  /-- R451: The checker reads a signed block and reports a mismatch. -/
  | signatureCheck (q : Nat) (idx : Nat)
  /-- R452: A credential write unlocks debug for a household or raises an alarm. -/
  | dbgunlk (q : Nat) (val : BitVec 64)
  /-- R454: DBGCTL OP 1 arms a core stop. -/
  | debugStop (core : Nat)
  /-- R454: At g the armed core stops issuing. -/
  | debugStopTake (core : Nat)
  /-- R454: DBGCTL OP 2 lets the core issue again. -/
  | debugRun (core : Nat)
  /-- R456: DBGCTL OP 3 takes one step of a context. -/
  | debugStep (core : Nat) (ctx : Nat)
  /-- R457: DBGCTL OP 4 starts writing a snapshot. -/
  | debugSnapshot (core : Nat)
  /-- R457: The last snapshot byte is written and SNAPBUSY clears. -/
  | snapshotDone (core : Nat)
  /-- R462: A GTS trigger condition opens or closes a trace window. -/
  | traceGtsTrigger (core : Nat)
  /-- R465: A supply droop is counted and may be captured. -/
  | droopDetect (die : Nat) (below : BitVec 32) (mv : BitVec 32)
  /-- R469: A waiting context's core rereads the log HEAD every 1,900 cycles. -/
  | molHeadReread (core : Nat) (ctx : Nat)
  /-- R71: A sequential or first fetch meets the fetch boundary, or an L = 0 word at a multiple of 8 plus 4, and takes the overlay or misaligned-pair trap. -/
  | fetchTrap
  /-- R341: A household is created with its page-table root, HSK, PK, debug credential and a SAVECNT of 0. -/
  | householdCreate (hid : Nat) (q : Nat) (root : BitVec 64) (prot : Bool) (cred : BitVec 64)
  /-- R343: A household is destroyed and its HSK and SAVECNT are erased. -/
  | householdDestroy (hid : Nat)
  /-- R30: A Fen is created; it receives a module-unique identifier and the lowest free Fen index of its household. -/
  | fenCreate (hid : Nat) (cx : Nat) (cy : Nat) (w : Nat) (ht : Nat)
  /-- R30: A Fen ends, and its identifier and Fen index become free. -/
  | fenEnd (hid : Nat) (idx : Nat)
  /-- R350: The host reads or writes HBM or a Cellar through CXL.mem; a Cellar write outside the quiet phase is not performed and is reported. -/
  | hostCxlMemAccess (pa : Nat) (wr : Bool) (val : BitVec 64)
  /-- R365: A peer module's step arrives at a Boardwalk port and is checked and performed, or refused while the household is Saved. -/
  | boardwalkPeerAccess (port : Nat) (hid : Nat) (va : Nat) (wr : Bool) (val : BitVec 64)
  /-- R301: An AtomicOp other than a CAS on TKR or LEASE completes as an unsupported request and changes nothing. -/
  | unsupportedAtomicop (off : Nat) (val : BitVec 64)
  /-- R408: The Porch's answer to a pmount, punmount, pinfo or previve writes sD, lowers the token and acknowledges ORC. -/
  | porchAnswer (id : Nat)
  /-- R442: An overflow-box entry fetched for a waiting inbx, inbx.t or hrecv arrives and is dequeued in its arrival cycle. -/
  | boxFetch (core : Nat) (ctx : Nat)
  /-- R433: A sequencer all-bank refresh ends after 665 cycles, releasing waiting accesses and the hold on banks whose rows reached TH. -/
  | allBankRefreshEnd (stack : Nat)
  /-- R435: A hot page's copy to a spare completes; the page is remapped and its held accesses are released. -/
  | migrationDone (page : Nat)
deriving DecidableEq, Repr

end Sys2Proof
end

