-- ==== Sys2Proof/WellFormed.lean ====
section
/-! DEFINITION. Which terms of Instr are instructions of the hardware (R83, R91): the checks on field
values that the encoding's widths leave open. The rows without an encoding have no word that could be ill formed. -/
namespace Sys2Proof

/-- Type codes 0 to 7 of R82: the integer types. -/
def isIntType (t : BitVec 4) : Bool := t.toNat < 8
/-- Codes 2, 6 and 8: `.i32`, `.n32`, `.f32` (R200). -/
def isVArithType (t : BitVec 4) : Bool := t == 2 || t == 6 || t == 8
/-- Codes 2 and 6 (R200). -/
def isVBitType (t : BitVec 4) : Bool := t == 2 || t == 6
/-- cc takes 0 to 5 (R83). -/
def ccOk (c : BitVec 3) : Bool := c.toNat ≤ 5
/-- Td of `fcvt`: codes 0 to 12 (R100). -/
def fcvtTdOk (t : BitVec 4) : Bool := t.toNat ≤ 12
/-- Ts of `fcvt`: codes 0 to 13 and 15 (R100). -/
def fcvtTsOk (t : BitVec 4) : Bool := t != 14
/-- Ts and Td of `vcvt`: every code but 3, 7 and 14 (R200). -/
def vcvtTypeOk (t : BitVec 4) : Bool := t != 3 && t != 7 && t != 14
/-- T of `vsplat`: every code except 3, 7 and 14 (R200). -/
def vsplatTypeOk (t : BitVec 4) : Bool := t != 3 && t != 7 && t != 14
/-- op of `vred`: 0 to 2 with codes 2, 6, 8; 3 to 5 with codes 2, 6 (R83, R200, R209). -/
def vredOk (o : BitVec 3) (t : BitVec 4) : Bool :=
  (o.toNat ≤ 2 && isVArithType t) || (3 ≤ o.toNat && o.toNat ≤ 5 && isVBitType t)
/-- The origins of R118 for each shape. -/
def gangOriginOk (shape ox oy : BitVec 2) : Bool :=
  match shape.toNat with
  | 0 => ox == 0 || ox == 2
  | 1 => (ox == 0 || ox == 2) && (oy == 0 || oy == 2)
  | 2 => ox == 0
  | _ => ox == 0 && oy == 0
/-- The numbers that the control-register map assigns (R126). -/
def cregAssigned (c : BitVec 12) : Bool :=
  c.toNat ≤ 8 || (0x10 ≤ c.toNat && c.toNat ≤ 0x12) || c == 0x18 || c == 0x19 ||
    (0x20 ≤ c.toNat && c.toNat ≤ 0x23) || c == 0x30
/-- Opcodes 0x7C to 0x7E of either map (R90). -/
def reservedNopOpcode (op : BitVec 7) : Bool := 0x7C ≤ op.toNat && op.toNat ≤ 0x7E

/-- Well-formed: every field holds a value that R83, R91 and the instruction's own rule allow. -/
def Instr.wf (i : Instr) : Bool :=
  match i with
  | .dly _ c => c != 0
  | .gang _ hh x y => gangOriginOk hh x y
  | .spawn _ _ _ _ q => q.toNat ≤ 4
  | .getc _ _ c => cregAssigned c
  | .setc _ _ c => cregAssigned c
  | .fenceAcq _ sl => sl.toNat ≤ 6
  | .fenceRel _ sl => sl.toNat ≤ 6
  | .fenceAr _ sl => sl.toNat ≤ 6
  | .ctap _ _ _ _ f => f.toNat ≤ 3
  | .add _ _ _ t => isIntType t
  | .sub _ _ _ t => isIntType t
  | .mul _ _ _ t => isIntType t
  | .mulh _ _ _ t => isIntType t
  | .div _ _ _ t => isIntType t
  | .rem _ _ _ t => isIntType t
  | .and _ _ _ t => isIntType t
  | .or _ _ _ t => isIntType t
  | .xor _ _ _ t => isIntType t
  | .shl _ _ _ t => isIntType t
  | .shr _ _ _ t => isIntType t
  | .sra _ _ _ t => isIntType t
  | .min _ _ _ t => isIntType t
  | .max _ _ _ t => isIntType t
  | .cmp _ c _ _ t => ccOk c && t.toNat ≤ 8
  | .clz _ _ t => isIntType t
  | .popc _ _ t => isIntType t
  | .cmpI _ c _ t _ => ccOk c && isIntType t
  | .fcvt _ _ x y => fcvtTdOk x && fcvtTsOk y
  | .vadd _ _ _ t _ => isVArithType t
  | .vsub _ _ _ t _ => isVArithType t
  | .vmul _ _ _ t _ => isVArithType t
  | .vfma _ _ _ t _ => t == 8
  | .vfms _ _ _ t _ => t == 8
  | .vmin _ _ _ t _ => isVArithType t
  | .vmax _ _ _ t _ => isVArithType t
  | .vand _ _ _ t _ => isVBitType t
  | .vor _ _ _ t _ => isVBitType t
  | .vxor _ _ _ t _ => isVBitType t
  | .vshl _ _ _ t _ => isVBitType t
  | .vshr _ _ _ t _ => isVBitType t
  | .vclamp _ _ _ t _ => isVArithType t
  | .vperm _ _ _ t _ => isVBitType t
  | .vsel _ _ _ t _ => isVBitType t
  | .vcmp _ c _ _ t _ => ccOk c && isVArithType t
  | .vabs _ _ t _ => t == 2 || t == 8
  | .vneg _ _ t _ => t == 2 || t == 8
  | .vrcp _ _ t _ => t == 8
  | .vrsqrt _ _ t _ => t == 8
  | .vexp2 _ _ t _ => t == 8
  | .vlog2 _ _ t _ => t == 8
  | .vcvt _ _ x y _ => vcvtTypeOk x && vcvtTypeOk y
  | .vred _ _ o t _ => vredOk o t
  | .vsplat _ _ t _ => vsplatTypeOk t
  | .vaddS _ _ _ t _ => isVArithType t
  | .vsubS _ _ _ t _ => isVArithType t
  | .vmulS _ _ _ t _ => isVArithType t
  | .vfmaS _ _ _ t _ => t == 8
  | .vfmsS _ _ _ t _ => t == 8
  | .vminS _ _ _ t _ => isVArithType t
  | .vmaxS _ _ _ t _ => isVArithType t
  | .vandS _ _ _ t _ => isVBitType t
  | .vorS _ _ _ t _ => isVBitType t
  | .vxorS _ _ _ t _ => isVBitType t
  | .vshlS _ _ _ t _ => isVBitType t
  | .vshrS _ _ _ t _ => isVBitType t
  | .vcmpS _ c _ _ t _ => ccOk c && isVArithType t
  | .nop _ => true
  | .yield _ => true
  | .halt _ => true
  | .ret _ => true
  | .eret _ => true
  | .gsplit _ => true
  | .sync _ => true
  | .syncT _ _ _ => true
  | .kwait _ _ _ => true
  | .ktst _ _ _ => true
  | .rbRec _ _ => true
  | .rbRun _ _ _ => true
  | .brT _ _ _ => true
  | .brF _ _ _ => true
  | .brAny _ _ _ => true
  | .brNone _ _ _ => true
  | .jmp _ _ => true
  | .call _ _ => true
  | .jal _ _ _ => true
  | .jr _ _ => true
  | .trap _ _ => true
  | .sig _ _ _ => true
  | .gts _ _ => true
  | .tmark _ _ _ => true
  | .ewait _ _ _ => true
  | .esig _ _ _ => true
  | .ldb _ _ _ _ => true
  | .ldbN _ _ _ _ => true
  | .ldh _ _ _ _ => true
  | .ldhN _ _ _ _ => true
  | .ldw _ _ _ _ => true
  | .ldwN _ _ _ _ => true
  | .ldd _ _ _ _ => true
  | .stb _ _ _ _ => true
  | .sth _ _ _ _ => true
  | .stw _ _ _ _ => true
  | .std _ _ _ _ => true
  | .take _ _ _ _ => true
  | .give _ _ _ _ => true
  | .feSet _ _ _ _ => true
  | .ldbX _ _ _ _ => true
  | .ldbNX _ _ _ _ => true
  | .ldhX _ _ _ _ => true
  | .ldhNX _ _ _ _ => true
  | .ldwX _ _ _ _ => true
  | .ldwNX _ _ _ _ => true
  | .lddX _ _ _ _ => true
  | .stbX _ _ _ _ => true
  | .sthX _ _ _ _ => true
  | .stwX _ _ _ _ => true
  | .stdX _ _ _ _ => true
  | .ldv _ _ _ _ => true
  | .stv _ _ _ _ => true
  | .ldvs _ _ _ _ => true
  | .ldvx _ _ _ _ => true
  | .stvx _ _ _ _ => true
  | .alb _ _ => true
  | .ale _ => true
  | .inbx _ _ => true
  | .inbxT _ _ _ _ => true
  | .amoAdd _ _ _ _ _ _ => true
  | .amoMin _ _ _ _ _ _ => true
  | .amoMax _ _ _ _ _ _ => true
  | .amoAnd _ _ _ _ _ _ => true
  | .amoOr _ _ _ _ _ _ => true
  | .amoXor _ _ _ _ _ _ => true
  | .amoSwp _ _ _ _ _ _ => true
  | .amoCas _ _ _ _ _ _ => true
  | .redAdd _ _ _ _ _ => true
  | .redMin _ _ _ _ _ => true
  | .redMax _ _ _ _ _ => true
  | .redAnd _ _ _ _ _ => true
  | .redOr _ _ _ _ _ => true
  | .redXor _ _ _ _ _ => true
  | .msend _ _ _ _ => true
  | .mxq _ _ _ => true
  | .mma _ _ _ _ _ => true
  | .mzero _ _ => true
  | .mrd _ _ _ _ _ => true
  | .mldB _ _ _ _ _ => true
  | .pmount _ _ _ _ => true
  | .punmount _ _ => true
  | .pinfo _ _ _ => true
  | .cadd _ _ _ _ => true
  | .caddTile _ _ _ _ => true
  | .cscrub _ _ _ => true
  | .cspill _ _ _ _ _ => true
  | .cfill _ _ _ _ _ => true
  | .cinfo _ _ _ => true
  | .previve _ _ _ _ => true
  | .hnew _ _ _ _ => true
  | .hmov _ _ _ => true
  | .hsplit _ _ _ _ _ _ => true
  | .hjoin _ _ _ _ _ => true
  | .hsend _ _ _ => true
  | .hrecv _ _ => true
  | .hinfo _ _ _ _ => true
  | .hfree _ _ => true
  | .hldv _ _ _ _ => true
  | .hstv _ _ _ _ => true
  | .sget _ _ _ => true
  | .sput _ _ _ => true
  | .sgat _ _ _ => true
  | .sred _ _ _ => true
  | .scol _ _ _ => true
  | .pinit _ _ => true
  | .pres _ _ _ => true
  | .pcmt _ _ => true
  | .pacq _ _ _ => true
  | .prel _ _ => true
  | .aNop => true
  | .sel _ _ _ _ => true
  | .lih _ _ => true
  | .adr _ _ _ => true
  | .andI _ _ _ => true
  | .orI _ _ _ => true
  | .xorI _ _ _ => true
  | .shlI _ _ _ => true
  | .shrI _ _ _ => true
  | .sraI _ _ _ => true
  | .minI _ _ _ => true
  | .maxI _ _ _ => true
  | .faddF32 _ _ _ => true
  | .fmulF32 _ _ _ => true
  | .ffmaF32 _ _ _ _ => true
  | .pset _ _ => true
  | .pand _ _ _ => true
  | .por _ _ _ => true
  | .pnot _ _ => true
  | .vdotI8 _ _ _ _ => true
  | .vbcast _ _ _ _ => true
  | .vext _ _ _ => true
  | .vins _ _ _ => true
  | .cReservedNop _ op _ => reservedNopOpcode op
  | .aReservedNop op _ => reservedNopOpcode op
  | .replayedPair => true
  | .lateTrap => true
  | .upcall => true
  | .helperRetire _ _ => true
  | .taskEnd _ => true
  | .phaseComplete _ _ _ => true
  | .syncTLimit _ _ => true
  | .planEntry _ _ => true
  | .remoteRequestPerform _ => true
  | .takeRetry _ => true
  | .replyReceive _ => true
  | .requestAck _ => true
  | .refusalReceive _ => true
  | .predictorDecay _ _ => true
  | .esigAdd _ => true
  | .ewaitAnswer _ _ => true
  | .msendDepart _ => true
  | .entryPlace _ => true
  | .inbxTLimit _ _ => true
  | .boxWrite _ => true
  | .boxMoveBack _ => true
  | .stallTimeout _ => true
  | .matrixCommandStart _ => true
  | .matrixCommit _ => true
  | .mldBStart _ => true
  | .mldBDone _ => true
  | .cisternAddPath _ => true
  | .cisternTapPath _ => true
  | .scrubEnd _ _ => true
  | .spillComplete _ _ => true
  | .fillComplete _ _ => true
  | .hsendDepart _ => true
  | .hjoinComplete _ _ _ => true
  | .hfreeComplete _ _ => true
  | .streamerAccept _ => true
  | .streamerStep _ => true
  | .streamerComplete _ => true
  | .pantryCommit _ => true
  | .collectiveRun _ _ => true
  | .registerWrite _ _ => true
  | .tkrCas _ _ _ => true
  | .cmt _ _ => true
  | .cancel _ _ => true
  | .schedulerTick => true
  | .coreLoadAck _ _ _ => true
  | .groupStart _ _ => true
  | .taskEndReport _ => true
  | .groupFree _ _ => true
  | .recordWrite _ _ => true
  | .recordRetry _ _ => true
  | .ringHeadWrite _ _ _ => true
  | .swcmdSave _ _ => true
  | .swcmdRestore _ _ => true
  | .swcmdDisarm _ _ => true
  | .switchStop _ => true
  | .sluiceClose _ => true
  | .saveComplete _ => true
  | .restoreResume _ => true
  | .reinject _ => true
  | .stubForward _ => true
  | .stubCorrection _ => true
  | .pasidTeardown _ => true
  | .hostResponseDiscard _ => true
  | .waitArm _ _ => true
  | .watchRead _ => true
  | .watchYield _ => true
  | .pageResponse _ => true
  | .tdiStateChange _ _ => true
  | .tinv _ _ => true
  | .tinvComplete _ => true
  | .gtsJoin _ => true
  | .gtsCorrect _ => true
  | .leaseCas _ _ => true
  | .coldReset => true
  | .firstStageBoot _ => true
  | .getMeasurements => true
  | .hostPortTrain _ => true
  | .kill _ _ => true
  | .warmReset => true
  | .killStop _ => true
  | .peatAllocate _ => true
  | .peatFormed _ => true
  | .pwrel _ => true
  | .reviveResume _ _ => true
  | .sramUe _ _ _ => true
  | .patrolScrub _ => true
  | .flitReceive _ _ _ => true
  | .nakReplay _ _ => true
  | .retrainEnd _ _ => true
  | .eventRecordWrite => true
  | .rowActivate _ => true
  | .backoffEnd _ => true
  | .rowClose _ => true
  | .refreshWindow _ => true
  | .bankRefresh _ => true
  | .heartbeat _ => true
  | .refreshTakeover _ => true
  | .sequencerRefresh _ => true
  | .refreshHandback _ => true
  | .pageMigrate _ => true
  | .sensorRead _ _ => true
  | .routerReceive _ => true
  | .orderRestoreDeliver _ => true
  | .securityAlarm _ => true
  | .alarmAction _ => true
  | .signatureCheck _ _ => true
  | .dbgunlk _ _ => true
  | .debugStop _ => true
  | .debugStopTake _ => true
  | .debugRun _ => true
  | .debugStep _ _ => true
  | .debugSnapshot _ => true
  | .snapshotDone _ => true
  | .traceGtsTrigger _ => true
  | .droopDetect _ _ _ => true
  | .molHeadReread _ _ => true
  | .illegalOpcode _ _ => true
  | .fetchTrap => true
  | .householdCreate _ _ _ _ _ => true
  | .householdDestroy _ => true
  | .fenCreate _ _ _ _ _ => true
  | .fenEnd _ _ => true
  | .hostCxlMemAccess _ _ _ => true
  | .boardwalkPeerAccess _ _ _ _ _ => true
  | .unsupportedAtomicop _ _ => true
  | .porchAnswer _ => true
  | .boxFetch _ _ => true
  | .allBankRefreshEnd _ => true
  | .migrationDone _ => true

end Sys2Proof
end

