-- ==== Sys2Proof/Decode.lean ====
section
/-! DEFINITION. The decoder, total on any word and any bytes, and the encoder, both written from R71, R75, R78 and R84 to R91. -/
namespace Sys2Proof

/-- Why a word is no instruction. -/
inductive DecodeError where
  /-- An opcode of R89. -/
  | illegalOpcode
  /-- A range that R85 or R87 marks 0 is not zero, or a field holds a value that R91 forbids. -/
  | illegalField
  /-- Fewer bytes than the word or the pair needs. -/
  | truncated
  /-- L = 0 at a multiple of 8 plus 4, or an address that is no multiple of 4 (R71, R72). -/
  | misalignedPair
deriving DecidableEq, Repr

/-- n bits of w from bit lo up. -/
abbrev fld (w : BitVec 32) (lo n : Nat) : BitVec n := w.extractLsb' lo n

/-- The head of a C-slot word (R75). -/
def decodeHead (w : BitVec 32) : CHead :=
  CHead.mk (fld w 31 1 == 1) (fld w 27 4) (fld w 25 2)

/-- A word's instruction if its zero ranges are zero and its fields are legal (R91). -/
def checked (zeros : Bool) (i : Instr) : Except DecodeError Instr :=
  if zeros && i.wf then .ok i else .error .illegalField

/-- The C-slot map (R84, R85): what an opcode makes of a word. -/
def decodeCOp (op : Nat) (w : BitVec 32) : Except DecodeError Instr :=
  let hd := decodeHead w
  match op with
  | 0x1 => checked (fld w 0 18 == 0) (.nop hd)
  | 0x2 => checked (fld w 6 12 == 0) (.dly hd (fld w 0 6))
  | 0x3 => checked (fld w 0 18 == 0) (.yield hd)
  | 0x4 => checked (fld w 0 18 == 0) (.halt hd)
  | 0x5 => checked (fld w 0 18 == 0) (.ret hd)
  | 0x6 => checked (fld w 0 18 == 0) (.eret hd)
  | 0x7 => checked (fld w 0 18 == 0) (.gsplit hd)
  | 0x8 => checked (fld w 0 18 == 0) (.sync hd)
  | 0x9 => checked (fld w 0 8 == 0) (.syncT hd (fld w 13 5) (fld w 8 5))
  | 0xa => checked (fld w 0 12 == 0) (.gang hd (fld w 16 2) (fld w 14 2) (fld w 12 2))
  | 0xb => checked (fld w 0 8 == 0) (.kwait hd (fld w 14 4) (fld w 8 6))
  | 0xc => checked (fld w 0 9 == 0) (.ktst hd (fld w 13 5) (fld w 9 4))
  | 0xd => checked (true) (.spawn hd (fld w 13 5) (fld w 8 5) (fld w 3 5) (fld w 0 3))
  | 0xe => checked (fld w 4 14 == 0) (.rbRec hd (fld w 0 4))
  | 0xf => checked (fld w 0 8 == 0) (.rbRun hd (fld w 13 5) (fld w 8 5))
  | 0x10 => checked (true) (.brT hd (fld w 15 3) (fld w 0 15))
  | 0x11 => checked (true) (.brF hd (fld w 15 3) (fld w 0 15))
  | 0x12 => checked (true) (.brAny hd (fld w 15 3) (fld w 0 15))
  | 0x13 => checked (true) (.brNone hd (fld w 15 3) (fld w 0 15))
  | 0x14 => checked (true) (.jmp hd (fld w 0 18))
  | 0x15 => checked (true) (.call hd (fld w 0 18))
  | 0x16 => checked (true) (.jal hd (fld w 13 5) (fld w 0 13))
  | 0x17 => checked (fld w 0 13 == 0) (.jr hd (fld w 13 5))
  | 0x18 => checked (fld w 8 10 == 0) (.trap hd (fld w 0 8))
  | 0x19 => checked (true) (.sig hd (fld w 13 5) (fld w 0 13))
  | 0x1a => checked (fld w 12 1 == 0) (.getc hd (fld w 13 5) (fld w 0 12))
  | 0x1b => checked (fld w 12 1 == 0) (.setc hd (fld w 13 5) (fld w 0 12))
  | 0x1c => checked (fld w 0 13 == 0) (.gts hd (fld w 13 5))
  | 0x1d => checked (true) (.tmark hd (fld w 13 5) (fld w 0 13))
  | 0x1e => checked (fld w 0 8 == 0) (.ewait hd (fld w 13 5) (fld w 8 5))
  | 0x1f => checked (fld w 0 8 == 0) (.esig hd (fld w 13 5) (fld w 8 5))
  | 0x20 => checked (true) (.ldb hd (fld w 13 5) (fld w 8 5) (fld w 0 8))
  | 0x21 => checked (true) (.ldbN hd (fld w 13 5) (fld w 8 5) (fld w 0 8))
  | 0x22 => checked (true) (.ldh hd (fld w 13 5) (fld w 8 5) (fld w 0 8))
  | 0x23 => checked (true) (.ldhN hd (fld w 13 5) (fld w 8 5) (fld w 0 8))
  | 0x24 => checked (true) (.ldw hd (fld w 13 5) (fld w 8 5) (fld w 0 8))
  | 0x25 => checked (true) (.ldwN hd (fld w 13 5) (fld w 8 5) (fld w 0 8))
  | 0x26 => checked (true) (.ldd hd (fld w 13 5) (fld w 8 5) (fld w 0 8))
  | 0x28 => checked (true) (.stb hd (fld w 13 5) (fld w 8 5) (fld w 0 8))
  | 0x29 => checked (true) (.sth hd (fld w 13 5) (fld w 8 5) (fld w 0 8))
  | 0x2a => checked (true) (.stw hd (fld w 13 5) (fld w 8 5) (fld w 0 8))
  | 0x2b => checked (true) (.std hd (fld w 13 5) (fld w 8 5) (fld w 0 8))
  | 0x2c => checked (true) (.take hd (fld w 13 5) (fld w 8 5) (fld w 0 8))
  | 0x2d => checked (true) (.give hd (fld w 13 5) (fld w 8 5) (fld w 0 8))
  | 0x2e => checked (fld w 13 4 == 0) (.feSet hd (fld w 17 1) (fld w 8 5) (fld w 0 8))
  | 0x30 => checked (fld w 0 3 == 0) (.ldbX hd (fld w 13 5) (fld w 8 5) (fld w 3 5))
  | 0x31 => checked (fld w 0 3 == 0) (.ldbNX hd (fld w 13 5) (fld w 8 5) (fld w 3 5))
  | 0x32 => checked (fld w 0 3 == 0) (.ldhX hd (fld w 13 5) (fld w 8 5) (fld w 3 5))
  | 0x33 => checked (fld w 0 3 == 0) (.ldhNX hd (fld w 13 5) (fld w 8 5) (fld w 3 5))
  | 0x34 => checked (fld w 0 3 == 0) (.ldwX hd (fld w 13 5) (fld w 8 5) (fld w 3 5))
  | 0x35 => checked (fld w 0 3 == 0) (.ldwNX hd (fld w 13 5) (fld w 8 5) (fld w 3 5))
  | 0x36 => checked (fld w 0 3 == 0) (.lddX hd (fld w 13 5) (fld w 8 5) (fld w 3 5))
  | 0x38 => checked (fld w 0 3 == 0) (.stbX hd (fld w 13 5) (fld w 8 5) (fld w 3 5))
  | 0x39 => checked (fld w 0 3 == 0) (.sthX hd (fld w 13 5) (fld w 8 5) (fld w 3 5))
  | 0x3a => checked (fld w 0 3 == 0) (.stwX hd (fld w 13 5) (fld w 8 5) (fld w 3 5))
  | 0x3b => checked (fld w 0 3 == 0) (.stdX hd (fld w 13 5) (fld w 8 5) (fld w 3 5))
  | 0x3c => checked (true) (.ldv hd (fld w 12 6) (fld w 7 5) (fld w 0 7))
  | 0x3d => checked (true) (.stv hd (fld w 12 6) (fld w 7 5) (fld w 0 7))
  | 0x3e => checked (fld w 0 2 == 0) (.ldvs hd (fld w 12 6) (fld w 7 5) (fld w 2 5))
  | 0x3f => checked (fld w 0 1 == 0) (.ldvx hd (fld w 12 6) (fld w 7 5) (fld w 1 6))
  | 0x40 => checked (fld w 0 1 == 0) (.stvx hd (fld w 12 6) (fld w 7 5) (fld w 1 6))
  | 0x41 => checked (fld w 0 13 == 0) (.alb hd (fld w 13 5))
  | 0x42 => checked (fld w 0 18 == 0) (.ale hd)
  | 0x43 => checked (fld w 3 15 == 0) (.fenceAcq hd (fld w 0 3))
  | 0x44 => checked (fld w 3 15 == 0) (.fenceRel hd (fld w 0 3))
  | 0x45 => checked (fld w 3 15 == 0) (.fenceAr hd (fld w 0 3))
  | 0x46 => checked (fld w 0 12 == 0) (.inbx hd (fld w 12 6))
  | 0x47 => checked (fld w 0 2 == 0) (.inbxT hd (fld w 12 6) (fld w 7 5) (fld w 2 5))
  | 0x48 => checked (true) (.amoAdd hd (fld w 13 5) (fld w 8 5) (fld w 3 5) (fld w 1 2) (fld w 0 1))
  | 0x49 => checked (true) (.amoMin hd (fld w 13 5) (fld w 8 5) (fld w 3 5) (fld w 1 2) (fld w 0 1))
  | 0x4a => checked (true) (.amoMax hd (fld w 13 5) (fld w 8 5) (fld w 3 5) (fld w 1 2) (fld w 0 1))
  | 0x4b => checked (true) (.amoAnd hd (fld w 13 5) (fld w 8 5) (fld w 3 5) (fld w 1 2) (fld w 0 1))
  | 0x4c => checked (true) (.amoOr hd (fld w 13 5) (fld w 8 5) (fld w 3 5) (fld w 1 2) (fld w 0 1))
  | 0x4d => checked (true) (.amoXor hd (fld w 13 5) (fld w 8 5) (fld w 3 5) (fld w 1 2) (fld w 0 1))
  | 0x4e => checked (true) (.amoSwp hd (fld w 13 5) (fld w 8 5) (fld w 3 5) (fld w 1 2) (fld w 0 1))
  | 0x4f => checked (true) (.amoCas hd (fld w 13 5) (fld w 8 5) (fld w 3 5) (fld w 1 2) (fld w 0 1))
  | 0x50 => checked (fld w 13 5 == 0) (.redAdd hd (fld w 8 5) (fld w 3 5) (fld w 1 2) (fld w 0 1))
  | 0x51 => checked (fld w 13 5 == 0) (.redMin hd (fld w 8 5) (fld w 3 5) (fld w 1 2) (fld w 0 1))
  | 0x52 => checked (fld w 13 5 == 0) (.redMax hd (fld w 8 5) (fld w 3 5) (fld w 1 2) (fld w 0 1))
  | 0x53 => checked (fld w 13 5 == 0) (.redAnd hd (fld w 8 5) (fld w 3 5) (fld w 1 2) (fld w 0 1))
  | 0x54 => checked (fld w 13 5 == 0) (.redOr hd (fld w 8 5) (fld w 3 5) (fld w 1 2) (fld w 0 1))
  | 0x55 => checked (fld w 13 5 == 0) (.redXor hd (fld w 8 5) (fld w 3 5) (fld w 1 2) (fld w 0 1))
  | 0x56 => checked (fld w 0 3 == 0) (.msend hd (fld w 13 5) (fld w 7 6) (fld w 3 4))
  | 0x58 => checked (fld w 0 9 == 0) (.mxq hd (fld w 13 5) (fld w 9 4))
  | 0x59 => checked (fld w 0 1 == 0) (.mma hd (fld w 15 3) (fld w 10 5) (fld w 5 5) (fld w 1 4))
  | 0x5a => checked (fld w 0 15 == 0) (.mzero hd (fld w 15 3))
  | 0x5b => checked (true) (.mrd hd (fld w 12 6) (fld w 9 3) (fld w 4 5) (fld w 0 4))
  | 0x5c => checked (true) (.mldB hd (fld w 13 5) (fld w 8 5) (fld w 4 4) (fld w 0 4))
  | 0x5d => checked (fld w 0 4 == 0) (.pmount hd (fld w 13 5) (fld w 8 5) (fld w 4 4))
  | 0x5e => checked (fld w 0 8 == 0 && fld w 13 5 == 0) (.punmount hd (fld w 8 5))
  | 0x5f => checked (fld w 0 8 == 0) (.pinfo hd (fld w 13 5) (fld w 8 5))
  | 0x60 =>
    if fld w 0 3 == 1 then checked (fld w 7 3 == 0) (.caddTile hd (fld w 13 5) (fld w 10 3) (fld w 3 4))
    else checked (fld w 0 3 == 0) (.cadd hd (fld w 13 5) (fld w 7 6) (fld w 3 4))
  | 0x61 => checked (true) (.ctap hd (fld w 12 6) (fld w 7 5) (fld w 3 4) (fld w 0 3))
  | 0x62 => checked (fld w 0 9 == 0) (.cscrub hd (fld w 13 5) (fld w 9 4))
  | 0x63 => checked (fld w 0 3 == 0) (.cspill hd (fld w 13 5) (fld w 8 5) (fld w 4 4) (fld w 3 1))
  | 0x64 => checked (fld w 0 3 == 0) (.cfill hd (fld w 13 5) (fld w 8 5) (fld w 4 4) (fld w 3 1))
  | 0x65 => checked (fld w 0 8 == 0) (.cinfo hd (fld w 13 5) (fld w 8 5))
  | 0x66 => checked (fld w 0 4 == 0) (.previve hd (fld w 13 5) (fld w 8 5) (fld w 4 4))
  | 0x68 => checked (fld w 0 4 == 0) (.hnew hd (fld w 14 4) (fld w 9 5) (fld w 4 5))
  | 0x69 => checked (fld w 0 10 == 0) (.hmov hd (fld w 14 4) (fld w 10 4))
  | 0x6a => checked (true) (.hsplit hd (fld w 16 2) (fld w 12 4) (fld w 8 4) (fld w 4 4) (fld w 0 4))
  | 0x6b => checked (fld w 0 2 == 0) (.hjoin hd (fld w 14 4) (fld w 10 4) (fld w 6 4) (fld w 2 4))
  | 0x6c => checked (fld w 0 9 == 0) (.hsend hd (fld w 14 4) (fld w 9 5))
  | 0x6d => checked (fld w 0 14 == 0) (.hrecv hd (fld w 14 4))
  | 0x6e => checked (fld w 0 6 == 0) (.hinfo hd (fld w 13 5) (fld w 9 4) (fld w 6 3))
  | 0x6f => checked (fld w 0 14 == 0) (.hfree hd (fld w 14 4))
  | 0x70 => checked (fld w 0 3 == 0) (.hldv hd (fld w 12 6) (fld w 8 4) (fld w 3 5))
  | 0x71 => checked (fld w 0 3 == 0) (.hstv hd (fld w 12 6) (fld w 8 4) (fld w 3 5))
  | 0x72 => checked (fld w 0 9 == 0) (.sget hd (fld w 13 5) (fld w 9 4))
  | 0x73 => checked (fld w 0 9 == 0) (.sput hd (fld w 13 5) (fld w 9 4))
  | 0x74 => checked (fld w 0 9 == 0) (.sgat hd (fld w 13 5) (fld w 9 4))
  | 0x75 => checked (fld w 0 9 == 0) (.sred hd (fld w 13 5) (fld w 9 4))
  | 0x76 => checked (fld w 0 9 == 0) (.scol hd (fld w 13 5) (fld w 9 4))
  | 0x77 => checked (fld w 0 8 == 0 && fld w 13 5 == 0) (.pinit hd (fld w 8 5))
  | 0x78 => checked (fld w 0 8 == 0) (.pres hd (fld w 13 5) (fld w 8 5))
  | 0x79 => checked (fld w 0 8 == 0 && fld w 13 5 == 0) (.pcmt hd (fld w 8 5))
  | 0x7a => checked (fld w 0 8 == 0) (.pacq hd (fld w 13 5) (fld w 8 5))
  | 0x7b => checked (fld w 0 8 == 0 && fld w 13 5 == 0) (.prel hd (fld w 8 5))
  | 0x7c => .ok (.cReservedNop hd (fld w 18 7) (fld w 0 18))
  | 0x7d => .ok (.cReservedNop hd (fld w 18 7) (fld w 0 18))
  | 0x7e => .ok (.cReservedNop hd (fld w 18 7) (fld w 0 18))
  | _ => .error .illegalOpcode

/-- The instruction of a C-slot word (R75). -/
def decodeC (w : BitVec 32) : Except DecodeError Instr := decodeCOp (fld w 18 7).toNat w

/-- The A-slot map (R86, R87): what an opcode makes of a word. -/
def decodeAOp (op : Nat) (w : BitVec 32) : Except DecodeError Instr :=
  match op with
  | 0x1 => checked (fld w 0 25 == 0) .aNop
  | 0x2 => checked (fld w 0 6 == 0) (.add (fld w 20 5) (fld w 15 5) (fld w 10 5) (fld w 6 4))
  | 0x3 => checked (fld w 0 6 == 0) (.sub (fld w 20 5) (fld w 15 5) (fld w 10 5) (fld w 6 4))
  | 0x4 => checked (fld w 0 6 == 0) (.mul (fld w 20 5) (fld w 15 5) (fld w 10 5) (fld w 6 4))
  | 0x5 => checked (fld w 0 6 == 0) (.mulh (fld w 20 5) (fld w 15 5) (fld w 10 5) (fld w 6 4))
  | 0x6 => checked (fld w 0 6 == 0) (.div (fld w 20 5) (fld w 15 5) (fld w 10 5) (fld w 6 4))
  | 0x7 => checked (fld w 0 6 == 0) (.rem (fld w 20 5) (fld w 15 5) (fld w 10 5) (fld w 6 4))
  | 0x8 => checked (fld w 0 6 == 0) (.and (fld w 20 5) (fld w 15 5) (fld w 10 5) (fld w 6 4))
  | 0x9 => checked (fld w 0 6 == 0) (.or (fld w 20 5) (fld w 15 5) (fld w 10 5) (fld w 6 4))
  | 0xa => checked (fld w 0 6 == 0) (.xor (fld w 20 5) (fld w 15 5) (fld w 10 5) (fld w 6 4))
  | 0xb => checked (fld w 0 6 == 0) (.shl (fld w 20 5) (fld w 15 5) (fld w 10 5) (fld w 6 4))
  | 0xc => checked (fld w 0 6 == 0) (.shr (fld w 20 5) (fld w 15 5) (fld w 10 5) (fld w 6 4))
  | 0xd => checked (fld w 0 6 == 0) (.sra (fld w 20 5) (fld w 15 5) (fld w 10 5) (fld w 6 4))
  | 0xe => checked (fld w 0 6 == 0) (.min (fld w 20 5) (fld w 15 5) (fld w 10 5) (fld w 6 4))
  | 0xf => checked (fld w 0 6 == 0) (.max (fld w 20 5) (fld w 15 5) (fld w 10 5) (fld w 6 4))
  | 0x10 => checked (fld w 0 5 == 0) (.cmp (fld w 22 3) (fld w 19 3) (fld w 14 5) (fld w 9 5) (fld w 5 4))
  | 0x11 => checked (fld w 0 7 == 0) (.sel (fld w 20 5) (fld w 15 5) (fld w 10 5) (fld w 7 3))
  | 0x12 => checked (fld w 0 6 == 0 && fld w 10 5 == 0) (.clz (fld w 20 5) (fld w 15 5) (fld w 6 4))
  | 0x13 => checked (fld w 0 6 == 0 && fld w 10 5 == 0) (.popc (fld w 20 5) (fld w 15 5) (fld w 6 4))
  | 0x14 => checked (true) (.lih (fld w 20 5) (fld w 0 20))
  | 0x15 => checked (true) (.adr (fld w 20 5) (fld w 15 5) (fld w 0 15))
  | 0x18 => checked (true) (.andI (fld w 20 5) (fld w 15 5) (fld w 0 15))
  | 0x19 => checked (true) (.orI (fld w 20 5) (fld w 15 5) (fld w 0 15))
  | 0x1a => checked (true) (.xorI (fld w 20 5) (fld w 15 5) (fld w 0 15))
  | 0x1b => checked (fld w 6 9 == 0) (.shlI (fld w 20 5) (fld w 15 5) (fld w 0 6))
  | 0x1c => checked (fld w 6 9 == 0) (.shrI (fld w 20 5) (fld w 15 5) (fld w 0 6))
  | 0x1d => checked (fld w 6 9 == 0) (.sraI (fld w 20 5) (fld w 15 5) (fld w 0 6))
  | 0x1e => checked (true) (.minI (fld w 20 5) (fld w 15 5) (fld w 0 15))
  | 0x1f => checked (true) (.maxI (fld w 20 5) (fld w 15 5) (fld w 0 15))
  | 0x20 => checked (true) (.cmpI (fld w 22 3) (fld w 19 3) (fld w 14 5) (fld w 10 4) (fld w 0 10))
  | 0x21 => checked (fld w 0 10 == 0) (.faddF32 (fld w 20 5) (fld w 15 5) (fld w 10 5))
  | 0x22 => checked (fld w 0 10 == 0) (.fmulF32 (fld w 20 5) (fld w 15 5) (fld w 10 5))
  | 0x23 => checked (fld w 0 5 == 0) (.ffmaF32 (fld w 20 5) (fld w 15 5) (fld w 10 5) (fld w 5 5))
  | 0x24 => checked (fld w 0 7 == 0) (.fcvt (fld w 20 5) (fld w 15 5) (fld w 11 4) (fld w 7 4))
  | 0x28 => checked (fld w 0 17 == 0) (.pset (fld w 22 3) (fld w 17 5))
  | 0x29 => checked (fld w 0 16 == 0) (.pand (fld w 22 3) (fld w 19 3) (fld w 16 3))
  | 0x2a => checked (fld w 0 16 == 0) (.por (fld w 22 3) (fld w 19 3) (fld w 16 3))
  | 0x2b => checked (fld w 0 19 == 0) (.pnot (fld w 22 3) (fld w 19 3))
  | 0x30 => checked (true) (.vadd (fld w 19 6) (fld w 13 6) (fld w 7 6) (fld w 3 4) (fld w 0 3))
  | 0x31 => checked (true) (.vsub (fld w 19 6) (fld w 13 6) (fld w 7 6) (fld w 3 4) (fld w 0 3))
  | 0x32 => checked (true) (.vmul (fld w 19 6) (fld w 13 6) (fld w 7 6) (fld w 3 4) (fld w 0 3))
  | 0x33 => checked (true) (.vfma (fld w 19 6) (fld w 13 6) (fld w 7 6) (fld w 3 4) (fld w 0 3))
  | 0x34 => checked (true) (.vfms (fld w 19 6) (fld w 13 6) (fld w 7 6) (fld w 3 4) (fld w 0 3))
  | 0x35 => checked (true) (.vmin (fld w 19 6) (fld w 13 6) (fld w 7 6) (fld w 3 4) (fld w 0 3))
  | 0x36 => checked (true) (.vmax (fld w 19 6) (fld w 13 6) (fld w 7 6) (fld w 3 4) (fld w 0 3))
  | 0x37 => checked (true) (.vand (fld w 19 6) (fld w 13 6) (fld w 7 6) (fld w 3 4) (fld w 0 3))
  | 0x38 => checked (true) (.vor (fld w 19 6) (fld w 13 6) (fld w 7 6) (fld w 3 4) (fld w 0 3))
  | 0x39 => checked (true) (.vxor (fld w 19 6) (fld w 13 6) (fld w 7 6) (fld w 3 4) (fld w 0 3))
  | 0x3a => checked (true) (.vshl (fld w 19 6) (fld w 13 6) (fld w 7 6) (fld w 3 4) (fld w 0 3))
  | 0x3b => checked (true) (.vshr (fld w 19 6) (fld w 13 6) (fld w 7 6) (fld w 3 4) (fld w 0 3))
  | 0x3c => checked (true) (.vclamp (fld w 19 6) (fld w 13 6) (fld w 7 6) (fld w 3 4) (fld w 0 3))
  | 0x3d => checked (true) (.vperm (fld w 19 6) (fld w 13 6) (fld w 7 6) (fld w 3 4) (fld w 0 3))
  | 0x3e => checked (fld w 3 4 == 0) (.vdotI8 (fld w 19 6) (fld w 13 6) (fld w 7 6) (fld w 0 3))
  | 0x3f => checked (true) (.vsel (fld w 19 6) (fld w 13 6) (fld w 7 6) (fld w 3 4) (fld w 0 3))
  | 0x40 => checked (true) (.vcmp (fld w 22 3) (fld w 19 3) (fld w 13 6) (fld w 7 6) (fld w 3 4) (fld w 0 3))
  | 0x41 => checked (fld w 7 6 == 0) (.vabs (fld w 19 6) (fld w 13 6) (fld w 3 4) (fld w 0 3))
  | 0x42 => checked (fld w 7 6 == 0) (.vneg (fld w 19 6) (fld w 13 6) (fld w 3 4) (fld w 0 3))
  | 0x43 => checked (fld w 7 6 == 0) (.vrcp (fld w 19 6) (fld w 13 6) (fld w 3 4) (fld w 0 3))
  | 0x44 => checked (fld w 7 6 == 0) (.vrsqrt (fld w 19 6) (fld w 13 6) (fld w 3 4) (fld w 0 3))
  | 0x45 => checked (fld w 7 6 == 0) (.vexp2 (fld w 19 6) (fld w 13 6) (fld w 3 4) (fld w 0 3))
  | 0x46 => checked (fld w 7 6 == 0) (.vlog2 (fld w 19 6) (fld w 13 6) (fld w 3 4) (fld w 0 3))
  | 0x47 => checked (fld w 3 2 == 0) (.vcvt (fld w 19 6) (fld w 13 6) (fld w 9 4) (fld w 5 4) (fld w 0 3))
  | 0x48 => checked (fld w 7 3 == 0) (.vred (fld w 19 6) (fld w 13 6) (fld w 10 3) (fld w 3 4) (fld w 0 3))
  | 0x49 => checked (fld w 3 5 == 0) (.vbcast (fld w 19 6) (fld w 13 6) (fld w 8 5) (fld w 0 3))
  | 0x4a => checked (fld w 7 7 == 0) (.vsplat (fld w 19 6) (fld w 14 5) (fld w 3 4) (fld w 0 3))
  | 0x4b => checked (fld w 0 9 == 0) (.vext (fld w 20 5) (fld w 14 6) (fld w 9 5))
  | 0x4c => checked (fld w 0 9 == 0) (.vins (fld w 19 6) (fld w 14 5) (fld w 9 5))
  | 0x50 => checked (fld w 7 1 == 0) (.vaddS (fld w 19 6) (fld w 13 6) (fld w 8 5) (fld w 3 4) (fld w 0 3))
  | 0x51 => checked (fld w 7 1 == 0) (.vsubS (fld w 19 6) (fld w 13 6) (fld w 8 5) (fld w 3 4) (fld w 0 3))
  | 0x52 => checked (fld w 7 1 == 0) (.vmulS (fld w 19 6) (fld w 13 6) (fld w 8 5) (fld w 3 4) (fld w 0 3))
  | 0x53 => checked (fld w 7 1 == 0) (.vfmaS (fld w 19 6) (fld w 13 6) (fld w 8 5) (fld w 3 4) (fld w 0 3))
  | 0x54 => checked (fld w 7 1 == 0) (.vfmsS (fld w 19 6) (fld w 13 6) (fld w 8 5) (fld w 3 4) (fld w 0 3))
  | 0x55 => checked (fld w 7 1 == 0) (.vminS (fld w 19 6) (fld w 13 6) (fld w 8 5) (fld w 3 4) (fld w 0 3))
  | 0x56 => checked (fld w 7 1 == 0) (.vmaxS (fld w 19 6) (fld w 13 6) (fld w 8 5) (fld w 3 4) (fld w 0 3))
  | 0x57 => checked (fld w 7 1 == 0) (.vandS (fld w 19 6) (fld w 13 6) (fld w 8 5) (fld w 3 4) (fld w 0 3))
  | 0x58 => checked (fld w 7 1 == 0) (.vorS (fld w 19 6) (fld w 13 6) (fld w 8 5) (fld w 3 4) (fld w 0 3))
  | 0x59 => checked (fld w 7 1 == 0) (.vxorS (fld w 19 6) (fld w 13 6) (fld w 8 5) (fld w 3 4) (fld w 0 3))
  | 0x5a => checked (fld w 7 1 == 0) (.vshlS (fld w 19 6) (fld w 13 6) (fld w 8 5) (fld w 3 4) (fld w 0 3))
  | 0x5b => checked (fld w 7 1 == 0) (.vshrS (fld w 19 6) (fld w 13 6) (fld w 8 5) (fld w 3 4) (fld w 0 3))
  | 0x5c => checked (fld w 7 1 == 0) (.vcmpS (fld w 22 3) (fld w 19 3) (fld w 13 6) (fld w 8 5) (fld w 3 4) (fld w 0 3))
  | 0x7c => .ok (.aReservedNop (fld w 25 7) (fld w 0 25))
  | 0x7d => .ok (.aReservedNop (fld w 25 7) (fld w 0 25))
  | 0x7e => .ok (.aReservedNop (fld w 25 7) (fld w 0 25))
  | _ => .error .illegalOpcode

/-- The instruction of an A-slot word (R78). -/
def decodeA (w : BitVec 32) : Except DecodeError Instr := decodeAOp (fld w 25 7).toNat w

/-- The 32-bit word of four bytes, the first at the lowest address (R5). -/
def wordOfBytes (b0 b1 b2 b3 : Byte) : BitVec 32 := b3 ++ b2 ++ b1 ++ b0

/-- What one fetch at a C-slot position holds (R71): a lone C-slot word, or a pair. -/
structure Fetched where
  c : Instr
  a : Option Instr
deriving DecidableEq, Repr

/-- The instruction at address `addr` in a stream of bytes, and the bytes after it (R71).
The C-slot word is checked before the A-slot word (R93). -/
def decodeBytes (addr : Nat) (bs : List Byte) : Except DecodeError (Fetched × List Byte) :=
  if addr % 4 ≠ 0 then .error .misalignedPair
  else
    match bs with
    | b0 :: b1 :: b2 :: b3 :: rest =>
      let w := wordOfBytes b0 b1 b2 b3
      if fld w 31 1 == 1 then (decodeC w).map (fun c => (Fetched.mk c none, rest))
      else if addr % 8 = 4 then .error .misalignedPair
      else
        match rest with
        | c0 :: c1 :: c2 :: c3 :: rest' =>
          match decodeC w with
          | .error e => .error e
          | .ok c => (decodeA (wordOfBytes c0 c1 c2 c3)).map (fun a => (Fetched.mk c (some a), rest'))
        | _ => .error .truncated
    | _ => .error .truncated

/-- The instruction that the decoder reads from a table row's word: every row of the table is one 32-bit word,
read by the C-slot map or, where that map has no instruction for it, by the A-slot map. -/
def decodeTableWord (nbits w : Nat) : Option Instr :=
  if nbits = 32 && w < 2 ^ 32 then
    match decodeC (BitVec.ofNat 32 w) with
    | .ok i => some i
    | .error _ =>
      match decodeA (BitVec.ofNat 32 w) with
      | .ok i => some i
      | .error _ => none
  else none

/-- The head's seven bits (R75). -/
def CHead.bits (h : CHead) : BitVec 7 := BitVec.ofBool h.ln ++ h.wk ++ h.wn

/-- A C-slot word: head, opcode, operands (R75). -/
def cWord (h : CHead) (cop : BitVec 7) (ops : BitVec 18) : BitVec 32 := h.bits ++ cop ++ ops
/-- An A-slot word: opcode, operands (R78). -/
def aWord (aop : BitVec 7) (ops : BitVec 25) : BitVec 32 := aop ++ ops

/-- The word of an instruction; none for the rows without an encoding. -/
def encode (i : Instr) : Option (BitVec 32) :=
  match i with
  | .nop hd => some (cWord hd 0x1#7 (0#18))
  | .dly hd c => some (cWord hd 0x2#7 (0#12 ++ c))
  | .yield hd => some (cWord hd 0x3#7 (0#18))
  | .halt hd => some (cWord hd 0x4#7 (0#18))
  | .ret hd => some (cWord hd 0x5#7 (0#18))
  | .eret hd => some (cWord hd 0x6#7 (0#18))
  | .gsplit hd => some (cWord hd 0x7#7 (0#18))
  | .sync hd => some (cWord hd 0x8#7 (0#18))
  | .syncT hd d sl => some (cWord hd 0x9#7 (d ++ sl ++ 0#8))
  | .gang hd hh x y => some (cWord hd 0xa#7 (hh ++ x ++ y ++ 0#12))
  | .kwait hd k b => some (cWord hd 0xb#7 (k ++ b ++ 0#8))
  | .ktst hd d k => some (cWord hd 0xc#7 (d ++ k ++ 0#9))
  | .spawn hd d a b q => some (cWord hd 0xd#7 (d ++ a ++ b ++ q))
  | .rbRec hd c => some (cWord hd 0xe#7 (0#14 ++ c))
  | .rbRun hd a b => some (cWord hd 0xf#7 (a ++ b ++ 0#8))
  | .brT hd p o => some (cWord hd 0x10#7 (p ++ o))
  | .brF hd p o => some (cWord hd 0x11#7 (p ++ o))
  | .brAny hd p o => some (cWord hd 0x12#7 (p ++ o))
  | .brNone hd p o => some (cWord hd 0x13#7 (p ++ o))
  | .jmp hd o => some (cWord hd 0x14#7 (o))
  | .call hd o => some (cWord hd 0x15#7 (o))
  | .jal hd d o => some (cWord hd 0x16#7 (d ++ o))
  | .jr hd r => some (cWord hd 0x17#7 (r ++ 0#13))
  | .trap hd c => some (cWord hd 0x18#7 (0#10 ++ c))
  | .sig hd a imm => some (cWord hd 0x19#7 (a ++ imm))
  | .getc hd d c => some (cWord hd 0x1a#7 (d ++ 0#1 ++ c))
  | .setc hd a c => some (cWord hd 0x1b#7 (a ++ 0#1 ++ c))
  | .gts hd r => some (cWord hd 0x1c#7 (r ++ 0#13))
  | .tmark hd a imm => some (cWord hd 0x1d#7 (a ++ imm))
  | .ewait hd d a => some (cWord hd 0x1e#7 (d ++ a ++ 0#8))
  | .esig hd a b => some (cWord hd 0x1f#7 (a ++ b ++ 0#8))
  | .ldb hd d a o => some (cWord hd 0x20#7 (d ++ a ++ o))
  | .ldbN hd d a o => some (cWord hd 0x21#7 (d ++ a ++ o))
  | .ldh hd d a o => some (cWord hd 0x22#7 (d ++ a ++ o))
  | .ldhN hd d a o => some (cWord hd 0x23#7 (d ++ a ++ o))
  | .ldw hd d a o => some (cWord hd 0x24#7 (d ++ a ++ o))
  | .ldwN hd d a o => some (cWord hd 0x25#7 (d ++ a ++ o))
  | .ldd hd d a o => some (cWord hd 0x26#7 (d ++ a ++ o))
  | .stb hd v a o => some (cWord hd 0x28#7 (v ++ a ++ o))
  | .sth hd v a o => some (cWord hd 0x29#7 (v ++ a ++ o))
  | .stw hd v a o => some (cWord hd 0x2a#7 (v ++ a ++ o))
  | .std hd v a o => some (cWord hd 0x2b#7 (v ++ a ++ o))
  | .take hd d a o => some (cWord hd 0x2c#7 (d ++ a ++ o))
  | .give hd v a o => some (cWord hd 0x2d#7 (v ++ a ++ o))
  | .feSet hd f a o => some (cWord hd 0x2e#7 (f ++ 0#4 ++ a ++ o))
  | .ldbX hd d a b => some (cWord hd 0x30#7 (d ++ a ++ b ++ 0#3))
  | .ldbNX hd d a b => some (cWord hd 0x31#7 (d ++ a ++ b ++ 0#3))
  | .ldhX hd d a b => some (cWord hd 0x32#7 (d ++ a ++ b ++ 0#3))
  | .ldhNX hd d a b => some (cWord hd 0x33#7 (d ++ a ++ b ++ 0#3))
  | .ldwX hd d a b => some (cWord hd 0x34#7 (d ++ a ++ b ++ 0#3))
  | .ldwNX hd d a b => some (cWord hd 0x35#7 (d ++ a ++ b ++ 0#3))
  | .lddX hd d a b => some (cWord hd 0x36#7 (d ++ a ++ b ++ 0#3))
  | .stbX hd v a b => some (cWord hd 0x38#7 (v ++ a ++ b ++ 0#3))
  | .sthX hd v a b => some (cWord hd 0x39#7 (v ++ a ++ b ++ 0#3))
  | .stwX hd v a b => some (cWord hd 0x3a#7 (v ++ a ++ b ++ 0#3))
  | .stdX hd v a b => some (cWord hd 0x3b#7 (v ++ a ++ b ++ 0#3))
  | .ldv hd v a o => some (cWord hd 0x3c#7 (v ++ a ++ o))
  | .stv hd v a o => some (cWord hd 0x3d#7 (v ++ a ++ o))
  | .ldvs hd v a b => some (cWord hd 0x3e#7 (v ++ a ++ b ++ 0#2))
  | .ldvx hd v a imm => some (cWord hd 0x3f#7 (v ++ a ++ imm ++ 0#1))
  | .stvx hd v a imm => some (cWord hd 0x40#7 (v ++ a ++ imm ++ 0#1))
  | .alb hd a => some (cWord hd 0x41#7 (a ++ 0#13))
  | .ale hd => some (cWord hd 0x42#7 (0#18))
  | .fenceAcq hd sl => some (cWord hd 0x43#7 (0#15 ++ sl))
  | .fenceRel hd sl => some (cWord hd 0x44#7 (0#15 ++ sl))
  | .fenceAr hd sl => some (cWord hd 0x45#7 (0#15 ++ sl))
  | .inbx hd v => some (cWord hd 0x46#7 (v ++ 0#12))
  | .inbxT hd v d sl => some (cWord hd 0x47#7 (v ++ d ++ sl ++ 0#2))
  | .amoAdd hd d a b z u => some (cWord hd 0x48#7 (d ++ a ++ b ++ z ++ u))
  | .amoMin hd d a b z u => some (cWord hd 0x49#7 (d ++ a ++ b ++ z ++ u))
  | .amoMax hd d a b z u => some (cWord hd 0x4a#7 (d ++ a ++ b ++ z ++ u))
  | .amoAnd hd d a b z u => some (cWord hd 0x4b#7 (d ++ a ++ b ++ z ++ u))
  | .amoOr hd d a b z u => some (cWord hd 0x4c#7 (d ++ a ++ b ++ z ++ u))
  | .amoXor hd d a b z u => some (cWord hd 0x4d#7 (d ++ a ++ b ++ z ++ u))
  | .amoSwp hd d a b z u => some (cWord hd 0x4e#7 (d ++ a ++ b ++ z ++ u))
  | .amoCas hd d a b z u => some (cWord hd 0x4f#7 (d ++ a ++ b ++ z ++ u))
  | .redAdd hd a b z u => some (cWord hd 0x50#7 (0#5 ++ a ++ b ++ z ++ u))
  | .redMin hd a b z u => some (cWord hd 0x51#7 (0#5 ++ a ++ b ++ z ++ u))
  | .redMax hd a b z u => some (cWord hd 0x52#7 (0#5 ++ a ++ b ++ z ++ u))
  | .redAnd hd a b z u => some (cWord hd 0x53#7 (0#5 ++ a ++ b ++ z ++ u))
  | .redOr hd a b z u => some (cWord hd 0x54#7 (0#5 ++ a ++ b ++ z ++ u))
  | .redXor hd a b z u => some (cWord hd 0x55#7 (0#5 ++ a ++ b ++ z ++ u))
  | .msend hd e v k => some (cWord hd 0x56#7 (e ++ v ++ k ++ 0#3))
  | .mxq hd a k => some (cWord hd 0x58#7 (a ++ k ++ 0#9))
  | .mma hd m a b k => some (cWord hd 0x59#7 (m ++ a ++ b ++ k ++ 0#1))
  | .mzero hd m => some (cWord hd 0x5a#7 (m ++ 0#15))
  | .mrd hd v t sl k => some (cWord hd 0x5b#7 (v ++ t ++ sl ++ k))
  | .mldB hd a b k c => some (cWord hd 0x5c#7 (a ++ b ++ k ++ c))
  | .pmount hd d a k => some (cWord hd 0x5d#7 (d ++ a ++ k ++ 0#4))
  | .punmount hd a => some (cWord hd 0x5e#7 (0#5 ++ a ++ 0#8))
  | .pinfo hd d a => some (cWord hd 0x5f#7 (d ++ a ++ 0#8))
  | .cadd hd c v k => some (cWord hd 0x60#7 (c ++ v ++ k ++ 0#3))
  | .caddTile hd c t k => some (cWord hd 0x60#7 (c ++ t ++ 0#3 ++ k ++ 1#3))
  | .ctap hd v c k f => some (cWord hd 0x61#7 (v ++ c ++ k ++ f))
  | .cscrub hd c k => some (cWord hd 0x62#7 (c ++ k ++ 0#9))
  | .cspill hd c a k f => some (cWord hd 0x63#7 (c ++ a ++ k ++ f ++ 0#3))
  | .cfill hd c a k f => some (cWord hd 0x64#7 (c ++ a ++ k ++ f ++ 0#3))
  | .cinfo hd d c => some (cWord hd 0x65#7 (d ++ c ++ 0#8))
  | .previve hd d a k => some (cWord hd 0x66#7 (d ++ a ++ k ++ 0#4))
  | .hnew hd hh a b => some (cWord hd 0x68#7 (hh ++ a ++ b ++ 0#4))
  | .hmov hd hh g => some (cWord hd 0x69#7 (hh ++ g ++ 0#10))
  | .hsplit hd x a b c imm => some (cWord hd 0x6a#7 (x ++ a ++ b ++ c ++ imm))
  | .hjoin hd hh a b k => some (cWord hd 0x6b#7 (hh ++ a ++ b ++ k ++ 0#2))
  | .hsend hd a e => some (cWord hd 0x6c#7 (a ++ e ++ 0#9))
  | .hrecv hd hh => some (cWord hd 0x6d#7 (hh ++ 0#14))
  | .hinfo hd d a f => some (cWord hd 0x6e#7 (d ++ a ++ f ++ 0#6))
  | .hfree hd hh => some (cWord hd 0x6f#7 (hh ++ 0#14))
  | .hldv hd v a imm => some (cWord hd 0x70#7 (v ++ a ++ imm ++ 0#3))
  | .hstv hd v a imm => some (cWord hd 0x71#7 (v ++ a ++ imm ++ 0#3))
  | .sget hd a k => some (cWord hd 0x72#7 (a ++ k ++ 0#9))
  | .sput hd a k => some (cWord hd 0x73#7 (a ++ k ++ 0#9))
  | .sgat hd a k => some (cWord hd 0x74#7 (a ++ k ++ 0#9))
  | .sred hd a k => some (cWord hd 0x75#7 (a ++ k ++ 0#9))
  | .scol hd a k => some (cWord hd 0x76#7 (a ++ k ++ 0#9))
  | .pinit hd a => some (cWord hd 0x77#7 (0#5 ++ a ++ 0#8))
  | .pres hd d a => some (cWord hd 0x78#7 (d ++ a ++ 0#8))
  | .pcmt hd a => some (cWord hd 0x79#7 (0#5 ++ a ++ 0#8))
  | .pacq hd d a => some (cWord hd 0x7a#7 (d ++ a ++ 0#8))
  | .prel hd a => some (cWord hd 0x7b#7 (0#5 ++ a ++ 0#8))
  | .aNop => some (aWord 0x1#7 (0#25))
  | .add d a b t => some (aWord 0x2#7 (d ++ a ++ b ++ t ++ 0#6))
  | .sub d a b t => some (aWord 0x3#7 (d ++ a ++ b ++ t ++ 0#6))
  | .mul d a b t => some (aWord 0x4#7 (d ++ a ++ b ++ t ++ 0#6))
  | .mulh d a b t => some (aWord 0x5#7 (d ++ a ++ b ++ t ++ 0#6))
  | .div d a b t => some (aWord 0x6#7 (d ++ a ++ b ++ t ++ 0#6))
  | .rem d a b t => some (aWord 0x7#7 (d ++ a ++ b ++ t ++ 0#6))
  | .and d a b t => some (aWord 0x8#7 (d ++ a ++ b ++ t ++ 0#6))
  | .or d a b t => some (aWord 0x9#7 (d ++ a ++ b ++ t ++ 0#6))
  | .xor d a b t => some (aWord 0xa#7 (d ++ a ++ b ++ t ++ 0#6))
  | .shl d a b t => some (aWord 0xb#7 (d ++ a ++ b ++ t ++ 0#6))
  | .shr d a b t => some (aWord 0xc#7 (d ++ a ++ b ++ t ++ 0#6))
  | .sra d a b t => some (aWord 0xd#7 (d ++ a ++ b ++ t ++ 0#6))
  | .min d a b t => some (aWord 0xe#7 (d ++ a ++ b ++ t ++ 0#6))
  | .max d a b t => some (aWord 0xf#7 (d ++ a ++ b ++ t ++ 0#6))
  | .cmp p c a b t => some (aWord 0x10#7 (p ++ c ++ a ++ b ++ t ++ 0#5))
  | .sel d a b p => some (aWord 0x11#7 (d ++ a ++ b ++ p ++ 0#7))
  | .clz d a t => some (aWord 0x12#7 (d ++ a ++ 0#5 ++ t ++ 0#6))
  | .popc d a t => some (aWord 0x13#7 (d ++ a ++ 0#5 ++ t ++ 0#6))
  | .lih d imm => some (aWord 0x14#7 (d ++ imm))
  | .adr d a imm => some (aWord 0x15#7 (d ++ a ++ imm))
  | .andI d a imm => some (aWord 0x18#7 (d ++ a ++ imm))
  | .orI d a imm => some (aWord 0x19#7 (d ++ a ++ imm))
  | .xorI d a imm => some (aWord 0x1a#7 (d ++ a ++ imm))
  | .shlI d a imm => some (aWord 0x1b#7 (d ++ a ++ 0#9 ++ imm))
  | .shrI d a imm => some (aWord 0x1c#7 (d ++ a ++ 0#9 ++ imm))
  | .sraI d a imm => some (aWord 0x1d#7 (d ++ a ++ 0#9 ++ imm))
  | .minI d a imm => some (aWord 0x1e#7 (d ++ a ++ imm))
  | .maxI d a imm => some (aWord 0x1f#7 (d ++ a ++ imm))
  | .cmpI p c a t imm => some (aWord 0x20#7 (p ++ c ++ a ++ t ++ imm))
  | .faddF32 d a b => some (aWord 0x21#7 (d ++ a ++ b ++ 0#10))
  | .fmulF32 d a b => some (aWord 0x22#7 (d ++ a ++ b ++ 0#10))
  | .ffmaF32 d a b c => some (aWord 0x23#7 (d ++ a ++ b ++ c ++ 0#5))
  | .fcvt d a x y => some (aWord 0x24#7 (d ++ a ++ x ++ y ++ 0#7))
  | .pset d a => some (aWord 0x28#7 (d ++ a ++ 0#17))
  | .pand d a b => some (aWord 0x29#7 (d ++ a ++ b ++ 0#16))
  | .por d a b => some (aWord 0x2a#7 (d ++ a ++ b ++ 0#16))
  | .pnot d a => some (aWord 0x2b#7 (d ++ a ++ 0#19))
  | .vadd d a b t p => some (aWord 0x30#7 (d ++ a ++ b ++ t ++ p))
  | .vsub d a b t p => some (aWord 0x31#7 (d ++ a ++ b ++ t ++ p))
  | .vmul d a b t p => some (aWord 0x32#7 (d ++ a ++ b ++ t ++ p))
  | .vfma d a b t p => some (aWord 0x33#7 (d ++ a ++ b ++ t ++ p))
  | .vfms d a b t p => some (aWord 0x34#7 (d ++ a ++ b ++ t ++ p))
  | .vmin d a b t p => some (aWord 0x35#7 (d ++ a ++ b ++ t ++ p))
  | .vmax d a b t p => some (aWord 0x36#7 (d ++ a ++ b ++ t ++ p))
  | .vand d a b t p => some (aWord 0x37#7 (d ++ a ++ b ++ t ++ p))
  | .vor d a b t p => some (aWord 0x38#7 (d ++ a ++ b ++ t ++ p))
  | .vxor d a b t p => some (aWord 0x39#7 (d ++ a ++ b ++ t ++ p))
  | .vshl d a b t p => some (aWord 0x3a#7 (d ++ a ++ b ++ t ++ p))
  | .vshr d a b t p => some (aWord 0x3b#7 (d ++ a ++ b ++ t ++ p))
  | .vclamp d a b t p => some (aWord 0x3c#7 (d ++ a ++ b ++ t ++ p))
  | .vperm d a b t p => some (aWord 0x3d#7 (d ++ a ++ b ++ t ++ p))
  | .vdotI8 d a b p => some (aWord 0x3e#7 (d ++ a ++ b ++ 0#4 ++ p))
  | .vsel d a b t p => some (aWord 0x3f#7 (d ++ a ++ b ++ t ++ p))
  | .vcmp d c a b t p => some (aWord 0x40#7 (d ++ c ++ a ++ b ++ t ++ p))
  | .vabs d a t p => some (aWord 0x41#7 (d ++ a ++ 0#6 ++ t ++ p))
  | .vneg d a t p => some (aWord 0x42#7 (d ++ a ++ 0#6 ++ t ++ p))
  | .vrcp d a t p => some (aWord 0x43#7 (d ++ a ++ 0#6 ++ t ++ p))
  | .vrsqrt d a t p => some (aWord 0x44#7 (d ++ a ++ 0#6 ++ t ++ p))
  | .vexp2 d a t p => some (aWord 0x45#7 (d ++ a ++ 0#6 ++ t ++ p))
  | .vlog2 d a t p => some (aWord 0x46#7 (d ++ a ++ 0#6 ++ t ++ p))
  | .vcvt d a x y p => some (aWord 0x47#7 (d ++ a ++ x ++ y ++ 0#2 ++ p))
  | .vred d a o t p => some (aWord 0x48#7 (d ++ a ++ o ++ 0#3 ++ t ++ p))
  | .vbcast d a e p => some (aWord 0x49#7 (d ++ a ++ e ++ 0#5 ++ p))
  | .vsplat d sl t p => some (aWord 0x4a#7 (d ++ sl ++ 0#7 ++ t ++ p))
  | .vext d a e => some (aWord 0x4b#7 (d ++ a ++ e ++ 0#9))
  | .vins d sl e => some (aWord 0x4c#7 (d ++ sl ++ e ++ 0#9))
  | .vaddS d a sl t p => some (aWord 0x50#7 (d ++ a ++ sl ++ 0#1 ++ t ++ p))
  | .vsubS d a sl t p => some (aWord 0x51#7 (d ++ a ++ sl ++ 0#1 ++ t ++ p))
  | .vmulS d a sl t p => some (aWord 0x52#7 (d ++ a ++ sl ++ 0#1 ++ t ++ p))
  | .vfmaS d a sl t p => some (aWord 0x53#7 (d ++ a ++ sl ++ 0#1 ++ t ++ p))
  | .vfmsS d a sl t p => some (aWord 0x54#7 (d ++ a ++ sl ++ 0#1 ++ t ++ p))
  | .vminS d a sl t p => some (aWord 0x55#7 (d ++ a ++ sl ++ 0#1 ++ t ++ p))
  | .vmaxS d a sl t p => some (aWord 0x56#7 (d ++ a ++ sl ++ 0#1 ++ t ++ p))
  | .vandS d a sl t p => some (aWord 0x57#7 (d ++ a ++ sl ++ 0#1 ++ t ++ p))
  | .vorS d a sl t p => some (aWord 0x58#7 (d ++ a ++ sl ++ 0#1 ++ t ++ p))
  | .vxorS d a sl t p => some (aWord 0x59#7 (d ++ a ++ sl ++ 0#1 ++ t ++ p))
  | .vshlS d a sl t p => some (aWord 0x5a#7 (d ++ a ++ sl ++ 0#1 ++ t ++ p))
  | .vshrS d a sl t p => some (aWord 0x5b#7 (d ++ a ++ sl ++ 0#1 ++ t ++ p))
  | .vcmpS d c a sl t p => some (aWord 0x5c#7 (d ++ c ++ a ++ sl ++ 0#1 ++ t ++ p))
  | .cReservedNop hd op rest => some (cWord hd op rest)
  | .aReservedNop op rest => some (aWord op rest)
  | .replayedPair => none
  | .lateTrap => none
  | .upcall => none
  | .helperRetire _ _ => none
  | .taskEnd _ => none
  | .phaseComplete _ _ _ => none
  | .syncTLimit _ _ => none
  | .planEntry _ _ => none
  | .remoteRequestPerform _ => none
  | .takeRetry _ => none
  | .replyReceive _ => none
  | .requestAck _ => none
  | .refusalReceive _ => none
  | .predictorDecay _ _ => none
  | .esigAdd _ => none
  | .ewaitAnswer _ _ => none
  | .msendDepart _ => none
  | .entryPlace _ => none
  | .inbxTLimit _ _ => none
  | .boxWrite _ => none
  | .boxMoveBack _ => none
  | .stallTimeout _ => none
  | .matrixCommandStart _ => none
  | .matrixCommit _ => none
  | .mldBStart _ => none
  | .mldBDone _ => none
  | .cisternAddPath _ => none
  | .cisternTapPath _ => none
  | .scrubEnd _ _ => none
  | .spillComplete _ _ => none
  | .fillComplete _ _ => none
  | .hsendDepart _ => none
  | .hjoinComplete _ _ _ => none
  | .hfreeComplete _ _ => none
  | .streamerAccept _ => none
  | .streamerStep _ => none
  | .streamerComplete _ => none
  | .pantryCommit _ => none
  | .collectiveRun _ _ => none
  | .registerWrite _ _ => none
  | .tkrCas _ _ _ => none
  | .cmt _ _ => none
  | .cancel _ _ => none
  | .schedulerTick => none
  | .coreLoadAck _ _ _ => none
  | .groupStart _ _ => none
  | .taskEndReport _ => none
  | .groupFree _ _ => none
  | .recordWrite _ _ => none
  | .recordRetry _ _ => none
  | .ringHeadWrite _ _ _ => none
  | .swcmdSave _ _ => none
  | .swcmdRestore _ _ => none
  | .swcmdDisarm _ _ => none
  | .switchStop _ => none
  | .sluiceClose _ => none
  | .saveComplete _ => none
  | .restoreResume _ => none
  | .reinject _ => none
  | .stubForward _ => none
  | .stubCorrection _ => none
  | .pasidTeardown _ => none
  | .hostResponseDiscard _ => none
  | .waitArm _ _ => none
  | .watchRead _ => none
  | .watchYield _ => none
  | .pageResponse _ => none
  | .tdiStateChange _ _ => none
  | .tinv _ _ => none
  | .tinvComplete _ => none
  | .gtsJoin _ => none
  | .gtsCorrect _ => none
  | .leaseCas _ _ => none
  | .coldReset => none
  | .firstStageBoot _ => none
  | .getMeasurements => none
  | .hostPortTrain _ => none
  | .kill _ _ => none
  | .warmReset => none
  | .killStop _ => none
  | .peatAllocate _ => none
  | .peatFormed _ => none
  | .pwrel _ => none
  | .reviveResume _ _ => none
  | .sramUe _ _ _ => none
  | .patrolScrub _ => none
  | .flitReceive _ _ _ => none
  | .nakReplay _ _ => none
  | .retrainEnd _ _ => none
  | .eventRecordWrite => none
  | .rowActivate _ => none
  | .backoffEnd _ => none
  | .rowClose _ => none
  | .refreshWindow _ => none
  | .bankRefresh _ => none
  | .heartbeat _ => none
  | .refreshTakeover _ => none
  | .sequencerRefresh _ => none
  | .refreshHandback _ => none
  | .pageMigrate _ => none
  | .sensorRead _ _ => none
  | .routerReceive _ => none
  | .orderRestoreDeliver _ => none
  | .securityAlarm _ => none
  | .alarmAction _ => none
  | .signatureCheck _ _ => none
  | .dbgunlk _ _ => none
  | .debugStop _ => none
  | .debugStopTake _ => none
  | .debugRun _ => none
  | .debugStep _ _ => none
  | .debugSnapshot _ => none
  | .snapshotDone _ => none
  | .traceGtsTrigger _ => none
  | .droopDetect _ _ _ => none
  | .molHeadReread _ _ => none
  | .illegalOpcode _ _ => none
  | .fetchTrap => none
  | .householdCreate _ _ _ _ _ => none
  | .householdDestroy _ => none
  | .fenCreate _ _ _ _ _ => none
  | .fenEnd _ _ => none
  | .hostCxlMemAccess _ _ _ => none
  | .boardwalkPeerAccess _ _ _ _ _ => none
  | .unsupportedAtomicop _ _ => none
  | .porchAnswer _ => none
  | .boxFetch _ _ => none
  | .allBankRefreshEnd _ => none
  | .migrationDone _ => none

/-- The C-slot instructions: those whose words the C-slot map reads (R84, R90). -/
def Instr.isC (i : Instr) : Bool :=
  match i with
  | .nop _ => true
  | .dly _ _ => true
  | .yield _ => true
  | .halt _ => true
  | .ret _ => true
  | .eret _ => true
  | .gsplit _ => true
  | .sync _ => true
  | .syncT _ _ _ => true
  | .gang _ _ _ _ => true
  | .kwait _ _ _ => true
  | .ktst _ _ _ => true
  | .spawn _ _ _ _ _ => true
  | .rbRec _ _ => true
  | .rbRun _ _ _ => true
  | .brT _ _ _ => true
  | .brF _ _ _ => true
  | .brAny _ _ _ => true
  | .brNone _ _ _ => true
  | .jmp _ _ => true
  | .call _ _ => true
  | .jal _ _ _ => true
  | .jr _ _ => true
  | .trap _ _ => true
  | .sig _ _ _ => true
  | .getc _ _ _ => true
  | .setc _ _ _ => true
  | .gts _ _ => true
  | .tmark _ _ _ => true
  | .ewait _ _ _ => true
  | .esig _ _ _ => true
  | .ldb _ _ _ _ => true
  | .ldbN _ _ _ _ => true
  | .ldh _ _ _ _ => true
  | .ldhN _ _ _ _ => true
  | .ldw _ _ _ _ => true
  | .ldwN _ _ _ _ => true
  | .ldd _ _ _ _ => true
  | .stb _ _ _ _ => true
  | .sth _ _ _ _ => true
  | .stw _ _ _ _ => true
  | .std _ _ _ _ => true
  | .take _ _ _ _ => true
  | .give _ _ _ _ => true
  | .feSet _ _ _ _ => true
  | .ldbX _ _ _ _ => true
  | .ldbNX _ _ _ _ => true
  | .ldhX _ _ _ _ => true
  | .ldhNX _ _ _ _ => true
  | .ldwX _ _ _ _ => true
  | .ldwNX _ _ _ _ => true
  | .lddX _ _ _ _ => true
  | .stbX _ _ _ _ => true
  | .sthX _ _ _ _ => true
  | .stwX _ _ _ _ => true
  | .stdX _ _ _ _ => true
  | .ldv _ _ _ _ => true
  | .stv _ _ _ _ => true
  | .ldvs _ _ _ _ => true
  | .ldvx _ _ _ _ => true
  | .stvx _ _ _ _ => true
  | .alb _ _ => true
  | .ale _ => true
  | .fenceAcq _ _ => true
  | .fenceRel _ _ => true
  | .fenceAr _ _ => true
  | .inbx _ _ => true
  | .inbxT _ _ _ _ => true
  | .amoAdd _ _ _ _ _ _ => true
  | .amoMin _ _ _ _ _ _ => true
  | .amoMax _ _ _ _ _ _ => true
  | .amoAnd _ _ _ _ _ _ => true
  | .amoOr _ _ _ _ _ _ => true
  | .amoXor _ _ _ _ _ _ => true
  | .amoSwp _ _ _ _ _ _ => true
  | .amoCas _ _ _ _ _ _ => true
  | .redAdd _ _ _ _ _ => true
  | .redMin _ _ _ _ _ => true
  | .redMax _ _ _ _ _ => true
  | .redAnd _ _ _ _ _ => true
  | .redOr _ _ _ _ _ => true
  | .redXor _ _ _ _ _ => true
  | .msend _ _ _ _ => true
  | .mxq _ _ _ => true
  | .mma _ _ _ _ _ => true
  | .mzero _ _ => true
  | .mrd _ _ _ _ _ => true
  | .mldB _ _ _ _ _ => true
  | .pmount _ _ _ _ => true
  | .punmount _ _ => true
  | .pinfo _ _ _ => true
  | .cadd _ _ _ _ => true
  | .caddTile _ _ _ _ => true
  | .ctap _ _ _ _ _ => true
  | .cscrub _ _ _ => true
  | .cspill _ _ _ _ _ => true
  | .cfill _ _ _ _ _ => true
  | .cinfo _ _ _ => true
  | .previve _ _ _ _ => true
  | .hnew _ _ _ _ => true
  | .hmov _ _ _ => true
  | .hsplit _ _ _ _ _ _ => true
  | .hjoin _ _ _ _ _ => true
  | .hsend _ _ _ => true
  | .hrecv _ _ => true
  | .hinfo _ _ _ _ => true
  | .hfree _ _ => true
  | .hldv _ _ _ _ => true
  | .hstv _ _ _ _ => true
  | .sget _ _ _ => true
  | .sput _ _ _ => true
  | .sgat _ _ _ => true
  | .sred _ _ _ => true
  | .scol _ _ _ => true
  | .pinit _ _ => true
  | .pres _ _ _ => true
  | .pcmt _ _ => true
  | .pacq _ _ _ => true
  | .prel _ _ => true
  | .aNop => false
  | .add _ _ _ _ => false
  | .sub _ _ _ _ => false
  | .mul _ _ _ _ => false
  | .mulh _ _ _ _ => false
  | .div _ _ _ _ => false
  | .rem _ _ _ _ => false
  | .and _ _ _ _ => false
  | .or _ _ _ _ => false
  | .xor _ _ _ _ => false
  | .shl _ _ _ _ => false
  | .shr _ _ _ _ => false
  | .sra _ _ _ _ => false
  | .min _ _ _ _ => false
  | .max _ _ _ _ => false
  | .cmp _ _ _ _ _ => false
  | .sel _ _ _ _ => false
  | .clz _ _ _ => false
  | .popc _ _ _ => false
  | .lih _ _ => false
  | .adr _ _ _ => false
  | .andI _ _ _ => false
  | .orI _ _ _ => false
  | .xorI _ _ _ => false
  | .shlI _ _ _ => false
  | .shrI _ _ _ => false
  | .sraI _ _ _ => false
  | .minI _ _ _ => false
  | .maxI _ _ _ => false
  | .cmpI _ _ _ _ _ => false
  | .faddF32 _ _ _ => false
  | .fmulF32 _ _ _ => false
  | .ffmaF32 _ _ _ _ => false
  | .fcvt _ _ _ _ => false
  | .pset _ _ => false
  | .pand _ _ _ => false
  | .por _ _ _ => false
  | .pnot _ _ => false
  | .vadd _ _ _ _ _ => false
  | .vsub _ _ _ _ _ => false
  | .vmul _ _ _ _ _ => false
  | .vfma _ _ _ _ _ => false
  | .vfms _ _ _ _ _ => false
  | .vmin _ _ _ _ _ => false
  | .vmax _ _ _ _ _ => false
  | .vand _ _ _ _ _ => false
  | .vor _ _ _ _ _ => false
  | .vxor _ _ _ _ _ => false
  | .vshl _ _ _ _ _ => false
  | .vshr _ _ _ _ _ => false
  | .vclamp _ _ _ _ _ => false
  | .vperm _ _ _ _ _ => false
  | .vdotI8 _ _ _ _ => false
  | .vsel _ _ _ _ _ => false
  | .vcmp _ _ _ _ _ _ => false
  | .vabs _ _ _ _ => false
  | .vneg _ _ _ _ => false
  | .vrcp _ _ _ _ => false
  | .vrsqrt _ _ _ _ => false
  | .vexp2 _ _ _ _ => false
  | .vlog2 _ _ _ _ => false
  | .vcvt _ _ _ _ _ => false
  | .vred _ _ _ _ _ => false
  | .vbcast _ _ _ _ => false
  | .vsplat _ _ _ _ => false
  | .vext _ _ _ => false
  | .vins _ _ _ => false
  | .vaddS _ _ _ _ _ => false
  | .vsubS _ _ _ _ _ => false
  | .vmulS _ _ _ _ _ => false
  | .vfmaS _ _ _ _ _ => false
  | .vfmsS _ _ _ _ _ => false
  | .vminS _ _ _ _ _ => false
  | .vmaxS _ _ _ _ _ => false
  | .vandS _ _ _ _ _ => false
  | .vorS _ _ _ _ _ => false
  | .vxorS _ _ _ _ _ => false
  | .vshlS _ _ _ _ _ => false
  | .vshrS _ _ _ _ _ => false
  | .vcmpS _ _ _ _ _ _ => false
  | .cReservedNop _ _ _ => true
  | .aReservedNop _ _ => false
  | .replayedPair => false
  | .lateTrap => false
  | .upcall => false
  | .helperRetire _ _ => false
  | .taskEnd _ => false
  | .phaseComplete _ _ _ => false
  | .syncTLimit _ _ => false
  | .planEntry _ _ => false
  | .remoteRequestPerform _ => false
  | .takeRetry _ => false
  | .replyReceive _ => false
  | .requestAck _ => false
  | .refusalReceive _ => false
  | .predictorDecay _ _ => false
  | .esigAdd _ => false
  | .ewaitAnswer _ _ => false
  | .msendDepart _ => false
  | .entryPlace _ => false
  | .inbxTLimit _ _ => false
  | .boxWrite _ => false
  | .boxMoveBack _ => false
  | .stallTimeout _ => false
  | .matrixCommandStart _ => false
  | .matrixCommit _ => false
  | .mldBStart _ => false
  | .mldBDone _ => false
  | .cisternAddPath _ => false
  | .cisternTapPath _ => false
  | .scrubEnd _ _ => false
  | .spillComplete _ _ => false
  | .fillComplete _ _ => false
  | .hsendDepart _ => false
  | .hjoinComplete _ _ _ => false
  | .hfreeComplete _ _ => false
  | .streamerAccept _ => false
  | .streamerStep _ => false
  | .streamerComplete _ => false
  | .pantryCommit _ => false
  | .collectiveRun _ _ => false
  | .registerWrite _ _ => false
  | .tkrCas _ _ _ => false
  | .cmt _ _ => false
  | .cancel _ _ => false
  | .schedulerTick => false
  | .coreLoadAck _ _ _ => false
  | .groupStart _ _ => false
  | .taskEndReport _ => false
  | .groupFree _ _ => false
  | .recordWrite _ _ => false
  | .recordRetry _ _ => false
  | .ringHeadWrite _ _ _ => false
  | .swcmdSave _ _ => false
  | .swcmdRestore _ _ => false
  | .swcmdDisarm _ _ => false
  | .switchStop _ => false
  | .sluiceClose _ => false
  | .saveComplete _ => false
  | .restoreResume _ => false
  | .reinject _ => false
  | .stubForward _ => false
  | .stubCorrection _ => false
  | .pasidTeardown _ => false
  | .hostResponseDiscard _ => false
  | .waitArm _ _ => false
  | .watchRead _ => false
  | .watchYield _ => false
  | .pageResponse _ => false
  | .tdiStateChange _ _ => false
  | .tinv _ _ => false
  | .tinvComplete _ => false
  | .gtsJoin _ => false
  | .gtsCorrect _ => false
  | .leaseCas _ _ => false
  | .coldReset => false
  | .firstStageBoot _ => false
  | .getMeasurements => false
  | .hostPortTrain _ => false
  | .kill _ _ => false
  | .warmReset => false
  | .killStop _ => false
  | .peatAllocate _ => false
  | .peatFormed _ => false
  | .pwrel _ => false
  | .reviveResume _ _ => false
  | .sramUe _ _ _ => false
  | .patrolScrub _ => false
  | .flitReceive _ _ _ => false
  | .nakReplay _ _ => false
  | .retrainEnd _ _ => false
  | .eventRecordWrite => false
  | .rowActivate _ => false
  | .backoffEnd _ => false
  | .rowClose _ => false
  | .refreshWindow _ => false
  | .bankRefresh _ => false
  | .heartbeat _ => false
  | .refreshTakeover _ => false
  | .sequencerRefresh _ => false
  | .refreshHandback _ => false
  | .pageMigrate _ => false
  | .sensorRead _ _ => false
  | .routerReceive _ => false
  | .orderRestoreDeliver _ => false
  | .securityAlarm _ => false
  | .alarmAction _ => false
  | .signatureCheck _ _ => false
  | .dbgunlk _ _ => false
  | .debugStop _ => false
  | .debugStopTake _ => false
  | .debugRun _ => false
  | .debugStep _ _ => false
  | .debugSnapshot _ => false
  | .snapshotDone _ => false
  | .traceGtsTrigger _ => false
  | .droopDetect _ _ _ => false
  | .molHeadReread _ _ => false
  | .illegalOpcode _ _ => false
  | .fetchTrap => false
  | .householdCreate _ _ _ _ _ => false
  | .householdDestroy _ => false
  | .fenCreate _ _ _ _ _ => false
  | .fenEnd _ _ => false
  | .hostCxlMemAccess _ _ _ => false
  | .boardwalkPeerAccess _ _ _ _ _ => false
  | .unsupportedAtomicop _ _ => false
  | .porchAnswer _ => false
  | .boxFetch _ _ => false
  | .allBankRefreshEnd _ => false
  | .migrationDone _ => false

/-- The A-slot instructions (R86, R90). -/
def Instr.isA (i : Instr) : Bool :=
  match i with
  | .nop _ => false
  | .dly _ _ => false
  | .yield _ => false
  | .halt _ => false
  | .ret _ => false
  | .eret _ => false
  | .gsplit _ => false
  | .sync _ => false
  | .syncT _ _ _ => false
  | .gang _ _ _ _ => false
  | .kwait _ _ _ => false
  | .ktst _ _ _ => false
  | .spawn _ _ _ _ _ => false
  | .rbRec _ _ => false
  | .rbRun _ _ _ => false
  | .brT _ _ _ => false
  | .brF _ _ _ => false
  | .brAny _ _ _ => false
  | .brNone _ _ _ => false
  | .jmp _ _ => false
  | .call _ _ => false
  | .jal _ _ _ => false
  | .jr _ _ => false
  | .trap _ _ => false
  | .sig _ _ _ => false
  | .getc _ _ _ => false
  | .setc _ _ _ => false
  | .gts _ _ => false
  | .tmark _ _ _ => false
  | .ewait _ _ _ => false
  | .esig _ _ _ => false
  | .ldb _ _ _ _ => false
  | .ldbN _ _ _ _ => false
  | .ldh _ _ _ _ => false
  | .ldhN _ _ _ _ => false
  | .ldw _ _ _ _ => false
  | .ldwN _ _ _ _ => false
  | .ldd _ _ _ _ => false
  | .stb _ _ _ _ => false
  | .sth _ _ _ _ => false
  | .stw _ _ _ _ => false
  | .std _ _ _ _ => false
  | .take _ _ _ _ => false
  | .give _ _ _ _ => false
  | .feSet _ _ _ _ => false
  | .ldbX _ _ _ _ => false
  | .ldbNX _ _ _ _ => false
  | .ldhX _ _ _ _ => false
  | .ldhNX _ _ _ _ => false
  | .ldwX _ _ _ _ => false
  | .ldwNX _ _ _ _ => false
  | .lddX _ _ _ _ => false
  | .stbX _ _ _ _ => false
  | .sthX _ _ _ _ => false
  | .stwX _ _ _ _ => false
  | .stdX _ _ _ _ => false
  | .ldv _ _ _ _ => false
  | .stv _ _ _ _ => false
  | .ldvs _ _ _ _ => false
  | .ldvx _ _ _ _ => false
  | .stvx _ _ _ _ => false
  | .alb _ _ => false
  | .ale _ => false
  | .fenceAcq _ _ => false
  | .fenceRel _ _ => false
  | .fenceAr _ _ => false
  | .inbx _ _ => false
  | .inbxT _ _ _ _ => false
  | .amoAdd _ _ _ _ _ _ => false
  | .amoMin _ _ _ _ _ _ => false
  | .amoMax _ _ _ _ _ _ => false
  | .amoAnd _ _ _ _ _ _ => false
  | .amoOr _ _ _ _ _ _ => false
  | .amoXor _ _ _ _ _ _ => false
  | .amoSwp _ _ _ _ _ _ => false
  | .amoCas _ _ _ _ _ _ => false
  | .redAdd _ _ _ _ _ => false
  | .redMin _ _ _ _ _ => false
  | .redMax _ _ _ _ _ => false
  | .redAnd _ _ _ _ _ => false
  | .redOr _ _ _ _ _ => false
  | .redXor _ _ _ _ _ => false
  | .msend _ _ _ _ => false
  | .mxq _ _ _ => false
  | .mma _ _ _ _ _ => false
  | .mzero _ _ => false
  | .mrd _ _ _ _ _ => false
  | .mldB _ _ _ _ _ => false
  | .pmount _ _ _ _ => false
  | .punmount _ _ => false
  | .pinfo _ _ _ => false
  | .cadd _ _ _ _ => false
  | .caddTile _ _ _ _ => false
  | .ctap _ _ _ _ _ => false
  | .cscrub _ _ _ => false
  | .cspill _ _ _ _ _ => false
  | .cfill _ _ _ _ _ => false
  | .cinfo _ _ _ => false
  | .previve _ _ _ _ => false
  | .hnew _ _ _ _ => false
  | .hmov _ _ _ => false
  | .hsplit _ _ _ _ _ _ => false
  | .hjoin _ _ _ _ _ => false
  | .hsend _ _ _ => false
  | .hrecv _ _ => false
  | .hinfo _ _ _ _ => false
  | .hfree _ _ => false
  | .hldv _ _ _ _ => false
  | .hstv _ _ _ _ => false
  | .sget _ _ _ => false
  | .sput _ _ _ => false
  | .sgat _ _ _ => false
  | .sred _ _ _ => false
  | .scol _ _ _ => false
  | .pinit _ _ => false
  | .pres _ _ _ => false
  | .pcmt _ _ => false
  | .pacq _ _ _ => false
  | .prel _ _ => false
  | .aNop => true
  | .add _ _ _ _ => true
  | .sub _ _ _ _ => true
  | .mul _ _ _ _ => true
  | .mulh _ _ _ _ => true
  | .div _ _ _ _ => true
  | .rem _ _ _ _ => true
  | .and _ _ _ _ => true
  | .or _ _ _ _ => true
  | .xor _ _ _ _ => true
  | .shl _ _ _ _ => true
  | .shr _ _ _ _ => true
  | .sra _ _ _ _ => true
  | .min _ _ _ _ => true
  | .max _ _ _ _ => true
  | .cmp _ _ _ _ _ => true
  | .sel _ _ _ _ => true
  | .clz _ _ _ => true
  | .popc _ _ _ => true
  | .lih _ _ => true
  | .adr _ _ _ => true
  | .andI _ _ _ => true
  | .orI _ _ _ => true
  | .xorI _ _ _ => true
  | .shlI _ _ _ => true
  | .shrI _ _ _ => true
  | .sraI _ _ _ => true
  | .minI _ _ _ => true
  | .maxI _ _ _ => true
  | .cmpI _ _ _ _ _ => true
  | .faddF32 _ _ _ => true
  | .fmulF32 _ _ _ => true
  | .ffmaF32 _ _ _ _ => true
  | .fcvt _ _ _ _ => true
  | .pset _ _ => true
  | .pand _ _ _ => true
  | .por _ _ _ => true
  | .pnot _ _ => true
  | .vadd _ _ _ _ _ => true
  | .vsub _ _ _ _ _ => true
  | .vmul _ _ _ _ _ => true
  | .vfma _ _ _ _ _ => true
  | .vfms _ _ _ _ _ => true
  | .vmin _ _ _ _ _ => true
  | .vmax _ _ _ _ _ => true
  | .vand _ _ _ _ _ => true
  | .vor _ _ _ _ _ => true
  | .vxor _ _ _ _ _ => true
  | .vshl _ _ _ _ _ => true
  | .vshr _ _ _ _ _ => true
  | .vclamp _ _ _ _ _ => true
  | .vperm _ _ _ _ _ => true
  | .vdotI8 _ _ _ _ => true
  | .vsel _ _ _ _ _ => true
  | .vcmp _ _ _ _ _ _ => true
  | .vabs _ _ _ _ => true
  | .vneg _ _ _ _ => true
  | .vrcp _ _ _ _ => true
  | .vrsqrt _ _ _ _ => true
  | .vexp2 _ _ _ _ => true
  | .vlog2 _ _ _ _ => true
  | .vcvt _ _ _ _ _ => true
  | .vred _ _ _ _ _ => true
  | .vbcast _ _ _ _ => true
  | .vsplat _ _ _ _ => true
  | .vext _ _ _ => true
  | .vins _ _ _ => true
  | .vaddS _ _ _ _ _ => true
  | .vsubS _ _ _ _ _ => true
  | .vmulS _ _ _ _ _ => true
  | .vfmaS _ _ _ _ _ => true
  | .vfmsS _ _ _ _ _ => true
  | .vminS _ _ _ _ _ => true
  | .vmaxS _ _ _ _ _ => true
  | .vandS _ _ _ _ _ => true
  | .vorS _ _ _ _ _ => true
  | .vxorS _ _ _ _ _ => true
  | .vshlS _ _ _ _ _ => true
  | .vshrS _ _ _ _ _ => true
  | .vcmpS _ _ _ _ _ _ => true
  | .cReservedNop _ _ _ => false
  | .aReservedNop _ _ => true
  | .replayedPair => false
  | .lateTrap => false
  | .upcall => false
  | .helperRetire _ _ => false
  | .taskEnd _ => false
  | .phaseComplete _ _ _ => false
  | .syncTLimit _ _ => false
  | .planEntry _ _ => false
  | .remoteRequestPerform _ => false
  | .takeRetry _ => false
  | .replyReceive _ => false
  | .requestAck _ => false
  | .refusalReceive _ => false
  | .predictorDecay _ _ => false
  | .esigAdd _ => false
  | .ewaitAnswer _ _ => false
  | .msendDepart _ => false
  | .entryPlace _ => false
  | .inbxTLimit _ _ => false
  | .boxWrite _ => false
  | .boxMoveBack _ => false
  | .stallTimeout _ => false
  | .matrixCommandStart _ => false
  | .matrixCommit _ => false
  | .mldBStart _ => false
  | .mldBDone _ => false
  | .cisternAddPath _ => false
  | .cisternTapPath _ => false
  | .scrubEnd _ _ => false
  | .spillComplete _ _ => false
  | .fillComplete _ _ => false
  | .hsendDepart _ => false
  | .hjoinComplete _ _ _ => false
  | .hfreeComplete _ _ => false
  | .streamerAccept _ => false
  | .streamerStep _ => false
  | .streamerComplete _ => false
  | .pantryCommit _ => false
  | .collectiveRun _ _ => false
  | .registerWrite _ _ => false
  | .tkrCas _ _ _ => false
  | .cmt _ _ => false
  | .cancel _ _ => false
  | .schedulerTick => false
  | .coreLoadAck _ _ _ => false
  | .groupStart _ _ => false
  | .taskEndReport _ => false
  | .groupFree _ _ => false
  | .recordWrite _ _ => false
  | .recordRetry _ _ => false
  | .ringHeadWrite _ _ _ => false
  | .swcmdSave _ _ => false
  | .swcmdRestore _ _ => false
  | .swcmdDisarm _ _ => false
  | .switchStop _ => false
  | .sluiceClose _ => false
  | .saveComplete _ => false
  | .restoreResume _ => false
  | .reinject _ => false
  | .stubForward _ => false
  | .stubCorrection _ => false
  | .pasidTeardown _ => false
  | .hostResponseDiscard _ => false
  | .waitArm _ _ => false
  | .watchRead _ => false
  | .watchYield _ => false
  | .pageResponse _ => false
  | .tdiStateChange _ _ => false
  | .tinv _ _ => false
  | .tinvComplete _ => false
  | .gtsJoin _ => false
  | .gtsCorrect _ => false
  | .leaseCas _ _ => false
  | .coldReset => false
  | .firstStageBoot _ => false
  | .getMeasurements => false
  | .hostPortTrain _ => false
  | .kill _ _ => false
  | .warmReset => false
  | .killStop _ => false
  | .peatAllocate _ => false
  | .peatFormed _ => false
  | .pwrel _ => false
  | .reviveResume _ _ => false
  | .sramUe _ _ _ => false
  | .patrolScrub _ => false
  | .flitReceive _ _ _ => false
  | .nakReplay _ _ => false
  | .retrainEnd _ _ => false
  | .eventRecordWrite => false
  | .rowActivate _ => false
  | .backoffEnd _ => false
  | .rowClose _ => false
  | .refreshWindow _ => false
  | .bankRefresh _ => false
  | .heartbeat _ => false
  | .refreshTakeover _ => false
  | .sequencerRefresh _ => false
  | .refreshHandback _ => false
  | .pageMigrate _ => false
  | .sensorRead _ _ => false
  | .routerReceive _ => false
  | .orderRestoreDeliver _ => false
  | .securityAlarm _ => false
  | .alarmAction _ => false
  | .signatureCheck _ _ => false
  | .dbgunlk _ _ => false
  | .debugStop _ => false
  | .debugStopTake _ => false
  | .debugRun _ => false
  | .debugStep _ _ => false
  | .debugSnapshot _ => false
  | .snapshotDone _ => false
  | .traceGtsTrigger _ => false
  | .droopDetect _ _ _ => false
  | .molHeadReread _ _ => false
  | .illegalOpcode _ _ => false
  | .fetchTrap => false
  | .householdCreate _ _ _ _ _ => false
  | .householdDestroy _ => false
  | .fenCreate _ _ _ _ _ => false
  | .fenEnd _ _ => false
  | .hostCxlMemAccess _ _ _ => false
  | .boardwalkPeerAccess _ _ _ _ _ => false
  | .unsupportedAtomicop _ _ => false
  | .porchAnswer _ => false
  | .boxFetch _ _ => false
  | .allBankRefreshEnd _ => false
  | .migrationDone _ => false

end Sys2Proof
end

