-- ==== Sys2Proof/Machine/State.lean ====
section
/-! DEFINITION. The state of the module (R28) as plain data, the reasons a step can stop, and the state after reset. -/
namespace Sys2Proof.Machine

/-! ### Memories -/

/-- A byte memory in its canonical form: addresses strictly rising, no listed byte equal to what an unlisted one reads as. -/
abbrev Memory := List Host.Cell
/-- What a byte that nothing has written reads as (log 5). -/
def unlisted : Byte := 0
/-- The canonical form. -/
def Memory.wf (m : Memory) : Bool :=
  match m with
  | [] => true
  | (_, b) :: rest =>
    b != unlisted && (match rest with
      | [] => true
      | (a', _) :: _ => (m.headD (0, 0)).1 < a') && Memory.wf rest

/-! ### The ordering machine (R161 to R163) -/

/-- Where a household-virtual byte lies: device physical memory, host memory under a PASID (R351, R359), the memory of a peer
module in the address space of the household's peer (R365), a mounted peat. -/
inductive Place where
  | device (pa : Nat)
  | hostM (pasid a : Nat)
  | peer (module hid a : Nat)
  | peat (n off : Nat)
deriving DecidableEq, Repr

/-- A location (R162): a byte of a local store, a byte of a Loft B store, a byte of a household's DRAM-class memory, an event
counter, a cistern row. -/
inductive Loc where
  | ls (core off : Nat)
  | loft (core off : Nat)
  | mem (hid : Nat) (p : Place)
  | counter (cl e : Nat)
  | row (cl r : Nat)
deriving DecidableEq, Repr
/-- A write node (R162): its write identity, its value at the location, the first address and the size of the write, and
the identities of the nodes before it; the initial node is before every node. -/
structure Node where
  id : Nat
  val : Nat
  base : Nat
  size : Nat
  before : List Nat
deriving DecidableEq, Repr
/-- A write graph (R161): the value of the initial node, and the nodes in the order in which they were made. -/
structure Graph where
  init : Nat
  nodes : List Node
deriving DecidableEq, Repr
/-- What a Seen set, a published set, a knowledge set or a snapshot holds besides the initial nodes: nodes, each by its
location and write identity (R161). -/
abbrev Seen := List (Loc × Nat)

/-! ### Registers of a context -/

/-- A scalar, vector or predicate register (R79). -/
inductive RegId where
  | s (n : Nat)
  | v (n : Nat)
  | p (n : Nat)
deriving DecidableEq, Repr

/-- A completion token (R104), or a handler's trap token (R77). -/
inductive TokRef where
  | k (n : Nat)
  | t (n : Nat)
deriving DecidableEq, Repr

/-- A pending fixed-latency write: applied when `rem` more pairs of the context have begun (R61, R102, R335). -/
structure FixedW where
  reg : RegId
  val : Nat
  rem : Nat
deriving DecidableEq, Repr

/-- State codes of a handle register (R257). -/
inductive HState where
  | empty | vacant | live | pending
deriving DecidableEq, Repr

/-- A handle value (R258). -/
structure HVal where
  cluster : Nat
  root : Bool
  side : Bool
  parent : Nat
  entry : Nat
deriving DecidableEq, Repr

/-- The view, type, base, mode and home of a handle (R255, R256, R261); axis lists have four entries. -/
structure View where
  typ : Nat
  nax : Nat
  base : Nat
  window : Bool
  home : Nat
  org : List Nat
  ext : List Nat
  dims : List Nat
deriving DecidableEq, Repr

/-- A handle register with its shadow (R257). -/
structure HReg where
  st : HState
  val : HVal
  view : View
deriving DecidableEq, Repr

/-- One access held by an open region (R148). -/
structure RegionAcc where
  store : Bool
  addr : Nat
  z : Nat
  val : Nat
  d : Nat
  sext : Bool
deriving DecidableEq, Repr

/-- An open single-line region (R148): its line, the address of its `alb`, its accesses in program order. -/
structure Region where
  line : Nat
  pc : Nat
  accs : List RegionAcc
deriving DecidableEq, Repr

/-- What an issued instruction makes its context wait for (R40, second kind). -/
inductive Wait where
  | none
  | sync
  | syncT (d limit : Nat)
  | ewait (d counter target : Nat) (arrived : Bool)
  | take (addr : Nat)
  | inbx (v : Nat)
  | inbxT (v d limit : Nat)
  | hrecv (h since : Nat)
  | pantry (addr : Nat)
  | halt
  /-- The wait has been decided: its writes are due. Its WAIT code, WAITARG and WAITLIM (R335). -/
  | settled (code arg limit : Nat)
  | molRoom
deriving DecidableEq, Repr

/-- A late report in a context's late queue (R379), with what its EINFO (R380, R373, R443) and its record (R386) need. -/
structure LateReport where
  cause : Nat
  sub : Nat
  seq : Nat
  reason : Nat
  rkind : Nat
  addr : Nat
  tag : Nat
  gts : Nat
deriving DecidableEq, Repr

/-- One context (R28). -/
structure Ctx where
  live : Bool
  parked : Bool
  /-- Address of the next pair (R71). -/
  pc : Word
  /-- Where the pair in progress sends the context (the model's own: fixed by each pair before its words act). -/
  npc : Word
  /-- Address of the pair issued last, which EPC names while the context waits in it (R379, R284). -/
  lastPc : Word
  /-- The pair in progress was reached by a control transfer (R373, cause 3). -/
  jumped : Bool
  s : Vector Word 32
  v : Vector VReg 64
  p : Vector (BitVec 32) 8
  k : Vector Nat 16
  t : Vector Nat 4
  h : Vector HReg 16
  /-- Outstanding long-latency writes, one entry each (R107): a register listed here is pending. -/
  pend : List RegId
  fixed : List FixedW
  /-- Unwritten destinations of loads, takes, amos, regions and inbox dequeues: the condition of `fence.acq` (R150). -/
  acq : List RegId
  /-- Requests ahead of the last `.ctx` release marker (R165, R170). -/
  behind : List Nat
  /-- ORC.NSEQ (R129). -/
  nseq : Nat
  /-- Sequence numbers of unacknowledged remote requests, oldest first; ORC.COUNT is their number (R129). -/
  out : List Nat
  /-- Outstanding line requests of vector loads, by load number (R137). -/
  vloads : Table Nat
  /-- DOM.LEVEL and DOM.ARR (R43). -/
  level : Nat
  arr : Bool
  /-- Requests that were outstanding at the arrival: the exchange waits for their acknowledgement (R46). -/
  arrOut : List Nat
  /-- A `gang` request recorded with the arrival: shape, origin x and y (R118). -/
  gangReq : Option (Nat × Nat × Nat)
  /-- A gang that did not form: EINFO of the trap due at the next pair (R383). -/
  gangFail : Option Nat
  /-- XB (R52). -/
  ovh : Nat
  bound : Nat
  /-- CSTAT (R127): SCNT, INH, SUSP, UW; the other fields are computed. -/
  scnt : Nat
  inh : Bool
  susp : Bool
  uw : Bool
  /-- CCTL (R128). -/
  ltk : Nat
  uwtrap : Bool
  epc : Word
  ecause : Word
  einfo : Word
  upcall : Word
  rqseq : Word
  /-- TID (R37). -/
  fen : Nat
  ctxNo : Nat
  task : Nat
  /-- Vector-register quota of a helper (R38); 64 for the control context. -/
  quota : Nat
  /-- Issue slots still owed to `dly` (R103). -/
  dlyRem : Nat
  region : Option Region
  wait : Wait
  /-- First cycle in which the context may take part in the choice of R41. -/
  readyAt : Nat
  lateQ : List LateReport
  /-- Reports lost to a full late queue since the last late trap (R379). -/
  lost : Nat
  /-- A fatal fault has stopped the context (R384), or a granule that it read has failed (R419); the cause of the fault. -/
  fatal : Bool
  fatalCause : Option Nat
  /-- The GTS at which the context began, which tells it from a later one in its slot. -/
  born : Nat
  /-- The entry of a software trap takes the next issue slot (R112, R374). -/
  entering : Bool
  /-- Cycles spent not issuing and cycles issuing, of the trace unit (R460). -/
  waitc : Nat
  slotc : Nat
deriving DecidableEq, Repr

/-! ### Messages -/

/-- The issuing context of a request. -/
structure Src where
  core : Nat
  ctx : Nat
  task : Nat
  fen : Nat
  hid : Nat
  born : Nat
deriving DecidableEq, Repr

/-- An entry of an inbox or a box (R155): KIND, byte 1, SEQ, SRC, 24 bytes of payload, the addressee CTX; the GTS at which
it was placed and the sending core and context, which order entries placed in one cycle (R267). -/
structure Entry where
  kind : Nat
  b1 : Nat
  seq : Nat
  src : Nat
  payload : BitVec 192
  ctxTo : Nat
  placed : Nat
  fromCore : Nat
  fromCtx : Nat
  /-- The snapshot that the entry carries (R173, R175). -/
  know : Seen
  /-- Its arrival number in the inbox (R336). -/
  no : Nat := 0
deriving DecidableEq, Repr

/-- Atomic operations (R142). -/
inductive AmoOp where
  | add | min | max | and | or | xor | swp | cas
deriving DecidableEq, Repr

/-- The parameter block of a streamer command (R280), fields as read. -/
structure Block where
  mode : Nat
  det : Bool
  dk : Nat
  span : Nat
  opx : Nat
  tag : Nat
  va : Nat
  loc : Nat
  rows : Nat
  rowb : Nat
  vstr : Int
  lstr : Nat
  aux : Nat
  geom : Nat
  upc : Nat
deriving DecidableEq, Repr

/-- The five streamer operations (R288 to R292), and the image of a `cspill`, which is one (R249). -/
inductive SKind where
  | get | put | gat | red | col | spill
deriving DecidableEq, Repr

/-- What a message asks of the unit it goes to. Addresses are those of R132. -/
inductive Body where
  | load (addr z : Nat) (sext : Bool) (d : Nat)
  | loadLine (addr : Nat) (lanes : List (Nat × Nat)) (v loadNo : Nat)
  | store (addr z val : Nat)
  | storeLine (addr : Nat) (lanes : List (Nat × Nat)) (wout : Option Nat)
  | take (addr d : Nat)
  | give (addr val : Nat)
  | feSet (addr : Nat) (f : Bool)
  | amo (op : AmoOp) (z : Nat) (uns : Bool) (addr b c d : Nat) (inst : Option (Nat × Nat))
  | red (op : AmoOp) (z : Nat) (uns : Bool) (addr b : Nat) (inst : Option (Nat × Nat))
  | region (line : Nat) (accs : List RegionAcc)
  | pantry (op : Nat) (addr d : Nat)
  | esig (counter val : Nat)
  | sig (imm val : Nat)
  | send (entry : Entry) (task : Nat)
  | hsend (entry : Entry) (task : Nat) (h : HVal)
  /-- A streamer command; of a `sgat`, the entries of its index table read so far, by row (R290). -/
  | command (kind : SKind) (blk : Block) (idx : Table Nat)
  | spill (row va : Nat) (compact : Bool)
  | fill (row va : Nat) (compact : Bool)
  | porch (op : Nat) (d : Nat) (arg : Nat) (blk : List Nat)
  /-- A correction of a directory (R349): the task and its core. -/
  | correct (task core : Nat)
deriving DecidableEq, Repr

/-- Where a message goes. -/
inductive Dst where
  | core (n : Nat)
  | event (cl : Nat)
  | task (cl task : Nat)
  | porch
  | streamer
  | cluster (cl : Nat)
deriving DecidableEq, Repr

/-- What has become of a request (R133): under way, answered with values, refused with a reason (R382). -/
inductive MsgSt where
  | going
  | answered (vals : List Nat)
  | refused (reason : Nat) (addr : Nat)
deriving DecidableEq, Repr

/-- A message in flight (R161): its source, the sequence number and PREV field (R133, R439), the core whose router holds
it, the stubs it has met (R349), the token it lowers, whether a sluice has caught it (R332). -/
structure Msg where
  src : Src
  seq : Nat
  pc : Nat
  prev : Option Nat
  dst : Dst
  at_ : Nat
  stubs : List Nat
  tok : Option TokRef
  body : Body
  st : MsgSt
  gts : Nat
  /-- The order guard has delivered it (R439). -/
  delivered : Bool
  caught : Bool
  /-- A detour has taken it one hop in X: its next hop is in Y (R438). -/
  detour : Bool
  remote : Bool
  /-- Requests of the context that must be performed first (R165). -/
  behind : List Nat
  /-- The core whose interface orders the item (R439), and the lineage entry of the handle that it goes through (R271). -/
  goal : Option Nat
  handle : Option Nat
  /-- The predictor's choice for a window atomic (R144): it executes near, not at its home. -/
  near : Bool
  /-- The snapshot that the message carries (R161). -/
  know : Seen
  /-- Home core, APPIDX and GTS of its application (R468), or of its refusal (R386). -/
  app : Option (Nat × Nat × Nat)
  /-- An `hsend` whose wait at an input has met its stall limit: it has been reported (R443). -/
  stalled : Bool := false
deriving DecidableEq, Repr

/-- A change that an instruction makes to a lineage entry (R260, R262): a new Live entry, another owner register, the states
that `hsend`, `hsplit`, `hjoin` and `hfree` give. -/
inductive LChange where
  | make (parent : Nat) (root side : Bool) (view : View) (task ctx reg hid : Nat)
  | reg (n : Nat)
  | send
  | split (child0 child1 : Nat)
  | joining
  | freeing
deriving DecidableEq, Repr

/-- What one completion does to its context. -/
inductive Act where
  | write (r : RegId) (val : Nat)
  | lane (v i val : Nat)
  | unpend (r : RegId)
  | acqDone (r : RegId)
  | lower (t : TokRef)
  | ack (seq : Nat)
  | ready
  /-- The context is ready in the next cycle (R139). -/
  | readyNext
  | handle (h : Nat) (r : HReg)
  | cisDone
  | wout (cl entry : Nat)
  /-- A lineage entry becomes Live in a register of the context (R262). -/
  | owner (cl entry reg : Nat)
  /-- A vector register takes a tile row as it is committed then (R231). -/
  | tileRow (v tile row : Nat)
  /-- A waiting `cadd` takes its tile row as it is committed then (R243). -/
  | addTile (cl no : Nat)
  /-- A lineage entry becomes Free (R262). -/
  | freeEntry (cl entry : Nat)
  /-- A change of a lineage entry is written into the table (R260). -/
  | lineage (cl entry : Nat) (ch : LChange)
  /-- Nodes join Seen of the core (R172, R174, R176, R177). -/
  | learn (know : Seen)
deriving DecidableEq, Repr

/-- A step of another unit or of the host, or an effect that stands in place of a pair: the rows of the opcode table
that have no encoding, as data that the agenda and later cycles can hold (log 1). -/
inductive Event where
  | replayedPair
  | lateTrap
  | upcall
  | helperRetire (core : Nat) (ctx : Nat)
  | taskEnd (core : Nat)
  | phaseComplete (hid : Nat) (level : Nat) (unit : Nat)
  | syncTLimit (core : Nat) (ctx : Nat)
  | planEntry (core : Nat) (idx : Nat)
  | remoteRequestPerform (id : Nat)
  | takeRetry (id : Nat)
  | replyReceive (id : Nat)
  | requestAck (id : Nat)
  | refusalReceive (id : Nat)
  | predictorDecay (core : Nat) (line : Nat)
  | esigAdd (id : Nat)
  | ewaitAnswer (core : Nat) (ctx : Nat)
  | msendDepart (id : Nat)
  | entryPlace (id : Nat)
  | inbxTLimit (core : Nat) (ctx : Nat)
  | boxWrite (core : Nat)
  | boxMoveBack (core : Nat)
  | stallTimeout (core : Nat)
  | matrixCommandStart (core : Nat)
  | matrixCommit (core : Nat)
  | mldBStart (core : Nat)
  | mldBDone (core : Nat)
  | cisternAddPath (cl : Nat)
  | cisternTapPath (cl : Nat)
  | scrubEnd (cl : Nat) (row : Nat)
  | spillComplete (cl : Nat) (row : Nat)
  | fillComplete (cl : Nat) (row : Nat)
  | hsendDepart (id : Nat)
  | hjoinComplete (core : Nat) (ctx : Nat) (reg : Nat)
  | hfreeComplete (cl : Nat) (entry : Nat)
  | streamerAccept (id : Nat)
  | streamerStep (op : Nat)
  | streamerComplete (op : Nat)
  | pantryCommit (op : Nat)
  | collectiveRun (hid : Nat) (colid : Nat)
  | registerWrite (off : Nat) (val : BitVec 64)
  | tkrCas (q : Nat) (cmp : BitVec 64) (new : BitVec 64)
  | cmt (q : Nat) (val : BitVec 64)
  | cancel (q : Nat) (val : BitVec 64)
  | schedulerTick
  | coreLoadAck (q : Nat) (t : Nat) (core : Nat)
  | groupStart (q : Nat) (t : Nat)
  | taskEndReport (core : Nat)
  | groupFree (q : Nat) (t : Nat)
  | recordWrite (q : Nat) (ring : Nat)
  | recordRetry (q : Nat) (ring : Nat)
  | ringHeadWrite (q : Nat) (ring : Nat) (val : BitVec 64)
  | swcmdSave (q : Nat) (val : BitVec 64)
  | swcmdRestore (q : Nat) (val : BitVec 64)
  | swcmdDisarm (q : Nat) (val : BitVec 64)
  | switchStop (hid : Nat)
  | sluiceClose (hid : Nat)
  | saveComplete (hid : Nat)
  | restoreResume (hid : Nat)
  | reinject (id : Nat)
  | stubForward (id : Nat)
  | stubCorrection (id : Nat)
  | pasidTeardown (q : Nat)
  | hostResponseDiscard (q : Nat)
  | waitArm (q : Nat) (val : BitVec 64)
  | watchRead (q : Nat)
  | watchYield (q : Nat)
  | pageResponse (q : Nat)
  | tdiStateChange (q : Nat) (st : Nat)
  | tinv (q : Nat) (val : BitVec 64)
  | tinvComplete (q : Nat)
  | gtsJoin (ref : Nat)
  | gtsCorrect (add : Bool)
  | leaseCas (cmp : BitVec 64) (new : BitVec 64)
  | coldReset
  | firstStageBoot (die : Nat)
  | getMeasurements
  | hostPortTrain (modes : BitVec 4)
  | kill (q : Nat) (val : BitVec 64)
  | warmReset
  | killStop (hid : Nat)
  | peatAllocate (hid : Nat)
  | peatFormed (hid : Nat)
  | pwrel (val : BitVec 64)
  | reviveResume (q : Nat) (t : Nat)
  | sramUe (kind : Nat) (holder : Nat) (addr : Nat)
  | patrolScrub (pa : Nat)
  | flitReceive (link : Nat) (seq : BitVec 12) (good : Bool)
  | nakReplay (link : Nat) (seq : BitVec 12)
  | retrainEnd (link : Nat) (up : Bool)
  | eventRecordWrite
  | rowActivate (pa : Nat)
  | backoffEnd (bank : Nat)
  | rowClose (bank : Nat)
  | refreshWindow (stack : Nat)
  | bankRefresh (bank : Nat)
  | heartbeat (stack : Nat)
  | refreshTakeover (stack : Nat)
  | sequencerRefresh (stack : Nat)
  | refreshHandback (stack : Nat)
  | pageMigrate (page : Nat)
  | sensorRead (die : Nat) (temp : Nat)
  | routerReceive (id : Nat)
  | orderRestoreDeliver (core : Nat)
  | securityAlarm (cls : Nat)
  | alarmAction (cls : Nat)
  | signatureCheck (q : Nat) (idx : Nat)
  | dbgunlk (q : Nat) (val : BitVec 64)
  | debugStop (core : Nat)
  | debugStopTake (core : Nat)
  | debugRun (core : Nat)
  | debugStep (core : Nat) (ctx : Nat)
  | debugSnapshot (core : Nat)
  | snapshotDone (core : Nat)
  | traceGtsTrigger (core : Nat)
  | droopDetect (die : Nat) (below : BitVec 32) (mv : BitVec 32)
  | molHeadReread (core : Nat) (ctx : Nat)
  | illegalOpcode (slot : Nat) (word : BitVec 32)
  | fetchTrap
  | householdCreate (hid : Nat) (q : Nat) (root : BitVec 64) (prot : Bool) (cred : BitVec 64)
  | householdDestroy (hid : Nat)
  | fenCreate (hid : Nat) (cx : Nat) (cy : Nat) (w : Nat) (ht : Nat)
  | fenEnd (hid : Nat) (idx : Nat)
  | hostCxlMemAccess (pa : Nat) (wr : Bool) (val : BitVec 64)
  | boardwalkPeerAccess (port : Nat) (hid : Nat) (va : Nat) (wr : Bool) (val : BitVec 64)
  | unsupportedAtomicop (off : Nat) (val : BitVec 64)
  | porchAnswer (id : Nat)
  | boxFetch (core : Nat) (ctx : Nat)
  | inboxServe (core : Nat) (ctx : Nat)
  | allBankRefreshEnd (stack : Nat)
  | migrationDone (page : Nat)
deriving DecidableEq, Repr

/-- A step or a completion that falls in a later cycle. -/
inductive DueEv where
  | done (core ctx : Nat) (acts : List Act)
  | step (i : Event)
deriving DecidableEq, Repr

structure Due where
  at_ : Nat
  ev : DueEv
deriving DecidableEq, Repr

/-! ### Units of a core -/

/-- An entry of the deferred list (R141): a waiting `take`, `pres` or `pacq` (R296) and its reply path. -/
structure Deferred where
  /-- 0 `take`, 1 `pres`, 2 `pacq`. -/
  op : Nat
  /-- Own-local-store address of the word or the descriptor. -/
  addr : Nat
  /-- The message of a window request; none for the core's own context. -/
  msg : Option Nat
  ctx : Nat
  d : Nat
  tok : TokRef
deriving DecidableEq, Repr

/-- A matrix command (R222), or `mzero` (R226). -/
structure MCmd where
  zero : Bool
  acc : Nat
  clr : Bool
  scl : Bool
  aaddr : Nat
  m : Nat
  k : Nat
  boff : Nat
  span : Nat
  rstr : Nat
  asoff : Nat
  bsoff : Nat
  tok : Option TokRef
  pc : Nat
  issued : Nat
deriving DecidableEq, Repr

/-- The running command (R229, R230): its sampled registers, the steps already in its working copy, the working copy's
rows and chunk index, and the suspect mark. -/
structure MRun where
  cmd : MCmd
  start : Nat
  mfa : Nat
  mfb : Nat
  msa : Nat
  msb : Nat
  steps : Nat
  work : List VReg
  idx : Nat
  suspect : Bool
  /-- Seen of the core at the start, and what the command's read steps returned, once they are taken: the local store and the B
  store (R236). -/
  know : Seen
  snap : Option (Memory × Memory)
deriving DecidableEq, Repr

/-- An `mld.b` (R225). -/
structure MLd where
  src : Nat
  dst : Nat
  lines : Nat
  tok : TokRef
  issued : Nat
  started : Option Nat
  /-- Lines written so far. -/
  wrote : Nat
deriving DecidableEq, Repr

/-- What the repetition buffer is doing (R119 to R121); a replay holds back its switching events until its end (R51). -/
inductive RbSt where
  | idle
  | recording (ctx left : Nat)
  | replaying (ctx pass passes idx : Nat) (stag : Word) (sw : Bool)
deriving DecidableEq, Repr

/-- A gang (R48): shape, origin, member cores in core order; the first is the leader. -/
structure Gang where
  shape : Nat
  ox : Nat
  oy : Nat
  members : List Nat
deriving DecidableEq, Repr

/-- A contention-predictor entry (R144). -/
structure Pred where
  contended : Bool
  since : Nat
deriving DecidableEq, Repr

/-- An atomic held in deterministic mode (R145). -/
structure HeldAmo where
  /-- The domain instance of the issuing core's control context at issue, and its superstep. -/
  key : Nat
  step : Nat
  core : Nat
  ctx : Nat
  seq : Nat
  /-- The message of a window request by number, and the request as it came. -/
  msg : Option Nat
  req : Option Msg
  op : AmoOp
  z : Nat
  uns : Bool
  addr : Nat
  b : Nat
  c : Nat
  d : Nat
  returning : Bool
  tok : TokRef
deriving DecidableEq, Repr

/-- The debug registers of a core (R453). -/
structure Debug where
  stopped : Bool
  armed : Bool
  stopAt : Nat
  steps : Nat
  lastCtx : Nat
  snapBusy : Bool
  gts : Nat
  /-- The context a step command names (R456). -/
  stepReq : Option Nat
  /-- A run command has reached the core in this cycle: it still counts as stopped in it (R454, R460). -/
  resume : Bool := false
deriving DecidableEq, Repr

/-- The trace registers of a core (R458, R461, R462). -/
structure Trace where
  ctl : Word
  base : Word
  idx : Word
  trig0 : Word
  trig1 : Word
  /-- The window is Open (R462): the GTS, context and pair of its start condition, pairs issued in it. -/
  winOpen : Bool
  start : Nat
  startCtx : Nat
  startPc : Nat
  pairs : Nat
  /-- Records that wait for a busy bank (R364). -/
  held : List (BitVec 256)
deriving DecidableEq, Repr

/-- An item that the order guard holds (R439): message number. -/
abbrev HeldItem := Nat

/-- One core (R28). -/
structure CoreSt where
  /-- The household whose task the core runs. -/
  hid : Option Nat
  /-- The queue and the ticket of the group that loaded the core. -/
  queue : Nat
  ticket : Nat
  /-- The task's control context has ended (R39). -/
  ended : Bool
  /-- Lineage entries freed at the task's end (R274). -/
  freed : Nat
  /-- DETCTL as the group took it at its dispatch (R467), and the log entries its pairs have reserved (R469). -/
  det : Nat
  molRes : Nat
  /-- TAIL of the memory-order log as the core keeps it, HEAD as the core last read it (R469), and the entries that still wait
  to be written (R363, R364). -/
  molTail : Nat
  molHead : Nat
  molQ : List Nat
  ctxs : Vector Ctx 11
  run : Nat
  pass : Bool
  gang : Option Gang
  ls : Memory
  /-- Local-store pages and B-store units that a write has reached, or whose FE bits have changed, since the load (R337):
  one bit each. -/
  pages : Nat
  units : Nat
  /-- Word numbers (address / 8) whose FE bit is 0, rising (R138). -/
  feEmpty : List Nat
  deferred : List Deferred
  /-- The window regions in progress: line, message and next access (R148). -/
  regions : List (Nat × Nat × Nat)
  /-- Lines locked for a near atomic, with its message (R144). -/
  locks : List (Nat × Nat)
  /-- The core's Seen set (R161), and the snapshots of entries in the overflow box by slot (R173). -/
  seen : Seen
  boxKnow : Table Seen
  /-- The published sets of pantry stages (R299): key 64·address of the descriptor + stage. -/
  stagePub : Table Seen
  b : Memory
  /-- Tile rows, key 64·tile + row (R230). -/
  tiles : Table VReg
  chunkIdx : Vector Nat 8
  mfa : Nat
  mfb : Nat
  msa : Nat
  msb : Nat
  mq : List MCmd
  mrun : Option MRun
  /-- Completion cycle of the entry ahead (R229). -/
  mlast : Nat
  mlds : List MLd
  mldLast : Nat
  mowner : Option Nat
  xpl : Nat
  planPhase : Nat
  /-- Plan entries of the current exchange still to be performed (R35). -/
  planTodo : List Nat
  /-- Bytes that the entries of KIND 1 in progress have written, by entry (R217). -/
  planDone : Table Nat
  /-- First cycle in which the B store's write port takes another streamer or plan line (R217). -/
  loftNext : Nat
  rb : List (BitVec 32)
  rbSt : RbSt
  inbox : List Entry
  /-- The next inbox arrival number (R336). -/
  arrNo : Nat
  /-- Entries that wait at the core's input, with their arrival GTS and their message (R442, R443). -/
  input : List (Entry × Nat × Option Nat)
  /-- Handlers and tokens of MODE 1 commands by context and sequence number: key 65,536·ctx + seq (R280, R284). -/
  upcs : Table (Nat × Option TokRef)
  pred : Table Pred
  cisOut : Nat
  heldAmos : List HeldAmo
  /-- LAST records, key 11·member + ctx (R439). -/
  last : Table Nat
  held : List HeldItem
  appIdx : Nat
  dbg : Debug
  trace : Trace
  /-- GTS, context and address of the pair that the core issued last (R465). -/
  lastPair : Option (Nat × Nat × Nat)
deriving DecidableEq, Repr

/-! ### Units of a cluster -/

/-- Group states (R253). -/
inductive GState where
  | undeclared | idle | scrub | spill | fill | frozen (was : Nat)
deriving DecidableEq, Repr

/-- A request at the cistern (R245). -/
structure CReq where
  arrive : Nat
  core : Nat
  ctx : Nat
  /-- 0 `cadd`, 1 `cscrub`, 2 `cspill`, 3 `cfill`, 4 `ctap`, 5 `cinfo`; 6 an automatic scrub (R450). -/
  op : Nat
  row : Nat
  seg : Nat
  /-- Source lanes of an add; γ of a tap (32 patterns). -/
  lanes : List Nat
  /-- Tile row of an add of form 1: 64·tile + row, read at t + 1 (R243). -/
  tile : Option Nat
  form : Nat
  d : Nat
  sel : Nat
  msg : Nat
  tok : Option TokRef
  pc : Nat
  /-- The number of the request (the model's own). -/
  no : Nat
deriving DecidableEq, Repr

/-- A cistern row group (R239). -/
structure CGroup where
  n : Nat
  eps : Nat
  per : Nat
  gaddr : Nat
  sum : Nat
  adds : Nat
  drift : Nat
  scrubs : Nat
  spills : Nat
  sinceScrub : Nat
  st : GState
  /-- Last cycle of a hold (R248). -/
  until_ : Nat
  /-- The request that holds the group. -/
  holder : Option CReq
  /-- The image bytes that a fill has read, the elements that it has written (R338), and its Seen set (R175). -/
  got : List Byte
  wrote : Nat
  know : Seen
  /-- DRCFG as the launch took it (R450). -/
  ascrub : Nat
  dsh : Nat
deriving DecidableEq, Repr

/-- States of a lineage entry (R262). -/
inductive LState where
  | free | live | sent | split | joining | freeing | frozen (was : Nat)
deriving DecidableEq, Repr

/-- A lineage entry (R261). -/
structure LEntry where
  st : LState
  side : Bool
  root : Bool
  parent : Nat
  child0 : Nat
  child1 : Nat
  ownTask : Nat
  ownCtx : Nat
  ownReg : Nat
  infl : Bool
  view : View
  wout : Nat
  /-- The household whose task made the entry. -/
  hid : Nat
  /-- Core, context and token of the `hjoin` or `hfree` that waits for the entry (R268, R269). -/
  waiter : Option (Nat × Nat × TokRef)
  /-- The knowledge set K (R177). -/
  know : Seen
deriving DecidableEq, Repr

/-- One cluster (R28): event counters (R151), cistern elements (key 16,384·row + element), groups by first row and waiting
requests (R239, R245), lineage table (R260), directory and forwarding stubs by task (R54, R349). -/
structure Cluster where
  counters : Table Nat
  elems : Table Nat
  groups : Table CGroup
  addQ : List CReq
  tapQ : List CReq
  /-- First cycle in which each path may apply another request (R245). -/
  addNext : Nat
  tapNext : Nat
  lineage : Table LEntry
  /-- Entries that an instruction has taken and that the table does not show yet (R260). -/
  taken : List Nat
  dir : Table Nat
  stubs : Table Nat
deriving DecidableEq, Repr

/-! ### Streamer operations and collectives -/

/-- A streamer operation (R339): its command, its owner (R278), its progress and its outcome. -/
structure SOp where
  src : Src
  seq : Nat
  pc : Nat
  tok : Option TokRef
  kind : SKind
  blk : Block
  /-- The entries of the index table of a `sgat` read so far, by row (R290). -/
  idx : Table Nat
  owner : Nat
  /-- Leading rows whose every element is done, and the elements done in the rows from there on, one bit each (R339). -/
  wm : Nat
  done : Nat
  /-- Elements read and not yet written; elements written outside the module and not yet acknowledged (R398). -/
  read : Table Nat
  sent : List Nat
  bytes : Nat
  /-- Refusal reason, 0 for none, and the address of the first refused step. -/
  status : Nat
  badVa : Nat
  /-- The GTS at which its pair issued (R398). -/
  issued : Nat
  /-- The operation's Seen set (R175). -/
  know : Seen
  /-- Requests of its context that must be performed first (R165). -/
  behind : List Nat
  /-- The GTS of the refusal (R386). -/
  badAt : Nat := 0
deriving DecidableEq, Repr

/-- A collective (R292): what its commands must agree in, its participants by IDX, and, once it runs, the number of steps
taken and the contributions read. -/
structure Coll where
  hid : Nat
  colid : Nat
  count : Nat
  kind : Nat
  va : Nat
  rows : Nat
  rowb : Nat
  ops : Table Nat
  pos : Nat
  data : List Nat
deriving DecidableEq, Repr

/-! ### Barriers -/

/-- A domain instance (R44): completed phases, whether the phase is in its exchange, its release time once fixed. -/
structure DomInst where
  phases : Nat
  exchange : Bool
  /-- Members whose arrival the exchange counts: core and context. -/
  members : List (Nat × Nat)
  release : Option Nat
deriving DecidableEq, Repr

/-! ### Households and queues -/

/-- A Fen (R30): identifier, rectangle in module cluster coordinates. -/
structure Fen where
  ident : Nat
  cx : Nat
  cy : Nat
  w : Nat
  h : Nat
deriving DecidableEq, Repr

/-- States of a task group (R309). -/
inductive GrpState where
  | waiting | ready | loading | running | draining | free | ended
deriving DecidableEq, Repr

/-- The launch descriptor's fields that scheduling and loading use (R306); the raw 128 bytes stand beside them. -/
structure Desc where
  raw : List Byte
  pri : Nat
  pin : Bool
  level : Nat
  ecls : Nat
  fidx : Nat
  eslot : Nat
  w : Nat
  h : Nat
  ox : Nat
  oy : Nat
  cmask : Nat
  tbase : Nat
  deps : List Nat
deriving DecidableEq, Repr

/-- A task of a revive group (R412): its table index, its new number, its cluster within the group's rectangle, its member. -/
structure ReviveTask where
  idx : Nat
  task : Nat
  x : Nat
  y : Nat
  member : Nat
deriving DecidableEq, Repr

/-- A task group of a queue (R309). -/
structure Group where
  ticket : Nat
  hid : Nat
  desc : Desc
  st : GrpState
  /-- Origin within the Fen, ready GTS, start GTS, dispatch GTS, charge and class (R311 to R317). -/
  ox : Nat
  oy : Nat
  readyGts : Nat
  start : Nat
  dispatched : Nat
  charge : Nat
  cls : Nat
  mcls : Nat
  /-- Cores that have still to acknowledge their load, and cores whose task has still to end. -/
  loads : List Nat
  runs : List Nat
  freed : Nat
  reported : Bool
  /-- A revive group (R412): the peat and the tasks taken. -/
  revive : Option (Nat × List ReviveTask)
  /-- DETCTL as the group took it at its dispatch (R467). -/
  det : Nat
  /-- A revive group whose tasks are loaded and wait for the resume (R413). -/
  held : Bool := false
deriving DecidableEq, Repr

/-! ### Frames and peats -/

/-- A section of a frame or a peat (R334, R403): KIND, SUB, HOLDER, LABEL and its plain payload. -/
structure Section where
  kind : Nat
  sub : Nat
  holder : Nat
  label : Nat
  payload : List Byte
deriving DecidableEq, Repr

/-- A task of a peat (R404): its number, core and label, whether it had ended, the culprit mark. -/
structure PeatTask where
  task : Nat
  core : Nat
  label : Nat
  ended : Bool
  culprit : Bool
deriving DecidableEq, Repr

/-- What the holders of a household held at a stop, taken off them (R330, R333, R403), with the sections written from it:
a frame or a peat gives bytes to part of it, and the model carries the rest beside them (log 7). -/
structure Frozen where
  hid : Nat
  /-- The stop GTS (R329, R393). -/
  stop : Nat
  cores : Table CoreSt
  clusters : Table Cluster
  doms : Table DomInst
  /-- The write graphs of its local stores, counters and rows, and its published sets (R161). -/
  order : List (Loc × Graph)
  pub : Table Seen
  bag : Table Msg
  ops : Table SOp
  colls : List Coll
  /-- Events owed, each with the cycles from the stop to it (R331). -/
  due : List Due
  groups : List Group
  fens : Table Fen
  place : Table (Nat × Nat)
  sections : List Section
deriving DecidableEq, Repr

/-- A household (R30, R341): page-table root, protection, keys, credential, Fens by index, placement table (task number to
Fen index and core, R54, R317), its peat mounts, unlocked mark (R452), tag-failure times (R446). -/
structure Household where
  alive : Bool
  queue : Nat
  root : Nat
  prot : Bool
  tdi : Nat
  hsk : Option (BitVec 256)
  pk : Option (BitVec 256)
  /-- The region key of a TDISP-bound household (R358); the GTS at which its keys go (R343, R446). -/
  region : Option (BitVec 256)
  eraseAt : Option Nat
  cred : BitVec 64
  fens : Table Fen
  place : Table (Nat × Nat)
  unlocked : Bool
  tagFails : List Nat
  /-- Stopped: from the stop of a switch or a kill on, and while a restore loads it, nothing of the household happens but
  what its caught messages do (R330, R346); the events owed then, each with the cycles from the stop to it (R331). -/
  asleep : Bool
  slept : List Due
  stopped : Nat
  /-- The resume GTS of a restore once it is fixed (R346). -/
  resumeAt : Option Nat
  /-- The saved household's state beside its frame. -/
  frozen : Option Frozen
  /-- The core and context whose fatal fault fixed the kill (R399). -/
  culprit : Option (Nat × Nat)
  /-- Entries of memory-order logs whose task has ended and that wait to be written (R363, R468): base of the log, TAIL, entry. -/
  molLate : List (Nat × Nat × Nat) := []
deriving DecidableEq, Repr

/-- One ring of a queue (R353): base, size exponent, written and consumed counts, held records in order, refused mark. -/
structure Ring where
  base : Nat
  log2n : Nat
  tail : Nat
  head : Nat
  /-- Held records (32 bytes each) with what is acknowledged when the record is stored: the message of a `sig`. -/
  held : List (BitVec 256 × Option Nat)
  refused : Bool
  /-- The cycle of the periodic retry of a refused record (R353). -/
  retryAt : Option Nat
deriving DecidableEq, Repr

/-- What a save or a kill waits for (R329, R391). -/
inductive StopAt where
  | none
  | at_ (g : Nat)
  /-- Counted from the start of the next group that is dispatched; then, from that of the group with a ticket. -/
  | rel (n : Nat)
  | load (n ticket : Nat)
deriving DecidableEq, Repr

/-- One submission queue block (R301, R322, R351, R385, R391, R441, R443, R450, R451, R452, R467, R468). -/
structure QueueSt where
  rbase : Nat
  en : Bool
  hid : Option Nat
  next : Nat
  intk : Nat
  /-- Tickets committed and not yet taken in; tickets whose slot is marked cancelled (R319). -/
  commits : List Nat
  cancels : List Nat
  /-- CHEAD and the completion ring. -/
  comp : Ring
  sig : Ring
  fault : Ring
  swva : Nat
  swgts : Nat
  swState : Nat
  swArm : Bool
  swResult : Nat
  swlast : Nat
  resgts : Nat
  savecnt : Nat
  stop : StopAt
  /-- The frame address a save or a restore has taken (R324). -/
  frameVa : Nat
  compact : Bool
  pvalid : Bool
  ptorn : Bool
  pasid : Nat
  /-- Host requests issued under a PASID that has been cleared, still without a response (R352). -/
  discards : Nat
  ringsTorn : Bool
  /-- QCFG has been written with EN = 0 since the rings were torn (R352). -/
  tornOff : Bool
  waitVa : Nat
  waitVal : Nat
  waitTicket : Nat
  waitState : Nat
  waitSlot : Option Nat
  waitFault : Option Nat
  tinvVa : Nat
  tinvSize : Nat
  tinvBusy : Bool
  klast : Nat
  killStop : StopAt
  /-- WHEN of an armed KILL with REL = 1, and the ticket of the group dispatched since (R391). -/
  killRel : Option (Nat × Option Nat)
  peat : Nat
  peatResult : Nat
  peatState : Nat
  killReason : Nat
  /-- The kill has come: the stop is made, or the household was stopped already (R393). -/
  killed : Bool
  /-- Revive groups that wait for their ticket to be taken in, with the message of their `previve` (R412). -/
  revives : List (Group × Nat)
  pgrant : Nat
  ovfb : Nat
  stallt : Nat
  ascrub : Nat
  dsh : Nat
  sigbBase : Nat
  sigbCount : Nat
  detctl : Nat
  molb : Nat
  /-- Energy table by ESLOT: class of a valid entry (R314). -/
  energy : Table Nat
  groups : List Group
  /-- STATUS of finished tickets (R310). -/
  finished : Table Nat
deriving DecidableEq, Repr

/-- A peat (R402, R403) and what the Porch keeps beside it (R401, R411, R412). -/
structure Peat where
  hid : Nat
  forming : Bool
  formed : Bool
  k : Nat
  stop : Nat
  reason : Nat
  flags : Nat
  base : Nat
  units : Nat
  bytes : Nat
  sealed_ : Bool
  pk : Option (BitVec 256)
  root : Nat
  /-- Task-table indices that have been revived (R411). -/
  revived : List Nat
  tasks : List PeatTask
  /-- Label entries (R404): section, item, label, cause, sequence number, detail. -/
  labels : List (Nat × Nat × Nat × Nat × Nat × Nat)
  /-- The taken state of the household and the sections written, in index order. -/
  frozen : Option Frozen
  sections : List Section
  /-- The 128 bytes of its header, and the number of sections of the complete peat. -/
  header : List Byte
  nsec : Nat
  /-- The image of a sealed peat with its sections in clear, as a mount reads it (R409). -/
  clear : List Byte
  /-- The queue whose TDI was in RUN when the household was destroyed: PK goes when that TDI leaves RUN (R405). -/
  tdi : Option Nat := none
deriving DecidableEq, Repr

/-- A mount of a peat (R409). -/
structure Mount where
  hid : Nat
  slot : Nat
  peat : Nat
  va : Nat
  pages : Nat
deriving DecidableEq, Repr

/-- A last-level TLB entry (R361). -/
structure TlbEntry where
  die : Nat
  hid : Nat
  va : Nat
  level : Nat
  entry : Nat
deriving DecidableEq, Repr

/-- One link (R423 to R426): error counters, state, the receiver's next expected flit, the sender's replay buffer, the
NAK run of its head flit and the failed retrainings. -/
structure Link where
  replay : Nat
  fecc : Nat
  retrain : Nat
  st : Nat
  expect : Nat
  buf : List Nat
  naks : Nat
  nakSeq : Nat
  fails : Nat
  retraining : Bool
  /-- Crossings of a Causeway link that retrain, each a pair of cores, and the retrainings in a row that each has failed (R438). -/
  xtrain : List ((Nat × Nat) × Nat) := []
deriving DecidableEq, Repr

/-- One HBM stack (R421, R430 to R436): counters, HMCFG, the last heartbeat and the first of an unbroken run of heartbeats,
the cycle in which the sequencer took over, the refreshes it has issued since, the end of its all-bank refresh, the
tracker's counts by page for the window they belong to, and the spare pages taken. -/
structure Stack where
  odc : Nat
  ce : Nat
  ue : Nat
  rmgt : Nat
  hotth : Nat
  th : Nat
  heartbeat : Nat
  beatsFrom : Nat
  takeover : Option Nat
  sequenced : Nat
  busyUntil : Nat
  hot : Table Nat
  window : Nat
  spares : Nat
deriving DecidableEq, Repr

/-- One HBM bank (R430, R431): the open row and its last access, ACT by row for the window they belong to, the first cycle
after the back-off, the hold of R433, the cycle of the last activation that reached TH, the last per-bank refresh, and the
first cycles not yet counted by R464 (refresh and back-off). -/
structure Bank where
  openRow : Option Nat
  lastAccess : Nat
  acts : Table Nat
  window : Nat
  backoff : Nat
  held : Bool
  thAt : Option Nat
  refreshed : Nat
  waitRef : Nat
  waitBof : Nat
deriving DecidableEq, Repr

/-- One die (R364, R369, R314, R422, R465). -/
structure Die where
  cwinOffset : Nat
  cce : Nat
  cue : Nat
  sce : Nat
  sue : Nat
  fenx : Nat
  meas0 : List Byte
  booted : Bool
  outOfService : Bool
  /-- The Hearth's SRAM and pc (R369). -/
  hearth : Memory
  hearthPc : Nat
  overheat : Bool
  droops : Nat
  /-- The GTS of the last droop capture. -/
  captured : Option Nat
deriving DecidableEq, Repr

/-- The Porch's module registers and stores (R301, R315, R367, R401, R428, R446, R449, R457, R464 to R466). -/
structure Porch where
  mbudBase : Nat
  mbudLimit : Nat
  thr : Nat
  age : Nat
  echg : Nat
  leaseHolder : Nat
  leaseExpiry : Nat
  /-- The GTS at which the lease was last taken or renewed (R368). -/
  leaseFrom : Nat
  pwbSize : Nat
  pwbBase : Nat
  pwNext : Nat
  mev : Ring
  mevLost : Nat
  almpol : Nat
  almstat : Nat
  dispatchOff : Bool
  dbgva : Nat
  bdsel : Nat
  bdval : Table Nat
  drpb : Nat
  drpEn : Bool
  slog : Ring
  slogLost : Nat
  /-- SLOGB.SYNC (R466). -/
  slogSync : Bool
  quar : Nat
  /-- The module identifier, whether the leader has set it (R366, R367), and the identifiers of the other modules of the
  Boardwalk: those are fixed from outside. -/
  moduleId : Nat
  named : Bool
  peerIds : List Nat
  mode : Option Nat
  gtsJoined : Bool
  /-- Every Hearth has ended its first stage (R370); a group has been dispatched since. -/
  started : Bool
  dispatched : Bool
  /-- The last answer to SPDM GET_MEASUREMENTS (R370). -/
  answer : List Byte
  /-- The last value that a read through CXL.mem returned (R350), the last answer to a peer: refusal reason and value (R348,
R365), and the non-fatal uncorrectable AER errors reported (R363). -/
  cxlData : Nat
  peerAnswer : Nat × Nat
  aer : Nat
  /-- The GTS of the last correction of the module's count (R366), and the value that the last count added steps over. -/
  corrected : Option Nat
  skipped : Option Nat
deriving DecidableEq, Repr

/-! ### The reset values of contexts and units -/

def HVal.none : HVal := { cluster := 0, root := false, side := false, parent := 0, entry := 0 }
def View.none : View := { typ := 0, nax := 0, base := 0, window := false, home := 0, org := [], ext := [], dims := [] }
/-- An Empty handle register (R33). -/
def HReg.reset : HReg := { st := .empty, val := HVal.none, view := View.none }

/-- A context that is not live, every register at its reset value; log 4 names the values the spec does not give. -/
def Ctx.reset : Ctx :=
  { live := false, parked := false, pc := 0, npc := 0, lastPc := 0, jumped := false,
    s := Vector.replicate 32 0, v := Vector.replicate 64 0, p := Vector.replicate 8 0,
    k := Vector.replicate 16 0, t := Vector.replicate 4 0, h := Vector.replicate 16 HReg.reset,
    pend := [], fixed := [], acq := [], behind := [], nseq := 0, out := [], vloads := [], level := 0, arr := false, arrOut := [], gangReq := none,
    gangFail := none,
    ovh := 0, bound := 0, scnt := 0, inh := false, susp := false, uw := false, ltk := 15, uwtrap := false,
    epc := 0, ecause := 0, einfo := 0, upcall := 0, rqseq := 0, fen := 0, ctxNo := 0, task := 0,
    quota := 64, dlyRem := 0, region := none, wait := .none, readyAt := 0, lateQ := [], lost := 0,
    fatal := false, fatalCause := none, born := 0, entering := false, waitc := 0, slotc := 0 }

def Debug.reset : Debug :=
  { stopped := false, armed := false, stopAt := 0, steps := 0, lastCtx := 0, snapBusy := false, gts := 0, stepReq := none }
def Trace.reset : Trace :=
  { ctl := 0, base := 0, idx := 0, trig0 := 0, trig1 := 0, winOpen := false, start := 0, startCtx := 0,
    startPc := 0, pairs := 0, held := [] }

/-- A core that runs no task. MFA and MFB are 9 (R218). -/
def CoreSt.reset : CoreSt :=
  { hid := none, queue := 0, ticket := 0, ended := false, freed := 0, det := 0, molRes := 0, molTail := 0, molHead := 0, molQ := [],
    ctxs := Vector.replicate 11 Ctx.reset, run := 0, pass := false,
    gang := none, ls := [], pages := 0, units := 0, feEmpty := [], deferred := [], regions := [], locks := [], seen := [], boxKnow := [],
    stagePub := [], b := [], tiles := [],
    chunkIdx := Vector.replicate 8 0, mfa := 9, mfb := 9, msa := 0, msb := 0, mq := [], mrun := none, mlast := 0,
    mlds := [], mldLast := 0, mowner := none, xpl := 0, planPhase := 0, planTodo := [], planDone := [], loftNext := 0, rb := [], rbSt := .idle,
    inbox := [], arrNo := 0, input := [], upcs := [], pred := [], cisOut := 0, heldAmos := [], last := [], held := [],
    appIdx := 0, dbg := Debug.reset, trace := Trace.reset, lastPair := none }

def LEntry.reset : LEntry :=
  { st := .free, side := false, root := false, parent := 0, child0 := 0, child1 := 0, ownTask := 0, ownCtx := 0,
    ownReg := 0, infl := false, view := View.none, wout := 0, hid := 0, waiter := none, know := [] }
def CGroup.reset : CGroup :=
  { n := 0, eps := 0, per := 0, gaddr := 0, sum := 0, adds := 0, drift := 0, scrubs := 0, spills := 0, sinceScrub := 0,
    st := .undeclared, until_ := 0, holder := none, got := [], wrote := 0, know := [], ascrub := 0, dsh := 24 }
def Cluster.reset : Cluster :=
  { counters := [], elems := [], groups := [], addQ := [], tapQ := [], addNext := 0, tapNext := 0, lineage := [], taken := [], dir := [],
    stubs := [] }
def DomInst.reset : DomInst := { phases := 0, exchange := false, members := [], release := none }

def Household.reset : Household :=
  { alive := false, queue := 0, root := 0, prot := false, tdi := 0, hsk := none, pk := none, region := none, eraseAt := none, cred := 0, fens := [],
    place := [], unlocked := false, tagFails := [], asleep := false, slept := [], stopped := 0, resumeAt := none, frozen := none, culprit := none }

def Ring.reset : Ring := { base := 0, log2n := 0, tail := 0, head := 0, held := [], refused := false, retryAt := none }
/-- STALLT resets to 1,900,000 (R443), DRCFG.DSH to 24 (R450). -/
def QueueSt.reset : QueueSt :=
  { rbase := 0, en := false, hid := none, next := 0, intk := 0, commits := [], cancels := [], comp := Ring.reset,
    sig := Ring.reset, fault := Ring.reset, swva := 0, swgts := 0, swState := 0, swArm := false, swResult := 0, swlast := 0,
    resgts := 0, savecnt := 0, stop := .none, frameVa := 0, compact := false, pvalid := false, ptorn := false, pasid := 0,
    discards := 0, ringsTorn := false, tornOff := false, waitVa := 0, waitVal := 0, waitTicket := 0, waitState := 0, waitSlot := none,
    waitFault := none, tinvVa := 0, tinvSize := 0, tinvBusy := false, klast := 0, killStop := .none, killRel := none, peat := 0,
    peatResult := 0, peatState := 0, killReason := 0, killed := false, revives := [], pgrant := 0, ovfb := 0, stallt := 0x1CFDE0,
    ascrub := 0, dsh := 24,
    sigbBase := 0, sigbCount := 0, detctl := 0, molb := 0, energy := [], groups := [], finished := [] }
def Peat.reset : Peat :=
  { hid := 0, forming := false, formed := false, k := 0, stop := 0, reason := 0, flags := 0, base := 0, units := 0,
    bytes := 0, sealed_ := false, pk := none, root := 0, revived := [], tasks := [], labels := [], frozen := none, sections := [],
    header := [], nsec := 0, clear := [] }
def Link.reset : Link :=
  { replay := 0, fecc := 0, retrain := 0, st := 0, expect := 0, buf := [], naks := 0, nakSeq := 0, fails := 0,
    retraining := false }
/-- HMCFG resets to HOTTH 8 and TH 2,048 (R432). -/
def Stack.reset : Stack :=
  { odc := 0, ce := 0, ue := 0, rmgt := 0, hotth := 8, th := 2048, heartbeat := 0, beatsFrom := 0, takeover := none,
    sequenced := 0, busyUntil := 0, hot := [], window := 0, spares := 0 }
def Bank.reset : Bank :=
  { openRow := none, lastAccess := 0, acts := [], window := 0, backoff := 0, held := false, thAt := none, refreshed := 0,
    waitRef := 0, waitBof := 0 }
def Die.reset : Die :=
  { cwinOffset := 0, cce := 0, cue := 0, sce := 0, sue := 0, fenx := 0, meas0 := List.replicate 64 0, booted := false,
    outOfService := false, hearth := [], hearthPc := 0, overheat := false, droops := 0, captured := none }
/-- LIMIT 3,400,000 (R315), AGE 32 (R311), HOLDER 7 (R367), PWSTAT.NEXT 1 (R401), ALMPOL (R446). -/
def Porch.reset : Porch :=
  { mbudBase := 0, mbudLimit := 0x33E140, thr := 0, age := 32, echg := 0, leaseHolder := 7, leaseExpiry := 0, leaseFrom := 0, pwbSize := 0,
    pwbBase := 0, pwNext := 1, mev := Ring.reset, mevLost := 0, almpol := 0b0101101010, almstat := 0, dispatchOff := false,
    dbgva := 0, bdsel := 0, bdval := [], drpb := 0, drpEn := false, slog := Ring.reset, slogLost := 0, slogSync := false, quar := 0,
    moduleId := 0, named := false, peerIds := [],
    mode := none, gtsJoined := false, started := false, dispatched := false, answer := [], cxlData := 0, peerAnswer := (0, 0), aer := 0,
    corrected := none, skipped := none }

/-! ### The module -/

/-- What became of the word in progress: it has issued, its pair waits (on the wait field, or on a condition of the
instruction's own), or it has entered a trap of a cause. The step reads it to make a pair issue whole or not at all (R76). -/
inductive Latch where
  | issued
  | waits (field : Bool)
  | trapped (cause : Nat)
deriving DecidableEq, Repr

/-- The state of the module (R28) and the model's own fields `focus` to `latch` (log 1, log 3). -/
structure State where
  /-- The global timestamp (R131), unbounded (log 8). -/
  gts : Nat
  /-- The stops of this cycle have been made, and its other events and turns laid out (log 1). -/
  begun : Bool
  /-- The core whose turn it is. -/
  focus : Nat
  /-- The cores that have still to take their turn in this cycle, in core order (log 9). -/
  turn : List Nat
  /-- Steps of other units and of the host to be taken before the next pair (log 1). -/
  agenda : List Event
  /-- Steps and completions of later cycles. -/
  due : List Due
  /-- Messages in flight by number (R161). -/
  bag : Table Msg
  /-- Counter of the free values drawn so far (log 3). -/
  ctr : Nat
  latch : Latch
  /-- Memory by physical address (R360), host memory and peer memory (R359). -/
  pa : Memory
  host : Memory
  peer : Memory
  /-- The write graphs of the locations that have been written (R161, R162), and the published sets by household, scope and
  unit: key of `doms` (R169). -/
  order : List (Loc × Graph)
  pub : Table Seen
  cores : Table CoreSt
  clusters : Table Cluster
  /-- Domain units by household, level and unit: key (16·hid + level)·65,536 + unit (R44). -/
  doms : Table DomInst
  households : Table Household
  ops : Table SOp
  colls : List Coll
  queues : Table QueueSt
  peats : Table Peat
  mounts : List Mount
  tlb : List TlbEntry
  links : Table Link
  hbmStacks : Table Stack
  banks : Table Bank
  dies : Table Die
  porch : Porch
  /-- Mesh links removed (R438), as the two core numbers they join. -/
  removed : List (Nat × Nat)
  /-- Atoms with the poison bit set, and the bits in error of atoms that no access has met yet (R416): errors come from
  outside. -/
  poison : List Nat
  errors : Table Nat
  /-- Bits in error inside the stack by atom, which the on-die code meets first, and granules of SRAM with one bit in error:
  unit, core or cluster, address (R415). -/
  dieErrors : Table Nat
  sramErrors : List (Nat × Nat × Nat)
  /-- Spare slots of migrated pages and of pages being copied (R435). -/
  remap : Table Nat
  copying : Table Nat
  /-- Peer-mapped pages, as household and page number (R365), and the peer module that each Boardwalk port reaches, the
  port's own number when none is listed (R440): both are fixed from outside. -/
  peerPages : List (Nat × Nat)
  cabling : Table Nat
  /-- Pages of peers that the peer refuses, as port and page number (R348, R365): fixed from outside. -/
  peerDenied : List (Nat × Nat × Nat)
  /-- Host pages that are not resident, as PASID and page number (R357): fixed from outside. -/
  hostAbsent : List (Nat × Nat)
  /-- Failed granules of holders (R419): unit, core or cluster, address in it. -/
  failed : List (Nat × Nat × Nat × Nat)
deriving DecidableEq, Repr

/-- What goes on by itself from reset, each with its first cycle: the heartbeats of the management cores and the takeover that none
of them prevents (R433), refresh windows (R430), per-bank refresh (R433), and the patrol scrub of stacks and Cellars (R420). Each comes
again (`State.rearm`). -/
def resetDue : List Due :=
  ((List.range 8).map (fun n => Due.mk 950 (.step (.heartbeat n)))) ++
    ((List.range 8).map (fun n => Due.mk 3800 (.step (.refreshTakeover n)))) ++
    ((List.range 8).map (fun n => Due.mk 29687 (.step (.bankRefresh (2048 * n))))) ++
    ((List.range 8).map (fun n => Due.mk 76441 (.step (.patrolScrub (262144 * n))))) ++
    ((List.range 4).map (fun d => Due.mk 4892227 (.step (.patrolScrub (2 ^ 40 + 2 ^ 30 * d))))) ++
    ((List.range 8).map (fun n => Due.mk 60800000 (.step (.refreshWindow n))))
/-- The module right after a cold reset; each Hearth has its first stage to run (R369). -/
def State.reset : State :=
  { gts := 0, begun := false, focus := 0, turn := [],
    agenda := [.firstStageBoot 0, .firstStageBoot 1, .firstStageBoot 2, .firstStageBoot 3, .firstStageBoot 4], due := resetDue, bag := [],
    ctr := 0, latch := .issued, pa := [], host := [],
    peer := [], order := [], pub := [], cores := [], clusters := [], doms := [], households := [], ops := [], colls := [],
    queues := [], peats := [], mounts := [], tlb := [], links := [], hbmStacks := [], banks := [], dies := [],
    porch := Porch.reset, removed := [], poison := [], errors := [], dieErrors := [], sramErrors := [], remap := [],
    copying := [], peerPages := [], cabling := [], peerDenied := [], hostAbsent := [], failed := [] }

/-- Why a run stops. -/
inductive Fault where
  /-- Raised by HOST_CXL_MEM_ACCESS and PATROL_SCRUB for a device address that R360 does not give to any memory: safe. -/
  | noSuchAddress (pa : Nat)
deriving DecidableEq, Repr

/-- Why an instruction has no meaning. -/
inductive Refusal where
  /-- Raised by an arm of `exec` that has no meaning yet: safe. -/
  | notModelled (mnemonic : String)
deriving DecidableEq, Repr

end Sys2Proof.Machine
end

