-- ==== Sys2Proof/Machine/Ops.lean ====
section
/-! DEFINITION. The named operations over tables, memories, registers, tokens and requests, and taking a trap (R374) with
the return from one (R375). -/
namespace Sys2Proof.Machine

/-! ### Tables -/

/-- The entry at a key. -/
def tfind {α : Type} (t : Table α) (k : Nat) : Option α :=
  match t with
  | [] => none
  | (k', v) :: rest => if k' = k then some v else tfind rest k
/-- The entry at a key, or a default. -/
def tget {α : Type} (t : Table α) (d : α) (k : Nat) : α := (tfind t k).getD d
/-- Replaces or inserts in key order. -/
def tput {α : Type} (t : Table α) (k : Nat) (v : α) : Table α :=
  match t with
  | [] => [(k, v)]
  | (k', v') :: rest =>
    if k' = k then (k, v) :: rest
    else if k < k' then (k, v) :: (k', v') :: rest
    else (k', v') :: tput rest k v
/-- Removes every entry at a key. -/
def tdel {α : Type} (t : Table α) (k : Nat) : Table α :=
  match t with
  | [] => []
  | (k', v') :: rest => if k' = k then tdel rest k else (k', v') :: tdel rest k

/-! ### Memories -/

/-- One byte: the listed one, else what an unlisted byte reads as. -/
def Memory.read (m : Memory) (a : Nat) : Byte :=
  match m with
  | [] => unlisted
  | (a', b) :: rest => if a' = a then b else Memory.read rest a
/-- Writes one byte and keeps the canonical form. -/
def Memory.write (m : Memory) (a : Nat) (b : Byte) : Memory :=
  match m with
  | [] => if b = unlisted then [] else [(a, b)]
  | (a', b') :: rest =>
    if a' = a then (if b = unlisted then rest else (a, b) :: rest)
    else if a < a' then (if b = unlisted then (a', b') :: rest else (a, b) :: (a', b') :: rest)
    else (a', b') :: Memory.write rest a b
/-- n bytes from a as one little-endian value (R5, R10). -/
def Memory.readN (m : Memory) (a n : Nat) : Nat :=
  match n with
  | 0 => 0
  | k + 1 => (m.read a).toNat + 256 * Memory.readN m (a + 1) k
/-- Writes the low 8·n bits of a value to n bytes from a, little-endian (R5, R11). -/
def Memory.writeN (m : Memory) (a n val : Nat) : Memory :=
  match n with
  | 0 => m
  | k + 1 => Memory.writeN (m.write a (BitVec.ofNat 8 val)) (a + 1) k (val / 256)
/-- Writes bytes from a upward. -/
def Memory.writeBytes (m : Memory) (a : Nat) (bs : List Byte) : Memory :=
  match bs with
  | [] => m
  | b :: rest => Memory.writeBytes (m.write a b) (a + 1) rest
/-- n bytes from a upward. -/
def Memory.readBytes (m : Memory) (a n : Nat) : List Byte := (List.range n).map (fun i => m.read (a + i))
/-- The n low bytes of a value, the lowest first. -/
def bytesOf (n val : Nat) : List Byte :=
  match n with
  | 0 => []
  | k + 1 => BitVec.ofNat 8 val :: bytesOf k (val / 256)
/-- The little-endian value of bytes. -/
def natOfBytes (bs : List Byte) : Nat :=
  match bs with
  | [] => 0
  | b :: rest => b.toNat + 256 * natOfBytes rest
/-- n bits of a value from bit lo up. -/
def bits (val lo n : Nat) : Nat := (val >>> lo) % 2 ^ n
/-- Bit i of a value. -/
def bit (val i : Nat) : Bool := val.testBit i
/-- A 64-bit address as a signed number. -/
def sext64 (n v : Nat) : Word := (BitVec.ofNat n v).signExtend 64

/-! ### Geometry (R15, R19 to R22) -/

def dieOf (core : Nat) : Nat := core / 1280
def rowOf (core : Nat) : Nat := core % 1280 / 40
def colOf (core : Nat) : Nat := core % 1280 % 40
/-- Global cluster number (R19). -/
def clusterOf (core : Nat) : Nat := 80 * dieOf core + 10 * (rowOf core / 4) + colOf core / 4
/-- Global quadrant number (R20). -/
def quadOf (core : Nat) : Nat := 4 * dieOf core + 2 * (rowOf core / 16) + colOf core / 20
/-- Member index (R21). -/
def memberOf (core : Nat) : Nat := 4 * (rowOf core % 4) + colOf core % 4
/-- Module coordinates (R22). -/
def modX (core : Nat) : Nat := 40 * (dieOf core % 2) + colOf core
def modY (core : Nat) : Nat := 32 * (dieOf core / 2) + rowOf core
/-- The core at module coordinates. -/
def coreAt (x y : Nat) : Nat := 1280 * (2 * (y / 32) + x / 40) + 40 * (y % 32) + x % 40
/-- The core of a cluster's member (R19, R21). -/
def coreIn (cl member : Nat) : Nat :=
  1280 * (cl / 80) + 40 * (4 * (cl % 80 / 10) + member / 4) + 4 * (cl % 80 % 10) + member % 4
/-- Module cluster coordinates (R22). -/
def clX (cl : Nat) : Nat := 10 * (cl / 80 % 2) + cl % 80 % 10
def clY (cl : Nat) : Nat := 8 * (cl / 80 / 2) + cl % 80 / 10
/-- The cluster at module cluster coordinates. -/
def clAt (x y : Nat) : Nat := 80 * (2 * (y / 8) + x / 10) + 10 * (y % 8) + x % 10
/-- CPOS (R24). -/
def cpos (core : Nat) : Nat :=
  clusterOf core * 2 ^ 36 + quadOf core * 2 ^ 32 + memberOf core * 2 ^ 28 + dieOf core * 2 ^ 26 + rowOf core * 2 ^ 21 +
    colOf core * 2 ^ 15 + core

/-! ### Cores, contexts, clusters -/

def State.coreOf (s : State) (c : Nat) : CoreSt := tget s.cores CoreSt.reset c
def State.setCore (s : State) (c : Nat) (x : CoreSt) : State := { s with cores := tput s.cores c x }
def State.onCore (s : State) (c : Nat) (f : CoreSt → CoreSt) : State := s.setCore c (f (s.coreOf c))
def CoreSt.ctx (x : CoreSt) (i : Nat) : Ctx := x.ctxs[i]?.getD Ctx.reset
def CoreSt.setCtx (x : CoreSt) (i : Nat) (c : Ctx) : CoreSt := { x with ctxs := x.ctxs.setIfInBounds i c }
def State.ctxOf (s : State) (c i : Nat) : Ctx := (s.coreOf c).ctx i
def State.setCtx (s : State) (c i : Nat) (x : Ctx) : State := s.setCore c ((s.coreOf c).setCtx i x)
def State.onCtx (s : State) (c i : Nat) (f : Ctx → Ctx) : State := s.setCtx c i (f (s.ctxOf c i))
/-- The core whose turn it is, and its running context: what an instruction acts on. -/
def State.here (s : State) : CoreSt := s.coreOf s.focus
def State.onHere (s : State) (f : CoreSt → CoreSt) : State := s.onCore s.focus f
def State.me (s : State) : Ctx := s.here.ctx s.here.run
def State.onMe (s : State) (f : Ctx → Ctx) : State := s.onCtx s.focus s.here.run f
def State.clusterAt (s : State) (cl : Nat) : Cluster := tget s.clusters Cluster.reset cl
def State.onCluster (s : State) (cl : Nat) (f : Cluster → Cluster) : State :=
  { s with clusters := tput s.clusters cl (f (s.clusterAt cl)) }
def State.myCluster (s : State) : Nat := clusterOf s.focus
def State.household (s : State) (h : Nat) : Household := tget s.households Household.reset h
def State.onHousehold (s : State) (h : Nat) (f : Household → Household) : State :=
  { s with households := tput s.households h (f (s.household h)) }
def State.queue (s : State) (q : Nat) : QueueSt := tget s.queues QueueSt.reset q
def State.onQueue (s : State) (q : Nat) (f : QueueSt → QueueSt) : State :=
  { s with queues := tput s.queues q (f (s.queue q)) }
def State.dieAt (s : State) (d : Nat) : Die := tget s.dies Die.reset d
def State.onDie (s : State) (d : Nat) (f : Die → Die) : State := { s with dies := tput s.dies d (f (s.dieAt d)) }
/-- The queue of the household that a core's task belongs to. -/
def State.queueOfCore (s : State) (c : Nat) : Nat := (s.coreOf c).queue
/-- Every listed core of a cluster, in core order. -/
def clusterCores (cl : Nat) : List Nat := (List.range 16).map (coreIn cl)
/-- The clusters of a household's Fens. -/
def fensClusters (fens : Table Fen) : List Nat :=
  fens.flatMap (fun f => (List.range f.2.h).flatMap (fun y => (List.range f.2.w).map (fun x => clAt (f.2.cx + x) (f.2.cy + y))))

/-! ### Registers of a context -/

/-- A scalar register; s0 reads zero (R80). -/
def Ctx.sReg (c : Ctx) (n : Nat) : Word := if n = 0 then 0 else c.s[n]?.getD 0
/-- A vector register. -/
def Ctx.vReg (c : Ctx) (n : Nat) : VReg := c.v[n]?.getD 0
/-- A predicate register; p0 reads all-true (R80). -/
def Ctx.pReg (c : Ctx) (n : Nat) : BitVec 32 := if n = 0 then BitVec.allOnes 32 else c.p[n]?.getD 0
/-- A handle register (R257). -/
def Ctx.hReg (c : Ctx) (n : Nat) : HReg := c.h[n]?.getD HReg.reset
/-- Lane i of a vector register (R199). -/
def vlane (v : VReg) (i : Nat) : BitVec 32 := v.extractLsb' (32 * i) 32
/-- A vector register from its lanes, lane 0 first; lanes that are not given are zero. -/
def ofLanes (ls : List Nat) : VReg :=
  BitVec.ofNat 1024 (ls.foldr (fun l acc => l % 2 ^ 32 + acc * 2 ^ 32) 0)
/-- The lanes of a vector register. -/
def lanesOf (v : VReg) : List Nat := (List.range 32).map (fun i => (vlane v i).toNat)
/-- A vector register with one lane replaced. -/
def setLane (v : VReg) (i val : Nat) : VReg := ofLanes ((lanesOf v).set i val)
/-- Writes a register; a write to s0 or p0 is discarded (R80). -/
def Ctx.writeReg (c : Ctx) (r : RegId) (val : Nat) : Ctx :=
  match r with
  | .s n => if n = 0 then c else { c with s := c.s.setIfInBounds n (BitVec.ofNat 64 val) }
  | .v n => { c with v := c.v.setIfInBounds n (BitVec.ofNat 1024 val) }
  | .p n => if n = 0 then c else { c with p := c.p.setIfInBounds n (BitVec.ofNat 32 val) }
/-- s0 and p0: no write changes them and no pending bit is set on them (R80). -/
def RegId.fixed (r : RegId) : Bool := r == .s 0 || r == .p 0
/-- Whether a register's pending bit is set (R107). -/
def Ctx.isPending (c : Ctx) (r : RegId) : Bool := !r.fixed && c.pend.contains r
/-- Sets a pending bit (R107). -/
def Ctx.addPending (c : Ctx) (r : RegId) : Ctx := if r.fixed then c else { c with pend := c.pend ++ [r] }
/-- Queues a fixed-latency result (R61, R101). -/
def Ctx.queueFixed (c : Ctx) (r : RegId) (val lat : Nat) : Ctx :=
  if r.fixed then c else { c with fixed := c.fixed ++ [FixedW.mk r val lat] }
/-- One more pair of the context begins: writes whose count has passed are applied, the later issued last (R42, R102). -/
def Ctx.countDown (c : Ctx) : Ctx :=
  let ws := c.fixed.map (fun w => { w with rem := w.rem - 1 })
  (ws.filter (fun w => w.rem = 0)).foldl (fun c w => c.writeReg w.reg w.val)
    { c with fixed := ws.filter (fun w => w.rem ≠ 0) }
/-- Applies every pending fixed write (R113). Of two to one register the one issued last remains (log 33). -/
def Ctx.applyFixed (c : Ctx) : Ctx :=
  c.fixed.foldl (fun c w => c.writeReg w.reg w.val) { c with fixed := [] }

/-! ### Writes of a core's stores, with their marks (R337) -/

/-- The bits of the blocks of size b that n bytes from a reach. -/
def reach (b a n : Nat) : Nat := (List.range ((a + n - 1) / b - a / b + 1)).foldl (fun m i => m ||| 2 ^ (a / b + i)) 0
/-- n bytes of the local store. -/
def CoreSt.putLs (x : CoreSt) (a n val : Nat) : CoreSt :=
  { x with ls := x.ls.writeN a n val, pages := x.pages ||| reach 4096 a n }
/-- Bytes of the local store. -/
def CoreSt.putLsBytes (x : CoreSt) (a : Nat) (bs : List Byte) : CoreSt :=
  if bs.isEmpty then x else { x with ls := x.ls.writeBytes a bs, pages := x.pages ||| reach 4096 a bs.length }
/-- Bytes of the B store. -/
def CoreSt.putB (x : CoreSt) (a : Nat) (bs : List Byte) : CoreSt :=
  if bs.isEmpty then x else { x with b := x.b.writeBytes a bs, units := x.units ||| reach 65536 a bs.length }

/-! ### The Loft's write port (R217, R225) -/

/-- The Loft's port serves a line of `mld.b` in this cycle (R217). -/
def CoreSt.loftBusy (x : CoreSt) (g : Nat) : Bool :=
  match x.mlds with
  | [] => false
  | l :: _ =>
    match l.started with
    | none => false
    | some st => decide (st + 3 ≤ g ∧ g < st + 3 + l.lines)
/-- The port takes a streamer or plan line in this cycle: no line of `mld.b` and none before it (R217). -/
def CoreSt.loftFree (x : CoreSt) (g : Nat) : Bool := !x.loftBusy g && decide (x.loftNext ≤ g)
/-! ### Lines held (R144, R148) -/

/-- The line of a byte is held for another party: by a window region that the home applies now (R148), or by the near atomic
that has locked it (R144). -/
def CoreSt.lineBusy (x : CoreSt) (off : Nat) (id : Option Nat) : Bool :=
  x.regions.any (fun r => some r.2.1 != id && off / 128 == r.1 / 128) ||
    x.locks.any (fun r => some r.2 != id && off / 128 == r.1 / 128)

/-- An event of a stopped household is owed from the stop on (R331). -/
def State.putOff (s : State) (hid : Nat) (d : DueEv) : State :=
  s.onHousehold hid (fun h => { h with slept := h.slept ++ [Due.mk 0 d] })
/-- The task of a core is loaded and waits for the resume of its revive group (R413). -/
def State.groupHeld (s : State) (core : Nat) : Bool :=
  let x := s.coreOf core
  (s.queue x.queue).groups.any (fun g => g.held && g.ticket == x.ticket)
/-- The household's frames and peats are sealed: it is protected or bound through TDISP (R341, R358, R405). -/
def Household.secured (h : Household) : Bool := h.prot || h.tdi != 0
/-- A failed granule stands in n bytes of a unit (R419): 0 local store, 1 B store, 2 cistern elements. It is not delivered, so what
reads it waits, until its household is killed. -/
def State.granuleFailed (s : State) (kind holder a n : Nat) : Bool :=
  s.failed.any (fun g => g.1 == kind && g.2.1 == holder && decide (g.2.2.1 / 8 * 8 < a + n ∧ a < g.2.2.1 / 8 * 8 + 8))
/-- A read of n bytes of a line of a core's local store waits (R148, R419). -/
def State.readWaits (s : State) (core a n : Nat) : Bool := (s.coreOf core).lineBusy a none || s.granuleFailed 0 core a n

/-! ### Tokens and ORC -/

def Ctx.tok (c : Ctx) (t : TokRef) : Nat :=
  match t with
  | .k n => c.k[n]?.getD 0
  | .t n => c.t[n]?.getD 0
def Ctx.setTok (c : Ctx) (t : TokRef) (n : Nat) : Ctx :=
  match t with
  | .k i => { c with k := c.k.setIfInBounds i n }
  | .t i => { c with t := c.t.setIfInBounds i n }
/-- The token that a token field names: in a handler a trap token (R77). -/
def Ctx.tokRef (c : Ctx) (k : Nat) : TokRef := if c.inh then .t (k % 4) else .k k
/-- The token of R108: CCTL.LTK, or t3 in a handler. -/
def Ctx.ltkRef (c : Ctx) : TokRef := if c.inh then .t 3 else .k c.ltk
def Ctx.raise (c : Ctx) (t : TokRef) : Ctx := c.setTok t (c.tok t + 1)
def Ctx.lower (c : Ctx) (t : TokRef) : Ctx := c.setTok t (c.tok t - 1)
/-- ORC.COUNT (R129). -/
def Ctx.orcCount (c : Ctx) : Nat := c.out.length
/-- Takes the next sequence number and counts the request (R129, R133). -/
def Ctx.takeSeq (c : Ctx) : Ctx := { c with nseq := (c.nseq + 1) % 65536, out := c.out ++ [c.nseq] }

/-- The union of two sets of nodes (R161). -/
def joinSeen (a b : Seen) : Seen := a ++ b.filter (fun p => !a.contains p)
/-- Nodes join Seen of a core. -/
def State.learn (s : State) (core : Nat) (know : Seen) : State :=
  if know.isEmpty then s else s.onCore core (fun x => { x with seen := joinSeen x.seen know })
/-- A change of a lineage entry (R262); a new entry keeps its K and the writes already counted in its WOUT. -/
def LEntry.change (e : LEntry) (ch : LChange) : LEntry :=
  match ch with
  | .make parent root side view task ctx reg hid =>
    { e with st := .live, side := side, root := root, parent := parent, child0 := 0, child1 := 0, ownTask := task, ownCtx := ctx,
             ownReg := reg, infl := false, view := view, hid := hid }
  | .reg n => { e with ownReg := n }
  | .send => { e with st := .sent, infl := true }
  | .split c0 c1 => { e with st := .split, child0 := c0, child1 := c1 }
  | .joining => { e with st := .joining }
  | .freeing => { e with st := .freeing }
/-- A change is written into a cluster's table; a new entry is no longer merely taken (R260). -/
def Cluster.change (k : Cluster) (entry : Nat) (ch : LChange) : Cluster :=
  let k := { k with lineage := tput k.lineage entry ((tget k.lineage LEntry.reset entry).change ch) }
  match ch with
  | .make .. => { k with taken := k.taken.erase entry }
  | _ => k

/-- What a completion does to its context (R104, R107, R133). -/
def Ctx.act (g : Nat) (c : Ctx) (a : Act) : Ctx :=
  match a with
  | .write r val => c.writeReg r val
  | .lane v i val => c.writeReg (.v v) (setLane (c.vReg v) i val).toNat
  | .unpend r => { c with pend := c.pend.erase r }
  | .acqDone r => { c with acq := c.acq.erase r }
  | .lower t => c.lower t
  | .ack seq => { c with out := c.out.erase seq }
  | .ready => { c with wait := .none, readyAt := g + 1 }
  | .readyNext => { c with wait := .none, readyAt := g + 2 }
  | .handle h r => { c with h := c.h.setIfInBounds h r }
  | .cisDone => c
  | .wout _ _ => c
  | .owner _ _ _ => c
  | .tileRow _ _ _ => c
  | .addTile _ _ => c
  | .freeEntry _ _ => c
  | .lineage _ _ _ => c
  | .learn _ => c
/-- The part of a completion that lies outside its context: the core's count of cistern operations (R241), a handle's
count of window writes (R271), the owner of a lineage entry (R262). -/
def State.actOutside (core ctx : Nat) (s : State) (a : Act) : State :=
  match a with
  | .cisDone => s.onCore core (fun x => { x with cisOut := x.cisOut - 1 })
  | .wout cl e =>
    s.onCluster cl (fun k =>
      let le := tget k.lineage LEntry.reset e
      { k with lineage := tput k.lineage e { le with wout := le.wout - 1 } })
  | .owner cl e reg =>
    let task := (s.ctxOf core ctx).task
    s.onCluster cl (fun k =>
      let le := tget k.lineage LEntry.reset e
      let le := { le with st := .live, infl := false, ownTask := task, ownCtx := ctx, ownReg := reg, child0 := 0, child1 := 0,
                          waiter := none }
      { k with lineage := tput k.lineage e le })
  | .tileRow v tile row =>
    s.onCtx core ctx (fun c => c.writeReg (.v v) (tget (s.coreOf core).tiles 0 (64 * tile + row)).toNat)
  | .lineage cl e ch => s.onCluster cl (fun k => k.change e ch)
  | .learn know => s.learn core know
  | .freeEntry cl e => s.onCluster cl (fun k => { k with lineage := tdel k.lineage e })
  | .addTile cl no =>
    let tiles := (s.coreOf core).tiles
    s.onCluster cl (fun k =>
      { k with addQ := k.addQ.map (fun q =>
          match q.tile with
          | some key =>
            if q.no = no then { q with tile := none, lanes := lanesOf (tget tiles 0 key) } else q
          | none => q) })
  | _ => s
/-- One completion. -/
def State.complete (s : State) (core ctx : Nat) (acts : List Act) : State :=
  acts.foldl (State.actOutside core ctx) (s.onCtx core ctx (fun c => acts.foldl (Ctx.act s.gts) c))

/-! ### Later events (log 1, log 3) -/

/-- This cycle is the one of a GTS value: its own, or the value that a count added before it has stepped over (R366, log 8). -/
def State.isAt (s : State) (g : Nat) : Bool := g == s.gts || (s.porch.skipped == some g && g + 1 == s.gts)
/-- A stop falls in this cycle (R329, R391). -/
def StopAt.now (x : StopAt) (s : State) : Bool :=
  match x with
  | .at_ g => s.isAt g
  | _ => false
/-- The GTS of the next cycle (R131, R366). -/
def State.nextGts (s : State) : Nat := if s.porch.skipped == some (s.gts + 1) then s.gts + 2 else s.gts + 1

/-- An event in a later cycle. -/
def State.later (s : State) (at_ : Nat) (ev : DueEv) : State := { s with due := s.due ++ [Due.mk at_ ev] }
/-- A completion in a later cycle. -/
def State.doneAt (s : State) (at_ core ctx : Nat) (acts : List Act) : State := s.later at_ (.done core ctx acts)
/-- Changes of lineage entries that the running context makes: the table takes them in the issue cycle plus 3 (R260). -/
def State.lineageAt (s : State) (core ctx : Nat) (chs : List (Nat × Nat × LChange)) : State :=
  s.doneAt (s.gts + 3) core ctx (chs.map (fun c => .lineage c.1 c.2.1 c.2.2))
/-- A step in a later cycle. -/
def State.stepAt (s : State) (at_ : Nat) (i : Event) : State := s.later at_ (.step i)
/-- A step after a time that the spec does not fix. -/
def State.soon (s : State) (i : Event) : State :=
  { s with due := s.due ++ [Due.mk (s.gts + 1 + Config.latency s.ctr) (.step i)], ctr := s.ctr + 1 }
/-- The same, but not before a cycle. -/
def State.soonAfter (s : State) (lim : Nat) (i : Event) : State :=
  { s with due := s.due ++ [Due.mk (max lim (s.gts + 1 + Config.latency s.ctr)) (.step i)], ctr := s.ctr + 1 }
/-- A step before the next pair. -/
def State.next (s : State) (i : Event) : State := { s with agenda := s.agenda ++ [i] }
/-- A free choice below n. -/
def State.choose (s : State) (n : Nat) : Nat × State := (Config.choice s.ctr % n, { s with ctr := s.ctr + 1 })

/-! ### Records (R353, R386, R355) -/

/-- The ring of a kind: 0 completion, 1 signal, 2 fault. -/
def QueueSt.ring (x : QueueSt) (n : Nat) : Ring :=
  match n with
  | 0 => x.comp
  | 1 => x.sig
  | _ => x.fault
def QueueSt.setRing (x : QueueSt) (n : Nat) (r : Ring) : QueueSt :=
  match n with
  | 0 => { x with comp := r }
  | 1 => { x with sig := r }
  | _ => { x with fault := r }
/-- The WAIT code, WAITARG and WAITLIM of a wait (R335). -/
def Wait.code (w : Wait) : Nat × Nat × Nat :=
  match w with
  | .none => (0, 0, 0)
  | .sync => (2, 0, 0)
  | .syncT d l => (2, d, l)
  | .ewait d c t _ => (3, d + c * 2 ^ 8 + t * 2 ^ 32, 0)
  | .take a => (4, a, 0)
  | .inbx _ => (5, 0, 0)
  | .inbxT _ d l => (5, d, l)
  | .hrecv _ _ => (6, 0, 0)
  | .pantry a => (8, a, 0)
  | .halt => (0, 0, 0)
  | .molRoom => (0, 0, 0)
  | .settled c a l => (c, a, l)
/-- The wait once it has been decided and only its writes are due. -/
def Wait.settle (w : Wait) : Wait := .settled w.code.1 w.code.2.1 w.code.2.2
def Wait.isSettled (w : Wait) : Bool :=
  match w with
  | .settled _ _ _ => true
  | _ => false
/-- Queues a record of a ring: 0 completion, 1 signal, 2 fault. Behind a refused record it waits with it (R353). -/
def State.record (s : State) (q ring : Nat) (rec : BitVec 256) (ack : Option Nat) : State :=
  let r := (s.queue q).ring ring
  let s := s.onQueue q (fun x => x.setRing ring { r with held := r.held ++ [(rec, ack)] })
  if r.refused then s else s.next (.recordWrite q ring)
/-- The SRC field of entries and records: task, CTX, Fen (R155, R386). -/
def srcField (task ctx fen : Nat) : Nat := task % 2 ^ 20 + (ctx % 16) * 2 ^ 20 + (fen % 256) * 2 ^ 24
def Src.field (x : Src) : Nat := srcField x.task x.ctx x.fen
/-- A 32-byte record from its little-endian fields (width in bytes, value). -/
def packRecord (fs : List (Nat × Nat)) : BitVec 256 :=
  BitVec.ofNat 256 (natOfBytes (fs.flatMap (fun f => bytesOf f.1 f.2)))
/-- The fault record of R386. -/
def faultRecord (kind code seq src addr gts rkind sub tag : Nat) : BitVec 256 :=
  packRecord [(1, kind), (1, code), (2, seq), (4, src), (8, addr), (8, gts), (1, rkind), (1, sub), (2, 0), (4, tag)]
/-- The issuing context as a request names it. -/
def State.srcOf (s : State) (core ctx : Nat) : Src :=
  let c := s.ctxOf core ctx
  { core := core, ctx := ctx, task := c.task, fen := c.fen, hid := (s.coreOf core).hid.getD 0, born := c.born }
/-- The context that issued a request is still live (R282). -/
def State.stillThere (s : State) (x : Src) : Bool :=
  let c := s.ctxOf x.core x.ctx
  c.live && c.born == x.born && (s.coreOf x.core).hid == some x.hid
/-- A module event record of R429, held for the module's ring (R428). -/
def State.moduleEvent (s : State) (kind unit detail addr hid : Nat) : State :=
  let r := s.porch.mev
  if r.held.length < 1024 then
    let rec_ := packRecord [(1, kind), (1, 0), (2, unit), (4, detail), (8, addr), (8, s.gts), (1, hid), (7, 0)]
    ({ s with porch := { s.porch with mev := { r with held := r.held ++ [(rec_, none)] } } }).next .eventRecordWrite
  else { s with porch := { s.porch with mevLost := min 65535 (s.porch.mevLost + 1) } }

/-! ### Kills and traps -/

/-- Fixes a kill of a household at a GTS with a REASON; the earliest cause fixes both (R390), and the one that had fixed them before
makes no culprit any more (R399). STATE becomes 2 (R392). -/
def State.armKill (s : State) (hid at_ reason : Nat) : State :=
  let q := (s.household hid).queue
  let x := s.queue q
  if x.killed || !(s.household hid).alive then s
  else
    let earlier : Bool :=
      match x.killStop with
      | .at_ g => decide (g ≤ at_)
      | _ => false
    if earlier then s.onQueue q (fun x => { x with peatState := 2 })
    else
      ((s.onHousehold hid (fun h => { h with culprit := none })).onQueue q (fun x =>
        { x with killStop := .at_ at_, klast := at_, killReason := reason, peatState := 2 })).stepAt at_ (.killStop hid)

/-- The exact bit, sub-code, slot and cause of ECAUSE (R372). -/
def ecauseOf (cause sub slot : Nat) (late exact : Bool) : Word :=
  BitVec.ofNat 64 (sub * 2 ^ 24 + (if exact then 2 ^ 19 else 0) + (if late then 2 ^ 18 else 0) + slot * 2 ^ 16 + cause)

/-- Ends a region that is open: its load destinations keep their values and lose their pending bits (R149). -/
def Ctx.dropRegion (c : Ctx) : Ctx :=
  match c.region with
  | none => c
  | some r =>
    { c with region := none,
             pend := (r.accs.filter (fun a => !a.store)).foldl (fun ps a => ps.erase (.s a.d)) c.pend,
             acq := (r.accs.filter (fun a => !a.store)).foldl (fun ps a => ps.erase (.s a.d)) c.acq }

/-- EPC of a trap: the address of the `alb` of an open region, but for bad-region itself (R149). -/
def Ctx.trapPc (c : Ctx) (cause : Nat) (epc : Word) : Word :=
  match c.region with
  | some r => if cause = 15 then epc else BitVec.ofNat 64 r.pc
  | none => epc
/-- The entry steps of R374 at the context: pending writes applied, trap tokens cleared, EPC, ECAUSE and EINFO written, INH
set, the handler's address next. The counts of k0 to k15 stay in place as the frame's. -/
def Ctx.trapEntry (c : Ctx) (cause sub slot : Nat) (late : Bool) (info : Nat) (epc handler : Word) : Ctx :=
  let exact := c.out.isEmpty
  let epc := c.trapPc cause epc
  let c := c.dropRegion.applyFixed
  { c with t := Vector.replicate 4 0, epc := epc, ecause := ecauseOf cause sub slot late exact,
           einfo := BitVec.ofNat 64 info, inh := true, npc := handler, dlyRem := 0, wait := .none }

/-- Ends a recording or a replay of the running context (R121). -/
def CoreSt.endRb (x : CoreSt) (ctx : Nat) : CoreSt :=
  match x.rbSt with
  | .recording o _ => if o = ctx then { x with rbSt := .idle } else x
  | .replaying o _ _ _ _ _ => if o = ctx then { x with rbSt := .idle } else x
  | .idle => x

/-- A fatal fault: the context stops, a record of KIND 0x02 is queued and the household is killed at F + 4,096 (R384, R386,
R390). The fault that fixes K makes its context the culprit (R399). -/
def State.fatal (s : State) (cause sub info : Nat) (epc : Word) : State :=
  let src := s.srcOf s.focus s.here.run
  let q := (s.household src.hid).queue
  let k := (s.queue q).killStop
  let epc := s.me.trapPc cause epc
  let s := s.onMe (fun c => { c with fatal := true, fatalCause := some cause, npc := c.pc })
  let s := s.record (s.queueOfCore s.focus) 2 (faultRecord 2 cause 0 src.field epc.toNat s.gts 0 sub (info % 2 ^ 32)) none
  let s := s.armKill src.hid (s.gts + 4096) cause
  if (s.queue q).killStop == k then s else s.onHousehold src.hid (fun h => { h with culprit := some (src.core, src.ctx) })

/-- Taking a trap, the one operation that every cause shares (R374, R376, R384): the handler stands at XB.OVH · 8. A precise
or software trap in a handler is fatal. The latch tells the step that this word's pair has not issued. -/
def State.enterTrap (s : State) (cause sub slot : Nat) (late : Bool) (info : Nat) (epc : Word) : State :=
  let s := { s with latch := .trapped cause }
  if s.me.inh then s.fatal cause sub info epc
  else
    let s := s.onHere (fun x => x.endRb x.run)
    s.onMe (fun c => c.trapEntry cause sub slot late info epc (BitVec.ofNat 64 (8 * c.ovh)))

/-- The return from a handler (R114, R375): INH cleared, the context goes to EPC; k0 to k15 hold the frame's counts. -/
def State.leaveTrap (s : State) : State := s.onMe (fun c => { c with inh := false, npc := c.epc, jumped := true })

/-- The pair has not issued: the context stays at it (R76). -/
def State.hold (s : State) (field : Bool) : State := { s.onMe (fun c => { c with npc := c.pc }) with latch := .waits field }
/-- The slot that the entry of a software trap takes (R374): EXACT is that of the entry (R372). -/
def Ctx.entered (c : Ctx) : Ctx :=
  { c with entering := false,
           ecause := if c.out.isEmpty then c.ecause ||| BitVec.ofNat 64 (2 ^ 19) else c.ecause &&& ~~~ (BitVec.ofNat 64 (2 ^ 19)) }
/-- A trap after its pair has issued (R112): the latch keeps the pair's effects, and the entry takes the next slot (R374). -/
def State.trapAfter (s : State) (cause sub info : Nat) (epc : Word) : State :=
  { (s.enterTrap cause sub 1 false info epc).onMe (fun c => { c with entering := !c.fatal }) with latch := .issued }

/-- A precise condition of a word: cause, sub-code, EINFO (R373). -/
structure Cond where
  cause : Nat
  sub : Nat
  info : Nat
deriving DecidableEq, Repr

/-- The condition that position 6 of R93 takes: the first in the order of the cause codes (R377).
Of several with one code the first in the
list: the model's choice (log 33). -/
def firstCond (cs : List Cond) : Option Cond :=
  match cs with
  | [] => none
  | c :: rest =>
    match firstCond rest with
    | none => some c
    | some d => if d.cause < c.cause then some d else some c
/-- A condition when a test holds. -/
def condIf (b : Bool) (cause sub info : Nat) : List Cond := if b then [Cond.mk cause sub info] else []

/-- The core's pass to the next ready context from the following cycle (R41); a gang does not switch (R49), and a replay
does so at its end (R51). -/
def State.switching (s : State) : State :=
  if s.here.gang.isSome then s
  else
    s.onHere (fun x =>
      match x.rbSt with
      | .replaying o pass passes idx stag _ =>
        if o = x.run then { x with rbSt := .replaying o pass passes idx stag true } else { x with pass := true }
      | _ => { x with pass := true })

/-- Puts a message into the bag and hands it to its first router after a time that is not fixed (R165, R23). -/
def State.post (s : State) (m : Msg) : State :=
  let id := s.ctr
  ({ s with bag := tput s.bag id m, ctr := id + 1 }).soon (.routerReceive id)
/-- Another step for a message, after a time that is not fixed. -/
def State.onMsg (s : State) (id : Nat) (f : Msg → Msg) : State :=
  match tfind s.bag id with
  | none => s
  | some m => { s with bag := tput s.bag id (f m) }
def State.dropMsg (s : State) (id : Nat) : State := { s with bag := tdel s.bag id }
/-- The PREV field of a new item (R439): the last unacknowledged window request or `hsend` entry of the context to the core. -/
def State.prevOf (s : State) (core ctx goal before : Nat) : Option Nat :=
  let mine := s.bag.filter (fun e =>
    e.1 < before ∧ e.2.src.core = core ∧ e.2.src.ctx = ctx ∧ e.2.goal = some goal ∧ e.2.remote)
  mine.getLast?.map (fun e => e.2.seq)
/-- The requests ahead of the last release marker that have not been acknowledged (R165). -/
def Ctx.ahead (c : Ctx) : List Nat := c.behind.filter (fun q => c.out.contains q)
/-- A message of the running context as its pair issues; `goal` is the core whose interface orders it (R439). -/
def State.newMsg (s : State) (dst : Dst) (goal : Option Nat) (tok : Option TokRef) (body : Body) : Msg :=
  let c := s.me
  { src := s.srcOf s.focus s.here.run, seq := c.nseq, pc := c.pc.toNat,
    prev := goal.bind (fun n => s.prevOf s.focus s.here.run n s.ctr), dst := dst, at_ := s.focus, stubs := [], tok := tok,
    body := body, st := .going, gts := s.gts, delivered := false, caught := false, detour := false, remote := true,
    behind := c.ahead, goal := goal, handle := none, near := false, know := [], app := none }
/-- The core of a window request. -/
def Dst.goal (d : Dst) : Option Nat :=
  match d with
  | .core n => some n
  | _ => none
/-- A remote request of the running context: it takes a sequence number, counts in ORC and enters the bag (R133). -/
def State.request (s : State) (dst : Dst) (tok : Option TokRef) (body : Body) (handle : Option Nat := none)
    (near : Bool := false) (know : Seen := []) : State :=
  (s.onMe Ctx.takeSeq).post { s.newMsg dst dst.goal tok body with handle := handle, near := near, know := know }

/-- The lowest FE-empty mark list with a word set or cleared (R138). -/
def CoreSt.fe (x : CoreSt) (w : Nat) : Bool := !x.feEmpty.contains w
def CoreSt.setFe (x : CoreSt) (w : Nat) (full : Bool) : CoreSt :=
  let x := { x with pages := if x.fe w = full then x.pages else x.pages ||| reach 4096 (8 * w) 8 }
  if full then { x with feEmpty := x.feEmpty.filter (fun a => a ≠ w) }
  else if x.feEmpty.contains w then x
  else { x with feEmpty := (x.feEmpty.filter (fun a => a < w)) ++ [w] ++ (x.feEmpty.filter (fun a => w < a)) }

/-- The fetch boundary of a core's control context, in bytes (R53, R134). -/
def CoreSt.boundary (x : CoreSt) : Nat := 256 * (x.ctx 0).bound

end Sys2Proof.Machine
end

