-- ==== Sys2Proof/Machine/Order.lean ====
section
/-! DEFINITION. The ordering machine (R161 to R171): write graphs, Seen and published sets, and its read, write, atomic,
release and acquire steps. Memory holds the value of the node made last, which is in every sight set. -/
namespace Sys2Proof.Machine

/-! ### Graphs and sets -/

/-- The graph of a location; none when nothing has written it since its initial node. -/
def lfind (t : List (Loc × Graph)) (l : Loc) : Option Graph :=
  match t with
  | [] => none
  | (k, g) :: rest => if k = l then some g else lfind rest l
/-- Replaces or adds the graph of a location. -/
def lput (t : List (Loc × Graph)) (l : Loc) (g : Graph) : List (Loc × Graph) :=
  match t with
  | [] => [(l, g)]
  | (k, h) :: rest => if k = l then (l, g) :: rest else (k, h) :: lput rest l g
/-- The identities that a set holds at a location. -/
def seenAt (k : Seen) (l : Loc) : List Nat := (k.filter (fun p => p.1 == l)).map (fun p => p.2)
/-- The initial node of a location (R162); its identity is 0 and it is no part of a write. -/
def initNode (val : Nat) : Node := { id := 0, val := val, base := 0, size := 0, before := [] }
/-- The sight set (R163): every node after which the reader knows none. -/
def sightOf (g : Graph) (known : List Nat) : List Node :=
  let mine := g.nodes.filter (fun u => known.contains u.id)
  let past := mine.flatMap (fun u => u.before)
  (if mine.isEmpty then [initNode g.init] else []) ++ g.nodes.filter (fun w => !past.contains w.id)
/-- The nodes that have no successor (R168). -/
def topOf (g : Graph) : List Node := sightOf g (g.nodes.map (fun u => u.id))
/-- A node with every node before it (R167), as a set. -/
def closeNode (l : Loc) (w : Node) : Seen := if w.id = 0 then [] else (l, w.id) :: w.before.map (fun i => (l, i))

/-! ### Choosing nodes (R167) -/

/-- The naturally aligned block of a write w around byte x that a read of n bytes at a takes whole holds byte y: the smaller
of the two sizes, within both accesses. -/
def Node.covers (w : Node) (a n x y : Nat) : Bool :=
  let b := min n w.size
  let lo := x / b * b
  b != 0 && decide (lo ≤ y ∧ y < lo + b ∧ w.base ≤ lo ∧ lo + b ≤ w.base + w.size ∧ a ≤ lo ∧ lo + b ≤ a + n)
/-- Taking w for byte x and u for byte y keeps single-copy atomicity: where one write's block holds the other byte, that byte
comes from the same write or from a later one (log 31). -/
def Node.fits (a n x : Nat) (w : Node) (y : Nat) (u : Node) : Bool :=
  (!w.covers a n x y || w.id == u.id || u.before.contains w.id) &&
    (!u.covers a n y x || u.id == w.id || w.before.contains u.id)
/-- A node for byte x that fits the choices made so far. -/
def Node.agrees (a n : Nat) (done : List (Nat × Node)) (x : Nat) (u : Node) : Bool := done.all (fun p => Node.fits a n p.1 p.2 x u)
/-- The last `left` of the n bytes from a can be chosen so that every choice fits (R167). -/
def solvable (cand : Nat → List Node) (a n left : Nat) (done : List (Nat × Node)) : Bool :=
  match left with
  | 0 => true
  | k + 1 =>
    let x := a + (n - (k + 1))
    (cand x).any (fun u => u.agrees a n done x && solvable cand a n k (done ++ [(x, u)]))
/-- A choice for the last `left` of the n bytes from a, each among its candidates, that fits the choices made so far and leaves
one for the bytes behind it. -/
def State.pickFrom (s : State) (cand : Nat → List Node) (a n left : Nat) (done : List (Nat × Node)) :
    List (Nat × Node) × State :=
  match left with
  | 0 => (done, s)
  | k + 1 =>
    let x := a + (n - (k + 1))
    let ok := (cand x).filter (fun u => u.agrees a n done x && solvable cand a n k (done ++ [(x, u)]))
    let from_ := if ok.isEmpty then (cand x).reverse.take 1 else ok
    match from_ with
    | [] => s.pickFrom cand a n k done
    | [w] => s.pickFrom cand a n k (done ++ [(x, w)])
    | w :: _ =>
      let c := s.choose from_.length
      c.2.pickFrom cand a n k (done ++ [(x, from_[c.1]?.getD w)])
/-- The little-endian value of the bytes chosen. -/
def pickedVal (ps : List (Nat × Node)) : Nat := ps.foldr (fun p acc => p.2.val % 256 + 256 * acc) 0
/-- The nodes chosen, with every node before them. -/
def pickedSeen (loc : Nat → Loc) (ps : List (Nat × Node)) : Seen := ps.flatMap (fun p => closeNode (loc p.1) p.2)
/-- The candidates of a byte for a read: its sight set, or its only value. -/
def State.sightAt (s : State) (know : Seen) (loc : Nat → Loc) (byte : Nat → Nat) (x : Nat) : List Node :=
  match lfind s.order (loc x) with
  | none => [initNode (byte x)]
  | some g => sightOf g (seenAt know (loc x))
/-- The candidates of a byte for an atomic step: its nodes without a successor. -/
def State.topAt (s : State) (loc : Nat → Loc) (byte : Nat → Nat) (x : Nat) : List Node :=
  match lfind s.order (loc x) with
  | none => [initNode (byte x)]
  | some g => topOf g
/-- No byte leaves a choice: each has one candidate, whose value memory holds. In a line that a region is being applied to, memory
runs ahead of the graphs, which get the region's nodes with its last access (R148, R168). -/
def settled (cand : Nat → List Node) (byte : Nat → Nat) (a n : Nat) : Bool :=
  (List.range n).all (fun i => (cand (a + i)).map (fun u => u.val) == [byte (a + i)])

/-- The little-endian value of n bytes. -/
def bytesAt (byte : Nat → Nat) (a n : Nat) : Nat := (List.range n).foldr (fun i acc => byte (a + i) % 256 + 256 * acc) 0
/-- A read step of the holder of a Seen set (R167): the n bytes from a, and the set afterwards. -/
def State.readStep (s : State) (know : Seen) (loc : Nat → Loc) (byte : Nat → Nat) (a n : Nat) : Nat × Seen × State :=
  if settled (s.sightAt know loc byte) byte a n then (bytesAt byte a n, know, s)
  else
    let r := s.pickFrom (s.sightAt know loc byte) a n n []
    (pickedVal r.1, joinSeen know (pickedSeen loc r.1), r.2)
/-- The value that an atomic step finds (R168): each byte that of a node without a successor. -/
def State.readTop (s : State) (loc : Nat → Loc) (byte : Nat → Nat) (a n : Nat) : Nat × State :=
  if settled (s.topAt loc byte) byte a n then (bytesAt byte a n, s)
  else
    let r := s.pickFrom (s.topAt loc byte) a n n []
    (pickedVal r.1, r.2)

/-! ### Write nodes (R166, R168) -/

/-- One write identity at the last `left` of n bytes from a: after what the writer knows there, or, in an atomic step, after
every node there. The set is the writer's afterwards. -/
def State.addNodes (s : State) (id : Nat) (all : Bool) (know : Seen) (loc : Nat → Loc) (byte : Nat → Nat) (a n val left : Nat) :
    Seen × State :=
  match left with
  | 0 => (know, s)
  | k + 1 =>
    let i := n - (k + 1)
    let l := loc (a + i)
    let g := (lfind s.order l).getD { init := byte (a + i), nodes := [] }
    let ids := g.nodes.map (fun u => u.id)
    let before := if all then ids else ids.filter (fun j => (seenAt know l).contains j)
    let w : Node := { id := id, val := val / 256 ^ i % 256, base := a, size := n, before := before }
    let know := if all then joinSeen know (closeNode l w) else (l, id) :: know
    State.addNodes { s with order := lput s.order l { g with nodes := g.nodes ++ [w] } } id all know loc byte a n val k
/-- A write step of n bytes at a, with a new write identity. -/
def State.noteWrite (s : State) (all : Bool) (know : Seen) (loc : Nat → Loc) (byte : Nat → Nat) (a n val : Nat) : Seen × State :=
  State.addNodes { s with ctr := s.ctr + 1 } (s.ctr + 1) all know loc byte a n val n

/-! ### Steps of a core on a local store -/

def State.byteLs (s : State) (home x : Nat) : Nat := ((s.coreOf home).ls.read x).toNat
/-- The candidates of the bytes of a home's local store for a read by a core. -/
def State.sightLs (s : State) (core home : Nat) : Nat → List Node :=
  s.sightAt (s.coreOf core).seen (Loc.ls home) (s.byteLs home)
/-- A read step of a core (R167): n bytes of a home's local store. -/
def State.readLs (s : State) (core home a n : Nat) : Nat × State :=
  if settled (s.sightLs core home) (s.byteLs home) a n then ((s.coreOf home).ls.readN a n, s)
  else
    let r := s.pickFrom (s.sightLs core home) a n n []
    (pickedVal r.1, r.2.learn core (pickedSeen (Loc.ls home) r.1))
/-- Read steps of a core at several addresses, in order. -/
def State.readLsMany (s : State) (core home n : Nat) (as : List Nat) : List Nat × State :=
  match as with
  | [] => ([], s)
  | a :: rest =>
    let r := s.readLs core home a n
    let r' := r.2.readLsMany core home n rest
    (r.1 :: r'.1, r'.2)
/-- A write step of a core (R166): n bytes of a home's local store. -/
def State.storeLs (s : State) (core home a n val : Nat) : State :=
  let r := s.noteWrite false (s.coreOf core).seen (Loc.ls home) (s.byteLs home) a n val
  (r.2.onCore core (fun x => { x with seen := r.1 })).onCore home (fun x => x.putLs a n val)
/-- Write steps of elements of 8 bytes (R35). -/
def State.storeLsBytes (s : State) (core home a : Nat) (bs : List Byte) (fuel : Nat) : State :=
  match fuel, bs with
  | 0, _ => s
  | _, [] => s
  | f + 1, b :: rest =>
    let e := (b :: rest).take (8 - a % 8)
    (s.storeLs core home a e.length (natOfBytes e)).storeLsBytes core home (a + e.length) ((b :: rest).drop e.length) f
/-- Before an atomic step (R168): each byte holds the value of a node without a successor. -/
def State.settleLs (s : State) (home a n : Nat) : State :=
  let cand := s.topAt (Loc.ls home) (s.byteLs home)
  if settled cand (s.byteLs home) a n then s
  else
    let r := s.pickFrom cand a n n []
    r.2.onCore home (fun x => { x with ls := x.ls.writeN a n (pickedVal r.1) })
/-- An atomic step of a core on n bytes of a home's local store (R168): the old value, and the state with the new one. -/
def State.atomicLs (s : State) (core home a n : Nat) (f : Nat → Nat) : Nat × State :=
  let s := s.settleLs home a n
  let old := (s.coreOf home).ls.readN a n
  let r := s.noteWrite true (s.coreOf core).seen (Loc.ls home) (s.byteLs home) a n (f old)
  (old, (r.2.onCore core (fun x => { x with seen := r.1 })).onCore home (fun x => x.putLs a n (f old)))

/-! ### The Loft (R162, R217, R225, R236) -/

def State.byteB (s : State) (core x : Nat) : Nat := ((s.coreOf core).b.read x).toNat
/-- One write step of a whole B line, with bytes of it replaced (R217): the writer's set afterwards, and the state. -/
def State.loftLine (s : State) (know : Seen) (core a : Nat) (bs : List Byte) : Seen × State :=
  let line := a / 64 * 64
  let b := (s.coreOf core).b.writeBytes a bs
  let r := s.noteWrite false know (Loc.loft core) (s.byteB core) line 64 (b.readN line 64)
  (r.1, r.2.onCore core (fun x => x.putB line (b.readBytes line 64)))
/-- Lines from i on of an `mld.b` (R225, R236): each word of 8 bytes of the source is one read step of the core, the line one write
step. -/
def State.mldLines (s : State) (core src dst i n : Nat) : State :=
  match n with
  | 0 => s
  | k + 1 =>
    let r := s.readLsMany core core 8 ((List.range 8).map (fun j => src + 64 * i + 8 * j))
    let w := r.2.loftLine (r.2.coreOf core).seen core (dst + 64 * i) (r.1.flatMap (bytesOf 8))
    (w.2.onCore core (fun x => { x with seen := w.1 })).mldLines core src dst (i + 1) k
/-- The lines that the `mld.b` in progress has to write by the end of cycle g: line j in cycle s + 3 + j (R225). -/
def State.mldAdvance (s : State) (core g : Nat) : State :=
  match (s.coreOf core).mlds with
  | [] => s
  | l :: rest =>
    match l.started with
    | none => s
    | some st =>
      let n := min l.lines (g - (st + 2))
      if n ≤ l.wrote then s
      else (s.mldLines core l.src l.dst l.wrote (n - l.wrote)).onCore core (fun x => { x with mlds := { l with wrote := n } :: rest })
/-- A streamer's or a plan entry's write to the B store in this cycle: bytes of one line, through the port (R217). -/
def State.loftWrite (s : State) (know : Seen) (core a : Nat) (bs : List Byte) : Seen × State :=
  let r := (s.mldAdvance core s.gts).loftLine know core a bs
  (r.1, r.2.onCore core (fun x => { x with loftNext := s.gts + 1 }))

/-! ### Scopes (R44, R169, R170) -/

/-- The unit number of a level for a core and its context's Fen (R44). -/
def unitOf (level core fen : Nat) : Nat :=
  match level with
  | 1 => core
  | 2 => clusterOf core
  | 3 => quadOf core
  | 4 => dieOf core
  | 5 => 0
  | _ => fen
/-- The key of a unit of a household: a domain instance (R44), a published set (R169). -/
def domKey (hid level unit : Nat) : Nat := (16 * hid + level) * 65536 + unit
/-- The scopes of the units that a release at a scope adds to (R169). -/
def releaseScopes (scope : Nat) : List Nat :=
  match scope with
  | 1 => [1]
  | 2 => [1, 2]
  | 3 => [1, 2, 3]
  | 4 => [1, 2, 3, 4]
  | 5 => [1, 2, 3, 4, 6, 5]
  | 6 => [1, 2, 6]
  | _ => []
/-- The published set of a unit grows. -/
def State.publish (s : State) (key : Nat) (know : Seen) : State :=
  if know.isEmpty then s else { s with pub := tput s.pub key (joinSeen (tget s.pub [] key) know) }
/-- Rel (R170): what a core has seen is published for every unit of the scope. -/
def State.release (s : State) (core fen scope : Nat) : State :=
  let hid := (s.coreOf core).hid.getD 0
  (releaseScopes scope).foldl (fun s u => s.publish (domKey hid u (unitOf u core fen)) (s.coreOf core).seen) s
/-- Acq (R170): the published set of the scope's unit joins Seen of a core. -/
def State.acquire (s : State) (core fen scope : Nat) : State :=
  if scope = 0 then s
  else s.learn core (tget s.pub [] (domKey ((s.coreOf core).hid.getD 0) scope (unitOf scope core fen)))

/-! ### The start and the end of locations (R162) -/

/-- A byte of a B store. -/
def Loc.isLoft (l : Loc) : Bool :=
  match l with
  | .loft _ _ => true
  | _ => false
/-- A core's local store starts with new initial nodes, and its Seen set with nothing else but what it knows of B stores, which a
launch does not place (R33, log 31). -/
def State.freshCore (s : State) (core : Nat) : State :=
  { s.onCore core (fun x => { x with seen := x.seen.filter (fun p => p.1.isLoft), boxKnow := [], stagePub := [] }) with
    order := s.order.filter (fun p => match p.1 with
      | .ls c _ => c != core
      | _ => true) }
/-- A core's B store starts with new initial nodes. -/
def State.freshLoft (s : State) (core : Nat) : State :=
  { s.onCore core (fun x => { x with seen := x.seen.filter (fun p => !p.1.isLoft) }) with
    order := s.order.filter (fun p => match p.1 with
      | .loft c _ => c != core
      | _ => true) }
/-- A cluster's counters start anew. -/
def State.freshCounters (s : State) (cl : Nat) : State :=
  { s with order := s.order.filter (fun p => match p.1 with
      | .counter c _ => c != cl
      | _ => true) }
/-- A cluster's cistern rows start anew. -/
def State.freshRows (s : State) (cl : Nat) : State :=
  { s with order := s.order.filter (fun p => match p.1 with
      | .row c _ => c != cl
      | _ => true) }
/-- The stubs and directory entries of a household end with it (R349), and so do its domain instances. -/
def State.forgetPlaces (s : State) (hid : Nat) : State :=
  let keep (t : Table Nat) : Table Nat := t.filter (fun e => e.1 / 2 ^ 20 != hid)
  { s with clusters := s.clusters.map (fun k => (k.1, { k.2 with dir := keep k.2.dir, stubs := keep k.2.stubs })),
           doms := s.doms.filter (fun d => d.1 / 65536 / 16 != hid) }
/-- A household's machine ends: its published sets and the graphs of its memory. -/
def State.forgetHousehold (s : State) (hid : Nat) : State :=
  { s with pub := s.pub.filter (fun p => p.1 / 65536 / 16 != hid),
           order := s.order.filter (fun p => match p.1 with
             | .mem h _ => h != hid
             | _ => true) }
/-- A write from outside a household's machine: a node that its writer knows to be after none. -/
def State.touchPlace (s : State) (but : Option Nat) (p : Place) (val : Nat) : State :=
  if s.order.any (fun e => match e.1 with
      | .mem h q => q == p && but != some h
      | _ => false) then
    let w : Node := { id := s.ctr + 1, val := val, base := 0, size := 1, before := [] }
    { s with
      ctr := s.ctr + 1,
      order := s.order.map (fun e => match e.1 with
        | .mem h q => if q == p && but != some h then (e.1, { e.2 with nodes := e.2.nodes ++ [w] }) else e
        | _ => e) }
  else s

/-! ### Event counters and cistern rows (R172, R176) -/

/-- A node of a location that is no byte: after every node there, known to nobody yet. -/
def State.appendNode (s : State) (l : Loc) (old val : Nat) : Nat × State :=
  let g := (lfind s.order l).getD { init := old, nodes := [] }
  let w : Node := { id := s.ctr + 1, val := val, base := 0, size := 0, before := g.nodes.map (fun u => u.id) }
  (s.ctr + 1, { s with ctr := s.ctr + 1, order := lput s.order l { g with nodes := g.nodes ++ [w] } })
/-- The nodes of bytes whose identities are above a count: those made since it was read. -/
def State.nodesAfter (s : State) (n : Nat) (locs : List Loc) : Seen :=
  locs.flatMap (fun l => match lfind s.order l with
    | none => []
    | some g => (g.nodes.filter (fun u => n < u.id)).map (fun u => (l, u.id)))
/-- Every node of a location, as a set. -/
def State.allNodes (s : State) (l : Loc) : Seen :=
  match lfind s.order l with
  | none => []
  | some g => g.nodes.map (fun u => (l, u.id))
/-- A read step of a core at a location that is no byte. -/
def State.readNode (s : State) (core : Nat) (l : Loc) (val : Nat) : Nat × State :=
  let cand := s.sightAt (s.coreOf core).seen (fun _ => l) (fun _ => val)
  if settled cand (fun _ => val) 0 1 then (val, s)
  else
    let r := s.pickFrom cand 0 1 1 []
    ((r.1.map (fun p => p.2.val)).headD val, r.2.learn core (pickedSeen (fun _ => l) r.1))

end Sys2Proof.Machine
end

