-- ==== Sys2Proof/Machine/Translate.lean ====
section
/-! DEFINITION. Household page tables, last-level TLBs, mounts and the memories behind them (R359 to R363, R409, R416, R417). -/
namespace Sys2Proof.Machine

/-- HBM, a die's Cellar, the Annex (R360). -/
def isHbm (pa : Nat) : Bool := decide (pa < 2 ^ 39)
def isCellar (pa : Nat) : Bool := decide (2 ^ 40 ≤ pa ∧ pa < 2 ^ 40 + 4 * 2 ^ 30)
def isAnnex (pa : Nat) : Bool := decide (2 ^ 43 ≤ pa ∧ pa < 2 ^ 44)
def deviceMapped (pa : Nat) : Bool := isHbm pa || isCellar pa || isAnnex pa
/-- The die whose Cellar holds an address. -/
def cellarDie (pa : Nat) : Nat := (pa - 2 ^ 40) / 2 ^ 30

/-- The bits of a level: lowest VA bit, index width (R359). -/
def levelBits (l : Nat) : Nat × Nat :=
  match l with
  | 0 => (41, 11)
  | 1 => (30, 11)
  | 2 => (25, 5)
  | _ => (16, 9)
/-- Bytes a leaf of a level maps. -/
def leafBytes (l : Nat) : Nat := 2 ^ (levelBits l).1
/-- The alignment of the table that an entry of a level names (R359). -/
def nextAlign (l : Nat) : Nat := if l = 0 then 16384 else 4096

/-- A leaf entry is well formed at its level (R359). -/
def leafOk (l e : Nat) : Bool :=
  let tier := bits e 3 3
  let port := bits e 6 5
  let target := bits e 12 40 * 4096
  let n := leafBytes l
  l != 0 && !bit e 11 && bits e 52 12 == 0 && tier ≤ 4 && (if tier = 4 then port ≤ 17 else port = 0) && target % n = 0 &&
    (match tier with
     | 0 => isHbm target && isHbm (target + n - 1)
     | 1 => isCellar target && isCellar (target + n - 1) && cellarDie target == cellarDie (target + n - 1)
     | 2 => isAnnex target && isAnnex (target + n - 1)
     | _ => true)
/-- A table entry is well formed at its level (R359). -/
def tableOk (l e : Nat) : Bool :=
  let target := bits e 12 40 * 4096
  l != 3 && bits e 2 10 == 0 && bits e 52 12 == 0 && isHbm target && target % nextAlign l = 0

/-- The walk from a table of a level (R359): the leaf's level and entry, or a refusal reason (R382). -/
def walk (m : Memory) (levels : List Nat) (table va : Nat) : Except Nat (Nat × Nat) :=
  match levels with
  | [] => .error 5
  | l :: rest =>
    let lb := levelBits l
    let e := m.readN (table + 8 * bits va lb.1 lb.2) 8
    if !bit e 0 then .error 3
    else if bit e 1 then (if leafOk l e then .ok (l, e) else .error 5)
    else if tableOk l e then walk m rest (bits e 12 40 * 4096) va
    else .error 5

/-- The die of the Porch and of the Annex, host and Boardwalk streamers (R277). -/
def ioDie : Nat := 4
/-- An entry of a die's TLB that covers an address of the household (R361). -/
def State.tlbHit (s : State) (die hid va : Nat) : Option TlbEntry :=
  s.tlb.find? (fun t => t.die == die && t.hid == hid && decide (t.va ≤ va ∧ va < t.va + leafBytes t.level))
/-- The mount that governs an address ahead of the page table (R409). -/
def State.mountAt (s : State) (hid va : Nat) : Option Mount :=
  s.mounts.find? (fun m => m.hid == hid && decide (m.va ≤ va ∧ va < m.va + 65536 * m.pages))
/-- The leaf for an address: from the die's TLB, else by the walk. -/
def State.leafFor (s : State) (die hid va : Nat) : Except Nat (Nat × Nat) :=
  match s.tlbHit die hid va with
  | some t => .ok (t.level, t.entry)
  | none => walk s.pa [0, 1, 2, 3] (s.household hid).root va
/-- The peat well holds a physical address (R401). -/
def Porch.inWell (p : Porch) (pa : Nat) : Bool := decide (p.pwbBase * 2 ^ 30 ≤ pa ∧ pa < (p.pwbBase + p.pwbSize) * 2 ^ 30)
/-- The place of a byte that a leaf maps (R359): host memory under the queue's PASID (R351), a peer page in the address space
of the household's peer on the module that the port reaches (R365, R440); nothing in the peat well (R401). -/
def State.placeOf (s : State) (hid va l e : Nat) : Except Nat Place :=
  let a := bits e 12 40 * 4096 + va % leafBytes l
  match bits e 3 3 with
  | 3 => .ok (.hostM (s.queue (s.household hid).queue).pasid a)
  | 4 => .ok (.peer (tget s.cabling (bits e 6 5) (bits e 6 5)) hid a)
  | _ => if s.porch.inWell a then .error 5 else .ok (.device a)
/-- Translation of one byte through the TLB of a die (R359, R361, R409): its place, or the reason of the refusal (R382). Every
leaf of a dead household is read as W = 0 (R406). -/
def State.translateAt (s : State) (die hid va : Nat) (wr : Bool) : Except Nat Place :=
  if 2 ^ 52 ≤ va then .error 5
  else
    match s.mountAt hid va with
    | some m => if wr then .error 4 else .ok (.peat m.peat (va - m.va))
    | none =>
      match s.leafFor die hid va with
      | .error r => .error r
      | .ok (l, e) => if wr && (!bit e 2 || !(s.household hid).alive) then .error 4 else s.placeOf hid va l e
/-- Translation for the Porch and for the units that are no streamer: through the TLB of the I/O die (log 28). -/
def State.translate (s : State) (hid va : Nat) (wr : Bool) : Except Nat Place := s.translateAt ioDie hid va wr
/-- A list without the first item that a test holds of. -/
def dropFirst {α : Type} (f : α → Bool) (l : List α) : List α :=
  match l with
  | [] => []
  | x :: rest => if f x then rest else x :: dropFirst f rest
/-- A step's walk fills the TLB of a die (R361), which holds 32,768 entries; a full one drops its oldest (log 28). -/
def State.tlbFill (s : State) (die hid va : Nat) : State :=
  match s.tlbHit die hid va with
  | some _ => s
  | none =>
    match walk s.pa [0, 1, 2, 3] (s.household hid).root va with
    | .error _ => s
    | .ok (l, e) =>
      let t : TlbEntry := { die := die, hid := hid, va := va / leafBytes l * leafBytes l, level := l, entry := e }
      let old := if (s.tlb.filter (fun x => x.die == die)).length < 32768 then s.tlb else dropFirst (fun x => x.die == die) s.tlb
      { s with tlb := old ++ [t] }

/-- An address that leaves the module: host memory, a peer, the Annex (R398). -/
def State.leavesModule (s : State) (hid va : Nat) : Bool :=
  match s.translate hid va false with
  | .ok (.device pa) => isAnnex pa
  | .ok (.hostM _ _) => true
  | .ok (.peer _ _ _) => true
  | _ => false

/-- The clusters of a group's rectangle (R306, R309). -/
def State.groupClusters (s : State) (g : Group) : List Nat :=
  match tfind (s.household g.hid).fens g.desc.fidx with
  | none => []
  | some f =>
    (List.range g.desc.h).flatMap (fun y => (List.range g.desc.w).map (fun x => clAt (f.cx + g.ox + x) (f.cy + g.oy + y)))
/-- A die's Cellar is in its quiet phase (R363). -/
def State.quiet (s : State) (die : Nat) : Bool :=
  !(s.queues.any (fun q => q.2.groups.any (fun g =>
    (g.st == .loading || g.st == .running) && (s.groupClusters g).any (fun cl => cl / 80 == die))))

/-- The byte that a peat holds at an offset, decrypted when it is sealed (R409); once its key is erased a sealed peat gives
its header and, for its sections, the sealed bytes as they stand (R405, log 26). -/
def State.peatByte (s : State) (n off : Nat) : Byte :=
  let p := tget s.peats Peat.reset n
  if p.sealed_ && p.pk.isSome then p.clear.getD off 0 else s.pa.read (p.base + off)
/-- Host memory as the physical function reaches it, apart from the space of every PASID (R353, R428, R457, R465). -/
def pfHost : Nat := 2 ^ 20 * 2 ^ 52
/-- One byte of a place. -/
def State.readPlace (s : State) (p : Place) : Byte :=
  match p with
  | .device pa => s.pa.read pa
  | .hostM pasid a => s.host.read (pasid * 2 ^ 52 + a)
  | .peer m hid a => s.peer.read ((m * 256 + hid) * 2 ^ 52 + a)
  | .peat n off => s.peatByte n off
/-- Writes one byte of a place; a mounted peat is never written. -/
def State.setPlace (s : State) (p : Place) (b : Byte) : State :=
  match p with
  | .device pa => { s with pa := s.pa.write pa b }
  | .hostM pasid a => { s with host := s.host.write (pasid * 2 ^ 52 + a) b }
  | .peer m hid a => { s with peer := s.peer.write ((m * 256 + hid) * 2 ^ 52 + a) b }
  | .peat _ _ => s
/-- The Annex port of an address and its link (R360, R423). -/
def annexLink (pa : Nat) : Nat := 27 + pa / 2 ^ 41 % 4
def State.linkDown (s : State) (n : Nat) : Bool := (tget s.links Link.reset n).st == 2
/-- The reason for which an access is refused after translation: a write of a Cellar outside its quiet phase (R363), an Annex port
that is down (R427). -/
def State.placeRefuses (s : State) (p : Place) (wr : Bool) : Nat :=
  match p with
  | .device pa =>
    if isAnnex pa && s.linkDown (annexLink pa) then 14
    else if wr && isCellar pa && !s.quiet (cellarDie pa) then 7 else 0
  | _ => 0
/-- A Cellar bank is in its busy window (R364). -/
def State.cellarBusy (s : State) (pa : Nat) : Bool :=
  let off := (s.dieAt (cellarDie pa)).cwinOffset + 256 * (pa / 65536 % 16)
  decide ((s.gts + 4096 * (off / 4096 + 1) - off) % 4096 < 96)
/-- A byte of a household's memory for an access: its place, or a refusal reason; host memory is reached only under the
queue's PASID (R351, R352). -/
def State.accessAt (s : State) (die hid va : Nat) (wr : Bool) : Except Nat Place :=
  match s.translateAt die hid va wr with
  | .error r => .error r
  | .ok p =>
    match p with
    | .hostM _ _ => if (s.queue (s.household hid).queue).pvalid then .ok p else .error 10
    | _ => if s.placeRefuses p wr = 0 then .ok p else .error (s.placeRefuses p wr)
/-- The same for the units that are no streamer. -/
def State.access (s : State) (hid va : Nat) (wr : Bool) : Except Nat Place := s.accessAt ioDie hid va wr
/-- An atom of DRAM-class memory with its poison bit set (R416). -/
def State.poisoned (s : State) (p : Place) : Bool :=
  match p with
  | .device pa => s.poison.contains (pa / 32)
  | _ => false

/-- A table of the given levels maps a physical address of HBM or a Cellar (R350, R359). -/
def tableMaps (m : Memory) (levels : List Nat) (table pa : Nat) : Bool :=
  match levels with
  | [] => false
  | l :: rest =>
    (List.range (2 ^ (levelBits l).2)).any (fun i =>
      let e := m.readN (table + 8 * i) 8
      let t := bits e 12 40 * 4096
      bit e 0 &&
        (if bit e 1 then leafOk l e && decide (bits e 3 3 ≤ 1 ∧ t ≤ pa ∧ pa < t + leafBytes l)
         else tableOk l e && tableMaps m rest t pa))
/-- A page that some household maps holds a physical address: what the host reaches through CXL.mem (R350). -/
def State.cxlReaches (s : State) (pa : Nat) : Bool :=
  (isHbm pa || isCellar pa) && !s.porch.inWell pa &&
    s.households.any (fun h => h.2.alive && tableMaps s.pa [0, 1, 2, 3] h.2.root pa)

end Sys2Proof.Machine
end

