-- ==== Sys2Proof/Machine/Banks.lean ====
section
/-! DEFINITION. Banks of the DRAM-class memories: where an address lies (R360), row activation and refresh management (R430 to
R433), hot pages (R435, R436), what an access waits for (R364, R431, R464), and the accesses of the units that are no streamer. -/
namespace Sys2Proof.Machine

/-! ### Where an address lies (R360, R430) -/

def groupOf (pa : Nat) : Nat := pa / 65536 % 32
def stackOf (pa : Nat) : Nat := groupOf pa / 4
def bankOf (pa : Nat) : Nat := pa / 2 ^ 21 % 32
def pchOf (pa : Nat) : Nat := pa / 256 % 16
/-- The number of an HBM bank: channel group, pseudo-channel, bank. -/
def bankKey (pa : Nat) : Nat := (groupOf pa * 16 + pchOf pa) * 32 + bankOf pa
def stackOfBank (b : Nat) : Nat := b / 512 / 4
/-- The number of a Cellar bank among the banks of the model. -/
def cellarBank (pa : Nat) : Nat := 16384 + 16 * cellarDie pa + pa / 65536 % 16
def pageOf (pa : Nat) : Nat := pa / 65536
/-- The delay accumulator of a bank (R464). -/
def accOf (b : Nat) : Nat := if b < 16384 then b / 512 * 32 + b % 32 else 1024 + (b - 16384)
def State.stack (s : State) (n : Nat) : Stack := tget s.hbmStacks Stack.reset n
def State.onStack (s : State) (n : Nat) (f : Stack → Stack) : State :=
  { s with hbmStacks := tput s.hbmStacks n (f (s.stack n)) }
def State.bank (s : State) (b : Nat) : Bank := tget s.banks Bank.reset b
def State.onBank (s : State) (b : Nat) (f : Bank → Bank) : State := { s with banks := tput s.banks b (f (s.bank b)) }
/-- The row an access reaches: 8,192 and above for the spare of a migrated page (R435). -/
def State.rowAt (s : State) (pa : Nat) : Nat :=
  match tfind s.remap (pageOf pa) with
  | some k => 8192 + k
  | none => pa / 2 ^ 26 % 8192
/-- The refresh window of a GTS (R430). -/
def windowOf (g : Nat) : Nat := g / 60800000
/-- ACT of a row in the current window. -/
def State.act (s : State) (b row : Nat) : Nat :=
  let k := s.bank b
  if k.window = windowOf s.gts then tget k.acts 0 row else 0

/-! ### Activation (R430, R431, R433, R435, R436) -/

/-- The household whose page table maps a page (R436); 0 when none does. -/
def State.mapper (s : State) (pa : Nat) : Nat :=
  ((s.households.find? (fun h => tableMaps s.pa [0, 1, 2, 3] h.2.root pa)).map (fun h => h.1)).getD 0
/-- The Porch holds a page as peer-mapped (R365). -/
def State.peerMapped (s : State) (pa : Nat) : Bool :=
  s.peerPages.any (fun p =>
    match s.translate p.1 (65536 * p.2) false with
    | .ok (.device a) => pageOf a == pageOf pa
    | _ => false)
/-- The tracker's key of a page: a spare counts for itself (R435). -/
def State.trackKey (s : State) (page : Nat) : Nat :=
  match tfind s.copying page with
  | some k => page + 2 ^ 24 * (k + 1)
  | none =>
    match tfind s.remap page with
    | some k => page + 2 ^ 24 * (k + 1)
    | none => page
/-- One event against the page that holds a row; a page whose count reaches HOTTH is hot (R435, R436). -/
def State.track (s : State) (pa : Nat) : State :=
  let n := stackOf pa
  let k := s.stack n
  let hot := if k.window = windowOf s.gts then k.hot else []
  let key := s.trackKey (pageOf pa)
  let c := tget hot 0 key + 1
  let s := s.onStack n (fun k => { k with hot := tput hot key c, window := windowOf s.gts })
  if c != k.hotth then s else s.next (.pageMigrate (pageOf pa))
/-- The rows next to a row (R431); a spare's neighbours are spares. -/
def neighbours (row : Nat) : List Nat :=
  (if row = 0 ∨ row = 8192 then [] else [row - 1]) ++ (if row = 8191 then [] else [row + 1])
/-- A bank activates a row (R430, R431, R433). -/
def State.activate (s : State) (pa : Nat) : State :=
  let b := bankKey pa
  let row := s.rowAt pa
  let k := s.bank b
  let n := s.act b row + 1
  let acts := if k.window = windowOf s.gts then k.acts else []
  let st := s.stack (stackOf pa)
  let k := { k with openRow := some row, lastAccess := s.gts, window := windowOf s.gts }
  let s := s.onBank b (fun _ => { k with acts := tput acts row n })
  if n != st.th then s
  else if st.takeover.isSome then (s.onBank b (fun k => { k with held := true, thAt := some s.gts })).track pa
  else
    let cleared := (row :: neighbours row).foldl (fun t r => tdel t r) acts
    let s := s.onBank b (fun k => { k with acts := cleared, backoff := s.gts + 1900, thAt := some s.gts })
    let s := s.onStack (stackOf pa) (fun k => { k with rmgt := min 65535 (k.rmgt + 1) })
    (s.track pa).stepAt (s.gts + 1900) (.backoffEnd b)
/-- The open row of a bank serves an access without an activation (R430). -/
def State.rowOpen (s : State) (pa : Nat) : Bool :=
  let k := s.bank (bankKey pa)
  k.openRow == some (s.rowAt pa) && decide (s.gts < k.lastAccess + 128)

/-! ### Waiting at a bank -/

/-- Why an access waits: a refresh, a back-off or the hold of R433, neither: a page being copied, another request in its cycle. -/
inductive BankWait where
  | refresh | backoff | page
deriving DecidableEq, Repr

/-- An activation of the row of an address reaches TH (R431). -/
def State.reachesTh (s : State) (pa : Nat) : Bool :=
  s.act (bankKey pa) (s.rowAt pa) + 1 == (s.stack (stackOf pa)).th
/-- What a step that reaches an address in this cycle waits for. A refresh of the sequencer in this cycle comes first, and so does an
activation that reaches TH: no other request of its cycle is served before or after it (R431). -/
def State.bankWait (s : State) (pa : Nat) : Option BankWait :=
  if isCellar pa then (if s.cellarBusy pa then some .refresh else none)
  else if !isHbm pa then none
  else if (tfind s.copying (pageOf pa)).isSome then some .page
  else
    let k := s.bank (bankKey pa)
    if s.gts < (s.stack (stackOf pa)).busyUntil || s.agenda.contains (.sequencerRefresh (stackOf pa)) then some .refresh
    else if k.thAt == some s.gts then some .backoff
    else if s.rowOpen pa then none
    else if s.gts < k.backoff || k.held then some .backoff
    else if s.reachesTh pa && k.openRow.isSome && k.lastAccess == s.gts then some .page
    else none
/-- One more cycle in which a step waits at a bank (R464). -/
def State.countWait (s : State) (pa : Nat) (w : BankWait) : State :=
  let b := if isCellar pa then cellarBank pa else bankKey pa
  let k := s.bank b
  let old := tget s.porch.bdval 0 (accOf b)
  let add (f : Nat) (s : State) : State := { s with porch := { s.porch with bdval := tput s.porch.bdval (accOf b) f } }
  match w with
  | .refresh =>
    if s.gts < k.waitRef then s
    else (add (old % 2 ^ 32 + 2 ^ 32 * min (2 ^ 32 - 1) (old / 2 ^ 32 + 1)) s).onBank b (fun k => { k with waitRef := s.gts + 1 })
  | .backoff =>
    if s.gts < k.waitBof then s
    else (add (min (2 ^ 32 - 1) (old % 2 ^ 32 + 1) + 2 ^ 32 * (old / 2 ^ 32)) s).onBank b (fun k => { k with waitBof := s.gts + 1 })
  | .page => s
/-- An access that does not wait: a hit of the open row, or an activation (R430). -/
def State.touch (s : State) (pa : Nat) : State :=
  if !isHbm pa then s
  else if s.rowOpen pa then s.onBank (bankKey pa) (fun k => { k with lastAccess := s.gts })
  else s.activate pa

/-- The device address that an address of a household reaches. -/
def State.deviceVa (s : State) (hid va : Nat) : Option Nat :=
  match s.translate hid va false with
  | .ok (.device pa) => some pa
  | .ok (.peat n off) => some ((tget s.peats Peat.reset n).base + off)
  | _ => none
/-- A step at an address of a household would wait at its bank (R364, R431, R433, R435). -/
def State.vaBusy (s : State) (hid va : Nat) : Bool :=
  match s.deviceVa hid va with
  | some pa => (s.bankWait pa).isSome
  | none => false
/-- A transfer of n bytes ends with a byte whose bank is busy; its other bytes are moved before, each when its bank is free.
That the transfer waits for this one alone is the
model's form (log 33). -/
def State.endBusy (s : State) (hid va n : Nat) : Bool := n != 0 && s.vaBusy hid (va + n - 1)

/-! ### Accesses of the units that are no streamer -/

/-- Atoms from a VA to the end of n bytes: the first address in each. -/
def atomVas (va n : Nat) : List Nat := (List.range ((va + n + 31) / 32 - va / 32)).map (fun i => max va (32 * (va / 32 + i)))
/-- The rows that a read of n bytes reaches are opened (R430). -/
def State.touchVa (s : State) (hid va n : Nat) : State :=
  (atomVas va n).foldl (fun s a =>
    match s.deviceVa hid a with
    | some pa => s.touch pa
    | none => s) s
/-- A write of one byte by a unit that is no party of an ordering machine; its row is open (R430). -/
def State.writePlace (s : State) (p : Place) (b : Byte) : State :=
  let s := match p with
    | .device pa => s.touch pa
    | _ => s
  (s.touchPlace none p b.toNat).setPlace p b
/-- n consecutive bytes of one page, read (R353, R441, R458). -/
def State.readVa (s : State) (hid va n : Nat) : Except Nat Nat :=
  match n with
  | 0 => .ok 0
  | k + 1 =>
    match s.access hid va false with
    | .error r => .error r
    | .ok p =>
      match s.readVa hid (va + 1) k with
      | .error r => .error r
      | .ok v => .ok ((s.readPlace p).toNat + 256 * v)
/-- n consecutive bytes of one page, written (R353, R441, R458). -/
def State.writeVa (s : State) (hid va n val : Nat) : Except Nat State :=
  match n with
  | 0 => .ok s
  | k + 1 =>
    match s.access hid va true with
    | .error r => .error r
    | .ok p => State.writeVa (s.writePlace p (BitVec.ofNat 8 val)) hid (va + 1) k (val / 256)

end Sys2Proof.Machine
end

