-- ==== Sys2Proof/Machine/Operands.lean ====
section
/-! DEFINITION. Operand forms: the addresses of R132, offsets (R81), what a word uses, and the issue of a C-slot and of an
A-slot word in the order of R93 and R377. -/
namespace Sys2Proof.Machine

/-! ### Addresses -/

/-- The classes of R132: own local store at a byte; window member and offset; event window offset; none. -/
inductive AddrClass where
  | own (a : Nat)
  | window (member off : Nat)
  | event (off : Nat)
  | none
deriving DecidableEq, Repr

/-- Bytes of a local store (R16). -/
def lsBytes : Nat := 0x60000
/-- The class of an address (R132). -/
def classify (a : Nat) : AddrClass :=
  if a < 0x60000 then .own a
  else if 0x1000000 ≤ a ∧ a < 0x1600000 then
    let w := a - 0x1000000
    .window (w / 128 % 16) (w / 2048 * 128 + w % 128)
  else if 0x2000000 ≤ a ∧ a < 0x2000800 then .event (a - 0x2000000)
  else .none
/-- The window address of a member's local-store byte (R132). -/
def windowAddr (member off : Nat) : Nat := 0x1000000 + off / 128 * 2048 + member * 128 + off % 128
/-- A sign-extended field times a scale, added to a base (R81). -/
def offAddr {n : Nat} (base : Word) (o : BitVec n) (scale : Nat) : Nat :=
  (base + o.signExtend 64 * BitVec.ofNat 64 scale).toNat
/-- An index register times a scale, added to a base (R81). -/
def idxAddr (base idx : Word) (scale : Nat) : Nat := (base + idx * BitVec.ofNat 64 scale).toNat
/-- The target of a transfer with a PC-relative offset (R81, R110). -/
def relTarget {n : Nat} (pc : Word) (o : BitVec n) : Word := pc + o.signExtend 64 * 4
/-- The return address (R110): plus 8 from a pair, plus 4 from a lone word. -/
def returnAddr (pc : Word) (ln : Bool) : Word := if ln then pc + 4 else pc + 8

/-- Misaligned-access for an address that is no multiple of z (R136). -/
def misaligned (a z : Nat) : List Cond := condIf (a % z ≠ 0) 4 0 a
/-- Bad-address for an own-store address below the core's own fetch boundary (R134). -/
def belowOwn (s : State) (a : Nat) : List Cond :=
  match classify a with
  | .own x => condIf (x < s.here.boundary) 5 1 a
  | _ => []
/-- Bad-address outside every class, and in the event window (R132, R152). -/
def notEvent (a : Nat) : List Cond :=
  match classify a with
  | .none => condIf true 5 0 a
  | .event _ => condIf true 5 2 a
  | _ => []
/-- Whether an address is in the cluster window or the event window: the request is remote (R133). -/
def isRemote (a : Nat) : Bool :=
  match classify a with
  | .own _ => false
  | .none => false
  | _ => true
/-- The core whose local store holds an address of the running core, and the byte there. -/
def State.home (s : State) (a : Nat) : Option (Nat × Nat) :=
  match classify a with
  | .own x => some (s.focus, x)
  | .window m off => some (coreIn s.myCluster m, off)
  | _ => none
/-- A line of n bytes is held. -/
def CoreSt.anyBusy (x : CoreSt) (off n : Nat) : Bool :=
  (List.range ((off + n - 1) / 128 - off / 128 + 1)).any (fun i => x.lineBusy (off + 128 * i) none)
/-- A line of these own bytes is held (R144, R148): the home core's pair does not issue. -/
def State.lineLocked (s : State) (a n : Nat) : Bool :=
  match classify a with
  | .own x => s.here.anyBusy x n
  | _ => false
/-- The same, or a granule of these own bytes has failed (R419): a pair that would read it does not issue. -/
def State.lineHeld (s : State) (a n : Nat) : Bool :=
  s.lineLocked a n || (match classify a with
    | .own x => s.granuleFailed 0 s.focus x n
    | _ => false)

/-! ### What a word uses -/

/-- The reads, names and conditions of one word: registers read, vector registers named, token fields, the token it raises,
the remote requests it makes, its own precise conditions, its own unsatisfied wait, whether a region allows it, whether it
is illegal where it stands, the log entries it reserves (R469). -/
structure Use where
  srcs : List RegId := []
  vecs : List Nat := []
  kfields : List (BitVec 4) := []
  tok : Option TokRef := none
  reqs : Nat := 0
  conds : List Cond := []
  waits : Bool := false
  inRegion : Bool := false
  illegal : Bool := false
  mol : Nat := 0

/-- The number of a register with its class, as EINFO of cause 7 gives it. -/
def RegId.info (r : RegId) : Nat :=
  match r with
  | .s n => n
  | .v n => 64 + n
  | .p n => 128 + n
/-- Cause 7 (R107): CCTL.UWTRAP and a read of a pending register. Of several registers the first of the word's list is reported (log 33). -/
def Ctx.underWaited (c : Ctx) (srcs : List RegId) : List Cond :=
  if c.uwtrap then (srcs.filter c.isPending).map (fun r => Cond.mk 7 0 r.info) else []
/-- Cause 8 (R104). -/
def Ctx.tokenOverflow (c : Ctx) (t : Option TokRef) : List Cond :=
  match t with
  | none => []
  | some r =>
    condIf (c.tok r ≥ 63) 8 0 (match r with
      | .k n => n
      | .t n => n)
/-- Cause 10 (R129). -/
def Ctx.requestOverflow (c : Ctx) (n : Nat) : List Cond := condIf (n ≠ 0 && 1023 < c.orcCount + n) 10 0 0
/-- Cause 11 (R38, R79). Of several registers the first of vD, vA, vB is reported (log 33). -/
def Ctx.overQuota (c : Ctx) (vs : List Nat) : List Cond := (vs.filter (fun v => c.quota ≤ v)).map (fun v => Cond.mk 11 0 v)
/-- Cause 15 (R149). -/
def Ctx.outsideRegion (c : Ctx) (allowed : Bool) : List Cond :=
  match c.region with
  | none => []
  | some r => condIf (!allowed) 15 0 r.pc
/-- Every condition of position 6 of R93. -/
def Use.all (u : Use) (c : Ctx) : List Cond :=
  u.conds ++ c.underWaited u.srcs ++ c.tokenOverflow u.tok ++ c.requestOverflow u.reqs ++ c.overQuota u.vecs ++
    c.outsideRegion u.inRegion
/-- A token field that a handler's word may not hold (R77). -/
def Ctx.badToken (c : Ctx) (k : BitVec 4) : Bool := c.inh && 4 ≤ k.toNat
/-- The wait field is satisfied, or names no token (R75, R77). -/
def Ctx.waitMet (c : Ctx) (hd : CHead) : Bool :=
  hd.wn == 3 || c.badToken hd.wk || c.tok (c.tokRef hd.wk.toNat) ≤ hd.wn.toNat
/-- The word's pending reads set CSTAT.UW when no trap takes them (R107). -/
def State.markReads (s : State) (srcs : List RegId) : State :=
  if srcs.any s.me.isPending then s.onMe (fun c => { c with uw := true }) else s
/-- The 32 bits of an instruction, for EINFO. -/
def wordOf (i : Instr) : Nat := ((encode i).getD 0).toNat

/-- The memory-order log of a core's task (R468): its address. -/
def State.molBase (s : State) (core : Nat) : Nat :=
  (s.queue (s.queueOfCore core)).molb + 65536 * ((s.coreOf core).ctx 0).task
/-- Free slots of a core's log for a value of HEAD, and whether n more entries do not fit (R469). -/
def CoreSt.molRoom (x : CoreSt) (head : Nat) : Nat := 2047 - (x.molTail + 2 ^ 32 - head) % 2 ^ 32
def CoreSt.molFull (x : CoreSt) (n head : Nat) : Bool :=
  bit x.det 1 && n != 0 && decide (2047 < x.molRes + n + (x.molTail + 2 ^ 32 - head) % 2 ^ 32)
/-- The check fails with the HEAD read last, and the reread waits for a busy bank (R364, R469). -/
def State.molBusy (s : State) (n : Nat) : Bool :=
  s.here.molFull n s.here.molHead && s.vaBusy (s.here.hid.getD 0) (s.molBase s.focus)
/-- The check of n entries reads HEAD again (R469). -/
def State.molReads (s : State) (n : Nat) : Bool := s.here.molFull n s.here.molHead && !s.molBusy n
/-- HEAD for the check of n entries (R469): the value read last, or a reread when that one fails. -/
def State.molHeadFor (s : State) (n : Nat) : Nat :=
  if s.molReads n then ((s.readVa (s.here.hid.getD 0) (s.molBase s.focus + 4) 4).toOption).getD s.here.molHead
  else s.here.molHead
/-- The log of the running core keeps memory order, and has no room for n more entries (R469). -/
def State.molShort (s : State) (n : Nat) : Bool := s.here.molFull n (s.molHeadFor n)
/-- Cause 29 SUB 2 (R469). -/
def State.molCond (s : State) (n : Nat) : List Cond :=
  condIf (s.molShort n && !s.molBusy n && bit s.here.det 2 && !s.me.inh) 29 2
    (s.here.molRes % 65536 * 65536 + s.here.molRoom (s.molHeadFor n) % 65536)
/-- The context waits for room in its log and the core rereads HEAD 1,900 cycles later (R469). -/
def State.molWait (s : State) : State :=
  ((s.hold false).onMe (fun c => { c with wait := .molRoom })).stepAt (s.gts + 1900) (.molHeadReread s.focus s.here.run)
/-- The check has passed: n entries are reserved (R469), one for each event that the pair will log (log 33). -/
def State.molReserve (s : State) (n : Nat) : State :=
  s.onHere (fun x => if bit x.det 1 then { x with molRes := x.molRes + n, molHead := s.molHeadFor n } else x)
/-- A core has read its log's HEAD again: the read opens its row (R430, R469). -/
def State.headRead (s : State) (core : Nat) : State :=
  s.touchVa ((s.coreOf core).hid.getD 0) (s.molBase core + 4) 4
/-- The entries of a core's log that its streamer can write now, in order, each with TAIL after it and the end of its
reservation (R468); one that is refused, meets a busy bank or belongs to a stopped household waits, and the later ones behind it (R330, R363, R364,
log 20). -/
def State.molFlush (s : State) (core fuel : Nat) : State :=
  match fuel with
  | 0 => s
  | k + 1 =>
    let x := s.coreOf core
    let hid := x.hid.getD 0
    match x.molQ with
    | [] => s
    | val :: rest =>
      if (s.household hid).asleep || s.vaBusy hid (s.molBase core) then s
      else
        match s.writeVa hid (s.molBase core + 32 * (1 + x.molTail % 2047)) 32 val with
        | .error _ => s
        | .ok s1 =>
          match s1.writeVa hid (s.molBase core) 4 ((x.molTail + 1) % 2 ^ 32) with
          | .error _ => s
          | .ok s2 =>
            (s2.onCore core (fun y =>
              { y with molQ := rest, molTail := (y.molTail + 1) % 2 ^ 32, molRes := y.molRes - 1 })).molFlush core k
/-- Entries of ended tasks that can be written now are (R363, R468); one that is refused or meets a busy bank waits.
Their order is the one in which their tasks ended (log 33). -/
def State.molLateFlush (s : State) (hid : Nat) : State :=
  let l := (s.household hid).molLate
  let s := s.onHousehold hid (fun h => { h with molLate := [] })
  l.foldl (fun s e =>
    let keep : State := s.onHousehold hid (fun h => { h with molLate := h.molLate ++ [e] })
    if s.vaBusy hid e.1 || (s.household hid).molLate.any (fun x => x.1 == e.1) then keep
    else
      match s.writeVa hid (e.1 + 32 * (1 + e.2.1 % 2047)) 32 e.2.2 with
      | .error _ => keep
      | .ok s1 =>
        match s1.writeVa hid e.1 4 ((e.2.1 + 1) % 2 ^ 32) with
        | .error _ => keep
        | .ok s2 => s2) s
/-- One entry of the log (R468). -/
def State.molEntry (s : State) (core ctx kind rkind seq pc w1 w2 g : Nat) : State :=
  if bit (s.coreOf core).det 1 then
    let val := kind + (ctx % 16 + 16 * (rkind % 16)) * 2 ^ 8 + seq % 65536 * 2 ^ 16 + w1 % 2 ^ 32 * 2 ^ 32 +
      w2 % 2 ^ 32 * 2 ^ 64 + pc % 2 ^ 19 * 2 ^ 96 + g % 2 ^ 64 * 2 ^ 128
    let s := s.onCore core (fun x => { x with molQ := x.molQ ++ [val] })
    s.molFlush core ((s.coreOf core).molQ.length)
  else s

/-- The issue of a C-slot word in the order of R93: wait field, illegality, the instruction's own wait, precise conditions,
effect. -/
def issueC (i : Instr) (hd : CHead) (u : Use) (eff : State → State) (s : State) : Host.Outcome State Fault Refusal :=
  let c := s.me
  if !c.waitMet hd then .next (s.hold true)
  else if !i.wf || u.illegal || (hd.wn != 3 && c.badToken hd.wk) || u.kfields.any c.badToken then
    .next (s.enterTrap 1 0 1 false (wordOf i) c.pc)
  else if u.waits then .next (s.hold false)
  else
    match firstCond (u.all c ++ s.molCond u.mol) with
    | some k => .next (s.enterTrap k.cause k.sub 1 false k.info c.pc)
    | none =>
      if s.molBusy u.mol then .next (s.hold false)
      else if s.molShort u.mol then .next s.molWait
      else .next (eff ((s.markReads u.srcs).molReserve u.mol))

/-- The issue of an A-slot word: its pair's wait governs it (R78), so only illegality and precise conditions are its own. -/
def issueA (i : Instr) (u : Use) (eff : State → State) (s : State) : Host.Outcome State Fault Refusal :=
  let c := s.me
  if !i.wf then .next (s.enterTrap 1 0 2 false (wordOf i) c.pc)
  else
    match firstCond (u.all c) with
    | some k => .next (s.enterTrap k.cause k.sub 2 false k.info c.pc)
    | none => .next (eff (s.markReads u.srcs))

/-- A fixed-latency write of the running context (R61, R101). -/
def State.fixedWrite (s : State) (r : RegId) (val lat : Nat) : State := s.onMe (fun c => c.queueFixed r val lat)
/-- A long-latency producer of the running context: token raised, pending bit set (R104, R107). -/
def State.longStart (s : State) (r : RegId) (t : TokRef) : State := s.onMe (fun c => (c.raise t).addPending r)

end Sys2Proof.Machine
end

