-- ==== Sys2Proof/Machine/Flags.lean ====
section
/-! DEFINITION. The control registers field by field (R6, R24, R37, R43, R52, R126 to R131, R218, R284, R364, R372). -/
namespace Sys2Proof.Machine

/-- A register value from its fields (low bit, width, value); bits of no field are zero (R6). -/
def packFields (fs : List (Nat × Nat × Nat)) : Word :=
  BitVec.ofNat 64 (fs.foldr (fun f acc => (f.2.2 % 2 ^ f.2.1) * 2 ^ f.1 + acc) 0)
/-- n bits of a word from bit lo up. -/
def wfld (w : Word) (lo n : Nat) : Nat := (w.extractLsb' lo n).toNat
def ofBool (b : Bool) : Nat := if b then 1 else 0

def State.dom (s : State) (hid level unit : Nat) : DomInst := tget s.doms DomInst.reset (domKey hid level unit)

/-- The core is in a gang; it leads the gang (R127). -/
def State.inGang (s : State) : Bool := s.here.gang.isSome
def State.leads (s : State) : Bool :=
  match s.here.gang with
  | some g => g.members.head? == some s.focus
  | none => false
/-- The repetition buffer records for a context or replays for it (R127). -/
def CoreSt.rbFor (x : CoreSt) (ctx : Nat) : Bool :=
  match x.rbSt with
  | .idle => false
  | .recording o _ => o == ctx
  | .replaying o _ _ _ _ _ => o == ctx

def Ctx.tidReg (c : Ctx) : Word := packFields [(32, 8, c.fen), (28, 4, c.ctxNo), (0, 20, c.task)]
def State.domReg (s : State) : Word :=
  let c := s.me
  let ssn := if c.level = 0 then 0
    else (s.dom (s.here.hid.getD 0) c.level (unitOf c.level s.focus c.fen)).phases
  packFields [(32, 16, ssn), (8, 1, ofBool c.arr), (0, 3, c.level)]
def Ctx.xbReg (c : Ctx) : Word := packFields [(32, 16, c.ovh), (8, 11, c.bound)]
/-- CSTAT (R127). PND counts the registers of R107: a Pending handle register sets no pending bit (R259, log 32). -/
def State.cstatReg (s : State) : Word :=
  let c := s.me
  packFields [(32, 32, c.scnt), (7, 1, ofBool c.inh), (6, 1, ofBool s.inGang), (5, 1, ofBool s.leads),
    (4, 1, ofBool (s.here.rbFor s.here.run)), (3, 1, ofBool (!c.pend.isEmpty)), (2, 1, ofBool c.susp), (0, 1, ofBool c.uw)]
def Ctx.cctlReg (c : Ctx) : Word := packFields [(4, 4, c.ltk), (0, 1, ofBool c.uwtrap)]
def Ctx.orcReg (c : Ctx) : Word := packFields [(16, 16, c.nseq), (0, 10, c.orcCount)]
def State.cwinReg (s : State) : Word :=
  packFields [(32, 12, (s.dieAt (dieOf s.focus)).cwinOffset), (16, 8, 96), (0, 16, 4096)]

/-- The value that `getc` reads (R122, R126). -/
def State.readCtl (s : State) (n : Nat) : Word :=
  let c := s.me
  let x := s.here
  match n with
  | 0x000 => c.tidReg
  | 0x001 => BitVec.ofNat 64 (cpos s.focus)
  | 0x002 => s.domReg
  | 0x003 => c.xbReg
  | 0x004 => packFields [(4, 15, x.xpl / 16)]
  | 0x005 => s.cstatReg
  | 0x006 => c.cctlReg
  | 0x007 => c.orcReg
  | 0x008 => BitVec.ofNat 64 s.gts
  | 0x010 => c.epc
  | 0x011 => c.ecause
  | 0x012 => c.einfo
  | 0x018 => c.upcall
  | 0x019 => c.rqseq
  | 0x020 => BitVec.ofNat 64 x.mfa
  | 0x021 => BitVec.ofNat 64 x.mfb
  | 0x022 => BitVec.ofNat 64 x.msa
  | 0x023 => BitVec.ofNat 64 x.msb
  | 0x030 => s.cwinReg
  | _ => 0

/-- The fields that `setc` writes, but DOM.LEVEL, which changes the domain instance (R122, R6). -/
def State.writeCtl (s : State) (n : Nat) (w : Word) : State :=
  match n with
  | 0x003 => s.onMe (fun c => if c.inh then { c with bound := min (wfld w 8 11) 0x600 } else c)
  | 0x005 => s.onMe (fun c => { c with scnt := wfld w 32 32, susp := c.susp && !w.getLsbD 2, uw := c.uw && !w.getLsbD 0 })
  | 0x006 => s.onMe (fun c => { c with ltk := wfld w 4 4, uwtrap := w.getLsbD 0 })
  | 0x010 => s.onMe (fun c => { c with epc := w })
  | 0x020 => s.onHere (fun x => { x with mfa := wfld w 0 4 })
  | 0x021 => s.onHere (fun x => { x with mfb := wfld w 0 4 })
  | 0x022 => s.onHere (fun x => { x with msa := wfld w 0 19 })
  | 0x023 => s.onHere (fun x => { x with msb := wfld w 0 19 })
  | _ => s

end Sys2Proof.Machine
end

