-- ==== Sys2Proof/Machine/Tracer.lean ====
section
/-! DEFINITION. The trace encoder of a core (R458 to R463): records, windows and the full ring. -/
namespace Sys2Proof.Machine

def Trace.en (t : Trace) : Bool := t.ctl.getLsbD 0
def Trace.marks (t : Trace) : Bool := t.ctl.getLsbD 1
def Trace.br (t : Trace) : Bool := t.ctl.getLsbD 2
def Trace.win (t : Trace) : Bool := t.ctl.getLsbD 3
def Trace.ovt (t : Trace) : Bool := t.ctl.getLsbD 4
/-- Context j is traced (R458). -/
def Trace.ctxOn (t : Trace) (j : Nat) : Bool := t.ctl.getLsbD (16 + j)
def Trace.tail (t : Trace) : Nat := wfld t.idx 32 32
def Trace.head (t : Trace) : Nat := wfld t.idx 0 32
/-- N of the ring (R458). -/
def Trace.slots (t : Trace) : Nat := 16 * 2 ^ wfld t.base 0 4
def Trace.full (t : Trace) : Bool := decide (t.slots ≤ (t.tail + 2 ^ 32 - t.head) % 2 ^ 32 + t.held.length)
/-- LOST rises and saturates (R458). -/
def Trace.lose (t : Trace) : Trace :=
  { t with ctl := packFields [(48, 16, min 65535 (wfld t.ctl 48 16 + 1)), (0, 48, wfld t.ctl 0 48)] }

/-- A trigger condition (R461): KIND, CTX and VALUE against what happens in this cycle: the GTS, the pair that issues
(context and PC) and the marker immediate that it carries. -/
def triggerHolds (trig : Word) (g : Nat) (pair : Option (Nat × Nat)) (marker : Option Nat) : Bool :=
  let value := wfld trig 0 57
  let who := wfld trig 57 4
  let ctxOk (j : Nat) : Bool := who == 15 || who == j
  match wfld trig 62 2 with
  | 1 =>
    match pair with
    | some (j, pc) => ctxOk j && pc % 2 ^ 19 == value % 2 ^ 19
    | none => false
  | 2 => g % 2 ^ 57 == value
  | 3 =>
    match pair, marker with
    | some (j, _), some imm => ctxOk j && imm == value % 2 ^ 13
    | _, _ => false
  | _ => false

/-- The address of the slot that the next record of the ring is written to (R458). -/
def Trace.slotVa (t : Trace) : Nat := wfld t.base 12 40 * 4096 + 32 * (t.tail % t.slots)
/-- The records of a core that its ring's streamer can write now, in order: one waits for a busy bank (R364) or while its household is
stopped (R330), a refused one is
lost (R363). -/
def State.traceFlush (s : State) (core fuel : Nat) : State :=
  match fuel with
  | 0 => s
  | k + 1 =>
    let x := s.coreOf core
    let t := x.trace
    let hid := x.hid.getD 0
    match t.held with
    | [] => s
    | rec_ :: rest =>
      if x.hid.isNone || (s.household hid).asleep || s.vaBusy hid t.slotVa then s
      else
        match s.writeVa hid t.slotVa 32 rec_.toNat with
        | .error _ => (s.onCore core (fun x => { x with trace := { x.trace.lose with held := rest } })).traceFlush core k
        | .ok s' =>
          (s'.onCore core (fun x =>
            { x with trace := { x.trace with held := rest, idx := packFields [(32, 32, x.trace.tail + 1), (0, 32, x.trace.head)] } })).traceFlush
              core k
/-- A 32-byte record of the core; a full ring loses it (R458, R463). -/
def State.traceWrite (s : State) (core : Nat) (rec_ : BitVec 256) : State :=
  if (s.coreOf core).trace.full then s.onCore core (fun x => { x with trace := x.trace.lose })
  else
    let s := s.onCore core (fun x => { x with trace := { x.trace with held := x.trace.held ++ [rec_] } })
    s.traceFlush core ((s.coreOf core).trace.held.length)

/-- The layout of R459. -/
def traceRecord (kind ctx imm pcCore w1 w2 g v : Nat) : BitVec 256 :=
  packRecord [(1, kind), (1, ctx), (2, imm), (4, pcCore), (4, w1), (4, w2), (8, g), (8, v)]
/-- PC in bits 18:0, core number in bits 31:19. -/
def pcField (pc core : Nat) : Nat := pc % 2 ^ 19 + core % 2 ^ 13 * 2 ^ 19

/-- A marker or branch record of the running pair is produced: encoder on, context traced, kind enabled, window open or
opening in this cycle (R459). -/
def State.traces (s : State) (marker : Option Nat) : Bool :=
  let t := s.here.trace
  t.en && t.ctxOn s.here.run && (if marker.isSome then t.marks else t.br) &&
    (!t.win || t.winOpen || triggerHolds t.trig0 s.gts (some (s.here.run, s.me.pc.toNat)) marker)
/-- Cause 29 SUB 1 (R463). -/
def State.traceCond (s : State) (marker : Option Nat) : List Cond :=
  condIf (s.traces marker && s.here.trace.full && s.here.trace.ovt && !s.me.inh) 29 1 s.here.trace.tail
/-- A marker record (KIND 1) or branch record (KIND 2) of the running pair; the delay counts start again (R459, R460). -/
def State.traceEvent (s : State) (marker : Option Nat) (v : Nat) : State :=
  if s.traces marker then
    let c := s.me
    let rec_ := traceRecord (if marker.isSome then 1 else 2) s.here.run (marker.getD 0) (pcField c.pc.toNat s.focus)
      c.waitc c.slotc s.gts v
    (s.traceWrite s.focus rec_).onMe (fun c => { c with waitc := 0, slotc := 0 })
  else s

/-- The window at the end of a core's cycle (R462), given the pair it issued and the marker it carried. -/
def State.traceWindow (s : State) (core : Nat) (pair : Option (Nat × Nat)) (marker : Option Nat) : State :=
  let t := (s.coreOf core).trace
  if !t.en then s
  else
    let start := triggerHolds t.trig0 s.gts pair marker
    let stop := triggerHolds t.trig1 s.gts pair marker
    let n := if pair.isSome then 1 else 0
    let byGts := wfld t.trig0 62 2 == 2
    let sctx := if byGts then 15 else (pair.map (fun p => p.1)).getD 15
    let spc := if byGts then 0 else (pair.map (fun p => p.2)).getD 0
    let out (s : State) (c pc pairs g : Nat) : State :=
      if t.win then s.traceWrite core (traceRecord 3 c 0 (pcField pc core) pairs 0 g s.gts) else s
    if t.winOpen then
      if stop then
        (out s t.startCtx t.startPc (t.pairs + n) t.start).onCore core
          (fun x => { x with trace := { x.trace with winOpen := false } })
      else s.onCore core (fun x => { x with trace := { x.trace with pairs := x.trace.pairs + n } })
    else if start && stop then out s sctx spc n s.gts
    else if start then
      s.onCore core (fun x => { x with trace := { x.trace with winOpen := true, start := s.gts, startCtx := sctx,
                                                               startPc := spc, pairs := n } })
    else s

end Sys2Proof.Machine
end

