-- ==== Sys2Proof/Machine/Barrier.lean ====
section
/-! DEFINITION. Shared operations of late reports (R379, R386), atomics at a home (R142, R145), task naming (R54) and
domain instances (R44 to R47). -/
namespace Sys2Proof.Machine

/-! ### Late reports -/

/-- The record of a late report (R386): KIND 1 orphan, KIND 3 lost. -/
def lateRecord (kind src : Nat) (r : LateReport) : BitVec 256 :=
  faultRecord kind (if r.cause = 25 then r.reason else r.cause) r.seq src r.addr r.gts r.rkind 0 r.tag
/-- EINFO of a late trap without LOST (R373, R380, R443). -/
def LateReport.info (r : LateReport) : Nat :=
  match r.cause with
  | 18 => r.tag % 16 * 2 ^ 32 + r.addr % 2 ^ 32
  | 28 => r.seq * 2 ^ 48 + r.rkind * 2 ^ 32 + r.addr % 2 ^ 24
  | _ => r.seq * 2 ^ 48 + r.reason * 2 ^ 40 + r.rkind * 2 ^ 32 + (if r.rkind = 10 then r.tag else r.addr) % 2 ^ 32
/-- A late report for a context (R379): its queue, an orphan record, or a record of a report lost to a full queue. -/
def State.lateReport (s : State) (core ctx : Nat) (r : LateReport) : State :=
  let c := s.ctxOf core ctx
  let q := s.queueOfCore core
  let src := (s.srcOf core ctx).field
  if !c.live || c.wait == .halt || c.fatal then s.record q 2 (lateRecord 1 src r) none
  else if 16 ≤ c.lateQ.length then
    (s.onCtx core ctx (fun c => { c with lost := min 15 (c.lost + 1) })).record q 2 (lateRecord 3 src r) none
  else s.onCtx core ctx (fun c => { c with lateQ := c.lateQ ++ [r] })
/-- A late refusal (R380). -/
def State.refusal (s : State) (core ctx seq reason rkind addr tag : Nat) : State :=
  s.lateReport core ctx
    { cause := 25, sub := 0, seq := seq, reason := reason, rkind := rkind, addr := addr, tag := tag, gts := s.gts }

/-! ### Routes (R32, R438) -/

/-- The rectangle of a Fen with an identifier holds a cluster (R30, R32). -/
def State.fenHolds (s : State) (hid fen cl : Nat) : Bool :=
  (s.household hid).fens.any (fun f =>
    f.2.ident == fen && decide (f.2.cx ≤ clX cl ∧ clX cl < f.2.cx + f.2.w ∧ f.2.cy ≤ clY cl ∧ clY cl < f.2.cy + f.2.h))
/-- The mesh link between two neighbouring cores is removed (R438). -/
def State.linkGone (s : State) (a b : Nat) : Bool := s.removed.contains (a, b) || s.removed.contains (b, a)
/-- The neighbour one hop in X or in Y, towards higher or lower coordinates; none at the edge of the module. -/
def hopX (core : Nat) (up : Bool) : Option Nat :=
  let x := modX core
  if up then (if x < 79 then some (coreAt (x + 1) (modY core)) else none)
  else if 0 < x then some (coreAt (x - 1) (modY core)) else none
def hopY (core : Nat) (up : Bool) : Option Nat :=
  let y := modY core
  if up then (if y < 63 then some (coreAt (modX core) (y + 1)) else none)
  else if 0 < y then some (coreAt (modX core) (y - 1)) else none
/-- Where a router sends a message: the next core and whether the hop is a detour in X; none when it is held (R438). -/
def State.nextHop (s : State) (m : Msg) (target : Nat) : Option (Nat × Bool) :=
  let here := m.at_
  let inFen (c : Nat) : Bool := s.fenHolds m.src.hid m.src.fen (clusterOf c)
  let usable (c : Option Nat) : Option Nat :=
    match c with
    | some n => if s.linkGone here n || !inFen n then none else some n
    | none => none
  let gone (c : Option Nat) : Bool :=
    match c with
    | some n => s.linkGone here n
    | none => true
  let dx := hopX here (decide (modX here < modX target))
  let dy := hopY here (decide (modY here < modY target))
  let byX : Bool := modX here != modX target && !(m.detour && modY here != modY target)
  if byX then
    if !gone dx then dx.map (fun n => (n, false))
    else if modY here != modY target then (usable dy).map (fun n => (n, false))
    else
      let south := hopY here true
      let side := match south with
        | some n => if inFen n then south else hopY here false
        | none => hopY here false
      (usable side).map (fun n => (n, false))
  else if !gone dy then dy.map (fun n => (n, false))
  else
    let east := hopX here true
    let side := if modX here != modX target then dx else match east with
      | some n => if inFen n then east else hopX here false
      | none => hopX here false
    (usable side).map (fun n => (n, true))
/-- A household is killed as if a KILL with REL = 0 and WHEN = 0 had been received now (R391, R419, R437, R438). -/
def State.killNow (s : State) (hid : Nat) : State := s.armKill hid (s.gts + 4096) 256
/-- A router-to-router link is a crossing that retrains: flits wait in the replay buffer of its near end (R426). -/
def State.crossingBusy (s : State) (a b : Nat) : Bool :=
  s.links.any (fun l => l.2.xtrain.any (fun p => p.1 == (a, b) || p.1 == (b, a)))
/-- A message can go from core to core, hop by hop, until it stands at a core (R438). -/
def State.reaches (s : State) (m : Msg) (target fuel : Nat) : Bool :=
  match fuel with
  | 0 => m.at_ == target
  | k + 1 =>
    m.at_ == target || (match s.nextHop m target with
      | some (c, det) => s.reaches { m with at_ := c, detour := det } target k
      | none => false)
/-- What answers a request goes back over the mesh: without a route it is held and its household killed (R438). -/
def State.sendBack (s : State) (id : Nat) (e : Event) : State :=
  match tfind s.bag id with
  | none => s.soon e
  | some m =>
    if s.removed.isEmpty || s.reaches { m with detour := false } m.src.core 288 then s.soon e else s.killNow m.src.hid

/-! ### Atomics at a home -/

/-- The new value of R142 for an element of w bits. -/
def amoNew (op : AmoOp) (w : Nat) (uns : Bool) (old b c : Nat) : Nat :=
  let lt (x y : Nat) : Bool :=
    let sx : Int := if !uns && 2 ^ (w - 1) ≤ x then (x : Int) - (2 ^ w : Nat) else x
    let sy : Int := if !uns && 2 ^ (w - 1) ≤ y then (y : Int) - (2 ^ w : Nat) else y
    sx < sy
  match op with
  | .add => (old + b) % 2 ^ w
  | .min => if lt b old then b else old
  | .max => if lt old b then b else old
  | .and => old &&& b
  | .or => old ||| b
  | .xor => old ^^^ b
  | .swp => b
  | .cas => if old = c then b else old
/-- A value of z bytes extended to 64 bits. -/
def extendTo64 (z : Nat) (sext : Bool) (v : Nat) : Nat :=
  let v := v % 2 ^ (8 * z)
  if sext && 2 ^ (8 * z - 1) ≤ v then v + (2 ^ 64 - 2 ^ (8 * z)) else v
/-- The atomic step of an `amo` or a `red` of a core on an element at its home (R142, R168): the old value and the state after
it. -/
def State.amoStep (s : State) (core home : Nat) (op : AmoOp) (z : Nat) (uns : Bool) (addr b c : Nat) : Nat × State :=
  s.atomicLs core home addr z (fun old => amoNew op (8 * z) uns old (b % 2 ^ (8 * z)) (c % 2 ^ (8 * z)))
/-- One more request or grant applied at a home (R468). -/
def State.countApplied (s : State) (core : Nat) : State := s.onCore core (fun x => { x with appIdx := (x.appIdx + 1) % 2 ^ 32 })
/-- An answer leaves the home: it reaches the issuing core after a time that is not fixed (R136, R139, R142). -/
def State.answer (s : State) (id : Nat) (vals : List Nat) : State :=
  (s.onMsg id (fun m => { m with st := .answered vals })).sendBack id (.replyReceive id)
/-- An acknowledgement without a value leaves the home (R133). -/
def State.acknowledge (s : State) (id : Nat) : State := s.sendBack id (.requestAck id)
/-- What a refused request keeps: its home's count, and the GTS of the refusal (R386, R468). -/
def State.refusedApp (s : State) (m : Msg) : Nat × Nat × Nat :=
  match m.dst with
  | .core n => (n, (s.coreOf n).appIdx, s.gts)
  | _ => (0, 0, s.gts)
/-- A refusal leaves the unit that found it (R381, R444). -/
def State.refuseMsg (s : State) (id reason addr : Nat) : State :=
  (s.onMsg id (fun m => { m with st := .refused reason addr, app := some (s.refusedApp m) })).sendBack id (.refusalReceive id)

/-- Deterministic atomics run (R145, R467). -/
def CoreSt.detAtomic (x : CoreSt) : Bool := bit x.det 0
/-- The place of a held request in the order of R145. For a request to the own local store `seq` is the model's counter at its
issue; how it stands to a window request of its context, the spec does not say (log 32). -/
def HeldAmo.before (a b : HeldAmo) : Bool :=
  decide (a.step < b.step) ||
    (a.step == b.step && (decide (a.core < b.core) ||
      (a.core == b.core && (decide (a.ctx < b.ctx) || (a.ctx == b.ctx && decide (a.seq < b.seq))))))
/-- Adds a held request at its place. -/
def insertHeld (a : HeldAmo) (l : List HeldAmo) : List HeldAmo :=
  match l with
  | [] => [a]
  | b :: rest => if a.before b then a :: b :: rest else b :: insertHeld a rest
/-- Why a request is refused at its home: the target runs no task of the household, or the address lies below the boundary
(R134, R382). -/
def State.homeRefuses (s : State) (home hid : Nat) (offs : List Nat) : Option Nat :=
  let x := s.coreOf home
  if x.hid != some hid || x.ended || !(x.ctx 0).live then some 2
  else if offs.any (fun a => a < x.boundary) then some 1
  else none
/-- A refusal that reports a request which has been acknowledged already (R381, R387). -/
def State.refuseApart (s : State) (m : Msg) (reason addr : Nat) : State :=
  ({ s with bag := tput s.bag s.ctr { m with remote := false, tok := none, st := .refused reason addr, app := some (s.refusedApp m) },
            ctr := s.ctr + 1 }).soon
    (.refusalReceive s.ctr)
/-- The address that a held request was made to. -/
def HeldAmo.target (a : HeldAmo) : Nat :=
  match a.req with
  | some m =>
    match m.body with
    | .amo _ _ _ x _ _ _ _ => x
    | .red _ _ _ x _ _ => x
    | _ => a.addr
  | none => a.addr
/-- A held request is applied at its home (R145), where a window request may meet a refusal (R387): a returning one is answered. -/
def State.applyHeld (s : State) (home : Nat) (a : HeldAmo) : State :=
  match a.req.bind (fun m => (s.homeRefuses home m.src.hid [a.addr]).map (fun r => (m, r))) with
  | some (m, r) =>
    match a.returning, a.msg with
    | true, some id => s.refuseMsg id r a.target
    | _, _ => s.refuseApart m r a.target
  | none =>
    let r := s.amoStep a.core home a.op a.z a.uns a.addr a.b a.c
    let s := r.2.countApplied home
    match a.returning, a.msg with
    | false, _ => s
    | true, some id => (s.onMsg id (fun m => { m with app := some (home, (s.coreOf home).appIdx, s.gts) })).answer id [r.1]
    | true, none =>
      s.doneAt (s.gts + 1) a.core a.ctx
        [.write (.s a.d) (extendTo64 a.z (!a.uns) r.1), .unpend (.s a.d), .acqDone (.s a.d), .lower a.tok]
/-- Every held request of an instance, at every home, is applied. -/
def State.applyHeldOf (s : State) (key : Nat) : State :=
  s.cores.foldl (fun s x =>
    let mine := x.2.heldAmos.filter (fun a => a.key == key)
    let s := s.onCore x.1 (fun y => { y with heldAmos := y.heldAmos.filter (fun a => a.key != key) })
    mine.foldl (fun s a => s.applyHeld x.1 a) s) s

/-! ### Task naming -/

/-- The index of the Fen of a household with an identifier. -/
def State.fenIndex (s : State) (hid fen : Nat) : Option Nat :=
  (((s.household hid).fens.find? (fun f => f.2.ident == fen))).map (fun f => f.1)
/-- The core of a task in a Fen, from the placement table (R54). -/
def State.taskCore (s : State) (hid fen task : Nat) : Option Nat :=
  match tfind (s.household hid).place task with
  | none => none
  | some (i, core) => if s.fenIndex hid fen == some i then some core else none
/-- A core runs a task of a household that has not ended. -/
def State.runs (s : State) (core hid task : Nat) : Bool :=
  let x := s.coreOf core
  x.hid == some hid && !x.ended && (x.ctx 0).live && (x.ctx 0).task == task

/-! ### Domain instances -/

/-- The members of an instance (R44): the household's live contexts at the level in the unit. -/
def State.membersOf (s : State) (hid level unit : Nat) : List (Nat × Nat) :=
  s.cores.flatMap (fun x =>
    if x.2.hid == some hid then
      ((List.range 11).filter (fun i =>
        let c := x.2.ctx i
        c.live && c.level == level && unitOf level x.1 c.fen == unit)).map (fun i => (x.1, i))
    else [])
/-- The key of a context's instance. -/
def State.keyOf (s : State) (core ctx : Nat) : Nat :=
  let c := s.ctxOf core ctx
  domKey ((s.coreOf core).hid.getD 0) c.level (unitOf c.level core c.fen)
def State.onDom (s : State) (key : Nat) (f : DomInst → DomInst) : State :=
  { s with doms := tput s.doms key (f (tget s.doms DomInst.reset key)) }
/-- Release latency (R46). -/
def releaseLatency (level : Nat) : Nat :=
  match level with
  | 1 => 2
  | 2 => 8
  | 3 => 24
  | 4 => 48
  | _ => 96
/-- An arrival at the context's instance (R46). -/
def Ctx.arrive (c : Ctx) : Ctx := if c.arr then c else { c with arr := true, arrOut := c.out }
/-- The instance and superstep of a deterministic atomic on its way (R145). -/
def Msg.heldFor (m : Msg) : Option (Nat × Nat) :=
  match m.body with
  | .amo _ _ _ _ _ _ _ inst => inst
  | .red _ _ _ _ _ inst => inst
  | _ => none
/-- A core has requests of an instance's current superstep that are still held or on their way (R147). -/
def State.holdsNow (s : State) (core key : Nat) : Bool :=
  let step := (tget s.doms DomInst.reset key).phases
  s.cores.any (fun x => x.2.heldAmos.any (fun a => a.core == core && a.key == key && a.step == step)) ||
    s.bag.any (fun e => e.2.src.core == core && e.2.heldFor == some (key, step) && e.2.st == .going && e.2.app.isNone)
/-- An arrived member; a halted control context counts while its core's requests of the superstep are held (R147). -/
def State.arrived (s : State) (m : Nat × Nat) : Bool :=
  let c := s.ctxOf m.1 m.2
  c.arr || ((s.coreOf m.1).detAtomic && m.2 == 0 && c.wait == .halt && s.holdsNow m.1 (s.keyOf m.1 m.2))

/-- The exchange plan of a core: PERIOD and COUNT (R34). -/
def CoreSt.planPeriod (x : CoreSt) : Nat := x.ls.readN x.xpl 2
def CoreSt.planCount (x : CoreSt) : Nat := x.ls.readN (x.xpl + 2) 2
/-- The address of an entry of the plan. -/
def CoreSt.planAt (x : CoreSt) (i : Nat) : Nat := x.xpl + 16 + 32 * i
/-- The entries due in the superstep (R35); a core without a plan has none. -/
def CoreSt.planDue (x : CoreSt) : List Nat :=
  if x.xpl = 0 then [] else (List.range x.planCount).filter (fun i => x.ls.readN (x.planAt i) 2 == x.planPhase)
/-- The exchange of a control context's core begins: its due entries are issued in order (R35). -/
def State.startPlan (s : State) (core : Nat) : State :=
  let due := (s.coreOf core).planDue
  due.foldl (fun s i => s.soon (.planEntry core i)) (s.onCore core (fun x => { x with planTodo := due }))

/-- A deterministic atomic of a core for an instance is still on its way: it does not stand at its home yet (R145). -/
def State.amoUnderWay (s : State) (core key : Nat) : Bool :=
  s.bag.any (fun e => e.2.src.core == core && e.2.heldFor.any (fun i => i.1 == key) && e.2.st == .going && e.2.app.isNone &&
    !s.cores.any (fun x => x.2.heldAmos.any (fun a => a.msg == some e.1)))
/-- A held request of an instance stands at a line that another party holds (R148). -/
def State.heldBusy (s : State) (key : Nat) : Bool :=
  s.cores.any (fun x => x.2.heldAmos.any (fun a => a.key == key && x.2.lineBusy a.addr none))
/-- The exchange of an instance is done (R46, R145). -/
def State.exchangeDone (s : State) (key : Nat) (ms : List (Nat × Nat)) : Bool :=
  ms.all (fun m =>
    let c := s.ctxOf m.1 m.2
    c.arrOut.all (fun q => !c.out.contains q) && (m.2 != 0 || (s.coreOf m.1).planTodo.isEmpty) &&
      !((s.coreOf m.1).detAtomic && s.amoUnderWay m.1 key)) &&
    !(s.cores.any (fun x => x.2.heldAmos.any (fun a => a.key == key)))

/-- One instance at the end of a cycle: its exchange begins when every member has arrived, held atomics are applied in it,
and its completion is fixed when it is done (R45, R46, R145, R147). A request that is issued or arrives after that is held to
the instance's next exchange (log 32). -/
def State.scanInstance (s : State) (key : Nat) : State :=
  let hid := key / 65536 / 16
  let level := key / 65536 % 16
  let ms := s.membersOf hid level (key % 65536)
  if level = 0 || (s.household hid).asleep || ms.any (fun m => s.groupHeld m.1) then s
  else if ms.isEmpty then (if s.heldBusy key then s else s.applyHeldOf key)
  else
    let d := tget s.doms DomInst.reset key
    let s :=
      if d.exchange || !ms.all s.arrived then s
      else
        (ms.filter (fun m => m.2 == 0)).foldl (fun s m => s.startPlan m.1)
          (s.onDom key (fun d => { d with exchange := true, members := ms }))
    let d := tget s.doms DomInst.reset key
    if d.exchange && d.release.isNone then
      let under := d.members.any (fun m => (s.coreOf m.1).detAtomic && s.amoUnderWay m.1 key)
      let s := if under || s.heldBusy key then s else s.applyHeldOf key
      if s.exchangeDone key d.members then
        let t := s.gts + releaseLatency level
        (s.onDom key (fun d => { d with release := some t })).stepAt t (.phaseComplete hid level (key % 65536))
      else s
    else s
/-- The instances with an arrival, an exchange or a held atomic. -/
def State.activeKeys (s : State) : List Nat :=
  ((s.cores.flatMap (fun x =>
      ((List.range 11).filter (fun i => (x.2.ctx i).live && (x.2.ctx i).level != 0 && s.arrived (x.1, i))).map
        (fun i => s.keyOf x.1 i) ++ x.2.heldAmos.map (fun a => a.key))) ++
    (s.doms.filter (fun d => d.2.exchange)).map (fun d => d.1)).eraseDups
/-- The instances of a household that have lost every member end with a group: a later launch starts them anew (R33, R35; log 32). -/
def State.dropDoms (s : State) (hid : Nat) : State :=
  { s with doms := s.doms.filter (fun d =>
      d.1 / 65536 / 16 != hid || !(s.membersOf hid (d.1 / 65536 % 16) (d.1 % 65536)).isEmpty) }
/-- The domain instances at the end of a cycle. -/
def State.scanBarriers (s : State) : State := s.activeKeys.foldl State.scanInstance s

end Sys2Proof.Machine
end

