-- ==== Sys2Proof/Machine/Numerics.lean ====
section
/-! DEFINITION. Number formats and arithmetic (R180 to R192): exact values, one rounding, NaN payloads.
Patterns are natural numbers; an exact finite value is a sign, a magnitude and a power of two. -/
namespace Sys2Proof.Machine

/-- The floating formats of R180, and DY8 (R182). -/
inductive Fmt where
  | f64 | w40 | f32 | bf16 | f16 | e5m2 | e4m3 | e8m0 | dy8
deriving DecidableEq, Repr

/-- Fraction width (R180). -/
def Fmt.frac (f : Fmt) : Nat :=
  match f with
  | .f64 => 52 | .w40 => 31 | .f32 => 23 | .bf16 => 7 | .f16 => 10 | .e5m2 => 2 | .e4m3 => 3 | .e8m0 => 0 | .dy8 => 0
/-- Exponent width (R180). -/
def Fmt.ebits (f : Fmt) : Nat :=
  match f with
  | .f64 => 11 | .w40 => 8 | .f32 => 8 | .bf16 => 8 | .f16 => 5 | .e5m2 => 5 | .e4m3 => 4 | .e8m0 => 8 | .dy8 => 0
/-- Bias (R180). -/
def Fmt.bias (f : Fmt) : Nat :=
  match f with
  | .f64 => 1023 | .w40 => 127 | .f32 => 127 | .bf16 => 127 | .f16 => 15 | .e5m2 => 15 | .e4m3 => 7 | .e8m0 => 127 | .dy8 => 0
/-- Width in bits (R180). -/
def Fmt.width (f : Fmt) : Nat :=
  match f with
  | .f64 => 64 | .w40 => 40 | .f32 => 32 | .bf16 => 16 | .f16 => 16 | .e5m2 => 8 | .e4m3 => 8 | .e8m0 => 8 | .dy8 => 8
/-- Payload width: the fraction without the quiet bit (R190). -/
def Fmt.pay (f : Fmt) : Nat := f.frac - 1

/-- An operand as R181 reads it: a NaN with sign and payload, an infinity, or (−1)^s · m · 2^e. -/
inductive Val where
  | nan (s : Bool) (payload : Nat)
  | inf (s : Bool)
  | fin (s : Bool) (m : Nat) (e : Int)
deriving DecidableEq, Repr

/-- +0. -/
def Val.zero : Val := .fin false 0 0
/-- −0. -/
def Val.negZero : Val := .fin true 0 0
def Val.isNaN (v : Val) : Bool :=
  match v with
  | .nan _ _ => true
  | _ => false
def Val.neg (v : Val) : Val :=
  match v with
  | .nan s p => .nan (!s) p
  | .inf s => .inf (!s)
  | .fin s m e => .fin (!s) m e

/-- m · 2^e as an integer when e ≥ 0, else rounded toward zero. -/
def shiftInt (m : Nat) (e : Int) : Nat := if e ≥ 0 then m <<< e.toNat else m >>> (-e).toNat

/-- m / 2^k rounded to nearest, ties to even. -/
def rneShift (m k : Nat) : Nat :=
  let q := m >>> k
  let r := m % 2 ^ k
  if 2 * r > 2 ^ k || (2 * r == 2 ^ k && q % 2 == 1) then q + 1 else q

/-- The term magnitude of a DY8 shift code, times 64 (R182). -/
def dyTerm (c : Nat) : Int :=
  let mag : Int := if c % 8 = 0 then 0 else (2 : Int) ^ (7 - c % 8)
  if c ≥ 8 then -mag else mag

/-- The value of a DY8 encoding, times 64 (R182). -/
def dyValue (p : Nat) : Int := dyTerm (p / 16 % 16) + dyTerm (p % 16)

/-- The exact value of a pattern (R180 to R182). -/
def unpack (f : Fmt) (p : Nat) : Val :=
  match f with
  | .e8m0 => if p % 256 = 255 then .nan false 0 else .fin false 1 ((p % 256 : Nat) - 127 : Int)
  | .dy8 =>
    let v := dyValue p
    if v = 0 then Val.zero else .fin (v < 0) v.natAbs (-6)
  | _ =>
    let F := f.frac
    let s := p.testBit (f.width - 1)
    let e := (p >>> F) % 2 ^ f.ebits
    let fr := p % 2 ^ F
    let top := 2 ^ f.ebits - 1
    if f = .e4m3 ∧ e = top ∧ fr = 7 then .nan s 0
    else if f ≠ .e4m3 ∧ e = top then (if fr = 0 then .inf s else .nan s (fr % 2 ^ f.pay))
    else if e = 0 then .fin s fr (1 - (f.bias : Int) - F)
    else .fin s (2 ^ F + fr) ((e : Int) - f.bias - F)

/-- The sign bit of a format. -/
def signBits (f : Fmt) (s : Bool) : Nat := if s then 2 ^ (f.width - 1) else 0

/-- The quiet NaN pattern with a sign and a payload (R180, R190); E4M3 and E8M0 have one payload each (R192). -/
def nanPat (f : Fmt) (s : Bool) (payload : Nat) : Nat :=
  match f with
  | .e8m0 => 0xFF
  | .dy8 => 0
  | .e4m3 => signBits f s + 0x7F
  | _ => signBits f s + ((2 ^ f.ebits - 1) <<< f.frac) + 2 ^ f.pay + payload % 2 ^ f.pay

/-- The infinity of a format, or what takes its place (R184, R186, R187). -/
def infPat (f : Fmt) (s : Bool) : Nat :=
  match f with
  | .e8m0 => if s then 0xFF else 0xFE
  | .dy8 => if s then 0x99 else 0x11
  | .e4m3 => signBits f s + 0x7E
  | _ => signBits f s + ((2 ^ f.ebits - 1) <<< f.frac)

/-- log2 of a DY8 term magnitude's code: 64 is code 1, 1 is code 7 (R182). -/
def dyCode (i : Nat) : Nat := 7 - i
/-- The canonical encodings of the DY8 magnitudes, times 64, first match first (R186 items 1 to 4). -/
def dyCanonical : List (Nat × Nat × Nat) :=
  [(0, 0, 0)] ++
  (List.range 7).map (fun i => (2 ^ i, dyCode i, 0)) ++
  (List.range 7).flatMap (fun i => (List.range (i + 1)).map (fun j => (2 ^ i + 2 ^ j, dyCode i, dyCode j))) ++
  (List.range 7).flatMap (fun i => (List.range i).map (fun j => (2 ^ i - 2 ^ j, dyCode i, 8 + dyCode j)))
/-- Trailing zero bits, 0 counting as the most (R186). -/
def trailingZeros (fuel n : Nat) : Nat :=
  match fuel with
  | 0 => 0
  | k + 1 => if n % 2 = 0 then 1 + trailingZeros k (n / 2) else 0
/-- The DY8 encoding nearest to (−1)^s · m · 2^e (R186). -/
def roundDy8 (s : Bool) (m : Nat) (e : Int) : Nat :=
  let e' := e + 6
  let k := (-e').toNat
  let x := if e' ≥ 0 then m <<< e'.toNat else m          -- |x|·64·2^k
  let x := Nat.min x (128 <<< k)
  let dist (v : Nat) : Nat := ((x : Int) - ((v <<< k : Nat) : Int)).natAbs
  let better (a b : Nat × Nat × Nat) : Bool :=
    dist a.1 < dist b.1 ||
    (dist a.1 == dist b.1 &&
      (trailingZeros 9 a.1 > trailingZeros 9 b.1 || (trailingZeros 9 a.1 == trailingZeros 9 b.1 && a.1 < b.1)))
  let best := dyCanonical.foldl (fun b a => if better a b then a else b) (0, 0, 0)
  if best.1 = 0 then 0
  else
    let first := best.2.1 + (if s then 8 else 0)
    let second := if best.2.2 = 0 then 0 else if s then (best.2.2 + 8) % 16 else best.2.2
    16 * first + second

/-- The E8M0 encoding of m · 2^e, m > 0 (R187). -/
def roundE8m0 (m : Nat) (e : Int) : Nat :=
  let l : Int := Nat.log2 m
  -- m / 2^l against 1.5
  let twice := 2 * m
  let k := l + e
  let up := twice > 3 * 2 ^ l.toNat || (twice == 3 * 2 ^ l.toNat && (k + 127) % 2 ≠ 0)
  let field := if up then k + 128 else k + 127
  (min (max field 0) 254).toNat

/-- RoundNE of (−1)^s · m · 2^e (R183, R184, R186, R187). -/
def roundFin (f : Fmt) (s : Bool) (m : Nat) (e : Int) : Nat :=
  match f with
  | .e8m0 => if s || m = 0 then 0xFF else roundE8m0 m e
  | .dy8 => roundDy8 s m e
  | _ =>
    if m = 0 then signBits f s
    else
      let F : Int := f.frac
      let emin : Int := 1 - f.bias
      let q := max ((Nat.log2 m : Int) + e) emin - F
      let k := q - e
      let m' := if k ≤ 0 then m <<< (-k).toNat else rneShift m k.toNat
      let mag := m' + (q - (emin - F)).toNat * 2 ^ f.frac
      if f = .e4m3 then signBits f s + Nat.min mag 0x7E
      else signBits f s + Nat.min mag ((2 ^ f.ebits - 1) <<< f.frac)

/-- Narrowing of an exact value that is no NaN, and of a NaN already in the format (R183, R190). -/
def pack (f : Fmt) (v : Val) : Nat :=
  match v with
  | .nan s p => nanPat f s p
  | .inf s => infPat f s
  | .fin s m e => roundFin f s m e

/-- The payload of a NaN moved between formats (R192); the NaNs of E4M3 and of E8M0 have none. -/
def movePayload (src dst : Fmt) (p : Nat) : Nat :=
  if dst = .e4m3 ∨ dst = .e8m0 then 0
  else if src = .e4m3 ∨ src = .e8m0 then 2 ^ dst.pay - 1
  else if dst.pay ≥ src.pay then (p <<< (dst.pay - src.pay)) + (2 ^ (dst.pay - src.pay) - 1)
  else p >>> (src.pay - dst.pay)

/-- An operand brought into the payload of another format (R192); finite values and infinities stay exact. -/
def Val.into (src dst : Fmt) (v : Val) : Val :=
  match v with
  | .nan s p => .nan s (movePayload src dst p)
  | v => v

/-- Conversion between formats (R185 to R187, R192). -/
def convert (src dst : Fmt) (p : Nat) : Nat := pack dst ((unpack src p).into src dst)

/-- The NaN pick (R190) of two NaNs of one format. -/
def pick (s1 : Bool) (p1 : Nat) (s2 : Bool) (p2 : Nat) : Val :=
  if p1 < p2 then .nan s1 p1
  else if p2 < p1 then .nan s2 p2
  else .nan (s1 && s2) p1

/-- The NaN that some of the operands give, none when no operand is a NaN (R190). -/
def pickAll (vs : List Val) : Option Val :=
  vs.foldl (fun acc v =>
    match v, acc with
    | .nan s p, none => some (.nan s p)
    | .nan s p, some (.nan s' p') => some (pick s' p' s p)
    | _, acc => acc) none

/-- The generated NaN of a core and a chunk field, as an FP32 value (R191). -/
def genNaN (core chunk : Nat) : Val := .nan false (512 * core + chunk)

/-- Exact sum of finite values and infinities; none is the invalid case ∞ − ∞ (R188, R189). -/
def addExact (a b : Val) : Option Val :=
  match a, b with
  | .inf s, .inf t => if s = t then some (.inf s) else none
  | .inf s, _ => some (.inf s)
  | _, .inf t => some (.inf t)
  | .fin s m e, .fin t n g =>
    let lo := min e g
    let x : Int := (m <<< (e - lo).toNat : Nat)
    let y : Int := (n <<< (g - lo).toNat : Nat)
    let z := (if s then -x else x) + (if t then -y else y)
    if z = 0 then some (.fin (m = 0 && n = 0 && s && t) 0 0)
    else some (.fin (z < 0) z.natAbs lo)
  | _, _ => none

/-- Exact product of finite values and infinities; none is the invalid case 0 · ∞ (R188, R189). -/
def mulExact (a b : Val) : Option Val :=
  match a, b with
  | .inf s, .inf t => some (.inf (s != t))
  | .inf s, .fin t n _ => if n = 0 then none else some (.inf (s != t))
  | .fin s m _, .inf t => if m = 0 then none else some (.inf (s != t))
  | .fin s m e, .fin t n g => some (.fin (s != t) (m * n) (e + g))
  | _, _ => none

/-- An operation's result: the NaN pick of its operands, else the exact result, else the generated NaN (R190, R191).
`gen` is the generated NaN in the format's payload. -/
def settle (gen : Val) (ops : List Val) (exact : Option Val) : Val :=
  match pickAll ops with
  | some n => n
  | none => exact.getD gen

/-- RoundNE(a + b, f), the operands and the result as patterns of f (R99, R202). -/
def fAdd (f : Fmt) (gen : Val) (a b : Nat) : Nat :=
  let x := unpack f a
  let y := unpack f b
  pack f (settle gen [x, y] (addExact x y))
/-- RoundNE(a − b, f). -/
def fSub (f : Fmt) (gen : Val) (a b : Nat) : Nat :=
  let x := unpack f a
  let y := unpack f b
  pack f (settle gen [x, y] (addExact x y.neg))
/-- RoundNE(a · b, f). -/
def fMul (f : Fmt) (gen : Val) (a b : Nat) : Nat :=
  let x := unpack f a
  let y := unpack f b
  pack f (settle gen [x, y] (mulExact x y))
/-- RoundNE(a · b + c, f), one rounding (R99, R203). -/
def fFma (f : Fmt) (gen : Val) (a b c : Nat) : Nat :=
  let x := unpack f a
  let y := unpack f b
  let z := unpack f c
  pack f (settle gen [x, y, z] ((mulExact x y).bind (fun p => addExact p z)))
/-- RoundNE(d − a · b, f), one rounding (R203). -/
def fFms (f : Fmt) (gen : Val) (a b d : Nat) : Nat :=
  let x := unpack f a
  let y := unpack f b
  let z := unpack f d
  pack f (settle gen [x, y, z] ((mulExact x y).bind (fun p => addExact z p.neg)))

/-- Order of two values that are no NaN; −0 and +0 are equal (R97). -/
def cmpExact (a b : Val) : Ordering :=
  match a, b with
  | .inf s, .inf t => if s = t then .eq else if s then .lt else .gt
  | .inf s, _ => if s then .lt else .gt
  | _, .inf t => if t then .gt else .lt
  | .fin s m e, .fin t n g =>
    let lo := min e g
    let x : Int := (m <<< (e - lo).toNat : Nat)
    let y : Int := (n <<< (g - lo).toNat : Nat)
    compare (if s then -x else x) (if t then -y else y)
  | _, _ => .eq

/-- Sign of a value that is no NaN. -/
def Val.sign (v : Val) : Bool :=
  match v with
  | .nan s _ => s
  | .inf s => s
  | .fin s _ _ => s

/-- `min` with the signed-zero rule of R188. -/
def fMin (f : Fmt) (gen : Val) (a b : Nat) : Nat :=
  let x := unpack f a
  let y := unpack f b
  pack f (settle gen [x, y] (some (
    match cmpExact x y with
    | .lt => x
    | .gt => y
    | .eq => if x.sign then x else y)))
/-- `max` with the signed-zero rule of R188. -/
def fMax (f : Fmt) (gen : Val) (a b : Nat) : Nat :=
  let x := unpack f a
  let y := unpack f b
  pack f (settle gen [x, y] (some (
    match cmpExact x y with
    | .gt => x
    | .lt => y
    | .eq => if x.sign then y else x)))

/-- cc of R83 on two floating patterns: with a NaN only `.ne` holds (R97). -/
def fCompare (f : Fmt) (cc : Nat) (a b : Nat) : Bool :=
  let x := unpack f a
  let y := unpack f b
  if x.isNaN || y.isNaN then cc == 1
  else
    match cc with
    | 0 => cmpExact x y == .eq
    | 1 => cmpExact x y != .eq
    | 2 => cmpExact x y == .lt
    | 3 => cmpExact x y != .gt
    | 4 => cmpExact x y == .gt
    | _ => cmpExact x y != .lt

/-- |a| and −a: a NaN is quieted and keeps its sign (R205). -/
def fAbs (f : Fmt) (a : Nat) : Nat :=
  match unpack f a with
  | .nan s p => nanPat f s p
  | .inf _ => infPat f false
  | .fin _ m e => pack f (.fin false m e)
def fNeg (f : Fmt) (a : Nat) : Nat :=
  match unpack f a with
  | .nan s p => nanPat f s p
  | v => pack f v.neg

/-- ⌊√n⌋ by bits, `bits` at least half the bit length of n. -/
def isqrt (bits n : Nat) : Nat :=
  match bits with
  | 0 => 0
  | k + 1 =>
    (List.range (k + 1)).foldl (fun r i =>
      let t := r + 2 ^ (k - i)
      if t * t ≤ n then t else r) 0

/-- num · 2^e / den as a value with a sticky last bit, `extra` bits past the integer part of the quotient. -/
def quotSticky (s : Bool) (num : Nat) (e : Int) (den extra : Nat) : Val :=
  let k := extra + Nat.log2 den + 1
  let n := num <<< k
  let q := n / den
  .fin s (2 * q + (if n % den = 0 then 0 else 1)) (e - k - 1)

/-- 1/√(m · 2^e) as a value with a sticky last bit, m > 0. -/
def rsqrtSticky (m : Nat) (e : Int) (extra : Nat) : Val :=
  let odd := e % 2 ≠ 0
  let m' := if odd then 2 * m else m
  let e' := if odd then e - 1 else e
  let k := extra + Nat.log2 m' + 2
  let x := 2 ^ (2 * k)
  let y := isqrt (k + 2) (x / m')
  .fin false (2 * y + (if y * y * m' = x then 0 else 1)) (-(e' / 2) - k - 1)

/-- RoundNE(1 / a, f) with the special inputs of R189. -/
def fRcp (f : Fmt) (a : Nat) : Nat :=
  match unpack f a with
  | .nan s p => nanPat f s p
  | .inf s => pack f (.fin s 0 0)
  | .fin s m e => if m = 0 then infPat f s else pack f (quotSticky s 1 (-e) m (f.frac + 8))

/-- RoundNE(1 / √a, f); `zeroNeg` is the result's sign at −0: − for the vector function (R189), + in a tap (R197). -/
def fRsqrt (f : Fmt) (gen : Val) (zeroNeg : Bool) (a : Nat) : Nat :=
  match unpack f a with
  | .nan s p => nanPat f s p
  | .inf s => if s then pack f gen else pack f Val.zero
  | .fin s m e =>
    if m = 0 then infPat f (s && zeroNeg)
    else if s then pack f gen
    else pack f (rsqrtSticky m e (f.frac + 8))

/-- ln 2 · 2^p from below, by Σ 1/(k·2^k); short by fewer than p + 2 units. -/
def ln2Low (p : Nat) : Nat :=
  (List.range (p + 1)).foldl (fun acc k => acc + (2 ^ p / ((k + 1) * 2 ^ (k + 1)))) 0

/-- e^(x/2^p) · 2^p from below, 0 ≤ x < 2^p, by its series; short by fewer than 2·p + 4 units. -/
def expLow (p x : Nat) : Nat :=
  ((List.range p).foldl (fun (st : Nat × Nat) k =>
    let t := st.2 * x / 2 ^ p / (k + 1)
    (st.1 + t, t)) (2 ^ p, 2 ^ p)).1

/-- ln(x/2^p) · 2^p from below for 2^p ≤ x < 2^(p+1), by 2·artanh((x−1)/(x+1)); short by fewer than 2·p + 4 units. -/
def lnLow (p x : Nat) : Nat :=
  let one := 2 ^ p
  let z := (x - one) <<< p / (x + one)
  let z2 := z * z / one
  2 * ((List.range (p / 3 + 2)).foldl (fun (st : Nat × Nat) k =>
    (st.1 + st.2 / (2 * k + 1), st.2 * z2 / one)) (0, z)).1

/-- The first of the precisions at which both ends of an enclosure round alike gives the result;
the last precision's lower end otherwise (log 11). -/
def ziv (f : Fmt) (enclose : Nat → Val × Val) (ps : List Nat) : Nat :=
  match ps with
  | [] => 0
  | p :: rest =>
    let lohi := enclose p
    let lo := pack f lohi.1
    if lo = pack f lohi.2 then lo
    else
      match rest with
      | [] => lo
      | _ => ziv f enclose rest

/-- RoundNE(2^a, f) (R205, R189). -/
def fExp2 (f : Fmt) (a : Nat) : Nat :=
  match unpack f a with
  | .nan s p => nanPat f s p
  | .inf s => if s then pack f Val.zero else infPat f false
  | .fin s m e =>
    if m = 0 then pack f (.fin false 1 0)
    else if (Nat.log2 m : Int) + e > 12 then (if s then pack f Val.zero else infPat f false)
    else
      -- a = ±m·2^e; floor and fraction over 2^k
      let k := (-e).toNat
      let n : Int := if e ≥ 0 then (m <<< e.toNat : Nat) else m
      let n := if s then -n else n
      let fl := n.fdiv ((2 ^ k : Nat) : Int)
      let fr := (n - fl * ((2 ^ k : Nat) : Int)).toNat
      if fr = 0 then pack f (.fin false 1 fl)
      else
        ziv f (fun p =>
          let x := fr * ln2Low p / 2 ^ k
          let lo := expLow p x
          (.fin false (2 * lo + 1) (fl - p - 1), .fin false (2 * (lo + 8 * p + 16) + 1) (fl - p - 1)))
          [128, 256, 512]

/-- RoundNE(log₂ a, f) (R205, R189). -/
def fLog2 (f : Fmt) (gen : Val) (a : Nat) : Nat :=
  match unpack f a with
  | .nan s p => nanPat f s p
  | .inf s => if s then pack f gen else infPat f false
  | .fin s m e =>
    if m = 0 then infPat f true
    else if s then pack f gen
    else
      let l := Nat.log2 m
      let ex : Int := l + e
      if m = 2 ^ l then pack f (.fin (ex < 0) ex.natAbs 0)
      else
        ziv f (fun p =>
          let x := if p ≥ l then m <<< (p - l) else m >>> (l - p)
          let q := (lnLow p x) <<< p / (ln2Low p + p + 2)
          let lo : Int := ex * ((2 ^ p : Nat) : Int) + (q : Int)
          let hi : Int := lo + 16 * p + 64
          (.fin (lo < 0) lo.natAbs (-(p : Int)), .fin (hi < 0) hi.natAbs (-(p : Int))))
          [160, 320, 640]

/-- A value rounded to an integer, ties to even, then clamped; NaN gives 0 (R100, R185). -/
def toIntSat (lo hi : Int) (v : Val) : Int :=
  match v with
  | .nan _ _ => 0
  | .inf s => if s then lo else hi
  | .fin s m e =>
    let n : Int := if e ≥ 0 then (m <<< e.toNat : Nat) else (rneShift m (-e).toNat : Nat)
    min (max (if s then -n else n) lo) hi

/-- The format of a floating type code (R82). -/
def typeFmt (t : Nat) : Option Fmt :=
  match t with
  | 8 => some .f32 | 9 => some .bf16 | 10 => some .f16 | 11 => some .e4m3 | 12 => some .e5m2
  | 13 => some .dy8 | 15 => some .e8m0
  | _ => none
/-- Width in bytes of a type code (R82). -/
def typeBytes (t : Nat) : Nat :=
  match t with
  | 0 => 1 | 1 => 2 | 2 => 4 | 3 => 8 | 4 => 1 | 5 => 2 | 6 => 4 | 7 => 8 | 8 => 4 | 9 => 2 | 10 => 2 | _ => 1
/-- The integer a pattern of w bits reads as (R94). -/
def readInt (signed : Bool) (w p : Nat) : Int :=
  let v := p % 2 ^ w
  if signed && v ≥ 2 ^ (w - 1) then (v : Int) - ((2 ^ w : Nat) : Int) else v
/-- The pattern of an integer modulo 2^w. -/
def wrapInt (w : Nat) (i : Int) : Nat := (i % ((2 ^ w : Nat) : Int)).toNat
/-- An exact integer as a value. -/
def intVal (i : Int) : Val := .fin (i < 0) i.natAbs 0

/-- Conversion of an element from type code ts to type code td, as the pattern of td's width (R100, R208). -/
def convElem (td ts p : Nat) : Nat :=
  match typeFmt ts, typeFmt td with
  | none, none => wrapInt (8 * typeBytes td) (readInt (ts < 4) (8 * typeBytes ts) p)
  | none, some fd => pack fd (intVal (readInt (ts < 4) (8 * typeBytes ts) p))
  | some fs, none =>
    let w := 8 * typeBytes td
    let v := unpack fs (p % 2 ^ fs.width)
    if td < 4 then wrapInt w (toIntSat (-((2 ^ (w - 1) : Nat) : Int)) ((2 ^ (w - 1) : Nat) - 1) v)
    else wrapInt w (toIntSat 0 ((2 ^ w : Nat) - 1) v)
  | some fs, some fd => convert fs fd (p % 2 ^ fs.width)

/-- cc of R83 on two integers. -/
def iCompare (cc : Nat) (a b : Int) : Bool :=
  match cc with
  | 0 => a == b
  | 1 => a != b
  | 2 => a < b
  | 3 => a ≤ b
  | 4 => a > b
  | _ => a ≥ b

end Sys2Proof.Machine
end

