-- ==== Sys2Proof/Machine/Scalar.lean ====
section
/-! DEFINITION. Scalar integer and floating-point instructions of the A slot (R94 to R100), with the latencies of R101. -/
namespace Sys2Proof.Machine

/-- Width in bits of a type code (R82). -/
def typeWidth (t : Nat) : Nat := 8 * typeBytes t
/-- The low w bits of a register, read as the type reads them (R94). -/
def typed (t : Nat) (x : Word) : Int := readInt (t < 4) (typeWidth t) x.toNat
/-- A result's low w bits, extended to 64 bits as the type says (R94). -/
def extended (t : Nat) (res : Int) : Nat :=
  let p := wrapInt (typeWidth t) res
  if t < 4 then wrapInt 64 (readInt true (typeWidth t) p) else p

/-- Truncating division with the corners of R94. -/
def intDiv (a b : Int) : Int := if b = 0 then -1 else a.tdiv b
/-- The remainder of R94. -/
def intRem (a b : Int) : Int := if b = 0 then a else a.tmod b
/-- The shift amount of R94: sB as an unsigned 64-bit value, mod w. -/
def shiftBy (t : Nat) (b : Word) : Nat := b.toNat % typeWidth t
def sAdd (t : Nat) (a b : Word) : Nat := extended t (typed t a + typed t b)
def sSub (t : Nat) (a b : Word) : Nat := extended t (typed t a - typed t b)
def sMul (t : Nat) (a b : Word) : Nat := extended t (typed t a * typed t b)
def sMulh (t : Nat) (a b : Word) : Nat := extended t ((typed t a * typed t b).fdiv (2 ^ typeWidth t : Nat))
def sDiv (t : Nat) (a b : Word) : Nat := extended t (intDiv (typed t a) (typed t b))
def sRem (t : Nat) (a b : Word) : Nat := extended t (intRem (typed t a) (typed t b))
def sAnd (t : Nat) (a b : Word) : Nat := extended t ((a &&& b).toNat : Int)
def sOr (t : Nat) (a b : Word) : Nat := extended t ((a ||| b).toNat : Int)
def sXor (t : Nat) (a b : Word) : Nat := extended t ((a ^^^ b).toNat : Int)
def sShl (t : Nat) (a b : Word) : Nat := extended t ((a.toNat <<< shiftBy t b : Nat) : Int)
def sShr (t : Nat) (a b : Word) : Nat := extended t (((a.toNat % 2 ^ typeWidth t) >>> shiftBy t b : Nat) : Int)
def sSra (t : Nat) (a b : Word) : Nat :=
  extended t ((readInt true (typeWidth t) a.toNat).fdiv (2 ^ shiftBy t b : Nat))
def sMin (t : Nat) (a b : Word) : Nat := extended t (min (typed t a) (typed t b))
def sMax (t : Nat) (a b : Word) : Nat := extended t (max (typed t a) (typed t b))
/-- The comparison of R97; code 8 compares FP32 values. -/
def sCmp (c t : Nat) (a b : Word) : Bool :=
  if t = 8 then fCompare .f32 c (a.toNat % 2 ^ 32) (b.toNat % 2 ^ 32) else iCompare c (typed t a) (typed t b)
/-- Leading zero bits of the low w bits (R98). -/
def sClz (t : Nat) (a : Word) : Nat :=
  let v := a.toNat % 2 ^ typeWidth t
  if v = 0 then typeWidth t else typeWidth t - 1 - Nat.log2 v
/-- One bits of the low w bits (R98). -/
def sPopc (t : Nat) (a : Word) : Nat := ((List.range (typeWidth t)).filter (fun i => a.getLsbD i)).length
/-- All 32 lanes of a predicate with one truth value. -/
def allLanes (b : Bool) : Nat := if b then 0xFFFFFFFF else 0
/-- FP32 operand of a scalar register (R99). -/
def f32Of (a : Word) : Nat := a.toNat % 2 ^ 32
/-- The generated NaN of the running core outside the matrix unit (R191). -/
def State.genF32 (s : State) : Val := genNaN s.focus 511
/-- The conversion of R100, extended as it says. -/
def sFcvt (td ts : Nat) (a : Word) : Nat :=
  let r := convElem td ts (a.toNat % 2 ^ typeWidth ts)
  if td < 4 then wrapInt 64 (readInt true (typeWidth td) r) else r

/-- An A-slot word with two scalar sources and a scalar destination. -/
def issueBin (i : Instr) (f : Word → Word → Nat) (lat : Nat) (d a b : BitVec 5) (s : State) :
    Host.Outcome State Fault Refusal :=
  issueA i { srcs := [.s a.toNat, .s b.toNat] }
    (fun s => s.fixedWrite (.s d.toNat) (f (s.me.sReg a.toNat) (s.me.sReg b.toNat)) lat) s
/-- An A-slot word with one scalar source and a scalar destination. -/
def issueUn (i : Instr) (f : Word → Nat) (lat : Nat) (d a : BitVec 5) (s : State) : Host.Outcome State Fault Refusal :=
  issueA i { srcs := [.s a.toNat] } (fun s => s.fixedWrite (.s d.toNat) (f (s.me.sReg a.toNat)) lat) s

/-- `add` (R94). -/
def execAdd (d a b : BitVec 5) (t : BitVec 4) (s : State) : Host.Outcome State Fault Refusal :=
  issueBin (.add d a b t) (sAdd t.toNat) 1 d a b s
/-- `sub` (R94). -/
def execSub (d a b : BitVec 5) (t : BitVec 4) (s : State) : Host.Outcome State Fault Refusal :=
  issueBin (.sub d a b t) (sSub t.toNat) 1 d a b s
/-- `mul` (R94). -/
def execMul (d a b : BitVec 5) (t : BitVec 4) (s : State) : Host.Outcome State Fault Refusal :=
  issueBin (.mul d a b t) (sMul t.toNat) 3 d a b s
/-- `mulh` (R94). -/
def execMulh (d a b : BitVec 5) (t : BitVec 4) (s : State) : Host.Outcome State Fault Refusal :=
  issueBin (.mulh d a b t) (sMulh t.toNat) 3 d a b s
/-- `div` (R94). -/
def execDiv (d a b : BitVec 5) (t : BitVec 4) (s : State) : Host.Outcome State Fault Refusal :=
  issueBin (.div d a b t) (sDiv t.toNat) 18 d a b s
/-- `rem` (R94). -/
def execRem (d a b : BitVec 5) (t : BitVec 4) (s : State) : Host.Outcome State Fault Refusal :=
  issueBin (.rem d a b t) (sRem t.toNat) 18 d a b s
/-- `and` (R94). -/
def execAnd (d a b : BitVec 5) (t : BitVec 4) (s : State) : Host.Outcome State Fault Refusal :=
  issueBin (.and d a b t) (sAnd t.toNat) 1 d a b s
/-- `or` (R94). -/
def execOr (d a b : BitVec 5) (t : BitVec 4) (s : State) : Host.Outcome State Fault Refusal :=
  issueBin (.or d a b t) (sOr t.toNat) 1 d a b s
/-- `xor` (R94). -/
def execXor (d a b : BitVec 5) (t : BitVec 4) (s : State) : Host.Outcome State Fault Refusal :=
  issueBin (.xor d a b t) (sXor t.toNat) 1 d a b s
/-- `shl` (R94). -/
def execShl (d a b : BitVec 5) (t : BitVec 4) (s : State) : Host.Outcome State Fault Refusal :=
  issueBin (.shl d a b t) (sShl t.toNat) 1 d a b s
/-- `shr` (R94). -/
def execShr (d a b : BitVec 5) (t : BitVec 4) (s : State) : Host.Outcome State Fault Refusal :=
  issueBin (.shr d a b t) (sShr t.toNat) 1 d a b s
/-- `sra` (R94). -/
def execSra (d a b : BitVec 5) (t : BitVec 4) (s : State) : Host.Outcome State Fault Refusal :=
  issueBin (.sra d a b t) (sSra t.toNat) 1 d a b s
/-- `min` (R94). -/
def execMin (d a b : BitVec 5) (t : BitVec 4) (s : State) : Host.Outcome State Fault Refusal :=
  issueBin (.min d a b t) (sMin t.toNat) 1 d a b s
/-- `max` (R94). -/
def execMax (d a b : BitVec 5) (t : BitVec 4) (s : State) : Host.Outcome State Fault Refusal :=
  issueBin (.max d a b t) (sMax t.toNat) 1 d a b s
/-- `and` with an immediate (R95). -/
def execAndI (d a : BitVec 5) (imm : BitVec 15) (s : State) : Host.Outcome State Fault Refusal :=
  issueUn (.andI d a imm) (fun x => sAnd 3 x (imm.signExtend 64)) 1 d a s
/-- `or` with an immediate (R95). -/
def execOrI (d a : BitVec 5) (imm : BitVec 15) (s : State) : Host.Outcome State Fault Refusal :=
  issueUn (.orI d a imm) (fun x => sOr 3 x (imm.signExtend 64)) 1 d a s
/-- `xor` with an immediate (R95). -/
def execXorI (d a : BitVec 5) (imm : BitVec 15) (s : State) : Host.Outcome State Fault Refusal :=
  issueUn (.xorI d a imm) (fun x => sXor 3 x (imm.signExtend 64)) 1 d a s
/-- `min` with an immediate (R95). -/
def execMinI (d a : BitVec 5) (imm : BitVec 15) (s : State) : Host.Outcome State Fault Refusal :=
  issueUn (.minI d a imm) (fun x => sMin 3 x (imm.signExtend 64)) 1 d a s
/-- `max` with an immediate (R95). -/
def execMaxI (d a : BitVec 5) (imm : BitVec 15) (s : State) : Host.Outcome State Fault Refusal :=
  issueUn (.maxI d a imm) (fun x => sMax 3 x (imm.signExtend 64)) 1 d a s
/-- `shl` with an immediate (R95). -/
def execShlI (d a : BitVec 5) (imm : BitVec 6) (s : State) : Host.Outcome State Fault Refusal :=
  issueUn (.shlI d a imm) (fun x => sShl 3 x (imm.zeroExtend 64)) 1 d a s
/-- `shr` with an immediate (R95). -/
def execShrI (d a : BitVec 5) (imm : BitVec 6) (s : State) : Host.Outcome State Fault Refusal :=
  issueUn (.shrI d a imm) (fun x => sShr 3 x (imm.zeroExtend 64)) 1 d a s
/-- `sra` with an immediate (R95). -/
def execSraI (d a : BitVec 5) (imm : BitVec 6) (s : State) : Host.Outcome State Fault Refusal :=
  issueUn (.sraI d a imm) (fun x => sSra 3 x (imm.zeroExtend 64)) 1 d a s
/-- `lih` (R96). -/
def execLih (d : BitVec 5) (imm : BitVec 20) (s : State) : Host.Outcome State Fault Refusal :=
  issueA (.lih d imm) {} (fun s => s.fixedWrite (.s d.toNat) (imm.toNat * 4096) 1) s
/-- `adr` (R96). -/
def execAdr (d a : BitVec 5) (imm : BitVec 15) (s : State) : Host.Outcome State Fault Refusal :=
  issueUn (.adr d a imm) (fun x => (x + imm.signExtend 64).toNat) 1 d a s
/-- `cmp` (R97). -/
def execCmp (p c : BitVec 3) (a b : BitVec 5) (t : BitVec 4) (s : State) : Host.Outcome State Fault Refusal :=
  issueA (.cmp p c a b t) { srcs := [.s a.toNat, .s b.toNat] }
    (fun s => s.fixedWrite (.p p.toNat) (allLanes (sCmp c.toNat t.toNat (s.me.sReg a.toNat) (s.me.sReg b.toNat))) 1) s
/-- `cmp` with an immediate (R97). -/
def execCmpI (p c : BitVec 3) (a : BitVec 5) (t : BitVec 4) (imm : BitVec 10) (s : State) : Host.Outcome State Fault Refusal :=
  issueA (.cmpI p c a t imm) { srcs := [.s a.toNat] }
    (fun s => s.fixedWrite (.p p.toNat) (allLanes (sCmp c.toNat t.toNat (s.me.sReg a.toNat) (imm.signExtend 64))) 1) s
/-- `sel` (R98). -/
def execSel (d a b : BitVec 5) (p : BitVec 3) (s : State) : Host.Outcome State Fault Refusal :=
  issueA (.sel d a b p) { srcs := [.p p.toNat, .s a.toNat, .s b.toNat] }
    (fun s => s.fixedWrite (.s d.toNat)
      (if (s.me.pReg p.toNat).getLsbD 0 then s.me.sReg a.toNat else s.me.sReg b.toNat).toNat 1) s
/-- `clz` (R98). -/
def execClz (d a : BitVec 5) (t : BitVec 4) (s : State) : Host.Outcome State Fault Refusal := issueUn (.clz d a t) (sClz t.toNat) 1 d a s
/-- `popc` (R98). -/
def execPopc (d a : BitVec 5) (t : BitVec 4) (s : State) : Host.Outcome State Fault Refusal := issueUn (.popc d a t) (sPopc t.toNat) 1 d a s
/-- `fadd.f32` (R99). -/
def execFaddF32 (d a b : BitVec 5) (s : State) : Host.Outcome State Fault Refusal :=
  issueBin (.faddF32 d a b) (fun x y => fAdd .f32 s.genF32 (f32Of x) (f32Of y)) 4 d a b s
/-- `fmul.f32` (R99). -/
def execFmulF32 (d a b : BitVec 5) (s : State) : Host.Outcome State Fault Refusal :=
  issueBin (.fmulF32 d a b) (fun x y => fMul .f32 s.genF32 (f32Of x) (f32Of y)) 4 d a b s
/-- `ffma.f32` (R99). -/
def execFfmaF32 (d a b c : BitVec 5) (s : State) : Host.Outcome State Fault Refusal :=
  issueA (.ffmaF32 d a b c) { srcs := [.s a.toNat, .s b.toNat, .s c.toNat] }
    (fun s => s.fixedWrite (.s d.toNat)
      (fFma .f32 s.genF32 (f32Of (s.me.sReg a.toNat)) (f32Of (s.me.sReg b.toNat)) (f32Of (s.me.sReg c.toNat))) 4) s
/-- `fcvt` (R100). -/
def execFcvt (d a : BitVec 5) (td ts : BitVec 4) (s : State) : Host.Outcome State Fault Refusal :=
  issueUn (.fcvt d a td ts) (sFcvt td.toNat ts.toNat) 2 d a s
/-- The A-slot `nop` (R87). -/
def execANop (s : State) : Host.Outcome State Fault Refusal := issueA .aNop { inRegion := true } id s
/-- A reserved-NOP A-slot word (R90). -/
def execAReservedNop (op : BitVec 7) (rest : BitVec 25) (s : State) : Host.Outcome State Fault Refusal :=
  issueA (.aReservedNop op rest) { inRegion := true } id s

end Sys2Proof.Machine
end

