-- ==== Sys2Proof/Machine/Control.lean ====
section
/-! DEFINITION. Control, token and system instructions of the C slot (R103 to R123), fetch and illegal-opcode traps, and the
steps of barriers, exchange plans and late traps. -/
namespace Sys2Proof.Machine

/-! ### Transfers -/

/-- The context goes to a target: the pair's other effects stand (R110). -/
def State.goto (s : State) (target : Word) : State := s.onMe (fun c => { c with npc := target, jumped := true })
/-- A taken transfer with its branch record (R110, R459). -/
def State.transfer (s : State) (target : Word) : State := (s.traceEvent none target.toNat).goto target

/-- The four conditional branches (R110). -/
def issueBranch (i : Instr) (hd : CHead) (p : BitVec 3) (o : BitVec 15) (taken : BitVec 32 → Bool) (s : State) : Host.Outcome State Fault Refusal :=
  let t := taken (s.me.pReg p.toNat)
  issueC i hd { srcs := [.p p.toNat], conds := if t then s.traceCond none else [] }
    (fun s => if t then s.transfer (relTarget s.me.pc o) else s) s
/-- `br.t` (R110). -/
def execBrT (hd : CHead) (p : BitVec 3) (o : BitVec 15) (s : State) : Host.Outcome State Fault Refusal :=
  issueBranch (.brT hd p o) hd p o (fun v => v.getLsbD 0) s
/-- `br.f` (R110). -/
def execBrF (hd : CHead) (p : BitVec 3) (o : BitVec 15) (s : State) : Host.Outcome State Fault Refusal :=
  issueBranch (.brF hd p o) hd p o (fun v => !v.getLsbD 0) s
/-- `br.any` (R110). -/
def execBrAny (hd : CHead) (p : BitVec 3) (o : BitVec 15) (s : State) : Host.Outcome State Fault Refusal :=
  issueBranch (.brAny hd p o) hd p o (fun v => v != 0) s
/-- `br.none` (R110). -/
def execBrNone (hd : CHead) (p : BitVec 3) (o : BitVec 15) (s : State) : Host.Outcome State Fault Refusal :=
  issueBranch (.brNone hd p o) hd p o (fun v => v == 0) s
/-- `jmp` (R110). -/
def execJmp (hd : CHead) (o : BitVec 18) (s : State) : Host.Outcome State Fault Refusal :=
  issueC (.jmp hd o) hd { conds := s.traceCond none } (fun s => s.transfer (relTarget s.me.pc o)) s
/-- EINFO of a token-ownership trap (R373): the caller's tokens with a count above 0. -/
def Ctx.ownedTokens (c : Ctx) : Nat :=
  (List.range 8).foldl (fun acc j => if c.tok (.k j) = 0 then acc else acc + 2 ^ j) 0
/-- `call` (R109, R110); in a handler no token check is made. -/
def execCall (hd : CHead) (o : BitVec 18) (s : State) : Host.Outcome State Fault Refusal :=
  issueC (.call hd o) hd
    { conds := condIf (!s.me.inh && s.me.ownedTokens != 0) 9 0 s.me.ownedTokens ++ s.traceCond none }
    (fun s => (s.fixedWrite (.s 31) (returnAddr s.me.pc hd.ln).toNat 1).transfer (relTarget s.me.pc o)) s
/-- `jal` (R110, R111). -/
def execJal (hd : CHead) (d : BitVec 5) (o : BitVec 13) (s : State) : Host.Outcome State Fault Refusal :=
  issueC (.jal hd d o) hd { conds := s.traceCond none }
    (fun s => (s.fixedWrite (.s d.toNat) (returnAddr s.me.pc hd.ln).toNat 1).transfer (relTarget s.me.pc o)) s
/-- `jr` (R110). -/
def execJr (hd : CHead) (a : BitVec 5) (s : State) : Host.Outcome State Fault Refusal :=
  issueC (.jr hd a) hd { srcs := [.s a.toNat], conds := s.traceCond none }
    (fun s => s.transfer (s.me.sReg a.toNat)) s
/-- `ret` (R110, R111). -/
def execRet (hd : CHead) (s : State) : Host.Outcome State Fault Refusal :=
  issueC (.ret hd) hd { srcs := [.s 31], conds := s.traceCond none } (fun s => s.transfer (s.me.sReg 31)) s

/-! ### Traps and return -/

/-- `trap` (R112): the software trap after its pair; EPC is the next C-slot position. -/
def execTrap (hd : CHead) (code : BitVec 8) (s : State) : Host.Outcome State Fault Refusal :=
  issueC (.trap hd code) hd {} (fun s => s.trapAfter 26 0 code.toNat s.me.npc) s
/-- The trap tokens are all zero (R114). -/
def Ctx.trapTokensZero (c : Ctx) : Bool := (List.range 4).all (fun j => c.tok (.t j) == 0)
/-- `eret` (R114, R375): illegal outside a handler. -/
def execEret (hd : CHead) (s : State) : Host.Outcome State Fault Refusal :=
  issueC (.eret hd) hd { illegal := !s.me.inh, waits := !s.me.trapTokensZero } State.leaveTrap s
/-- A word with an illegal opcode (R89): the trap falls once its wait is met (R93). -/
def execIllegalOpcode (slot : Nat) (word : BitVec 32) (s : State) : Host.Outcome State Fault Refusal :=
  if slot = 1 && !s.me.waitMet (decodeHead word) then .next (s.hold true)
  else .next (s.enterTrap 1 0 slot false word.toNat s.me.pc)
/-- The fetch address is at or above the fetch boundary (R53). -/
def Ctx.aboveBound (c : Ctx) : Bool := decide (256 * c.bound ≤ c.pc.toNat)
/-- The core from whose local store the running core fetches: the leader of its gang (R49, R71). -/
def State.fetchFrom (s : State) : Nat :=
  match s.here.gang with
  | some g => g.members.headD s.focus
  | none => s.focus
/-- The word at an address of that local store. -/
def State.wordAt (s : State) (a : Nat) : BitVec 32 := BitVec.ofNat 32 ((s.coreOf s.fetchFrom).ls.readN a 4)
/-- The fetch address is no C-slot position (R71, R72). -/
def State.badPosition (s : State) : Bool :=
  let a := s.me.pc.toNat
  a % 4 ≠ 0 || (a % 8 = 4 && !(s.wordAt a).getLsbD 31)
/-- A fetch that meets the boundary or no C-slot position (R53, R71, R72), in the order of R93. -/
def execFetchTrap (s : State) : Host.Outcome State Fault Refusal :=
  let c := s.me
  if c.aboveBound then
    .next (s.enterTrap 3 0 0 false (c.pc.toNat % 2 ^ 52 + (if c.jumped then 2 ^ 63 else 0)) c.pc)
  else if s.badPosition then .next (s.enterTrap 2 0 0 false c.pc.toNat c.pc)
  else .next s
/-- EPC of a late trap: the pair that would have issued next, or the pair the context waits in (R379). -/
def Ctx.latePc (c : Ctx) : Word :=
  match c.wait with
  | .sync => c.lastPc
  | .syncT _ _ => c.lastPc
  | _ => c.pc
/-- A wait that a late report ends leaves no pending destination behind: its pair issues again (R379). -/
def Ctx.leaveSync (c : Ctx) : Ctx :=
  match c.wait with
  | .syncT d _ => { c with pend := c.pend.erase (.s d) }
  | _ => c
/-- The oldest late report is taken as a trap (R379, R380). -/
def execLateTrap (s : State) : Host.Outcome State Fault Refusal :=
  let c := s.me
  match c.lateQ with
  | [] => .next s
  | r :: rest =>
    if c.inh then .next s
    else
      let s := s.onMe (fun c => { c.leaveSync with lateQ := rest, lost := 0 })
      .next (s.enterTrap r.cause r.sub 0 true (r.info + c.lost * 2 ^ 36) c.latePc)

/-! ### Tokens and plain control -/

/-- `nop` (R116). -/
def execNop (hd : CHead) (s : State) : Host.Outcome State Fault Refusal := issueC (.nop hd) hd { inRegion := true } id s
/-- A reserved-NOP C-slot word (R90). -/
def execCReservedNop (hd : CHead) (op : BitVec 7) (rest : BitVec 18) (s : State) : Host.Outcome State Fault Refusal :=
  issueC (.cReservedNop hd op rest) hd { inRegion := true } id s
/-- `dly` (R103): the first of its n pairs is this one, the others are owed. -/
def execDly (hd : CHead) (c : BitVec 6) (s : State) : Host.Outcome State Fault Refusal :=
  issueC (.dly hd c) hd { inRegion := true } (fun s => s.onMe (fun x => { x with dlyRem := c.toNat - 1 })) s
/-- `yield` (R116). -/
def execYield (hd : CHead) (s : State) : Host.Outcome State Fault Refusal := issueC (.yield hd) hd {} State.switching s
/-- `kwait` (R105). -/
def execKwait (hd : CHead) (k : BitVec 4) (b : BitVec 6) (s : State) : Host.Outcome State Fault Refusal :=
  issueC (.kwait hd k b) hd { kfields := [k], waits := decide (b.toNat < s.me.tok (s.me.tokRef k.toNat)) } id s
/-- `ktst` (R106). -/
def execKtst (hd : CHead) (d : BitVec 5) (k : BitVec 4) (s : State) : Host.Outcome State Fault Refusal :=
  issueC (.ktst hd d k) hd { kfields := [k] }
    (fun s => s.fixedWrite (.s d.toNat) (s.me.tok (s.me.tokRef k.toNat)) 1) s

/-! ### Contexts -/

/-- Helper vector registers that live helpers hold (R38). -/
def CoreSt.poolHeld (x : CoreSt) : Nat :=
  ((List.range 10).map (fun i => if (x.ctx (i + 1)).live then (x.ctx (i + 1)).quota else 0)).sum
/-- The lowest free helper slot (R38). -/
def CoreSt.freeSlot (x : CoreSt) : Option Nat := ((List.range 10).map (· + 1)).find? (fun i => !(x.ctx i).live)
/-- A helper as `spawn` starts it (R38). -/
def newHelper (c : Ctx) (slot q g : Nat) (start arg : Word) (parked : Bool) : Ctx :=
  { Ctx.reset with
    live := true, parked := parked, pc := start, s := Ctx.reset.s.set 1 arg, ovh := c.ovh, bound := c.bound,
    fen := c.fen, ctxNo := slot, task := c.task, quota := q, born := g, readyAt := g + 1 }
/-- The slot that `spawn` takes, none when it starts no helper (R38). -/
def CoreSt.spawnSlot (x : CoreSt) (q : Nat) : Option Nat := if 192 < x.poolHeld + q then none else x.freeSlot
/-- `spawn` (R38, R115). -/
def execSpawn (hd : CHead) (d a b : BitVec 5) (q : BitVec 3) (s : State) : Host.Outcome State Fault Refusal :=
  issueC (.spawn hd d a b q) hd
    { srcs := [.s a.toNat, .s b.toNat], conds := condIf (s.me.ctxNo != 0) 12 0 0x0D }
    (fun s =>
      let c := s.me
      match s.here.spawnSlot (8 * q.toNat) with
      | none => s.fixedWrite (.s d.toNat) 0 2
      | some i =>
        (s.fixedWrite (.s d.toNat) i 2).onHere (fun x =>
          x.setCtx i (newHelper c i (8 * q.toNat) s.gts (c.sReg a.toNat) (c.sReg b.toNat) x.gang.isSome))) s
/-- The core leaves its gang: its parked helpers become eligible (R50). -/
def CoreSt.leaveGang (x : CoreSt) : CoreSt :=
  if x.gang.isNone then x
  else { x with gang := none, ctxs := Vector.ofFn (fun i => { x.ctx i.val with parked := false }) }
/-- The late reports still queued at a `halt` become records of KIND 0x01 (R379). -/
def State.orphanLate (s : State) : State :=
  let src := (s.srcOf s.focus s.here.run).field
  s.me.lateQ.foldl (fun s r => s.record (s.queueOfCore s.focus) 2 (lateRecord 1 src r) none) (s.onMe (fun c => { c with lateQ := [] }))
/-- `halt` (R39, R116): in a gang it first acts as `gsplit`. -/
def execHalt (hd : CHead) (s : State) : Host.Outcome State Fault Refusal :=
  issueC (.halt hd) hd {} (fun s => (s.orphanLate.onHere CoreSt.leaveGang).onMe (fun c => { c with wait := .halt })) s
/-- `gsplit` (R50, R116): a `nop` outside a gang. -/
def execGsplit (hd : CHead) (s : State) : Host.Outcome State Fault Refusal := issueC (.gsplit hd) hd {} (fun s => s.onHere CoreSt.leaveGang) s
/-- `sync` (R46, R116): no effect at LEVEL 0; while ARR = 1 it waits without arriving again. -/
def execSync (hd : CHead) (s : State) : Host.Outcome State Fault Refusal :=
  issueC (.sync hd) hd {}
    (fun s => s.onMe (fun c => if c.level = 0 then c else { c.arrive with wait := .sync })) s
/-- `sync.t` (R47, R117). With the limit passed at issue, 0 is written in the next cycle, a phase that completes then
notwithstanding (log 32). -/
def execSyncT (hd : CHead) (d sl : BitVec 5) (s : State) : Host.Outcome State Fault Refusal :=
  issueC (.syncT hd d sl) hd { srcs := [.s sl.toNat] }
    (fun s =>
      let c := s.me
      let lim := (c.sReg sl.toNat).toNat
      let acts : List Act := [.write (.s d.toNat) 0, .unpend (.s d.toNat), .ready]
      if c.level = 0 then s.fixedWrite (.s d.toNat) 1 1
      else
        let s := s.onMe (fun c => { (c.arrive.addPending (.s d.toNat)) with wait := .syncT d.toNat lim })
        if lim < s.gts then s.doneAt (s.gts + 1) s.focus s.here.run acts
        else if lim = s.gts then s.complete s.focus s.here.run acts
        else s.stepAt lim (.syncTLimit s.focus s.here.run)) s
/-- The limit of a `sync.t` is reached: 0, unless the phase that counts the context's arrival completes in this cycle (R47). -/
def execSyncTLimit (core ctx : Nat) (s : State) : Host.Outcome State Fault Refusal :=
  let c := s.ctxOf core ctx
  let d := tget s.doms DomInst.reset (s.keyOf core ctx)
  match c.wait with
  | .syncT r lim =>
    if decide (lim ≤ s.gts) && !(d.release.any s.isAt && d.members.contains (core, ctx)) then
      .next (s.complete core ctx [.write (.s r) 0, .unpend (.s r), .ready])
    else .next s
  | _ => .next s

/-! ### Barriers and gangs -/

/-- Rows and columns of a gang shape (R83). -/
def gangShape (shape : Nat) : Nat × Nat :=
  match shape with
  | 0 => (1, 2)
  | 1 => (2, 2)
  | 2 => (1, 4)
  | _ => (4, 4)
/-- The cores of a gang's rectangle, in core order (R48, R118). -/
def gangCores (cl shape ox oy : Nat) : List Nat :=
  let rc := gangShape shape
  (List.range rc.1).flatMap (fun j => (List.range rc.2).map (fun i => coreIn cl (4 * (oy + j) + ox + i)))
/-- `gang` (R48, R118). -/
def execGang (hd : CHead) (shape ox oy : BitVec 2) (s : State) : Host.Outcome State Fault Refusal :=
  issueC (.gang hd shape ox oy) hd
    { conds := condIf (s.me.ctxNo != 0) 12 0 0x0A ++ condIf (s.me.level != 2) 13 1 0 ++
        condIf (!(gangCores s.myCluster shape.toNat ox.toNat oy.toNat).contains s.focus) 13 2 0 }
    (fun s => s.onMe (fun c => { c.arrive with wait := .sync, gangReq := some (shape.toNat, ox.toNat, oy.toNat) })) s
/-- A member at the completion of its phase (R46, R47). -/
def Ctx.phaseDone (g : Nat) (c : Ctx) : Ctx :=
  let c := { c with arr := false, arrOut := [] }
  match c.wait with
  | .sync => { c with wait := .none, readyAt := g + 1 }
  | .syncT d _ => { (c.writeReg (.s d) 1) with pend := c.pend.erase (.s d), wait := .none, readyAt := g + 1 }
  | _ => c
/-- The plan phase counter advances (R35). -/
def CoreSt.advancePlan (x : CoreSt) : CoreSt :=
  if x.xpl = 0 then x else { x with planPhase := (x.planPhase + 1) % x.planPeriod }
/-- One member's completion. -/
def State.completeMember (s : State) (level : Nat) (m : Nat × Nat) : State :=
  let c := s.ctxOf m.1 m.2
  if !c.live || c.level != level then s
  else
    let s := s.onCtx m.1 m.2 (Ctx.phaseDone s.gts)
    if m.2 = 0 then s.onCore m.1 CoreSt.advancePlan else s
/-- A core joins a gang: its helpers are parked and the leader's PC drives it (R48, R49). -/
def CoreSt.joinGang (x : CoreSt) (g : Gang) (pc : Word) : CoreSt :=
  { x with gang := some g,
           ctxs := Vector.ofFn (fun i =>
             if i.val = 0 then { x.ctx 0 with pc := pc, gangReq := none } else { x.ctx i.val with parked := true }) }
/-- Members of a gang are stopped together (R49, R454): one that is stopped as the gang forms stops the others.
The spec does not say what a stopped
member does to its gang (log 33). -/
def State.stopTogether (s : State) (cs : List Nat) : State :=
  if cs.any (fun c => (s.coreOf c).dbg.stopped) then
    cs.foldl (fun s c => s.onCore c (fun x =>
      if x.dbg.stopped then x
      else { x with dbg := { x.dbg with armed := false, stopped := true, steps := 0, gts := s.gts, stepReq := none } })) s
  else s
/-- The gang of one request: formed when every member arrived in the completed phase with the same request, else a trap for the
context that asked (R48, R118, R383). -/
def State.resolveGang (members : List (Nat × Nat)) (s : State) (core : Nat) : State :=
  match (s.ctxOf core 0).gangReq with
  | none => s
  | some (sh, ox, oy) =>
    let cs := gangCores (clusterOf core) sh ox oy
    let same (c : Nat) : Bool := members.contains (c, 0) && (s.ctxOf c 0).gangReq == some (sh, ox, oy)
    if cs.all same then
      let g : Gang := { shape := sh, ox := ox, oy := oy, members := cs }
      let pc := (s.ctxOf (cs.headD core) 0).pc
      (cs.foldl (fun s c => s.onCore c (fun x => x.joinGang g pc)) s).stopTogether cs
    else
      let mask := (cs.filter same).foldl (fun acc c => acc + 2 ^ memberOf c) 0
      s.onCtx core 0 (fun c => { c with gangFail := some mask })
/-- The completion step of a barrier (R171): a release for each member's core, then an acquire for each. -/
def State.barrierStep (s : State) (level : Nat) (members : List (Nat × Nat)) : State :=
  let s := members.foldl (fun s m => s.release m.1 (s.ctxOf m.1 m.2).fen level) s
  members.foldl (fun s m => s.acquire m.1 (s.ctxOf m.1 m.2).fen level) s
/-- A phase completes at T (R46, R171): arrivals clear, members are ready, gangs form. -/
def execPhaseComplete (hid level unit : Nat) (s : State) : Host.Outcome State Fault Refusal :=
  let key := domKey hid level unit
  let d := tget s.doms DomInst.reset key
  if d.exchange && d.release.any s.isAt then
    let s := s.onDom key (fun d => { phases := d.phases + 1, exchange := false, members := [], release := none })
    let s := s.barrierStep level d.members
    let s := d.members.foldl (fun s m => s.completeMember level m) s
    let cores := (d.members.filter (fun m => m.2 == 0)).map (fun m => m.1)
    let s := cores.foldl (State.resolveGang d.members) s
    .next (cores.foldl (fun s c => s.onCtx c 0 (fun x => { x with gangReq := none })) s)
  else .next s
/-- Elements of 8 bytes copied by a core from its local store to another's: read and write steps (R35, R166, R167). -/
def State.copyLs (s : State) (core home src dst n : Nat) : State :=
  match n with
  | 0 => s
  | k + 1 =>
    let r := s.readLs core core src 8
    (r.2.storeLs core home dst 8 r.1).copyLs core home (src + 8) (dst + 8) k
/-- The fields of an exchange-plan entry (R34): task, source, destination, bytes. -/
def CoreSt.planFields (x : CoreSt) (idx : Nat) : Nat × Nat × Nat × Nat :=
  let a := x.planAt idx
  (x.ls.readN (a + 4) 4 % 2 ^ 20, x.ls.readN (a + 8) 4, x.ls.readN (a + 12) 4, x.ls.readN (a + 16) 4)
/-- An entry counts as performed. -/
def CoreSt.planEnd (x : CoreSt) (idx : Nat) : CoreSt := { x with planTodo := x.planTodo.erase idx, planDone := tdel x.planDone idx }
/-- One entry of an exchange plan (R34 to R36): performed, or refused with a late report to the control context. It
waits while a line that it would read or write is held (R148); one of KIND 1 writes a line in a cycle (R217). -/
def execPlanEntry (core idx : Nat) (s : State) : Host.Outcome State Fault Refusal :=
  let x := s.coreOf core
  if !x.planTodo.contains idx then .next s
  else
    let f := x.planFields idx
    let dst := f.2.2.1
    let n := f.2.2.2
    let loft := x.ls.readN (x.planAt idx + 2) 1 == 1
    let hid := x.hid.getD 0
    let refused (reason : Nat) : State := (s.onCore core (fun x => x.planEnd idx)).refusal core 0 0 reason 14 (x.planAt idx) 0
    match s.taskCore hid (x.ctx 0).fen f.1 with
    | none => .next (refused 12)
    | some c =>
      let y := s.coreOf c
      if !s.runs c hid f.1 then .next (refused 12)
      else if !loft && dst < y.boundary then .next (refused 1)
      else if x.anyBusy f.2.1 n then .next (s.stepAt (s.gts + 1) (.planEntry core idx))
      else if loft then
        let at_ := tget x.planDone 0 idx
        let part := min (64 - (dst + at_) % 64) (n - at_)
        if !y.loftFree s.gts then .next (s.stepAt (s.gts + 1) (.planEntry core idx))
        else
          let r := s.readLsMany core core 8 ((List.range (part / 8)).map (fun i => f.2.1 + at_ + 8 * i))
          let w := r.2.loftWrite (r.2.coreOf core).seen c (dst + at_) (r.1.flatMap (bytesOf 8))
          let s := w.2.onCore core (fun x => { x with seen := w.1 })
          if at_ + part < n then
            .next ((s.onCore core (fun x => { x with planDone := tput x.planDone idx (at_ + part) })).stepAt (s.gts + 1)
              (.planEntry core idx))
          else .next (s.onCore core (fun x => x.planEnd idx))
      else if y.anyBusy dst n then
        .next (s.stepAt (s.gts + 1) (.planEntry core idx))
      else .next ((s.onCore core (fun x => x.planEnd idx)).copyLs core c f.2.1 dst (n / 8))

/-! ### The repetition buffer -/

/-- The context that uses the buffer (R121). -/
def CoreSt.rbOwner (x : CoreSt) : Option Nat :=
  match x.rbSt with
  | .idle => none
  | .recording o _ => some o
  | .replaying o _ _ _ _ _ => some o
/-- Cause 14 (R121). -/
def State.rbBusy (s : State) : List Cond :=
  match s.here.rbOwner with
  | none => []
  | some o => condIf true 14 0 o
/-- `rb.rec` (R119): c holds n − 1. -/
def execRbRec (hd : CHead) (c : BitVec 4) (s : State) : Host.Outcome State Fault Refusal :=
  issueC (.rbRec hd c) hd { conds := s.rbBusy }
    (fun s => s.onHere (fun x => { x with rb := [], rbSt := .recording x.run (c.toNat + 1) })) s
/-- A used entry of the stagger operand (R120): register and stagger. -/
def staggerEntry (w : Word) (j : Nat) : Option (Nat × Nat) :=
  let e := wfld w (16 * j) 16
  if bit e 15 then some (bits e 0 6, bits e 8 6) else none
/-- The staggers of R120; of two entries that name one register the higher j comes first. -/
def staggers (w : Word) : List (Nat × Nat) := ((List.range 4).reverse.map (staggerEntry w)).filterMap id
/-- A bit that R120 marks "must be 0" is 1. -/
def badStagger (w : Word) : Bool :=
  (List.range 4).any (fun j =>
    let e := wfld w (16 * j) 16
    bit e 14 || bits e 6 2 != 0)
/-- `rb.run` (R51, R120): a count of 0 or a buffer never recorded replays nothing. A bit that must be 0 traps whatever the count
(log 32). -/
def execRbRun (hd : CHead) (a b : BitVec 5) (s : State) : Host.Outcome State Fault Refusal :=
  issueC (.rbRun hd a b) hd
    { srcs := [.s a.toNat, .s b.toNat],
      conds := condIf (badStagger (s.me.sReg b.toNat)) 6 0 (s.me.sReg b.toNat).toNat ++ s.rbBusy }
    (fun s =>
      let n := wfld (s.me.sReg a.toNat) 0 16
      if n = 0 then s
      else s.onHere (fun x => if x.rb.isEmpty then x else { x with rbSt := .replaying x.run 0 n 0 (s.me.sReg b.toNat) false })) s

/-! ### System instructions -/

/-- `getc` (R122). -/
def execGetc (hd : CHead) (d : BitVec 5) (c : BitVec 12) (s : State) : Host.Outcome State Fault Refusal :=
  issueC (.getc hd d c) hd {} (fun s => s.fixedWrite (.s d.toNat) (s.readCtl c.toNat).toNat 2) s
/-- A write of DOM.LEVEL (R43, R45): ignored while ARR = 1 (R388), and for the value 7. -/
def Ctx.setLevel (c : Ctx) (n : Nat) : Ctx := if c.arr || n = 7 then c else { c with level := n }
/-- `setc` (R122). -/
def execSetc (hd : CHead) (a : BitVec 5) (c : BitVec 12) (s : State) : Host.Outcome State Fault Refusal :=
  issueC (.setc hd a c) hd { srcs := [.s a.toNat] }
    (fun s =>
      let w := s.me.sReg a.toNat
      if c = 2 then s.onMe (fun x => x.setLevel (wfld w 0 3)) else s.writeCtl c.toNat w) s
/-- `gts` (R123). -/
def execGts (hd : CHead) (d : BitVec 5) (s : State) : Host.Outcome State Fault Refusal :=
  issueC (.gts hd d) hd {} (fun s => s.fixedWrite (.s d.toNat) (s.gts % 2 ^ 64) 1) s
/-- `sig` (R124): a remote request to the Porch. -/
def execSig (hd : CHead) (a : BitVec 5) (imm : BitVec 13) (s : State) : Host.Outcome State Fault Refusal :=
  issueC (.sig hd a imm) hd { srcs := [.s a.toNat], reqs := 1, mol := 1 }
    (fun s => s.request .porch none (.sig imm.toNat (s.me.sReg a.toNat).toNat)) s
/-- `tmark` (R125). -/
def execTmark (hd : CHead) (a : BitVec 5) (imm : BitVec 13) (s : State) : Host.Outcome State Fault Refusal :=
  issueC (.tmark hd a imm) hd { srcs := [.s a.toNat], conds := s.traceCond (some imm.toNat) }
    (fun s => s.traceEvent (some imm.toNat) (s.me.sReg a.toNat).toNat) s

end Sys2Proof.Machine
end

