-- ==== Sys2Proof/Machine/Dram.lean ====
section
/-! DEFINITION. The DRAM-class memories behind the streamers: check bits and poison (R416 to R418), atom bursts (R417), the steps of
banks and stacks (R430, R431, R433, R434) and the migration of hot pages (R435, R436). -/
namespace Sys2Proof.Machine

/-! ### Errors and poison (R416 to R418, R421, R422) -/

/-- The stack or die that a record and a counter name. -/
def unitOfPa (pa : Nat) : Nat := if isCellar pa then cellarDie pa else stackOf pa
/-- One more corrected atom (R416, R429). -/
def State.countCe (s : State) (pa : Nat) : State :=
  let n := if isCellar pa then min 65535 ((s.dieAt (cellarDie pa)).cce + 1) else min 65535 ((s.stack (stackOf pa)).ce + 1)
  let s := if isCellar pa then s.onDie (cellarDie pa) (fun d => { d with cce := n }) else s.onStack (stackOf pa) (fun k => { k with ce := n })
  if n % 1024 = 0 then s.moduleEvent 2 (unitOfPa pa) n 0 0 else s
/-- One more atom found uncorrectable. -/
def State.countUe (s : State) (pa : Nat) : State :=
  if isCellar pa then s.onDie (cellarDie pa) (fun d => { d with cue := min 255 (d.cue + 1) })
  else if isHbm pa then s.onStack (stackOf pa) (fun k => { k with ue := min 255 (k.ue + 1) })
  else s
/-- What the on-die code does to a granule that leaves the stack (R415): one bit is corrected and counted; two or more reach the
controller as two, or escape both codes as a silent error, which leaves one byte other than it was written. -/
def State.onDie_ (s : State) (pa : Nat) : State :=
  match tget s.dieErrors 0 (pa / 32) with
  | 0 => s
  | 1 => s.onStack (stackOf pa) (fun k => { k with odc := min 65535 (k.odc + 1) })
  | _ =>
    let s := { s with dieErrors := tdel s.dieErrors (pa / 32) }
    let c := s.choose 2
    if c.1 = 0 then { c.2 with errors := tput c.2.errors (pa / 32) 2 }
    else
      let i := c.2.choose 32
      let v := i.2.choose 256
      { v.2 with pa := v.2.pa.write (pa / 32 * 32 + i.1) (BitVec.ofNat 8 v.1) }
/-- What the controller finds in an atom that is read (R416): corrected, or uncorrectable and poisoned. The flag says that
data is delivered. -/
def State.checkAtom (s : State) (pa : Nat) : State × Bool :=
  let a := pa / 32
  if s.poison.contains a then (s, false)
  else
    let s := if isHbm pa then s.onDie_ pa else s
    match tget s.errors 0 a with
    | 0 => (s, true)
    | 1 => (({ s with errors := tdel s.errors a }).countCe pa, true)
    | _ => (({ s with errors := tdel s.errors a, poison := a :: s.poison }).countUe pa, false)
/-- A burst that writes a whole atom stores fresh check bits and clears its poison (R417). -/
def State.freshAtom (s : State) (pa : Nat) : State :=
  { s with poison := s.poison.filter (fun a => a != pa / 32), errors := tdel s.errors (pa / 32), dieErrors := tdel s.dieErrors (pa / 32) }
/-- The record of a failed atom (R418). -/
def State.atomFailed (s : State) (pa hid : Nat) : State := s.moduleEvent 1 (unitOfPa pa) 14 (pa / 32 * 32) hid

/-- Reads that are no steps of a household meet the controller too (R430, R451): the atoms of n bytes from a VA are checked and a
failed one reported; the flag says that all are delivered. -/
def State.checkBytes (s : State) (hid va n : Nat) : State × Bool :=
  (List.range ((va + n + 31) / 32 - va / 32)).foldl (fun r i =>
    match r.1.access hid (max va (32 * (va / 32 + i))) false with
    | .ok (.device pa) =>
      let c := (r.1.touch pa).checkAtom pa
      if c.2 then (c.1, r.2) else (c.1.atomFailed pa hid, false)
    | _ => r) (s, true)

/-! ### Steps on a household's memory (R166 to R168, R287, R417, R427, R440) -/

/-- The address in a place's memory, and the place at another address. -/
def Place.addr (p : Place) : Nat :=
  match p with
  | .device pa => pa
  | .hostM _ a => a
  | .peer _ _ a => a
  | .peat _ off => off
def Place.at_ (p : Place) (a : Nat) : Place :=
  match p with
  | .device _ => .device a
  | .hostM h _ => .hostM h a
  | .peer m h _ => .peer m h a
  | .peat n _ => .peat n a
def State.byteMem (s : State) (p : Place) (x : Nat) : Nat := (s.readPlace (p.at_ x)).toNat
def memLoc (hid : Nat) (p : Place) (x : Nat) : Loc := .mem hid (p.at_ x)
/-- A read step of the holder of a Seen set: n bytes from a place on. -/
def State.readMem (s : State) (know : Seen) (hid : Nat) (p : Place) (n : Nat) : Nat × Seen × State :=
  s.readStep know (memLoc hid p) (s.byteMem p) p.addr n
/-- The bytes of a write stand in memory; the graphs of other households take them as from outside. -/
def State.placeBytes (s : State) (hid : Nat) (p : Place) (n val : Nat) : State :=
  (List.range n).foldl (fun s i =>
    let q := p.at_ (p.addr + i)
    let b := BitVec.ofNat 8 (val / 256 ^ i)
    (s.touchPlace (some hid) q b.toNat).setPlace q b) s
/-- A write step: n bytes from a place on. -/
def State.writeMem (s : State) (know : Seen) (hid : Nat) (p : Place) (n val : Nat) : Seen × State :=
  let r := s.noteWrite false know (memLoc hid p) (s.byteMem p) p.addr n val
  (r.1, r.2.placeBytes hid p n val)
/-- An atomic step on n bytes from a place on. -/
def State.atomicMem (s : State) (know : Seen) (hid : Nat) (p : Place) (n : Nat) (f : Nat → Nat) : Seen × State :=
  let t := s.readTop (memLoc hid p) (s.byteMem p) p.addr n
  let r := t.2.noteWrite true know (memLoc hid p) (t.2.byteMem p) p.addr n (f t.1)
  (r.1, r.2.placeBytes hid p n (f t.1))

/-- What a step meets: done with a value and its Seen set afterwards, a wait to the next cycle, a refusal. -/
inductive Met where
  | ok (s : State) (val : Nat) (know : Seen)
  | wait (s : State)
  | refused (s : State) (reason : Nat)
deriving DecidableEq, Repr

/-- A port that reaches a module is up (R440). -/
def State.peerUp (s : State) (module : Nat) : Bool :=
  (List.range 18).any (fun p => tget s.cabling p p == module && !s.linkDown (8 + p))
/-- A burst at device memory: its bank, then its atom. A burst that writes a whole atom stores fresh check bits; of every other one the
controller reads and checks the atom (R416, R417). -/
def State.deviceBurst (s : State) (hid pa : Nat) (whole : Bool) (p : Place) : Met × Option Place :=
  match s.bankWait pa with
  | some w => (.wait (s.countWait pa w), none)
  | none =>
    let s := s.touch pa
    if whole then (.ok (s.freshAtom pa) 0 [], some p)
    else
      let c := s.checkAtom pa
      if c.2 then (.ok c.1 0 [], some p) else (.refused (c.1.atomFailed pa hid) 14, none)
/-- A burst of a household's memory as a streamer reaches it through the TLB of a die: the place of its first element, a wait, or
a refusal. The peer's page is bound at both ends for the household, or the step is refused (R365). -/
def State.element (s : State) (die hid va : Nat) (wr whole : Bool) : Met × Option Place :=
  let s := s.tlbFill die hid va
  match s.accessAt die hid va wr with
  | .error r => (.refused s r, none)
  | .ok p =>
    match p with
    | .device pa => s.deviceBurst hid pa whole p
    | .peat n off => s.deviceBurst hid ((tget s.peats Peat.reset n).base + off) whole p
    | .hostM _ _ =>
      if s.linkDown 26 then (.wait s, none) else (.ok s 0 [], some p)
    | .peer m h a =>
      if s.peerUp m && !s.peerDenied.contains (h, m, a / 65536) then (.ok s 0 [], some p) else (.refused s 11, none)
/-- 8-byte values packed into one number, and the i-th of them. -/
def packEights (vs : List Nat) : Nat := vs.foldr (fun v n => v % 2 ^ 64 + 2 ^ 64 * n) 0
def eightOf (v i : Nat) : Nat := v / 2 ^ (64 * i) % 2 ^ 64
/-- The read steps of elements of one atom; the place is that of the VA `va0`. -/
def State.readMems (s : State) (know : Seen) (hid : Nat) (p : Place) (va0 : Nat) (vas : List Nat) : Nat × Seen × State :=
  match vas with
  | [] => (0, know, s)
  | va :: rest =>
    let r := s.readMem know hid (p.at_ (p.addr + (va - va0))) 8
    let t := State.readMems r.2.2 r.2.1 hid p va0 rest
    (r.1 + 2 ^ 64 * t.1, t.2)
/-- The write steps of elements of one atom, each a VA and a value. -/
def State.writeMems (s : State) (know : Seen) (hid : Nat) (p : Place) (va0 : Nat) (ws : List (Nat × Nat)) : Seen × State :=
  match ws with
  | [] => (know, s)
  | w :: rest =>
    let r := s.writeMem know hid (p.at_ (p.addr + (w.1 - va0))) 8 w.2
    State.writeMems r.2 r.1 hid p va0 rest
/-- The atomic steps on elements of one atom, each a VA and an operand. -/
def State.atomicMems (s : State) (know : Seen) (hid : Nat) (p : Place) (va0 : Nat) (f : Nat → Nat → Nat) (ws : List (Nat × Nat)) :
    Seen × State :=
  match ws with
  | [] => (know, s)
  | w :: rest =>
    let r := s.atomicMem know hid (p.at_ (p.addr + (w.1 - va0))) 8 (f w.2)
    State.atomicMems r.2 r.1 hid p va0 f rest
/-- A read burst (R417): elements of one atom, in ascending order. -/
def State.readBurst (s : State) (know : Seen) (die hid : Nat) (vas : List Nat) : Met :=
  match s.element die hid (vas.headD 0) false false with
  | (.ok s _ _, some p) =>
    let r := s.readMems know hid p (vas.headD 0) vas
    .ok r.2.2 r.1 r.2.1
  | (.ok s _ _, none) => .wait s
  | (m, _) => m
/-- A write burst: four elements write the whole atom. -/
def State.writeBurst (s : State) (know : Seen) (die hid : Nat) (ws : List (Nat × Nat)) : Met :=
  let va := (ws.headD (0, 0)).1
  match s.element die hid va true (ws.length == 4) with
  | (.ok s _ _, some p) =>
    let r := s.writeMems know hid p va ws
    .ok r.2 0 r.1
  | (.ok s _ _, none) => .wait s
  | (m, _) => m
/-- A burst of atomic steps, whose atom is read and checked (R291, R416). -/
def State.atomicBurst (s : State) (know : Seen) (die hid : Nat) (f : Nat → Nat → Nat) (ws : List (Nat × Nat)) : Met :=
  let va := (ws.headD (0, 0)).1
  match s.element die hid va true false with
  | (.ok s _ _, some p) =>
    let r := s.atomicMems know hid p va f ws
    .ok r.2 0 r.1
  | (.ok s _ _, none) => .wait s
  | (m, _) => m
/-- One element read, and one written, as a burst of its own. -/
def State.readElement (s : State) (know : Seen) (die hid va : Nat) : Met := s.readBurst know die hid [va]
def State.writeElement (s : State) (know : Seen) (die hid va val : Nat) : Met := s.writeBurst know die hid [(va, val)]
/-- Elements at ascending VAs, one burst for each atom; the first that waits or is refused decides. -/
def State.readAtoms (s : State) (know : Seen) (die hid : Nat) (vas : List Nat) (fuel : Nat) : Met :=
  match fuel, vas with
  | k + 1, va :: _ =>
    let l := vas.filter (fun x => x / 32 == va / 32)
    match s.readBurst know die hid l with
    | .ok s v know =>
      match s.readAtoms know die hid (vas.filter (fun x => x / 32 != va / 32)) k with
      | .ok s w know => .ok s (v + w * 2 ^ (64 * l.length)) know
      | m => m
    | m => m
  | _, _ => .ok s 0 know
/-- The streamer that owns a VA (R277, R278): HBM 0 to 31, Cellar from 32, Annex from 96, host 100, Boardwalk from 101. Where the
first byte does not translate, the spec names no owner: the host streamer takes the operation (log 32). -/
def State.ownerOf (s : State) (hid va : Nat) : Nat :=
  match s.leafFor ioDie hid va, s.translate hid va false with
  | _, .error _ => 100
  | _, .ok (.device pa) =>
    if isHbm pa then groupOf pa else if isCellar pa then 32 + 16 * cellarDie pa + pa / 65536 % 16 else 96 + pa / 2 ^ 41 % 4
  | .ok (_, e), .ok (.peer _ _ _) => 101 + bits e 6 5
  | _, .ok (.peat k off) => groupOf ((tget s.peats Peat.reset k).base + off)
  | _, _ => 100
/-- The die of a streamer, whose TLB translates for it (R27, R277, R278). -/
def ownerDie (owner : Nat) : Nat :=
  if owner < 32 then owner / 8 else if owner < 96 then (owner - 32) / 16 else if owner < 101 then 4
  else if owner - 101 < 16 then (owner - 101) / 4 else 4
/-- A VA of a household lies in host memory. -/
def State.inHost (s : State) (hid va : Nat) : Bool :=
  match s.translate hid va false with
  | .ok (.hostM _ _) => true
  | _ => false
def State.setOp (s : State) (n : Nat) (op : SOp) : State := { s with ops := tput s.ops n op }

/-! ### The steps of banks and stacks -/

/-- `ROW_ACTIVATE` (R430, R431). -/
def execRowActivate (pa : Nat) (s : State) : Host.Outcome State Fault Refusal :=
  .next (if isHbm pa && (s.bankWait pa).isNone then s.touch pa else s)
/-- `BACKOFF_END` (R431). -/
def execBackoffEnd (bank : Nat) (s : State) : Host.Outcome State Fault Refusal :=
  .next (if (s.bank bank).backoff ≤ s.gts then s.onBank bank (fun k => { k with backoff := 0 }) else s)
/-- `ROW_CLOSE` (R430). -/
def execRowClose (bank : Nat) (s : State) : Host.Outcome State Fault Refusal :=
  .next (if (s.bank bank).lastAccess + 128 ≤ s.gts then s.onBank bank (fun k => { k with openRow := none }) else s)
/-- Every ACT of a stack becomes 0. -/
def State.clearActs (s : State) (stack : Nat) : State :=
  { s with banks := s.banks.map (fun p => if stackOfBank p.1 = stack ∧ p.1 < 16384 then (p.1, { p.2 with acts := [] }) else p) }
/-- `REFRESH_WINDOW` (R430, R435): at a multiple of 60,800,000. -/
def execRefreshWindow (stack : Nat) (s : State) : Host.Outcome State Fault Refusal :=
  .next (if s.gts % 60800000 = 0 then
    (s.clearActs stack).onStack stack (fun k => { k with hot := [], window := windowOf s.gts }) else s)
/-- `BANK_REFRESH` (R433): ordinary refresh does not change ACT (R430). -/
def execBankRefresh (bank : Nat) (s : State) : Host.Outcome State Fault Refusal :=
  .next (if (s.stack (stackOfBank bank)).takeover.isSome then s else s.onBank bank (fun k => { k with refreshed := s.gts }))
/-- `HEARTBEAT` (R433, R434). -/
def execHeartbeat (stack : Nat) (s : State) : Host.Outcome State Fault Refusal :=
  let k := s.stack stack
  let from_ := if k.heartbeat + 3800 < s.gts || k.beatsFrom = 0 then s.gts else k.beatsFrom
  .next ((s.onStack stack (fun k => { k with heartbeat := s.gts, beatsFrom := from_ })).stepAt (s.gts + 3800) (.refreshTakeover stack))
/-- `REFRESH_TAKEOVER` (R433): 3,800 cycles without a heartbeat; one in this cycle prevents it. -/
def execRefreshTakeover (stack : Nat) (s : State) : Host.Outcome State Fault Refusal :=
  let k := s.stack stack
  if k.takeover.isSome || s.gts < k.heartbeat + 3800 || s.agenda.contains (.heartbeat stack) then .next s
  else
    let s := s.onStack stack (fun k => { k with takeover := some s.gts, sequenced := 0, beatsFrom := 0 })
    .next ((s.moduleEvent 5 stack (k.heartbeat % 2 ^ 32) 0 0).stepAt (s.gts + 64) (.sequencerRefresh stack))
/-- The handback falls at this refresh (R434). -/
def Stack.handsBack (k : Stack) (g : Nat) : Bool :=
  k.beatsFrom != 0 && decide (k.beatsFrom + 19000 ≤ g) && decide (g ≤ k.heartbeat + 3800)
/-- `SEQUENCER_REFRESH` (R433): an all-bank refresh of 665 cycles; every ACT becomes 0. -/
def execSequencerRefresh (stack : Nat) (s : State) : Host.Outcome State Fault Refusal :=
  let k := s.stack stack
  match k.takeover with
  | none => .next s
  | some _ =>
    let s := (s.clearActs stack).onStack stack (fun k => { k with sequenced := k.sequenced + 1, busyUntil := s.gts + 665 })
    let s := s.stepAt (s.gts + 665) (.allBankRefreshEnd stack)
    .next (if k.handsBack s.gts then s.next (.refreshHandback stack) else s.stepAt (s.gts + 3705) (.sequencerRefresh stack))
/-- `ALL_BANK_REFRESH_END` (R433): waiting accesses go on, and banks whose rows reached TH take activations again. -/
def execAllBankRefreshEnd (stack : Nat) (s : State) : Host.Outcome State Fault Refusal :=
  if s.gts < (s.stack stack).busyUntil then .next s
  else
    .next { s.onStack stack (fun k => { k with busyUntil := 0 }) with
      banks := s.banks.map (fun p => if stackOfBank p.1 = stack ∧ p.1 < 16384 then (p.1, { p.2 with held := false }) else p) }
/-- `REFRESH_HANDBACK` (R434), after the sequencer's last refresh. -/
def execRefreshHandback (stack : Nat) (s : State) : Host.Outcome State Fault Refusal :=
  let k := s.stack stack
  if k.takeover.isNone || !k.handsBack s.gts then .next s
  else
    .next (((s.clearActs stack).onStack stack (fun k => { k with takeover := none })).moduleEvent 6 stack (k.sequenced % 2 ^ 32) 0 0)

/-- Why a hot page is skipped (R436); 0 when it is not. -/
def State.skipReason (s : State) (page : Nat) : Nat :=
  let k := s.stack (page % 32 / 4)
  if k.takeover.isSome then 3 else if s.peerMapped (page * 65536) then 1 else if 64 ≤ k.spares then 2 else 0
/-- `PAGE_MIGRATE` (R435, R436): accesses to the page are held for at most 8,192 cycles while it is copied to a spare; a skipped one
is recorded. -/
def execPageMigrate (page : Nat) (s : State) : Host.Outcome State Fault Refusal :=
  let n := page % 32 / 4
  let k := s.stack n
  if (tfind s.copying page).isSome then .next s
  else if s.skipReason page != 0 then .next (s.moduleEvent 8 n (s.skipReason page) (page * 65536) (s.mapper (page * 65536)))
  else
    let s' := { s.onStack n (fun k => { k with spares := k.spares + 1 }) with copying := tput s.copying page k.spares, ctr := s.ctr + 1 }
    .next (s'.stepAt (s.gts + 1 + Config.latency s.ctr % 8192) (.migrationDone page))
/-- `MIGRATION_DONE` (R435): the page is remapped, keeping its address and its bytes. -/
def execMigrationDone (page : Nat) (s : State) : Host.Outcome State Fault Refusal :=
  match tfind s.copying page with
  | none => .next s
  | some k =>
    .next (({ s with copying := tdel s.copying page, remap := tput s.remap page k }).moduleEvent 7 (page % 32 / 4) k (page * 65536) 0)

end Sys2Proof.Machine
end

