-- ==== Sys2Proof/Machine/Memory.lean ====
section
/-! DEFINITION. Loads, stores, full/empty words, atomics, regions, fences and the event unit (R132 to R154): what each does
when it issues. What a request does at its home stands in Remote. -/
namespace Sys2Proof.Machine

/-! ### Scalar loads and stores (R136) -/

/-- Bad-address for a scalar access: no class, a form the event window does not allow, or below the own boundary
(R132, R134, R152). -/
def scalarBad (s : State) (a : Nat) (eventOk : Bool) : List Cond :=
  match classify a with
  | .none => condIf true 5 0 a
  | .event _ => condIf (!eventOk) 5 2 a
  | .own x => condIf (x < s.here.boundary) 5 1 a
  | .window _ _ => []
/-- The access lies outside the open region's line, or is the ninth (R149). -/
def Ctx.regionBad (c : Ctx) (a z : Nat) : List Cond :=
  match c.region with
  | none => []
  | some r => condIf (8 ≤ r.accs.length || a < r.line || r.line + 128 < a + z) 15 0 r.pc
/-- A region takes an access (R148). -/
def Ctx.regionAdd (c : Ctx) (x : RegionAcc) : Ctx :=
  match c.region with
  | none => c
  | some r => { c with region := some { r with accs := r.accs ++ [x] } }
/-- The destination of a long-latency load: pending, and unwritten for `fence.acq` (R107, R150). -/
def Ctx.startDest (c : Ctx) (r : RegId) : Ctx := { c.addPending r with acq := if r.fixed then c.acq else c.acq ++ [r] }
/-- What ends such a destination. -/
def endDest (r : RegId) : List Act := [.unpend r, .acqDone r]
/-- Where a window or event request goes. -/
def State.dstOf (s : State) (a : Nat) : Dst :=
  match classify a with
  | .window m _ => .core (coreIn s.myCluster m)
  | _ => .event s.myCluster

/-- A scalar load (R136): from the own local store with latency 3; through a window long-latency, remote and a switching
event; in a region held until `ale`. A counter is zero-extended (R152). -/
def issueLoad (i : Instr) (hd : CHead) (z : Nat) (sext eventOk : Bool) (d : BitVec 5) (srcs : List RegId) (a : Nat)
    (s : State) : Host.Outcome State Fault Refusal :=
  let c := s.me
  let conds := misaligned a z ++ scalarBad s a eventOk
  let sext := sext && (match classify a with
    | .event _ => false
    | _ => true)
  if c.region.isSome then
    issueC i hd { srcs := srcs, conds := conds ++ c.regionBad a z, inRegion := true }
      (fun s => s.onMe (fun c => (c.regionAdd
        { store := false, addr := a, z := z, val := 0, d := d.toNat, sext := sext }).startDest (.s d.toNat))) s
  else if isRemote a then
    issueC i hd { srcs := srcs, conds := conds, tok := some c.ltkRef, reqs := 1, mol := 1 }
      (fun s =>
        let t := s.me.ltkRef
        ((s.onMe (fun c => (c.raise t).startDest (.s d.toNat))).request (s.dstOf a) (some t)
          (.load a z sext d.toNat)).switching) s
  else
    issueC i hd { srcs := srcs, conds := conds, waits := s.lineHeld a z }
      (fun s =>
        let r := s.readLs s.focus s.focus a z
        r.2.fixedWrite (.s d.toNat) (extendTo64 z sext r.1) 3) s
/-- A scalar store (R136): sV is read at issue; the own local store is written in the issue cycle (R135). A store
of a whole granule reads none (R419). -/
def issueStore (i : Instr) (hd : CHead) (z : Nat) (v : BitVec 5) (srcs : List RegId) (a : Nat) (s : State) : Host.Outcome State Fault Refusal :=
  let c := s.me
  let conds := misaligned a z ++ scalarBad s a false
  let srcs := RegId.s v.toNat :: srcs
  if c.region.isSome then
    issueC i hd { srcs := srcs, conds := conds ++ c.regionBad a z, inRegion := true }
      (fun s => s.onMe (fun c => c.regionAdd
        { store := true, addr := a, z := z, val := (c.sReg v.toNat).toNat, d := 0, sext := false })) s
  else if isRemote a then
    issueC i hd { srcs := srcs, conds := conds, reqs := 1, mol := 1 }
      (fun s => s.request (s.dstOf a) none (.store a z (s.me.sReg v.toNat).toNat)) s
  else
    issueC i hd { srcs := srcs, conds := conds, waits := if z = 8 then s.lineLocked a z else s.lineHeld a z }
      (fun s => s.storeLs s.focus s.focus a z (s.me.sReg v.toNat).toNat) s

/-- `ldb`, offset form (R136). -/
def execLdb (hd : CHead) (d a : BitVec 5) (o : BitVec 8) (s : State) : Host.Outcome State Fault Refusal :=
  issueLoad (.ldb hd d a o) hd 1 true false d [.s a.toNat] (offAddr (s.me.sReg a.toNat) o 1) s
/-- `ldb`, indexed form (R136). -/
def execLdbX (hd : CHead) (d a b : BitVec 5) (s : State) : Host.Outcome State Fault Refusal :=
  issueLoad (.ldbX hd d a b) hd 1 true false d [.s a.toNat, .s b.toNat]
    (idxAddr (s.me.sReg a.toNat) (s.me.sReg b.toNat) 1) s
/-- `ldb.n`, offset form (R136). -/
def execLdbN (hd : CHead) (d a : BitVec 5) (o : BitVec 8) (s : State) : Host.Outcome State Fault Refusal :=
  issueLoad (.ldbN hd d a o) hd 1 false false d [.s a.toNat] (offAddr (s.me.sReg a.toNat) o 1) s
/-- `ldb.n`, indexed form (R136). -/
def execLdbNX (hd : CHead) (d a b : BitVec 5) (s : State) : Host.Outcome State Fault Refusal :=
  issueLoad (.ldbNX hd d a b) hd 1 false false d [.s a.toNat, .s b.toNat]
    (idxAddr (s.me.sReg a.toNat) (s.me.sReg b.toNat) 1) s
/-- `ldh`, offset form (R136). -/
def execLdh (hd : CHead) (d a : BitVec 5) (o : BitVec 8) (s : State) : Host.Outcome State Fault Refusal :=
  issueLoad (.ldh hd d a o) hd 2 true false d [.s a.toNat] (offAddr (s.me.sReg a.toNat) o 2) s
/-- `ldh`, indexed form (R136). -/
def execLdhX (hd : CHead) (d a b : BitVec 5) (s : State) : Host.Outcome State Fault Refusal :=
  issueLoad (.ldhX hd d a b) hd 2 true false d [.s a.toNat, .s b.toNat]
    (idxAddr (s.me.sReg a.toNat) (s.me.sReg b.toNat) 2) s
/-- `ldh.n`, offset form (R136). -/
def execLdhN (hd : CHead) (d a : BitVec 5) (o : BitVec 8) (s : State) : Host.Outcome State Fault Refusal :=
  issueLoad (.ldhN hd d a o) hd 2 false false d [.s a.toNat] (offAddr (s.me.sReg a.toNat) o 2) s
/-- `ldh.n`, indexed form (R136). -/
def execLdhNX (hd : CHead) (d a b : BitVec 5) (s : State) : Host.Outcome State Fault Refusal :=
  issueLoad (.ldhNX hd d a b) hd 2 false false d [.s a.toNat, .s b.toNat]
    (idxAddr (s.me.sReg a.toNat) (s.me.sReg b.toNat) 2) s
/-- `ldw`, offset form (R136). -/
def execLdw (hd : CHead) (d a : BitVec 5) (o : BitVec 8) (s : State) : Host.Outcome State Fault Refusal :=
  issueLoad (.ldw hd d a o) hd 4 true true d [.s a.toNat] (offAddr (s.me.sReg a.toNat) o 4) s
/-- `ldw`, indexed form (R136). -/
def execLdwX (hd : CHead) (d a b : BitVec 5) (s : State) : Host.Outcome State Fault Refusal :=
  issueLoad (.ldwX hd d a b) hd 4 true true d [.s a.toNat, .s b.toNat]
    (idxAddr (s.me.sReg a.toNat) (s.me.sReg b.toNat) 4) s
/-- `ldw.n`, offset form (R136). -/
def execLdwN (hd : CHead) (d a : BitVec 5) (o : BitVec 8) (s : State) : Host.Outcome State Fault Refusal :=
  issueLoad (.ldwN hd d a o) hd 4 false true d [.s a.toNat] (offAddr (s.me.sReg a.toNat) o 4) s
/-- `ldw.n`, indexed form (R136). -/
def execLdwNX (hd : CHead) (d a b : BitVec 5) (s : State) : Host.Outcome State Fault Refusal :=
  issueLoad (.ldwNX hd d a b) hd 4 false true d [.s a.toNat, .s b.toNat]
    (idxAddr (s.me.sReg a.toNat) (s.me.sReg b.toNat) 4) s
/-- `ldd`, offset form (R136). -/
def execLdd (hd : CHead) (d a : BitVec 5) (o : BitVec 8) (s : State) : Host.Outcome State Fault Refusal :=
  issueLoad (.ldd hd d a o) hd 8 false true d [.s a.toNat] (offAddr (s.me.sReg a.toNat) o 8) s
/-- `ldd`, indexed form (R136). -/
def execLddX (hd : CHead) (d a b : BitVec 5) (s : State) : Host.Outcome State Fault Refusal :=
  issueLoad (.lddX hd d a b) hd 8 false true d [.s a.toNat, .s b.toNat]
    (idxAddr (s.me.sReg a.toNat) (s.me.sReg b.toNat) 8) s
/-- `stb`, offset form (R136). -/
def execStb (hd : CHead) (v a : BitVec 5) (o : BitVec 8) (s : State) : Host.Outcome State Fault Refusal :=
  issueStore (.stb hd v a o) hd 1 v [.s a.toNat] (offAddr (s.me.sReg a.toNat) o 1) s
/-- `stb`, indexed form (R136). -/
def execStbX (hd : CHead) (v a b : BitVec 5) (s : State) : Host.Outcome State Fault Refusal :=
  issueStore (.stbX hd v a b) hd 1 v [.s a.toNat, .s b.toNat]
    (idxAddr (s.me.sReg a.toNat) (s.me.sReg b.toNat) 1) s
/-- `sth`, offset form (R136). -/
def execSth (hd : CHead) (v a : BitVec 5) (o : BitVec 8) (s : State) : Host.Outcome State Fault Refusal :=
  issueStore (.sth hd v a o) hd 2 v [.s a.toNat] (offAddr (s.me.sReg a.toNat) o 2) s
/-- `sth`, indexed form (R136). -/
def execSthX (hd : CHead) (v a b : BitVec 5) (s : State) : Host.Outcome State Fault Refusal :=
  issueStore (.sthX hd v a b) hd 2 v [.s a.toNat, .s b.toNat]
    (idxAddr (s.me.sReg a.toNat) (s.me.sReg b.toNat) 2) s
/-- `stw`, offset form (R136). -/
def execStw (hd : CHead) (v a : BitVec 5) (o : BitVec 8) (s : State) : Host.Outcome State Fault Refusal :=
  issueStore (.stw hd v a o) hd 4 v [.s a.toNat] (offAddr (s.me.sReg a.toNat) o 4) s
/-- `stw`, indexed form (R136). -/
def execStwX (hd : CHead) (v a b : BitVec 5) (s : State) : Host.Outcome State Fault Refusal :=
  issueStore (.stwX hd v a b) hd 4 v [.s a.toNat, .s b.toNat]
    (idxAddr (s.me.sReg a.toNat) (s.me.sReg b.toNat) 4) s
/-- `std`, offset form (R136). -/
def execStd (hd : CHead) (v a : BitVec 5) (o : BitVec 8) (s : State) : Host.Outcome State Fault Refusal :=
  issueStore (.std hd v a o) hd 8 v [.s a.toNat] (offAddr (s.me.sReg a.toNat) o 8) s
/-- `std`, indexed form (R136). -/
def execStdX (hd : CHead) (v a b : BitVec 5) (s : State) : Host.Outcome State Fault Refusal :=
  issueStore (.stdX hd v a b) hd 8 v [.s a.toNat, .s b.toNat]
    (idxAddr (s.me.sReg a.toNat) (s.me.sReg b.toNat) 8) s

/-! ### Vector loads and stores (R137) -/

/-- The first lane address, in lane order, that is no multiple of 4. -/
def lanesMisaligned (as : List Nat) : List Cond := as.flatMap (fun a => misaligned a 4)
/-- Bad-address of a lane: no class, the event window, or below the own boundary. -/
def lanesBad (s : State) (as : List Nat) : List Cond := as.flatMap (fun a => scalarBad s a false)
/-- The window lines that lanes touch, rising. -/
def windowLines (as : List Nat) : List Nat :=
  ((as.filter isRemote).map (fun a => a / 128)).foldl
    (fun acc l => if acc.contains l then acc else acc.filter (fun x => x < l) ++ [l] ++ acc.filter (fun x => l < x)) []
/-- Lane numbers with their addresses. -/
def laneAddrs (as : List Nat) : List (Nat × Nat) := (List.range 32).zip as
/-- A vector load (R137): `lat` when every lane is in the own local store; otherwise one remote request for each window
line, one token, and the own lanes written in the cycle after issue. -/
def issueVLoad (i : Instr) (hd : CHead) (lat : Nat) (v : BitVec 6) (srcs : List RegId) (vecs : List Nat) (whole : List Cond)
    (as : List Nat) (s : State) : Host.Outcome State Fault Refusal :=
  let c := s.me
  let conds := whole ++ lanesMisaligned as ++ lanesBad s as
  let lines := windowLines as
  if lines.isEmpty then
    issueC i hd { srcs := srcs, vecs := v.toNat :: vecs, conds := conds, waits := as.any (fun a => s.lineHeld a 4) }
      (fun s =>
        let r := s.readLsMany s.focus s.focus 4 as
        r.2.fixedWrite (.v v.toNat) (ofLanes r.1).toNat lat) s
  else
    issueC i hd
      { srcs := srcs, vecs := v.toNat :: vecs, conds := conds, tok := some c.ltkRef, reqs := lines.length,
        mol := lines.length, waits := as.any (fun a => s.lineHeld a 4) }
      (fun s =>
        let t := s.me.ltkRef
        let no := s.me.nseq
        let own := (laneAddrs as).filter (fun p => !isRemote p.2)
        let s := s.onMe (fun c =>
          { ((c.raise t).startDest (.v v.toNat)) with vloads := tput c.vloads no lines.length })
        let s := lines.foldl (fun s l =>
          s.request (s.dstOf (128 * l)) (some t)
            (.loadLine (128 * l) ((laneAddrs as).filter (fun p => isRemote p.2 && p.2 / 128 == l)) v.toNat no)) s
        let r := s.readLsMany s.focus s.focus 4 (own.map (fun p => p.2))
        (r.2.doneAt (s.gts + 1) s.focus s.here.run
          ((own.zip r.1).map (fun p => Act.lane v.toNat p.1.1 p.2))).switching) s
/-- A vector store (R137): own lanes written in lane order at issue; one remote request for each window line. -/
def issueVStore (i : Instr) (hd : CHead) (v : BitVec 6) (srcs : List RegId) (vecs : List Nat) (whole : List Cond)
    (as : List Nat) (s : State) : Host.Outcome State Fault Refusal :=
  let conds := whole ++ lanesMisaligned as ++ lanesBad s as
  let lines := windowLines as
  issueC i hd
    { srcs := .v v.toNat :: srcs, vecs := v.toNat :: vecs, conds := conds, reqs := lines.length, mol := lines.length,
      waits := as.any (fun a => s.lineHeld a 4) }
    (fun s =>
      let data := s.me.vReg v.toNat
      let own := (laneAddrs as).filter (fun p => !isRemote p.2)
      let s := own.foldl (fun s p => s.storeLs s.focus s.focus p.2 4 (vlane data p.1).toNat) s
      lines.foldl (fun s l =>
        s.request (s.dstOf (128 * l)) none
          (.storeLine (128 * l) (((laneAddrs as).filter (fun p => isRemote p.2 && p.2 / 128 == l)).map
            (fun p => (p.2, (vlane data p.1).toNat))) none)) s) s
/-- Lane addresses of a contiguous access. -/
def lanesFrom (a : Nat) : List Nat := (List.range 32).map (fun i => (a + 4 * i) % 2 ^ 64)
/-- Lane addresses of a strided access. -/
def lanesStrided (a b : Word) : List Nat := (List.range 32).map (fun i => (a + BitVec.ofNat 64 i * b).toNat)
/-- Lane addresses of an indexed access. -/
def lanesIndexed (a : Word) (v : VReg) : List Nat :=
  (List.range 32).map (fun i => (a + 4 * (vlane v i).zeroExtend 64).toNat)
/-- `ldv` (R137). -/
def execLdv (hd : CHead) (v : BitVec 6) (a : BitVec 5) (o : BitVec 7) (s : State) : Host.Outcome State Fault Refusal :=
  let x := offAddr (s.me.sReg a.toNat) o 128
  issueVLoad (.ldv hd v a o) hd 4 v [.s a.toNat] [] (misaligned x 128) (lanesFrom x) s
/-- `stv` (R137). -/
def execStv (hd : CHead) (v : BitVec 6) (a : BitVec 5) (o : BitVec 7) (s : State) : Host.Outcome State Fault Refusal :=
  let x := offAddr (s.me.sReg a.toNat) o 128
  issueVStore (.stv hd v a o) hd v [.s a.toNat] [] (misaligned x 128) (lanesFrom x) s
/-- `ldvs` (R137). -/
def execLdvs (hd : CHead) (v : BitVec 6) (a b : BitVec 5) (s : State) : Host.Outcome State Fault Refusal :=
  issueVLoad (.ldvs hd v a b) hd 4 v [.s a.toNat, .s b.toNat] [] [] (lanesStrided (s.me.sReg a.toNat) (s.me.sReg b.toNat)) s
/-- `ldvx` (R137). -/
def execLdvx (hd : CHead) (v : BitVec 6) (a : BitVec 5) (x : BitVec 6) (s : State) : Host.Outcome State Fault Refusal :=
  issueVLoad (.ldvx hd v a x) hd 5 v [.s a.toNat, .v x.toNat] [x.toNat] []
    (lanesIndexed (s.me.sReg a.toNat) (s.me.vReg x.toNat)) s
/-- `stvx` (R137). -/
def execStvx (hd : CHead) (v : BitVec 6) (a : BitVec 5) (x : BitVec 6) (s : State) : Host.Outcome State Fault Refusal :=
  issueVStore (.stvx hd v a x) hd v [.s a.toNat, .v x.toNat] [x.toNat] []
    (lanesIndexed (s.me.sReg a.toNat) (s.me.vReg x.toNat)) s

/-! ### Full/empty words (R138 to R141) -/

/-- A message that stays at its own core: a `take`, `pres` or `pacq` of the own local store that waits (R141, R296). -/
def State.localMsg (s : State) (t : TokRef) (body : Body) : Nat × State :=
  let id := s.ctr
  let m := { s.newMsg (.core s.focus) none (some t) body with seq := 0, delivered := true, remote := false, behind := [] }
  (id, { s with bag := tput s.bag id m, ctr := id + 1 })
/-- A word is full and no deferred `take` waits for it (R139). -/
def CoreSt.takeable (x : CoreSt) (off : Nat) : Bool := x.fe (off / 8) && !x.deferred.any (fun e => e.op == 0 && e.addr == off)
/-- A waiting request joins the deferred list, or is sent again 64 cycles after the answer "busy" reaches it (R141). -/
def State.joinDeferred (s : State) (home : Nat) (e : Deferred) (id : Nat) : State :=
  if (s.coreOf home).deferred.length < 32 then
    s.onCore home (fun x => { x with deferred := x.deferred ++ [e] })
  else
    { s with due := s.due ++ [Due.mk (s.gts + 65 + Config.latency s.ctr) (.step (.takeRetry id))], ctr := s.ctr + 1 }
/-- A grant is logged and counted at its home (R468). -/
def State.granted (s : State) (home id : Nat) (rkind : Nat) : State :=
  let s := s.countApplied home
  match tfind s.bag id with
  | none => s
  | some m =>
    let n := (s.coreOf home).appIdx
    (s.onMsg id (fun m => { m with app := some (home, n, s.gts) })).molEntry m.src.core m.src.ctx 5 rkind m.seq m.pc home n s.gts
/-- The atomic step of a `take` of a core that finds its word full (R139, R168): the word's value; its FE bit becomes 0. -/
def State.takeStep (s : State) (core home off : Nat) : Nat × State :=
  let r := s.atomicLs core home off 8 id
  (r.1, r.2.onCore home (fun x => x.setFe (off / 8) false))
/-- The oldest deferred `take` of a full word is granted (R140). -/
def State.grantWord (s : State) (home off : Nat) : State :=
  let x := s.coreOf home
  if !x.fe (off / 8) then s
  else
    match x.deferred.find? (fun e => e.op == 0 && e.addr == off) with
    | none => s
    | some e =>
      match e.msg.bind (fun id => (tfind s.bag id).map (fun m => (id, m))) with
      | none => s
      | some (id, m) =>
        let r := (s.onCore home (fun x => { x with deferred := x.deferred.erase e })).takeStep m.src.core home off
        (r.2.granted home id 2).answer id [r.1]
/-- `give` of a core at the home (R140). -/
def State.giveAt (s : State) (core home off val : Nat) : State :=
  ((s.atomicLs core home off 8 (fun _ => val)).2.onCore home (fun x => x.setFe (off / 8) true)).grantWord home off
/-- `fe.set` of a core at the home (R140): an atomic step that leaves the value (R168). -/
def State.feSetAt (s : State) (core home off : Nat) (f : Bool) : State :=
  ((s.atomicLs core home off 8 id).2.onCore home (fun x => x.setFe (off / 8) f)).grantWord home off
/-- The conditions of a full/empty access (R138, R132, R152). -/
def feConds (s : State) (a : Nat) : List Cond := misaligned a 8 ++ scalarBad s a false
/-- `take` (R139). -/
def execTake (hd : CHead) (d a : BitVec 5) (o : BitVec 8) (s : State) : Host.Outcome State Fault Refusal :=
  let x := offAddr (s.me.sReg a.toNat) o 8
  let r := RegId.s d.toNat
  issueC (.take hd d a o) hd
    { srcs := [.s a.toNat], conds := feConds s x, tok := some s.me.ltkRef, reqs := if isRemote x then 1 else 0,
      mol := if isRemote x then 2 else 1, waits := s.lineHeld x 8 }
    (fun s =>
      let t := s.me.ltkRef
      let s := s.onMe (fun c => { (c.raise t).startDest r with wait := .take x })
      if isRemote x then s.request (s.dstOf x) (some t) (.take x d.toNat)
      else if s.here.takeable x then
        let p := s.takeStep s.focus s.focus x
        let v := p.1
        let s := p.2.countApplied s.focus
        let s := s.molEntry s.focus s.here.run 5 2 0 s.me.pc.toNat s.focus s.here.appIdx s.gts
        s.doneAt (s.gts + 3) s.focus s.here.run ([Act.write r v] ++ endDest r ++ [.lower t, .readyNext])
      else
        let p := s.localMsg t (.take x d.toNat)
        p.2.joinDeferred s.focus { op := 0, addr := x, msg := some p.1, ctx := s.here.run, d := d.toNat, tok := t } p.1) s
/-- `give` (R140). -/
def execGive (hd : CHead) (v a : BitVec 5) (o : BitVec 8) (s : State) : Host.Outcome State Fault Refusal :=
  let x := offAddr (s.me.sReg a.toNat) o 8
  issueC (.give hd v a o) hd
    { srcs := [.s v.toNat, .s a.toNat], conds := feConds s x, reqs := if isRemote x then 1 else 0,
      mol := if isRemote x then 1 else 0, waits := s.lineHeld x 8 }
    (fun s =>
      let val := (s.me.sReg v.toNat).toNat
      if isRemote x then s.request (s.dstOf x) none (.give x val) else s.giveAt s.focus s.focus x val) s
/-- `fe.set` (R140). -/
def execFeSet (hd : CHead) (f : BitVec 1) (a : BitVec 5) (o : BitVec 8) (s : State) : Host.Outcome State Fault Refusal :=
  let x := offAddr (s.me.sReg a.toNat) o 8
  issueC (.feSet hd f a o) hd
    { srcs := [.s a.toNat], conds := feConds s x, reqs := if isRemote x then 1 else 0,
      mol := if isRemote x then 1 else 0, waits := s.lineHeld x 8 }
    (fun s =>
      if isRemote x then s.request (s.dstOf x) none (.feSet x (f == 1)) else s.feSetAt s.focus s.focus x (f == 1)) s
/-- A `take` answered "busy" is sent again (R141). -/
def execTakeRetry (id : Nat) (s : State) : Host.Outcome State Fault Refusal :=
  match tfind s.bag id with
  | none => .next s
  | some m =>
    let s := s.onMsg id (fun m => { m with at_ := m.src.core, delivered := true })
    .next (if m.remote then s.soon (.routerReceive id) else s.next (.remoteRequestPerform id))

/-! ### Atomics and reductions (R142 to R147) -/

/-- The instance and superstep that hold an atomic in deterministic mode; none when it is executed on arrival (R145, R147). -/
def State.holdKey (s : State) : Option (Nat × Nat) :=
  let c := s.here.ctx 0
  if s.here.detAtomic && c.level != 0 then
    some (s.keyOf s.focus 0, (tget s.doms DomInst.reset (s.keyOf s.focus 0)).phases)
  else none
/-- The predictor's index of a window address (R144). -/
def predIndex (a : Nat) : Nat := a / 128 % 64
/-- The predictor's choice for a window atomic (R144): near when it marks the line quiet; in deterministic atomic mode every one is
executed at its home (R145, R147). -/
def State.goesNear (s : State) (a : Nat) : Bool :=
  !s.here.detAtomic && !(tget s.here.pred { contended := false, since := 0 } (predIndex a)).contended
/-- A near attempt of a core has found the line locked: its predictor marks the line contended (R144). -/
def State.contend (s : State) (core a : Nat) : State :=
  (s.onCore core (fun x => { x with pred := tput x.pred (predIndex a) { contended := true, since := s.gts } })).stepAt
    (s.gts + 4096) (.predictorDecay core (predIndex a))
/-- A predictor entry returns to quiet after 4,096 cycles without a conflict (R144). -/
def execPredictorDecay (core line : Nat) (s : State) : Host.Outcome State Fault Refusal :=
  match tfind (s.coreOf core).pred line with
  | none => .next s
  | some p =>
    if p.since + 4096 ≤ s.gts then .next (s.onCore core (fun x => { x with pred := tdel x.pred line })) else .next s
/-- The home holds a request of its own core (R145). -/
def State.holdLocal (s : State) (a : HeldAmo) : State :=
  { s.onHere (fun y => { y with heldAmos := insertHeld a y.heldAmos }) with ctr := s.ctr + 1 }
/-- `amo` (R142): read and written indivisibly; the own local store answers 4 cycles after issue. -/
def issueAmo (i : Instr) (hd : CHead) (op : AmoOp) (d a b : BitVec 5) (w : BitVec 2) (u : BitVec 1) (s : State) : Host.Outcome State Fault Refusal :=
  let x := (s.me.sReg a.toNat).toNat
  let z := 2 ^ w.toNat
  let uns := u == 1
  let r := RegId.s d.toNat
  let cas := op == .cas
  issueC i hd
    { srcs := [.s a.toNat, .s b.toNat] ++ (if cas then [r] else []), conds := misaligned x z ++ scalarBad s x false,
      tok := some s.me.ltkRef, reqs := if isRemote x then 1 else 0, mol := if isRemote x then 1 else 0,
      waits := s.lineHeld x z }
    (fun s =>
      let t := s.me.ltkRef
      let bv := (s.me.sReg b.toNat).toNat
      let cv := (s.me.sReg d.toNat).toNat
      let s := s.onMe (fun c => (c.raise t).startDest r)
      if isRemote x then
        (s.request (s.dstOf x) (some t) (.amo op z uns x bv cv d.toNat s.holdKey) (near := s.goesNear x)).switching
      else
        match s.holdKey with
        | some (key, step) =>
          s.holdLocal { key := key, step := step, core := s.focus, ctx := s.here.run, seq := s.ctr, msg := none, req := none, op := op,
                        z := z, uns := uns, addr := x, b := bv, c := cv, d := d.toNat, returning := true, tok := t }
        | none =>
          let p := s.amoStep s.focus s.focus op z uns x bv cv
          p.2.doneAt (s.gts + 4) s.focus s.here.run
            ([Act.write r (extendTo64 z (!uns) p.1)] ++ endDest r ++ [.lower t])) s
/-- `red` (R143): the update of `amo`, with nothing returned. -/
def issueRed (i : Instr) (hd : CHead) (op : AmoOp) (a b : BitVec 5) (w : BitVec 2) (u : BitVec 1) (s : State) : Host.Outcome State Fault Refusal :=
  let x := (s.me.sReg a.toNat).toNat
  let z := 2 ^ w.toNat
  let uns := u == 1
  issueC i hd
    { srcs := [.s a.toNat, .s b.toNat], conds := misaligned x z ++ scalarBad s x false,
      reqs := if isRemote x then 1 else 0, mol := if isRemote x then 1 else 0, waits := s.lineHeld x z }
    (fun s =>
      let bv := (s.me.sReg b.toNat).toNat
      if isRemote x then s.request (s.dstOf x) none (.red op z uns x bv s.holdKey) (near := s.goesNear x)
      else
        match s.holdKey with
        | some (key, step) =>
          s.holdLocal { key := key, step := step, core := s.focus, ctx := s.here.run, seq := s.ctr, msg := none, req := none, op := op,
                        z := z, uns := uns, addr := x, b := bv, c := 0, d := 0, returning := false, tok := .k 0 }
        | none => (s.amoStep s.focus s.focus op z uns x bv 0).2) s

/-- `amo.add` (R142). -/
def execAmoAdd (hd : CHead) (d a b : BitVec 5) (w : BitVec 2) (u : BitVec 1) (s : State) : Host.Outcome State Fault Refusal :=
  issueAmo (.amoAdd hd d a b w u) hd .add d a b w u s
/-- `amo.min` (R142). -/
def execAmoMin (hd : CHead) (d a b : BitVec 5) (w : BitVec 2) (u : BitVec 1) (s : State) : Host.Outcome State Fault Refusal :=
  issueAmo (.amoMin hd d a b w u) hd .min d a b w u s
/-- `amo.max` (R142). -/
def execAmoMax (hd : CHead) (d a b : BitVec 5) (w : BitVec 2) (u : BitVec 1) (s : State) : Host.Outcome State Fault Refusal :=
  issueAmo (.amoMax hd d a b w u) hd .max d a b w u s
/-- `amo.and` (R142). -/
def execAmoAnd (hd : CHead) (d a b : BitVec 5) (w : BitVec 2) (u : BitVec 1) (s : State) : Host.Outcome State Fault Refusal :=
  issueAmo (.amoAnd hd d a b w u) hd .and d a b w u s
/-- `amo.or` (R142). -/
def execAmoOr (hd : CHead) (d a b : BitVec 5) (w : BitVec 2) (u : BitVec 1) (s : State) : Host.Outcome State Fault Refusal :=
  issueAmo (.amoOr hd d a b w u) hd .or d a b w u s
/-- `amo.xor` (R142). -/
def execAmoXor (hd : CHead) (d a b : BitVec 5) (w : BitVec 2) (u : BitVec 1) (s : State) : Host.Outcome State Fault Refusal :=
  issueAmo (.amoXor hd d a b w u) hd .xor d a b w u s
/-- `amo.swp` (R142). -/
def execAmoSwp (hd : CHead) (d a b : BitVec 5) (w : BitVec 2) (u : BitVec 1) (s : State) : Host.Outcome State Fault Refusal :=
  issueAmo (.amoSwp hd d a b w u) hd .swp d a b w u s
/-- `amo.cas` (R142). -/
def execAmoCas (hd : CHead) (d a b : BitVec 5) (w : BitVec 2) (u : BitVec 1) (s : State) : Host.Outcome State Fault Refusal :=
  issueAmo (.amoCas hd d a b w u) hd .cas d a b w u s
/-- `red.add` (R143). -/
def execRedAdd (hd : CHead) (a b : BitVec 5) (w : BitVec 2) (u : BitVec 1) (s : State) : Host.Outcome State Fault Refusal :=
  issueRed (.redAdd hd a b w u) hd .add a b w u s
/-- `red.min` (R143). -/
def execRedMin (hd : CHead) (a b : BitVec 5) (w : BitVec 2) (u : BitVec 1) (s : State) : Host.Outcome State Fault Refusal :=
  issueRed (.redMin hd a b w u) hd .min a b w u s
/-- `red.max` (R143). -/
def execRedMax (hd : CHead) (a b : BitVec 5) (w : BitVec 2) (u : BitVec 1) (s : State) : Host.Outcome State Fault Refusal :=
  issueRed (.redMax hd a b w u) hd .max a b w u s
/-- `red.and` (R143). -/
def execRedAnd (hd : CHead) (a b : BitVec 5) (w : BitVec 2) (u : BitVec 1) (s : State) : Host.Outcome State Fault Refusal :=
  issueRed (.redAnd hd a b w u) hd .and a b w u s
/-- `red.or` (R143). -/
def execRedOr (hd : CHead) (a b : BitVec 5) (w : BitVec 2) (u : BitVec 1) (s : State) : Host.Outcome State Fault Refusal :=
  issueRed (.redOr hd a b w u) hd .or a b w u s
/-- `red.xor` (R143). -/
def execRedXor (hd : CHead) (a b : BitVec 5) (w : BitVec 2) (u : BitVec 1) (s : State) : Host.Outcome State Fault Refusal :=
  issueRed (.redXor hd a b w u) hd .xor a b w u s

/-! ### Single-line regions (R148, R149) -/

/-- `alb` (R148). The A-slot words of its own pair may be any; the A-slot word beside `ale` counts as one in the region and must
be a `nop` (log 32). -/
def execAlb (hd : CHead) (a : BitVec 5) (s : State) : Host.Outcome State Fault Refusal :=
  let x := (s.me.sReg a.toNat).toNat / 128 * 128
  issueC (.alb hd a) hd { srcs := [.s a.toNat], conds := scalarBad s x false }
    (fun s => s.onMe (fun c => { c with region := some { line := x, pc := c.pc.toNat, accs := [] } })) s
/-- Before a region's first access (R168): each byte of its line holds the value of a node without a successor, in a graph. -/
def State.openLine (s : State) (home line : Nat) : State :=
  let s := s.settleLs home line 128
  (List.range 128).foldl (fun s i =>
    let l := Loc.ls home (line + i)
    match lfind s.order l with
    | some _ => s
    | none => { s with order := lput s.order l { init := s.byteLs home (line + i), nodes := [] } }) s
/-- The atomic step of a core's region, once its accesses stand in the line: one node at every byte of the line (R168). -/
def State.closeLine (s : State) (core home line : Nat) : State :=
  let r := s.noteWrite true (s.coreOf core).seen (Loc.ls home) (s.byteLs home) line 128 ((s.coreOf home).ls.readN line 128)
  r.2.onCore core (fun x => { x with seen := r.1 })
/-- The accesses of a region on a local store, in program order: the loaded values and the store after them (R148). `off`
gives the local-store byte of an access. -/
def applyRegion (m : Memory) (off : Nat → Nat) (accs : List RegionAcc) : List Nat × Memory :=
  accs.foldl (fun st x =>
    if x.store then (st.1, st.2.writeN (off x.addr) x.z x.val)
    else (st.1 ++ [extendTo64 x.z x.sext (st.2.readN (off x.addr) x.z)], st.2)) ([], m)
/-- The completion of a region's loads. -/
def regionActs (accs : List RegionAcc) (vals : List Nat) : List Act :=
  ((accs.filter (fun x => !x.store)).zip vals).flatMap (fun p => [Act.write (.s p.1.d) p.2] ++ endDest (.s p.1.d))
/-- `ale` (R148): on the own local store performed at issue and complete 4 cycles later; else one remote request. -/
def execAle (hd : CHead) (s : State) : Host.Outcome State Fault Refusal :=
  let c := s.me
  match c.region with
  | none => issueC (.ale hd) hd { conds := condIf true 15 0 c.pc.toNat } id s
  | some r =>
    issueC (.ale hd) hd
      { tok := some c.ltkRef, reqs := if isRemote r.line then 1 else 0, mol := if isRemote r.line then 1 else 0,
        waits := s.lineHeld r.line 128, inRegion := true }
      (fun s =>
        let t := s.me.ltkRef
        let s := s.onMe (fun c => { c.raise t with region := none })
        if isRemote r.line then s.request (s.dstOf r.line) (some t) (.region r.line r.accs)
        else
          let s := s.openLine s.focus r.line
          let p := applyRegion s.here.ls id r.accs
          ((s.onHere (fun y =>
            { y with ls := p.2,
                     pages := y.pages ||| (if r.accs.any (fun a => a.store) then reach 4096 r.line 128 else 0) })).closeLine
            s.focus s.focus r.line).doneAt (s.gts + 4) s.focus s.here.run
            (regionActs r.accs p.1 ++ [.lower t])) s

/-! ### Fences (R150, R170) -/

/-- `fence.acq` (R150, R170): no unwritten destination of a load, `take`, `amo`, region or `inbx`; it acquires at its scope. -/
def execFenceAcq (hd : CHead) (sc : BitVec 3) (s : State) : Host.Outcome State Fault Refusal :=
  issueC (.fenceAcq hd sc) hd { waits := !s.me.acq.isEmpty } (fun s => s.acquire s.focus s.me.fen sc.toNat) s
/-- A `.ctx` release marker: the requests issued so far are performed before those behind it (R165, R170). -/
def Ctx.mark (c : Ctx) : Ctx := { c with behind := c.out }
/-- `fence.rel` (R150, R170): ORC.COUNT = 0, then a release at its scope; at `.ctx` no condition and a marker. -/
def execFenceRel (hd : CHead) (sc : BitVec 3) (s : State) : Host.Outcome State Fault Refusal :=
  issueC (.fenceRel hd sc) hd { waits := sc != 0 && !s.me.out.isEmpty }
    (fun s => if sc = 0 then s.onMe Ctx.mark else s.release s.focus s.me.fen sc.toNat) s
/-- `fence.ar` (R150, R170): both conditions, then a release and an acquire; at `.ctx` the condition of `fence.acq` and a
marker. -/
def execFenceAr (hd : CHead) (sc : BitVec 3) (s : State) : Host.Outcome State Fault Refusal :=
  issueC (.fenceAr hd sc) hd { waits := !s.me.acq.isEmpty || (sc != 0 && !s.me.out.isEmpty) }
    (fun s =>
      if sc = 0 then s.onMe Ctx.mark else (s.release s.focus s.me.fen sc.toNat).acquire s.focus s.me.fen sc.toNat) s

/-! ### The event unit (R151 to R154) -/

/-- `esig` (R153): it leaves with a snapshot of Seen (R172). -/
def execEsig (hd : CHead) (a b : BitVec 5) (s : State) : Host.Outcome State Fault Refusal :=
  issueC (.esig hd a b) hd { srcs := [.s a.toNat, .s b.toNat], reqs := 1, mol := 1, waits := !s.me.out.isEmpty }
    (fun s => s.request (.event s.myCluster) none (.esig (wfld (s.me.sReg a.toNat) 0 8) (wfld (s.me.sReg b.toNat) 0 32))
      (know := s.here.seen)) s
/-- `ewait` (R154): an event-unit wait; it reaches the unit after a time that is not fixed. -/
def execEwait (hd : CHead) (d a : BitVec 5) (s : State) : Host.Outcome State Fault Refusal :=
  issueC (.ewait hd d a) hd { srcs := [.s a.toNat], tok := some s.me.ltkRef }
    (fun s =>
      let w := s.me.sReg a.toNat
      let t := s.me.ltkRef
      let s := s.onMe (fun c =>
        { (c.raise t).addPending (.s d.toNat) with wait := .ewait d.toNat (wfld w 0 8) (wfld w 32 32) false })
      (s.soon (.ewaitAnswer s.focus s.here.run)).switching) s
/-- A counter has reached a target (R154). -/
def targetMet (counter target : Nat) : Bool := decide ((counter + 2 ^ 32 - target) % 2 ^ 32 < 2 ^ 31)
/-- An event counter of a cluster. -/
def State.counter (s : State) (cl e : Nat) : Nat := tget (s.clusterAt cl).counters 0 e
/-- A counter add that is still to be applied in this cycle. -/
def Event.adds (e : Event) : Bool :=
  match e with
  | .esigAdd _ => true
  | _ => false
/-- The event unit answers an `ewait`, or keeps it (R154): behind every add of the cycle (R178), and after an acquire at `.cl`
(R172). The token is the one that the wait posted to. -/
def execEwaitAnswer (core ctx : Nat) (s : State) : Host.Outcome State Fault Refusal :=
  let c := s.ctxOf core ctx
  match c.wait with
  | .ewait d e target _ =>
    if s.agenda.any Event.adds then .next (s.next (.ewaitAnswer core ctx))
    else
      let v := s.counter (clusterOf core) e
      if targetMet v target then
        .next ((s.acquire core c.fen 2).complete core ctx [.write (.s d) v, .unpend (.s d), .lower c.ltkRef, .ready])
      else .next (s.onCtx core ctx (fun c => { c with wait := .ewait d e target true }))
  | _ => .next s
/-- An `esig` add is applied, and its snapshot published to the cluster (R153, R172); waits that it satisfies are answered in the same
cycle (R154). -/
def execEsigAdd (id : Nat) (s : State) : Host.Outcome State Fault Refusal :=
  match tfind s.bag id with
  | none => .next s
  | some m =>
    match m.body, m.dst with
    | .esig e val, .event cl =>
      let old := s.counter cl e
      let new := (old + val) % 2 ^ 32
      let s := (s.appendNode (.counter cl e) old new).2.onCluster cl (fun k => { k with counters := tput k.counters e new })
      let s := (s.learn m.src.core (s.allNodes (.counter cl e))).publish (domKey m.src.hid 2 cl) m.know
      let s := (s.onMsg id (fun m => { m with app := some (0, 0, s.gts) })).acknowledge id
      .next ((clusterCores cl).foldl (fun s core =>
        (List.range 11).foldl (fun s i =>
          match (s.ctxOf core i).wait with
          | .ewait _ e' _ true => if e' = e then s.next (.ewaitAnswer core i) else s
          | _ => s) s) s)
    | _, _ => .next s

end Sys2Proof.Machine
end

