-- ==== Sys2Proof/Machine/Messages.lean ====
section
/-! DEFINITION. Inboxes, overflow boxes and entries (R155 to R160, R441 to R443), acknowledgements (R133) and the departure
of `msend` and `hsend` entries (R54, R266). -/
namespace Sys2Proof.Machine

/-! ### Handle values and entries -/

/-- The 64 bits of a handle value (R258). -/
def HVal.pack (v : HVal) : Nat :=
  v.entry % 1024 + v.parent % 1024 * 2 ^ 10 + ofBool v.side * 2 ^ 20 + ofBool v.root * 2 ^ 21 + v.cluster % 512 * 2 ^ 22
def HVal.unpack (n : Nat) : HVal :=
  { cluster := bits n 22 9, root := bit n 21, side := bit n 20, parent := bits n 10 10, entry := bits n 0 10 }
/-- The lineage entry that a handle names. -/
def State.lentry (s : State) (cl e : Nat) : LEntry := tget (s.clusterAt cl).lineage LEntry.reset e
def State.onLentry (s : State) (cl e : Nat) (f : LEntry → LEntry) : State :=
  s.onCluster cl (fun k => { k with lineage := tput k.lineage e (f (tget k.lineage LEntry.reset e)) })
/-- A Live register with the value and the view of a lineage entry (R257). -/
def State.liveReg (s : State) (v : HVal) : HReg := { st := .live, val := v, view := (s.lentry v.cluster v.entry).view }

/-- The 32 bytes of an entry as a context reads them (R155). -/
def Entry.word (e : Entry) : Nat :=
  e.kind % 2 ^ 8 + e.b1 % 2 ^ 8 * 2 ^ 8 + e.seq % 2 ^ 16 * 2 ^ 16 + e.src % 2 ^ 32 * 2 ^ 32 + e.payload.toNat * 2 ^ 64
/-- The 32 bytes of an entry in a box slot: byte 1 holds the addressee (R441). -/
def Entry.boxWord (e : Entry) : Nat := { e with b1 := e.ctxTo % 16 }.word
/-- An entry read from a box slot. -/
def Entry.ofBox (n : Nat) : Entry :=
  { kind := bits n 0 8, b1 := 0, seq := bits n 16 16, src := bits n 32 32, payload := BitVec.ofNat 192 (bits n 64 192),
    ctxTo := bits n 8 4, placed := 0, fromCore := 0, fromCtx := 0, know := [] }
/-- What the waiting instruction of a context takes (R156, R267, R281). -/
def Wait.takes (w : Wait) (e : Entry) : Bool :=
  let handle := e.kind == 2 || e.kind == 3
  match w with
  | .inbx _ => !handle && e.kind != 5
  | .inbxT _ _ _ => !handle && e.kind != 5
  | .hrecv _ _ => handle
  | _ => false

/-! ### Overflow boxes (R441) -/

/-- The household-virtual address of the box of a core's task; none when OVFB.BASE is 0. -/
def State.boxBase (s : State) (core : Nat) : Option Nat :=
  let b := (s.queue (s.queueOfCore core)).ovfb
  if b = 0 then none else some (b + 65536 * ((s.coreOf core).ctx 0).task)
/-- n bytes of the box, 0 when the read is refused. -/
def State.boxRead (s : State) (core off n : Nat) : Nat :=
  match s.boxBase core with
  | none => 0
  | some b => ((s.readVa ((s.coreOf core).hid.getD 0) (b + off) n).toOption).getD 0
/-- n bytes of the box written; none when there is no box or a write is refused. -/
def State.boxPut (s : State) (core off n val : Nat) : Option State :=
  match s.boxBase core with
  | none => none
  | some b => (s.writeVa ((s.coreOf core).hid.getD 0) (b + off) n val).toOption
def State.boxHead (s : State) (core : Nat) : Nat := s.boxRead core 0 2
def State.boxCount (s : State) (core : Nat) : Nat := s.boxRead core 2 2
/-- The slot of the j-th entry from HEAD, counted cyclically over 1 to 2,047. -/
def State.boxSlot (s : State) (core j : Nat) : Nat := 1 + (s.boxHead core + 2046 + j) % 2047
/-- The j-th entry from HEAD, with the snapshot that came with it (R173). -/
def State.boxEntry (s : State) (core j : Nat) : Entry :=
  let i := s.boxSlot core j
  { Entry.ofBox (s.boxRead core (32 * i) 32) with know := tget (s.coreOf core).boxKnow [] i }
/-- A box slot written, with the snapshot of its entry. -/
def State.boxStore (s : State) (core i val : Nat) (know : Seen) : Option State :=
  (s.boxPut core (32 * i) 32 val).map (fun s => s.onCore core (fun x => { x with boxKnow := tput x.boxKnow i know }))
/-- A step at the box would wait for a busy bank (R364). -/
def State.boxBusy (s : State) (core : Nat) : Bool :=
  match s.boxBase core with
  | none => false
  | some b => s.vaBusy ((s.coreOf core).hid.getD 0) b
/-- HEAD and COUNT written together. -/
def State.boxHeader (s : State) (core head count : Nat) : State := (s.boxPut core 0 4 (head + 65536 * count)).getD s
/-- The box takes another entry: it exists, has a free slot and its write is not refused (R442). -/
def State.boxTakes (s : State) (core : Nat) : Bool :=
  decide (s.boxCount core < 2047) && (s.boxPut core (32 * s.boxSlot core (s.boxCount core)) 32 0).isSome
/-- The place from HEAD of the oldest box entry for a context that its wait takes. -/
def State.boxFind (s : State) (core ctx : Nat) (w : Wait) : Option Nat :=
  (List.range (s.boxCount core)).find? (fun j => (s.boxEntry core j).ctxTo == ctx && w.takes (s.boxEntry core j))
/-- The entries from place j to the last move one slot towards HEAD. -/
def State.boxShift (s : State) (core j n : Nat) : State :=
  match n with
  | 0 => s
  | k + 1 =>
    ((s.boxStore core (s.boxSlot core j) (s.boxRead core (32 * s.boxSlot core (j + 1)) 32)
      (tget (s.coreOf core).boxKnow [] (s.boxSlot core (j + 1)))).getD s).boxShift core (j + 1) k
/-- An entry leaves the box: at HEAD by advancing HEAD, from inside by moving the entries behind it (R442). -/
def State.boxRemove (s : State) (core j : Nat) : State :=
  let n := s.boxCount core
  if j = 0 then s.boxHeader core (s.boxSlot core 1) (n - 1)
  else (s.boxShift core j (n - 1 - j)).boxHeader core (s.boxHead core) (n - 1)

/-! ### Acknowledgement -/

/-- The kind of a request in refusals, records and log entries (R381). -/
def Body.rkind (b : Body) : Nat :=
  match b with
  | .load .. => 0
  | .loadLine .. => 0
  | .store .. => 1
  | .storeLine .. => 1
  | .take .. => 2
  | .give .. => 3
  | .feSet .. => 3
  | .amo .. => 4
  | .red .. => 5
  | .region .. => 6
  | .esig .. => 7
  | .send .. => 8
  | .hsend .. => 9
  | .command .. => 10
  | .spill .. => 11
  | .fill .. => 11
  | .pantry .. => 12
  | .sig .. => 13
  | .porch .. => 12
  | .correct .. => 0
/-- The log entry of a remote request at its acknowledgement (R468). -/
def State.logAck (s : State) (m : Msg) : State :=
  let a := m.app.getD (0, 0, s.gts)
  s.molEntry m.src.core m.src.ctx 1 m.body.rkind m.seq m.pc a.1 a.2.1 a.2.2
/-- What an acknowledgement without a value does at the issuing context. -/
def Msg.ackActs (m : Msg) : List Act :=
  (if m.remote then [Act.ack m.seq] else []) ++ (match m.tok with
    | some t => [Act.lower t]
    | none => []) ++
  (match m.body with
   | .storeLine _ _ (some e) => [Act.wout (clusterOf m.src.core) e]
   | .spill _ _ _ => [Act.cisDone]
   | .fill _ _ _ => [Act.cisDone]
   | _ => [])
/-- The acknowledgement reaches the issuing core. -/
def State.ackNow (s : State) (id : Nat) : State :=
  match tfind s.bag id with
  | none => s
  | some m => ((if m.remote then s.logAck m else s).complete m.src.core m.src.ctx m.ackActs).dropMsg id
/-- `REQUEST_ACK`: the acknowledgement of a remote request lowers ORC.COUNT (R133) and its token. -/
def execRequestAck (id : Nat) (s : State) : Host.Outcome State Fault Refusal := .next (s.ackNow id)

/-- The corrections for the stubs that a message has passed (R349). -/
def State.corrections (s : State) (m : Msg) (task core : Nat) : State :=
  if m.stubs.isEmpty then s
  else
    s.post { m with seq := 0, prev := none, dst := .cluster (clusterOf m.src.core), at_ := core, stubs := [], tok := none, goal := none,
                    handle := none, body := .correct task core, st := .going, delivered := false, remote := false, behind := [],
                    know := [], app := none }
/-- A streamer command: the placement of its completion acknowledges it (R281). -/
def Body.completes (b : Body) : Bool :=
  match b with
  | .command .. => true
  | _ => false
/-- An entry has been placed (R133): its request is counted at the core and acknowledged. A completion's placement acts at
its own core in this cycle (R281). -/
def State.placedAck (s : State) (core : Nat) (msg : Option Nat) : State :=
  match msg with
  | none => s
  | some id =>
    match tfind s.bag id with
    | none => s
    | some m =>
      if m.src.core = core && m.body.completes then s.ackNow id
      else
        let s := s.countApplied core
        let s := s.onMsg id (fun m => { m with app := some (core, (s.coreOf core).appIdx, s.gts) })
        let s := match m.body with
          | .send _ task => s.corrections m task core
          | .hsend _ task _ => s.corrections m task core
          | _ => s
        s.acknowledge id

/-! ### Dequeues (R156, R159, R267) -/

/-- What a dequeue writes one cycle later. -/
def State.dequeueActs (s : State) (core ctx : Nat) (e : Entry) : List Act :=
  let c := s.ctxOf core ctx
  match c.wait with
  | .inbx v => [Act.write (.v v) e.word] ++ endDest (.v v) ++ [.lower c.ltkRef, .ready]
  | .inbxT v d _ =>
    [Act.write (.v v) e.word] ++ endDest (.v v) ++ [Act.write (.s d) 1, .unpend (.s d), .lower c.ltkRef, .ready]
  | .hrecv h _ =>
    let v := HVal.unpack (e.payload.toNat % 2 ^ 64)
    [Act.handle h (s.liveReg v), .lower c.ltkRef, .ready]
  | _ => []
/-- What a dequeue acquires: the entry's snapshot (R174), or K of the handle (R177). -/
def State.dequeueKnow (s : State) (e : Entry) : Seen :=
  if e.kind == 2 || e.kind == 3 then
    let v := HVal.unpack (e.payload.toNat % 2 ^ 64)
    (s.lentry v.cluster v.entry).know
  else e.know
/-- A received handle's entry becomes Live in the lineage table when its register does, but not before the issue cycle of the
`hrecv` plus 3 (R260, R262). -/
def State.ownLater (s : State) (core ctx : Nat) (e : Entry) : State :=
  match (s.ctxOf core ctx).wait with
  | .hrecv h since =>
    let v := HVal.unpack (e.payload.toNat % 2 ^ 64)
    s.doneAt (max (s.gts + 1) (since + 3)) core ctx [.owner v.cluster v.entry h]
  | _ => s
/-- A dequeue in this cycle: what it acquires, the log entry of R468, the writes one cycle later; the context no longer takes
entries. -/
def State.dequeued (s : State) (core ctx : Nat) (pc : Word) (e : Entry) : State :=
  let acts := s.dequeueActs core ctx e
  let s := s.ownLater core ctx e
  let s := (s.learn core (s.dequeueKnow e)).molEntry core ctx 2 0 0 pc.toNat e.src e.seq s.gts
  (s.onCtx core ctx (fun c => { c with wait := c.wait.settle })).doneAt (s.gts + 1) core ctx acts
/-- A freed inbox slot is filled from the box or the input (R442). -/
def State.refill (s : State) (core : Nat) : State :=
  if s.boxCount core != 0 || !(s.coreOf core).input.isEmpty then s.next (.boxMoveBack core) else s
/-- The oldest entry that a waiting context takes is dequeued when it stands in the inbox, and fetched when it stands in
the box (R156, R442). -/
def State.serve (s : State) (core ctx : Nat) (pc : Word) : State :=
  let x := s.coreOf core
  let w := (x.ctx ctx).wait
  match x.inbox.find? (fun e => e.ctxTo == ctx && w.takes e) with
  | some e => ((s.setCore core { x with inbox := x.inbox.erase e }).dequeued core ctx pc e).refill core
  | none =>
    match s.boxFind core ctx w with
    | some _ => s.soon (.boxFetch core ctx)
    | none => s
/-- `BOX_FETCH`: a fetched entry arrives and is dequeued in this cycle (R442). -/
def execBoxFetch (core ctx : Nat) (s : State) : Host.Outcome State Fault Refusal :=
  let x := s.coreOf core
  let w := (x.ctx ctx).wait
  let pc := (x.ctx ctx).lastPc
  match x.inbox.find? (fun e => e.ctxTo == ctx && w.takes e), s.boxFind core ctx w with
  | none, some j =>
    if s.boxBusy core then .next (s.stepAt (s.gts + 1) (.boxFetch core ctx))
    else .next (((s.boxRemove core j).dequeued core ctx pc (s.boxEntry core j)).refill core)
  | _, _ => .next (s.serve core ctx pc)
/-- The steps of one cycle that can still place an entry at a core. -/
def Event.placesEntry (e : Event) : Bool :=
  match e with
  | .entryPlace _ => true
  | .boxWrite _ => true
  | .boxMoveBack _ => true
  | .routerReceive _ => true
  | .orderRestoreDeliver _ => true
  | .streamerComplete _ => true
  | .refusalReceive _ => true
  | .helperRetire _ _ => true
  | _ => false
/-- Entries have been placed for a context: once every entry of the cycle has its place in the order of R267, the oldest that
the context waits for is dequeued in this cycle (R156). -/
def execInboxServe (core ctx : Nat) (s : State) : Host.Outcome State Fault Refusal :=
  if s.agenda.any Event.placesEntry then .next (s.next (.inboxServe core ctx))
  else .next (s.serve core ctx (s.ctxOf core ctx).lastPc)

/-- `inbx` (R156). -/
def execInbx (hd : CHead) (v : BitVec 6) (s : State) : Host.Outcome State Fault Refusal :=
  issueC (.inbx hd v) hd { vecs := [v.toNat], tok := some s.me.ltkRef, mol := 1 }
    (fun s =>
      let pc := s.me.pc
      let i := s.here.run
      let s := s.onMe (fun c => { ((c.raise c.ltkRef).startDest (.v v.toNat)) with wait := .inbx v.toNat })
      let s := s.serve s.focus i pc
      if s.me.wait.isSettled then s else s.switching) s
/-- `inbx.t` (R159). With the limit passed at issue, an entry that lies in the box is not present: it could not be dequeued in
this cycle, and sD takes 0 (log 32). -/
def execInbxT (hd : CHead) (v : BitVec 6) (d sl : BitVec 5) (s : State) : Host.Outcome State Fault Refusal :=
  issueC (.inbxT hd v d sl) hd { srcs := [.s sl.toNat], vecs := [v.toNat], tok := some s.me.ltkRef, mol := 1 }
    (fun s =>
      let pc := s.me.pc
      let i := s.here.run
      let lim := (s.me.sReg sl.toNat).toNat
      let s := s.onMe (fun c =>
        { (((c.raise c.ltkRef).startDest (.v v.toNat)).addPending (.s d.toNat)) with wait := .inbxT v.toNat d.toNat lim })
      let s := s.serve s.focus i pc
      if s.me.wait.isSettled then s
      else if lim ≤ s.gts then s.next (.inbxTLimit s.focus i)
      else (s.stepAt lim (.inbxTLimit s.focus i)).switching) s
/-- The steps of one cycle that can still end in a dequeue. -/
def Event.places (e : Event) : Bool :=
  e.placesEntry || (match e with
    | .boxFetch _ _ => true
    | .inboxServe _ _ => true
    | _ => false)
/-- `INBX_T_LIMIT`: the limit is reached without an entry; sD takes 0 in the next cycle, and an entry that arrives in this
cycle is dequeued first (R159, R178). -/
def execInbxTLimit (core ctx : Nat) (s : State) : Host.Outcome State Fault Refusal :=
  let c := s.ctxOf core ctx
  match c.wait with
  | .inbxT v d lim =>
    if s.gts < lim then .next s
    else if s.agenda.any Event.places then .next (s.next (.inbxTLimit core ctx))
    else
      .next (((s.onCtx core ctx (fun c => { c with wait := c.wait.settle })).onCore core (fun x => { x with molRes := x.molRes - 1 })).doneAt
        (s.gts + 1) core ctx
        ([Act.write (.s d) 0, .unpend (.s d)] ++ endDest (.v v) ++ [.lower c.ltkRef, .ready]))
  | _ => .next s

/-! ### Placing entries (R442, R443) -/

/-- Adds an entry behind those placed earlier; entries placed in one cycle stand by sending core and context (R267). -/
def insertEntry (e : Entry) (l : List Entry) : List Entry :=
  match l with
  | [] => [e]
  | x :: rest =>
    if x.placed == e.placed && (decide (e.fromCore < x.fromCore) ||
        (e.fromCore == x.fromCore && decide (e.fromCtx < x.fromCtx))) then e :: x :: rest
    else x :: insertEntry e rest
/-- Arrival numbers rise along the inbox (R336). -/
def renumber (l : List Entry) (nos : List Nat) : List Entry := (l.zip nos).map (fun p => { p.1 with no := p.2 })
/-- The inbox with a new entry in its place. -/
def CoreSt.inboxAdd (x : CoreSt) (e : Entry) : CoreSt :=
  { x with inbox := renumber (insertEntry e x.inbox) (x.inbox.map (fun y => y.no) ++ [x.arrNo]), arrNo := x.arrNo + 1 }
/-- An entry enters the inbox. -/
def State.intoInbox (s : State) (core : Nat) (e : Entry) (msg : Option Nat) : State :=
  let s := s.onCore core (fun x => x.inboxAdd e)
  (s.placedAck core msg).next (.inboxServe core e.ctxTo)
/-- The inbox takes an entry directly (R442). -/
def State.inboxTakes (s : State) (core : Nat) : Bool :=
  decide ((s.coreOf core).inbox.length < 64) && s.boxCount core == 0
/-- An `msend` or `hsend` at a core's input whose stall limit has not been reported (R443). -/
def State.stallable (s : State) (p : Entry × Nat × Option Nat) : Bool :=
  (p.1.kind == 1 || p.1.kind == 2) && !((p.2.2.bind (fun id => tfind s.bag id)).map (fun m => m.stalled)).getD false
/-- Stall limits of the entries at a core's input (R443). -/
def State.armStalls (s : State) (core : Nat) : State :=
  let cyc := (s.queue (s.queueOfCore core)).stallt
  if cyc = 0 then s
  else
    (s.coreOf core).input.foldl (fun s p =>
      if s.stallable p then s.stepAt (max (s.gts + 1) (p.2.1 + cyc)) (.stallTimeout core) else s) s
/-- An entry arrives at a core: it goes to the inbox, to the box, or waits at the input (R442). -/
def State.arriveEntry (s : State) (core : Nat) (e : Entry) (msg : Option Nat) : State :=
  let e := { e with placed := s.gts }
  if s.inboxTakes core && (s.coreOf core).input.isEmpty then s.intoInbox core e msg
  else
    let s := (s.onCore core (fun x => { x with input := x.input ++ [(e, s.gts, msg)] })).armStalls core
    if s.boxTakes core then s.soon (.boxWrite core) else s
/-- `BOX_WRITE`: the box write of the entry at the head of the input is performed (R442). -/
def execBoxWrite (core : Nat) (s : State) : Host.Outcome State Fault Refusal :=
  let x := s.coreOf core
  match x.input with
  | [] => .next s
  | (e, _, msg) :: rest =>
    if s.inboxTakes core then .next (s.next (.boxMoveBack core))
    else if s.boxBusy core then .next (s.stepAt (s.gts + 1) (.boxWrite core))
    else
      let n := s.boxCount core
      let head := if n = 0 then 1 + (s.boxHead core + 2046) % 2047 else s.boxHead core
      if n < 2047 then
        match s.boxStore core (s.boxSlot core n) e.boxWord e.know with
        | none => .next s
        | some s' =>
          let s' := (s'.boxHeader core head (n + 1)).onCore core (fun x => { x with input := rest })
          let s' := if rest.isEmpty then s' else s'.soon (.boxWrite core)
          .next ((s'.placedAck core msg).next (.inboxServe core e.ctxTo))
      else .next s
/-- `BOX_MOVE_BACK`: a freed inbox slot takes the oldest box entry, or the oldest entry at the input when the box is empty;
freed box slots let the input join the box (R442). -/
def execBoxMoveBack (core : Nat) (s : State) : Host.Outcome State Fault Refusal :=
  let x := s.coreOf core
  if 64 ≤ x.inbox.length then
    .next (if !x.input.isEmpty && s.boxTakes core then s.soon (.boxWrite core) else s)
  else if s.boxCount core != 0 && s.boxBusy core then .next (s.stepAt (s.gts + 1) (.boxMoveBack core))
  else if s.boxCount core != 0 then
    let e := s.boxEntry core 0
    let s := (s.boxRemove core 0).onCore core (fun x => { x with inbox := x.inbox ++ [e] })
    .next ((s.next (.inboxServe core e.ctxTo)).refill core)
  else
    match x.input with
    | [] => .next s
    | (e, _, msg) :: rest =>
      let s := s.setCore core { x with input := rest }
      .next ((s.intoInbox core { e with placed := s.gts } msg).refill core)
/-- DEST of R443: the task in bits 19:0, the CTX in bits 23:20. -/
def destField (task ctx : Nat) : Nat := task % 2 ^ 20 + ctx % 16 * 2 ^ 20
/-- A request ahead of a `.ctx` release marker is performed (R165). -/
def State.performedSeq (s : State) (core ctx seq : Nat) : Bool :=
  !(s.ctxOf core ctx).out.contains seq ||
    s.bag.any (fun p => p.2.src.core == core && p.2.src.ctx == ctx && p.2.seq == seq && p.2.remote &&
      (p.2.app.isSome || p.2.st != .going))
/-- A request must wait for one that a marker puts ahead of it (R165). -/
def State.heldBehind (s : State) (m : Msg) : Bool := m.behind.any (fun q => !s.performedSeq m.src.core m.src.ctx q)
/-- The same of a streamer operation, which may outlive its context. -/
def State.heldFor (s : State) (src : Src) (behind : List Nat) : Bool :=
  s.stillThere src && behind.any (fun q => !s.performedSeq src.core src.ctx q)
/-- The task and the context that an entry message addresses. -/
def Body.addressee (b : Body) : Option (Nat × Nat) :=
  match b with
  | .send e t => some (t, e.ctxTo)
  | .hsend e t _ => some (t, e.ctxTo)
  | _ => none
/-- An entry that one context sent to another before this one has neither been placed nor reached the core's input: entries of one
context to one context are placed in send order (R173, R266). -/
def State.entryAhead (s : State) (n id : Nat) (m : Msg) : Bool :=
  s.bag.any (fun p => p.1 < id && p.2.src == m.src && p.2.body.addressee == m.body.addressee && p.2.st == .going &&
    p.2.app.isNone && !(s.coreOf n).input.any (fun i => i.2.2 == some p.1))
/-- `ENTRY_PLACE`: an `msend` or `hsend` entry at its destination core, which runs the task and whose context is live
(R54, R160, R266); a task that has moved is reached through its stub (R349). -/
def execEntryPlace (id : Nat) (s : State) : Host.Outcome State Fault Refusal :=
  match tfind s.bag id with
  | none => .next s
  | some m =>
    match m.dst with
    | .core n =>
      let put (e : Entry) (task : Nat) : State :=
        if s.runs n m.src.hid task then
          if 10 < e.ctxTo || !(s.ctxOf n e.ctxTo).live then
            (s.corrections m task n).refuseMsg id 12 (destField task e.ctxTo)
          else s.arriveEntry n e (some id)
        else if (tfind (s.clusterAt (clusterOf n)).stubs (m.src.hid * 2 ^ 20 + task)).isSome then s.next (.stubForward id)
        else (s.corrections m task n).refuseMsg id 12 (destField task e.ctxTo)
      if s.heldBehind m || s.entryAhead n id m then .next (s.stepAt (s.gts + 1) (.entryPlace id))
      else
        match m.body with
        | .send e task => .next (put e task)
        | .hsend e task _ => .next (put e task)
        | _ => .next s
    | _ => .next s
/-- `STALL_TIMEOUT`: entries that have waited at the input for STALLT cycles; an `msend` is withdrawn, an `hsend` goes on
waiting (R443). -/
def execStallTimeout (core : Nat) (s : State) : Host.Outcome State Fault Refusal :=
  let cyc := (s.queue (s.queueOfCore core)).stallt
  if cyc = 0 then .next s
  else
    let due (p : Entry × Nat × Option Nat) : Bool := s.stallable p && decide (p.2.1 + cyc ≤ s.gts)
    let hit := (s.coreOf core).input.filter due
    let s := s.onCore core (fun x => { x with input := x.input.filter (fun p => !(p.1.kind == 1 && due p)) })
    .next (hit.foldl (fun s p =>
      match p.2.2 with
      | none => s
      | some id =>
        match tfind s.bag id with
        | none => s
        | some m =>
          let dest := destField ((s.coreOf core).ctx 0).task p.1.ctxTo
          if p.1.kind = 1 then s.refuseMsg id 28 dest
          else
            (s.onMsg id (fun m => { m with stalled := true })).lateReport m.src.core m.src.ctx
              { cause := 28, sub := 0, seq := m.seq, reason := 0, rkind := 9, addr := dest, tag := 0, gts := s.gts }) s)

/-! ### Sending (R54, R160) -/

/-- The directory key of a household's task. -/
def dirKey (hid task : Nat) : Nat := hid * 2 ^ 20 + task
/-- The sending cluster's directory translates a task number; a miss asks the placement table (R54). -/
def State.lookup (s : State) (src : Src) (task : Nat) : Option Nat :=
  match tfind (s.clusterAt (clusterOf src.core)).dir (dirKey src.hid task) with
  | some c => some c
  | none => s.taskCore src.hid src.fen task
/-- Where a household's task is reached from a core that an entry is sent to: along the stubs that it meets (R349). -/
def State.stubEnd (s : State) (hid task core fuel : Nat) : Nat :=
  match fuel with
  | 0 => core
  | k + 1 =>
    if s.runs core hid task then core
    else
      match tfind (s.clusterAt (clusterOf core)).stubs (dirKey hid task) with
      | some c => s.stubEnd hid task c k
      | none => core
/-- The core that an `hsend` of a context goes to first, when its task is reached in the sender's cluster (R266, R349). -/
def State.nearCore (s : State) (src : Src) (task : Nat) : Option Nat :=
  match s.lookup src task with
  | none => none
  | some c => if clusterOf (s.stubEnd src.hid task c 4) = clusterOf src.core then some c else none
/-- An entry leaves its core for the core of its task, or is refused (R160, R266). PREV stands only for the core that it named at
issue (R439). -/
def State.departTo (s : State) (id : Nat) (m : Msg) (task ctx : Nat) (sameCluster : Bool) : State :=
  match if sameCluster then s.nearCore m.src task else s.lookup m.src task with
  | none => s.refuseMsg id 12 (destField task ctx)
  | some c =>
    if 10 < ctx then s.refuseMsg id 12 (destField task ctx)
    else
      let s := s.onCluster (clusterOf m.src.core) (fun k => { k with dir := tput k.dir (dirKey m.src.hid task) c })
      let prev := if m.goal == some c then m.prev else none
      (s.onMsg id (fun m => { m with dst := .core c, prev := prev })).soon (.routerReceive id)
/-- `MSEND_DEPART`: an `msend` leaves once every earlier remote request of its context has been acknowledged (R160), with a
snapshot of Seen (R173). -/
def execMsendDepart (id : Nat) (s : State) : Host.Outcome State Fault Refusal :=
  match tfind s.bag id with
  | none => .next s
  | some m =>
    match m.body with
    | .send e task =>
      if (s.ctxOf m.src.core m.src.ctx).out.head? == some m.seq then
        let e := { e with know := (s.coreOf m.src.core).seen }
        .next ((s.onMsg id (fun m => { m with body := .send e task })).departTo id m task e.ctxTo false)
      else .next (s.soon (.msendDepart id))
    | _ => .next s
/-- A remote request that stays at its core until it may leave. -/
def State.requestHeld (s : State) (goal : Option Nat) (tok : Option TokRef) (task : Nat) (body : Body) (know : Seen := []) :
    Nat × State :=
  let id := s.ctr
  let m := { s.newMsg (.task s.myCluster task) goal tok body with know := know }
  let s := s.onMe Ctx.takeSeq
  (id, { s with bag := tput s.bag id m, ctr := id + 1 })
/-- `msend` (R160). -/
def execMsend (hd : CHead) (e : BitVec 5) (v : BitVec 6) (k : BitVec 4) (s : State) : Host.Outcome State Fault Refusal :=
  issueC (.msend hd e v k) hd
    { srcs := [.s e.toNat, .v v.toNat], vecs := [v.toNat], kfields := [k], tok := some (s.me.tokRef k.toNat), reqs := 1,
      mol := 1 }
    (fun s =>
      let c := s.me
      let t := c.tokRef k.toNat
      let dst := c.sReg e.toNat
      let ent : Entry :=
        { kind := 1, b1 := 0, seq := c.nseq, src := (s.srcOf s.focus s.here.run).field,
          payload := (c.vReg v.toNat).extractLsb' 0 192, ctxTo := wfld dst 20 4, placed := 0, fromCore := s.focus,
          fromCtx := s.here.run, know := [] }
      let p := (s.onMe (fun c => c.raise t)).requestHeld none (some t) (wfld dst 0 20) (.send ent (wfld dst 0 20))
      p.2.soon (.msendDepart p.1)) s

end Sys2Proof.Machine
end

