-- ==== Sys2Proof/Machine/Matrix.lean ====
section
/-! DEFINITION. The matrix unit and the Loft B store (R215 to R238) and the sums of R194. -/
namespace Sys2Proof.Machine

/-! ### Formats (R219) -/

/-- The rate r of a format pair; none outside R219. -/
def pairRate (fa fb : Nat) : Option Nat :=
  if fa = 9 ∧ fb = 9 then some 1
  else if fa = 10 ∧ fb = 10 then some 1
  else if (fa = 11 ∨ fa = 12) ∧ (fb = 11 ∨ fb = 12) then some 2
  else if (fa = 11 ∨ fa = 12) ∧ fb = 13 then some 4
  else none

/-! ### Addresses of a command (R216, R221, R223) -/

/-- Bytes between rows of A (R223). -/
def MCmd.rs (c : MCmd) (ea : Nat) : Nat := if c.rstr ≠ 0 then 16 * c.rstr else 16 * ((c.k * ea + 15) / 16)
/-- The span S (R223). -/
def MCmd.spanBytes (c : MCmd) : Nat := 16 * 2 ^ c.span
/-- The address of element A[m][k] (R223). -/
def MCmd.aAt (c : MCmd) (ea m k : Nat) : Nat := c.aaddr + ((m * c.rs ea + k * ea) ^^^ (m % 2 ^ c.span * 16))
/-- One past the A extent (R223). -/
def MCmd.aEnd (c : MCmd) (ea : Nat) : Nat :=
  c.aaddr + c.spanBytes * (((c.m - 1) * c.rs ea + c.k * ea + c.spanBytes - 1) / c.spanBytes)
/-- The B offset of element B[k][n] (R216). -/
def MCmd.bAt (c : MCmd) (eb k n : Nat) : Nat :=
  if eb = 2 then c.boff + 64 * k + 2 * n else c.boff + 64 * (k / 2) + 2 * n + k % 2
/-- Scale blocks along K (R221). -/
def MCmd.nb (c : MCmd) : Nat := (c.k + 31) / 32
/-- Chunks of 16 along K (R194), and steps for one row (R229). -/
def MCmd.chunks (c : MCmd) : Nat := (c.k + 15) / 16
def MCmd.rowSteps (c : MCmd) (r : Nat) : Nat := (c.chunks + r - 1) / r

/-! ### Arithmetic (R194, R232) -/

/-- One level of the tree: adjacent values, each sum rounded to FP32 (R194). -/
def sumLevel (gen : Val) (l : List Val) : List Val :=
  match l with
  | a :: b :: rest => unpack .f32 (pack .f32 (settle gen [a, b] (addExact a b))) :: sumLevel gen rest
  | l => l
/-- Levels of the pairwise tree. -/
def treeSum (gen : Val) (levels : Nat) (l : List Val) : Val :=
  match levels with
  | 0 => l.headD Val.zero
  | n + 1 => treeSum gen n (sumLevel gen l)
/-- E(x) of a finite nonzero value (R232). -/
def Val.exp (v : Val) : Option Int :=
  match v with
  | .fin _ m e => if m = 0 then none else some ((Nat.log2 m : Int) + e)
  | _ => none
/-- The greatest E of a list, none when every element is zero. -/
def maxExp (l : List Val) : Option Int :=
  l.foldl (fun acc v =>
    match v.exp, acc with
    | some e, none => some e
    | some e, some f => some (max e f)
    | none, acc => acc) none
def Val.isFinite (v : Val) : Bool :=
  match v with
  | .fin _ _ _ => true
  | _ => false
/-- The value of an operand in FP32's NaN payload. -/
def operand (fmt p : Nat) : Val :=
  match typeFmt fmt with
  | some f => (unpack f (p % 2 ^ f.width)).into f .f32
  | none => Val.zero

/-- A chunk of one element: its operands, its scales (none without SCL), the core and the stamp. The chunk result and the
suspect mark (R194, R232). -/
def chunkSum (core stamp : Nat) (as bs : List Val) (scale : Option (Nat × Nat)) : Val × Bool :=
  let gen := genNaN core stamp
  let prods := (as.zip bs).map (fun p => settle gen [p.1, p.2] (mulExact p.1 p.2))
  let pad := prods ++ List.replicate (16 - prods.length) Val.negZero
  let c := treeSum gen 4 pad
  let c := match scale with
    | none => c
    | some (sa, sb) =>
      if sa = 255 || sb = 255 then gen
      else
        match c with
        | .fin s m e => unpack .f32 (pack .f32 (.fin s m (e + (sa : Int) + (sb : Int) - 254)))
        | c => c
  let shift : Int := match scale with
    | none => 0
    | some (sa, sb) => (sa : Int) + (sb : Int) - 254
  let checked := as.all Val.isFinite && bs.all Val.isFinite && c.isFinite
  let suspect :=
    match c.exp with
    | none => false
    | some ec =>
      match maxExp as, maxExp bs with
      | some ea, some eb => decide (ea + eb + 6 + shift < ec)
      | _, _ => true
  (if c.isNaN then gen else c, checked && suspect)
/-- The accumulation of a chunk result (R194). -/
def accumulate (core stamp : Nat) (acc : Nat) (c : Val) : Nat :=
  let a := unpack .f32 acc
  pack .f32 (settle (genNaN core stamp) [a, c] (addExact a c))

/-- The operands of a chunk: A[m][16j …] and B[16j …][n]. -/
def CoreSt.chunkA (x : CoreSt) (r : MRun) (m j : Nat) : List Val :=
  let ea := typeBytes r.mfa
  (List.range (min 16 (r.cmd.k - 16 * j))).map (fun i => operand r.mfa (x.ls.readN (r.cmd.aAt ea m (16 * j + i)) ea))
def CoreSt.chunkB (x : CoreSt) (r : MRun) (n j : Nat) : List Val :=
  let eb := typeBytes r.mfb
  (List.range (min 16 (r.cmd.k - 16 * j))).map (fun i => operand r.mfb (x.b.readN (r.cmd.bAt eb (16 * j + i) n) eb))
/-- The scales of element (m, n) in chunk j (R221). -/
def CoreSt.chunkScale (x : CoreSt) (r : MRun) (m n j : Nat) : Option (Nat × Nat) :=
  if r.cmd.scl then
    some ((x.ls.read (r.msa + r.cmd.asoff + r.cmd.nb * m + j / 2)).toNat,
          (x.ls.read (r.msb + r.cmd.bsoff + 32 * (j / 2) + n)).toNat)
  else none
/-- The chunks js of element (m, n) added to its accumulator. -/
def CoreSt.element (x : CoreSt) (core : Nat) (r : MRun) (m n : Nat) (js : List Nat) (acc : Nat) : Nat × Bool :=
  js.foldl (fun st j =>
    let stamp := min (r.idx + j) 510
    let c := chunkSum core stamp (x.chunkA r m j) (x.chunkB r n j) (x.chunkScale r m n j)
    (accumulate core stamp st.1 c.1, st.2 || c.2)) (acc, false)
/-- Step j of a command: row m's r chunks for all 32 columns (R229). -/
def CoreSt.matrixStep (x : CoreSt) (core rate : Nat) (r : MRun) : MRun :=
  let spr := r.cmd.rowSteps rate
  let m := r.steps / spr
  let g := r.steps % spr
  let js := (List.range rate).map (fun i => g * rate + i)
  let js := js.filter (fun j => j < r.cmd.chunks)
  let row := r.work[m]?.getD 0
  let cols := (List.range 32).map (fun n => x.element core r m n js (vlane row n).toNat)
  { r with steps := r.steps + 1, work := r.work.set m (ofLanes (cols.map (fun c => c.1))),
           suspect := r.suspect || cols.any (fun c => c.2) }
/-- The steps up to a count. -/
def CoreSt.matrixRun (x : CoreSt) (core rate : Nat) (r : MRun) (n : Nat) : MRun :=
  match n with
  | 0 => r
  | k + 1 => x.matrixRun core rate (x.matrixStep core rate r) k
/-- Steps of a command (R229). -/
def MRun.total (r : MRun) : Nat := r.cmd.m * r.cmd.rowSteps ((pairRate r.mfa r.mfb).getD 1)
/-- The blocks of a command's read steps (R236): B lines, and the aligned words of 4 bytes that hold A elements and scale bytes. -/
def MRun.linesB (r : MRun) : List Nat :=
  (List.range (if typeBytes r.mfb = 2 then r.cmd.k else (r.cmd.k + 1) / 2)).map (fun i => r.cmd.boff + 64 * i)
def MRun.wordsA (r : MRun) : List Nat :=
  let rows := List.range r.cmd.m
  let at_ := rows.flatMap (fun m => (List.range r.cmd.k).map (r.cmd.aAt (typeBytes r.mfa) m))
  let scales := if r.cmd.scl then
      (List.range (r.cmd.nb * r.cmd.m)).map (fun i => r.msa + r.cmd.asoff + i) ++
        (List.range (32 * r.cmd.nb)).map (fun i => r.msb + r.cmd.bsoff + i)
    else []
  ((at_ ++ scales).map (fun a => a / 4 * 4)).eraseDups
/-- Read steps of n bytes at addresses, each with its values put into a copy of the memory. -/
def State.readInto (s : State) (know : Seen) (loc : Nat → Loc) (byte : Nat → Nat) (n : Nat) (as : List Nat) (m : Memory) :
    Memory × Seen × State :=
  as.foldl (fun st a =>
    let r := st.2.2.readStep st.2.1 loc byte a n
    (st.1.writeN a n r.1, r.2)) (m, know, s)
/-- The read steps of the running command (R236), all taken now: each finds what the core had in sight at the command's start, or
what has been written since. -/
def State.matrixRead (s : State) (core : Nat) : State :=
  let x := s.coreOf core
  match x.mrun with
  | none => s
  | some r =>
    if r.snap.isSome then s
    else
      let a := s.readInto r.know (Loc.ls core) (s.byteLs core) 4 r.wordsA x.ls
      let b := a.2.2.readInto a.2.1 (Loc.loft core) (s.byteB core) 64 r.linesB x.b
      (b.2.2.learn core b.2.1).onCore core (fun x => { x with mrun := some { r with snap := some (a.1, b.1) } })
/-- The running command with the steps it has taken by the end of cycle g (R229), from what it has read. -/
def CoreSt.matrixSteps (x : CoreSt) (core g : Nat) : CoreSt :=
  match x.mrun with
  | none => x
  | some r =>
    let from_ := match r.snap with
      | some m => { x with ls := m.1, b := m.2 }
      | none => x
    { x with mrun := some (from_.matrixRun core ((pairRate r.mfa r.mfb).getD 1) r (min r.total (g - r.start) - r.steps)) }
/-- The matrix unit as it stands at the end of cycle g. -/
def State.matrixAdvance (s : State) (core g : Nat) : State :=
  ((s.mldAdvance core g).matrixRead core).onCore core (fun x => x.matrixSteps core g)

/-! ### Tiles -/

def CoreSt.tileRow (x : CoreSt) (tile row : Nat) : VReg := tget x.tiles 0 (64 * tile + row)
/-- All 64 rows of a tile replaced. -/
def CoreSt.setTile (x : CoreSt) (tile : Nat) (rows : List VReg) : CoreSt :=
  let put (t : Table VReg) (p : Nat × VReg) : Table VReg :=
    if p.2 = 0 then tdel t (64 * tile + p.1) else tput t (64 * tile + p.1) p.2
  { x with tiles := ((List.range 64).zip rows).foldl put x.tiles }

/-! ### The queue (R229, R234, R235) -/

/-- Entries held (R235). -/
def CoreSt.mheld (x : CoreSt) : Nat := x.mq.length + (if x.mrun.isSome then 1 else 0)
/-- The start of the entry at the head of the queue, when nothing runs. -/
def State.armMatrix (s : State) (core : Nat) : State :=
  let x := s.coreOf core
  match x.mrun, x.mq with
  | none, c :: _ => s.stepAt (max (max (c.issued + 1) (x.mlast + 1)) s.gts) (.matrixCommandStart core)
  | _, _ => s
/-- The number of the failed start check, 0 when the command may start (R224). -/
def CoreSt.startCheck (x : CoreSt) (c : MCmd) : Nat :=
  let ea := typeBytes x.mfa
  let eb := typeBytes x.mfb
  let lines := if eb = 2 then c.k else (c.k + 1) / 2
  let table (lo n : Nat) : Bool := decide (x.boundary ≤ lo) && decide (lo + n ≤ lsBytes)
  if (pairRate x.mfa x.mfb).isNone then 1
  else if !(decide (x.boundary ≤ c.aaddr) && decide (c.aEnd ea ≤ lsBytes)) then 2
  else if 8192 < c.boff / 64 + lines then 3
  else if c.scl && !(table (x.msa + c.asoff) (c.nb * c.m) && table (x.msb + c.bsoff) (32 * c.nb)) then 4
  else 0
/-- A refused command: every command behind it is discarded, the tokens are lowered, the owner gets a late report (R224). -/
def State.matrixRefuse (s : State) (core : Nat) (c : MCmd) (check : Nat) : State :=
  let x := s.coreOf core
  let owner := x.mowner.getD 0
  let gone := c :: x.mq
  let s := s.setCore core { x with mq := [], mlast := s.gts }
  let s := s.complete core owner (gone.filterMap (fun c => c.tok.map Act.lower))
  s.lateReport core owner
    { cause := 18, sub := check, seq := 0, reason := 0, rkind := 0, addr := c.pc, tag := min 15 (gone.length - 1), gts := s.gts }
/-- `MATRIX_COMMAND_START`: the head of the queue starts: formats sampled, checks made, `mzero` done at once (R226, R229). -/
def execMatrixCommandStart (core : Nat) (s : State) : Host.Outcome State Fault Refusal :=
  let x := s.coreOf core
  match x.mrun, x.mq with
  | none, c :: rest =>
    if s.gts ≤ c.issued || (s.gts ≤ x.mlast && x.mlast != 0) then .next s
    else
      let x1 := { x with mq := rest }
      if c.zero then
        let x2 := { x1.setTile c.acc (List.replicate 64 0) with chunkIdx := x1.chunkIdx.setIfInBounds c.acc 0, mlast := s.gts }
        .next ((s.setCore core x2).armMatrix core)
      else
        let check := x.startCheck c
        if check ≠ 0 then .next ((s.setCore core x1).matrixRefuse core c check)
        else
          let r : MRun :=
            { cmd := c, start := s.gts, mfa := x.mfa, mfb := x.mfb, msa := x.msa, msb := x.msb, steps := 0,
              work := if c.clr then List.replicate 64 0 else (List.range 64).map (x.tileRow c.acc),
              idx := if c.clr then 0 else x.chunkIdx[c.acc]?.getD 0, suspect := false, know := x.seen, snap := none }
          .next ((s.setCore core { x1 with mrun := some r }).stepAt (s.gts + 11 + r.total) (.matrixCommit core))
  | _, _ => .next s
/-- A granule that the running command reads has failed (R419): it never completes. -/
def State.matrixFailed (s : State) (core : Nat) (r : MRun) : Bool :=
  !s.failed.isEmpty && (r.wordsA.any (fun a => s.granuleFailed 0 core a 4) || r.linesB.any (fun a => s.granuleFailed 1 core a 64))
/-- `MATRIX_COMMIT`: the results are committed and the token is lowered (R230); a suspect result is counted (R233). -/
def execMatrixCommit (core : Nat) (s : State) : Host.Outcome State Fault Refusal :=
  let s := s.matrixAdvance core s.gts
  let x := s.coreOf core
  match x.mrun with
  | none => .next s
  | some r =>
    if s.gts != r.start + 11 + r.total || s.matrixFailed core r then .next s
    else
      let owner := x.mowner.getD 0
      let x := { x.setTile r.cmd.acc r.work with
        chunkIdx := x.chunkIdx.setIfInBounds r.cmd.acc (min (r.idx + r.cmd.chunks) 510), mrun := none, mlast := s.gts }
      let s := (s.setCore core x).complete core owner ((r.cmd.tok.map (fun t => [Act.lower t])).getD [])
      let s := if r.suspect then s.onCtx core owner (fun c => { c with susp := true, scnt := min (2 ^ 32 - 1) (c.scnt + 1) }) else s
      .next (s.armMatrix core)

/-! ### The instructions (R225 to R228, R231) -/

/-- Matrix-busy (R234) and matrix-queue-full (R235). -/
def State.matrixConds (s : State) (queued : Bool) : List Cond :=
  let x := s.here
  (match x.mowner with
   | some o => condIf (o != x.run) 16 0 o
   | none => []) ++ condIf (queued && 16 ≤ x.mheld) 17 0 0
/-- The pair claims the unit (R234). -/
def State.claim (s : State) : State := s.onHere (fun x => if x.mowner.isNone then { x with mowner := some x.run } else x)
/-- A command enters the queue. -/
def State.enqueue (s : State) (c : MCmd) : State :=
  let first := s.here.mheld == 0
  let s := s.claim.onHere (fun x => { x with mq := x.mq ++ [c] })
  if first then s.armMatrix s.focus else s
/-- The checks of R227 on a command; b tells whether the raw bits that must be zero are zero. -/
def MCmd.fieldsOk (c : MCmd) : Bool :=
  decide (c.aaddr < lsBytes) && c.aaddr % c.spanBytes == 0 && decide (1 ≤ c.m ∧ c.m ≤ 64) && decide (1 ≤ c.k ∧ c.k ≤ 8192) &&
    c.boff % 64 == 0 && decide (c.boff < 524288)
/-- The command in 64 bytes (R222). -/
def MCmd.ofBytes (n : Nat) : MCmd :=
  { zero := false, acc := bits n 0 3, clr := bit n 3, scl := bit n 4, aaddr := bits n 32 32, m := bits n 64 16, k := bits n 80 16,
    boff := bits n 96 32, span := bits n 128 3, rstr := bits n 132 15, asoff := bits n 160 19, bsoff := bits n 192 19,
    tok := none, pc := 0, issued := 0 }
/-- The bits of R222 that must be zero are zero. -/
def commandZeros (n : Nat) : Bool :=
  bits n 5 27 == 0 && bits n 51 13 == 0 && bits n 131 1 == 0 && bits n 147 13 == 0 && bits n 179 13 == 0 && bits n 211 13 == 0 &&
    bits n 224 288 == 0
/-- The command that `mma` builds (R228). -/
def MCmd.ofMma (acc : Nat) (a b : Word) : MCmd :=
  { zero := false, acc := acc, clr := b.getLsbD 7, scl := b.getLsbD 8, aaddr := wfld a 0 19, m := wfld b 0 7, k := wfld b 9 14,
    boff := 64 * wfld b 23 13, span := wfld b 36 3, rstr := 0, asoff := 0, bsoff := 0, tok := none, pc := 0, issued := 0 }
/-- Own-local-store addresses that `mxq`, `mld.b` and the parameter blocks require (R238, R373): bad-address SUB 0 outside
every class, SUB 3 in another class. -/
def ownOnly (a : Nat) : List Cond :=
  match classify a with
  | .own _ => []
  | .none => condIf true 5 0 a
  | _ => condIf true 5 3 a
/-- `mxq` (R227). -/
def execMxq (hd : CHead) (a : BitVec 5) (k : BitVec 4) (s : State) : Host.Outcome State Fault Refusal :=
  let x := (s.me.sReg a.toNat).toNat
  let raw := s.here.ls.readN x 64
  let c := MCmd.ofBytes raw
  issueC (.mxq hd a k) hd
    { srcs := [.s a.toNat], kfields := [k], tok := some (s.me.tokRef k.toNat),
      conds := misaligned x 64 ++ ownOnly x ++ condIf (!(commandZeros raw && c.fieldsOk)) 6 0 x ++ s.matrixConds true,
      waits := s.lineHeld x 64 }
    (fun s =>
      let t := s.me.tokRef k.toNat
      (s.onMe (fun c => c.raise t)).enqueue { c with tok := some t, pc := s.me.pc.toNat, issued := s.gts }) s
/-- The register that fails the checks of an `mma`: the value of sA for an A address, of sB otherwise. -/
def mmaBad (c : MCmd) (a b : Word) : List Cond :=
  condIf (wfld a 19 45 != 0 || !decide (c.aaddr < lsBytes) || c.aaddr % c.spanBytes != 0) 6 0 a.toNat ++
    condIf (wfld b 39 25 != 0 || !c.fieldsOk) 6 0 b.toNat
/-- `mma` (R228). -/
def execMma (hd : CHead) (m : BitVec 3) (a b : BitVec 5) (k : BitVec 4) (s : State) : Host.Outcome State Fault Refusal :=
  let av := s.me.sReg a.toNat
  let bv := s.me.sReg b.toNat
  let c := MCmd.ofMma m.toNat av bv
  issueC (.mma hd m a b k) hd
    { srcs := [.s a.toNat, .s b.toNat], kfields := [k], tok := some (s.me.tokRef k.toNat),
      conds := mmaBad c av bv ++ s.matrixConds true }
    (fun s =>
      let t := s.me.tokRef k.toNat
      (s.onMe (fun c => c.raise t)).enqueue { c with tok := some t, pc := s.me.pc.toNat, issued := s.gts }) s
/-- `mzero` (R226): one queue entry, no token. -/
def execMzero (hd : CHead) (m : BitVec 3) (s : State) : Host.Outcome State Fault Refusal :=
  issueC (.mzero hd m) hd { conds := s.matrixConds true }
    (fun s => s.enqueue { MCmd.ofBytes 0 with zero := true, acc := m.toNat, pc := s.me.pc.toNat, issued := s.gts }) s
/-- `mrd` (R231): the row committed at the end of the next cycle, written in the cycle after it. -/
def execMrd (hd : CHead) (v : BitVec 6) (t : BitVec 3) (sl : BitVec 5) (k : BitVec 4) (s : State) :
    Host.Outcome State Fault Refusal :=
  issueC (.mrd hd v t sl k) hd
    { srcs := [.s sl.toNat], vecs := [v.toNat], kfields := [k], tok := some (s.me.tokRef k.toNat), conds := s.matrixConds false }
    (fun s =>
      let tk := s.me.tokRef k.toNat
      let row := wfld (s.me.sReg sl.toNat) 0 6
      (s.claim.longStart (.v v.toNat) tk).doneAt (s.gts + 2) s.focus s.here.run
        [.tileRow v.toNat t.toNat row, .unpend (.v v.toNat), .lower tk]) s
/-- The conditions of `mld.b` (R225, R238); EINFO is the first byte that lies outside its store (R373). -/
def mldConds (s : State) (a b n : Nat) : List Cond :=
  misaligned a 64 ++ misaligned b 64 ++
    (match classify a with
     | .own x => condIf (x < s.here.boundary) 5 1 a ++ condIf (lsBytes < x + n) 5 3 (max a lsBytes)
     | .none => condIf true 5 0 a
     | _ => condIf true 5 3 a) ++ condIf (524288 < b + n) 5 3 (max b 524288)
/-- The next `mld.b` starts (R225). -/
def State.armMld (s : State) (core : Nat) : State :=
  let x := s.coreOf core
  match x.mlds with
  | [] => s
  | l :: _ => s.stepAt (max (max (l.issued + 1) (x.mldLast + 1)) s.gts) (.mldBStart core)
/-- `mld.b` (R225). -/
def execMldB (hd : CHead) (a b : BitVec 5) (k c : BitVec 4) (s : State) : Host.Outcome State Fault Refusal :=
  let av := (s.me.sReg a.toNat).toNat
  let bv := (s.me.sReg b.toNat).toNat
  let n := 1024 * (c.toNat + 1)
  issueC (.mldB hd a b k c) hd
    { srcs := [.s a.toNat, .s b.toNat], kfields := [k], tok := some (s.me.tokRef k.toNat),
      conds := mldConds s av bv n ++ s.matrixConds false,
      waits := s.lineHeld av n }
    (fun s =>
      let t := s.me.tokRef k.toNat
      let first := s.here.mlds.isEmpty
      let l : MLd := { src := av, dst := bv, lines := n / 64, tok := t, issued := s.gts, started := none, wrote := 0 }
      let s := (s.claim.onMe (fun c => c.raise t)).onHere (fun x => { x with mlds := x.mlds ++ [l] })
      if first then s.armMld s.focus else s) s
/-- `MLD_B_START` (R225). -/
def execMldBStart (core : Nat) (s : State) : Host.Outcome State Fault Refusal :=
  let x := s.coreOf core
  match x.mlds with
  | [] => .next s
  | l :: rest =>
    if l.started.isSome || s.gts ≤ l.issued then .next s
    else
      .next ((s.setCore core { x with mlds := { l with started := some s.gts } :: rest }).stepAt (s.gts + 3 + l.lines)
        (.mldBDone core))
/-- `MLD_B_DONE`: the last line stands and the token is lowered (R225). -/
def execMldBDone (core : Nat) (s : State) : Host.Outcome State Fault Refusal :=
  let s := s.mldAdvance core s.gts
  let x := s.coreOf core
  match x.mlds with
  | [] => .next s
  | l :: rest =>
    match l.started with
    | none => .next s
    | some st =>
      if s.gts < st + 3 + l.lines then .next s
      else
        let s := s.setCore core { x with mlds := rest, mldLast := s.gts }
        .next ((s.complete core (x.mowner.getD 0) [.lower l.tok]).armMld core)

end Sys2Proof.Machine
end

