-- ==== Sys2Proof/Machine/Cistern.lean ====
section
/-! DEFINITION. The cistern (R239 to R254), its sums (R196, R197) and its automatic scrubs (R450). -/
namespace Sys2Proof.Machine

/-! ### References and groups (R239, R240) -/

def refRow (w : Word) : Nat := wfld w 0 6
def refSeg (w : Word) : Nat := wfld w 6 11
def refSel (w : Word) : Nat := wfld w 17 6
def State.cgroup (s : State) (cl row : Nat) : CGroup := tget (s.clusterAt cl).groups CGroup.reset row
def State.onGroup (s : State) (cl row : Nat) (f : CGroup → CGroup) : State :=
  s.onCluster cl (fun k => { k with groups := tput k.groups row (f (tget k.groups CGroup.reset row)) })
/-- A reference that names no declared group, or a segment outside it (R254). -/
def State.badRef (s : State) (w : Word) (seg : Bool) : List Cond :=
  let g := s.cgroup s.myCluster (refRow w)
  condIf (wfld w 23 41 != 0 || g.st == .undeclared || (seg && 512 * g.per ≤ refSeg w)) 6 0 w.toNat
/-- The code of a group state (R253). -/
def GState.code (g : GState) : Nat :=
  match g with
  | .undeclared => 0 | .idle => 1 | .scrub => 2 | .spill => 3 | .fill => 4 | .frozen _ => 5
/-- The element table's key of a group's element (R239). -/
def elemKey (row e : Nat) : Nat := 16384 * row + e
def Cluster.elem (k : Cluster) (row e : Nat) : Nat := tget k.elems 0 (elemKey row e)
/-- Writes an element; +0 is not listed. -/
def Cluster.setElem (k : Cluster) (row e val : Nat) : Cluster :=
  if val = 0 then { k with elems := tdel k.elems (elemKey row e) } else { k with elems := tput k.elems (elemKey row e) val }

/-! ### Arithmetic (R196, R197, R248) -/

/-- The generated NaN of a core's cistern operations in a format (R191). -/
def cisNaN (core : Nat) (f : Fmt) : Val := (genNaN core 511).into .f32 f
/-- RoundNE(xo + v, w40) of a W40 element and an FP32 lane. -/
def addW40 (core xo lane : Nat) : Nat :=
  let a := unpack .w40 xo
  let b := (unpack .f32 lane).into .f32 .w40
  pack .w40 (settle (cisNaN core .w40) [a, b] (addExact a b))
/-- RoundNE((xn − xo) · (xn + xo), f64), the product exact. -/
def squareDiff (core xo xn : Nat) : Nat :=
  let a := (unpack .w40 xn).into .w40 .f64
  let b := (unpack .w40 xo).into .w40 .f64
  pack .f64 (settle (cisNaN core .f64) [a, b]
    ((addExact a b.neg).bind (fun d => (addExact a b).bind (fun t => mulExact d t))))
/-- The pairwise tree of R195 in FP64. -/
def tree64 (core levels : Nat) (l : List Nat) : Nat :=
  match levels with
  | 0 => l.headD 0
  | n + 1 =>
    let rec pairs (l : List Nat) : List Nat :=
      match l with
      | a :: b :: rest => fAdd .f64 (cisNaN core .f64) a b :: pairs rest
      | l => l
    tree64 core n (pairs l)
/-- An add of 32 lanes at element base of a group: the cluster's elements after it and S after it (R196). -/
def Cluster.applyAdd (k : Cluster) (core row base sum : Nat) (lanes : List Nat) : Cluster × Nat :=
  let step (st : Cluster × List Nat) (p : Nat × Nat) : Cluster × List Nat :=
    let xo := st.1.elem row (base + p.1)
    let xn := addW40 core xo p.2
    (st.1.setElem row (base + p.1) xn, st.2 ++ [squareDiff core xo xn])
  let r := ((List.range 32).zip lanes).foldl step (k, [])
  (r.1, fAdd .f64 (cisNaN core .f64) sum (tree64 core 5 r.2))
/-- RoundNE(Σ x², f64) over every element of a group, one rounding (R196, R248). -/
def Cluster.sumSquares (k : Cluster) (core row per : Nat) : Nat :=
  let lo := elemKey row 0
  let es := k.elems.filter (fun e => decide (lo ≤ e.1 ∧ e.1 < lo + 16384 * per))
  let vs := es.map (fun e => (unpack .w40 e.2).into .w40 .f64)
  let total := vs.foldl (fun acc v => acc.bind (fun a => (mulExact v v).bind (fun q => addExact a q))) (some Val.zero)
  pack .f64 (settle (cisNaN core .f64) vs total)
/-- RoundNE(s / n, f64) for a count n. -/
def divByCount (s n : Nat) : Nat :=
  match unpack .f64 s with
  | .fin sg m e => if m = 0 then pack .f64 (.fin sg 0 0) else pack .f64 (quotSticky sg m e (max n 1) 60)
  | v => pack .f64 v
/-- The format of a tap's form (R244). -/
def tapFmt (f : Nat) : Fmt :=
  match f with
  | 0 => .f32
  | 1 => .bf16
  | 2 => .e4m3
  | _ => .e5m2
/-- One element of a tap (R197). -/
def tapElem (core : Nat) (g : CGroup) (f : Fmt) (x gamma : Nat) : Nat :=
  let gen := cisNaN core .f64
  let q := divByCount g.sum g.n
  let q := fAdd .f64 gen q (convert .f32 .f64 g.eps)
  let rs := unpack .f64 (fRsqrt .f64 gen false q)
  let xv := (unpack .w40 x).into .w40 .f64
  let y := unpack .f64 (pack .f64 (settle gen [xv, rs] (mulExact xv rs)))
  let y := y.into .f64 f
  let gm := (unpack .bf16 gamma).into .bf16 f
  pack f (settle (cisNaN core f) [y, gm] (mulExact y gm))

/-! ### Requests (R241, R245) -/

/-- Adds a request at its place: arrival cycle, then core order (R245). -/
def insertReq (q : CReq) (l : List CReq) : List CReq :=
  match l with
  | [] => [q]
  | x :: rest =>
    if q.arrive < x.arrive || (q.arrive == x.arrive && q.core < x.core) then q :: x :: rest else x :: insertReq q rest
/-- A request of the running context, with its operands. -/
def State.creq (s : State) (op : Nat) (w : Word) (tok : TokRef) : CReq :=
  { arrive := s.gts + 3, core := s.focus, ctx := s.here.run, op := op, row := refRow w, seg := refSeg w, lanes := [], tile := none,
    form := 0, d := 0, sel := refSel w, msg := 0, tok := some tok, pc := s.me.pc.toNat,
    no := s.ctr }
/-- A request leaves for the cistern and reaches it three cycles later. -/
def State.toCistern (s : State) (q : CReq) : State :=
  let cl := s.myCluster
  let s := { s.onHere (fun x => { x with cisOut := x.cisOut + 1 }) with ctr := s.ctr + 1 }
  if q.op = 4 || q.op = 5 then
    (s.onCluster cl (fun k => { k with tapQ := insertReq q k.tapQ })).stepAt q.arrive (.cisternTapPath cl)
  else (s.onCluster cl (fun k => { k with addQ := insertReq q k.addQ })).stepAt q.arrive (.cisternAddPath cl)
/-- Cistern-queue-full (R241). -/
def State.cisFull (s : State) : List Cond := condIf (32 ≤ s.here.cisOut) 19 0 0
/-- `cadd`, form 0 (R242). -/
def execCadd (hd : CHead) (c : BitVec 5) (v : BitVec 6) (k : BitVec 4) (s : State) : Host.Outcome State Fault Refusal :=
  let w := s.me.sReg c.toNat
  issueC (.cadd hd c v k) hd
    { srcs := [.s c.toNat, .v v.toNat], vecs := [v.toNat], kfields := [k], tok := some (s.me.tokRef k.toNat),
      conds := s.badRef w true ++ s.cisFull, mol := 1 }
    (fun s =>
      let t := s.me.tokRef k.toNat
      (s.onMe (fun c => c.raise t)).toCistern { s.creq 0 w t with lanes := lanesOf (s.me.vReg v.toNat) }) s
/-- `cadd`, form 1 (R242, R243). -/
def execCaddTile (hd : CHead) (c : BitVec 5) (t : BitVec 3) (k : BitVec 4) (s : State) : Host.Outcome State Fault Refusal :=
  let w := s.me.sReg c.toNat
  issueC (.caddTile hd c t k) hd
    { srcs := [.s c.toNat], kfields := [k], tok := some (s.me.tokRef k.toNat),
      conds := s.badRef w true ++ s.cisFull ++ s.matrixConds false, mol := 1 }
    (fun s =>
      let tk := s.me.tokRef k.toNat
      let q := { s.creq 0 w tk with tile := some (64 * t.toNat + refSel w), form := 1 }
      ((s.claim.onMe (fun c => c.raise tk)).toCistern q).doneAt (s.gts + 2) s.focus s.here.run [.addTile s.myCluster q.no]) s
/-- The γ bytes of a tap lie outside the own local store, or below the boundary (R244). -/
def State.gammaBad (s : State) (a : Nat) : List Cond :=
  condIf (a < s.here.boundary) 5 1 a ++ condIf (lsBytes < a + 64) 5 3 (max a lsBytes)
/-- `ctap` (R244): γ is read at issue. -/
def execCtap (hd : CHead) (v : BitVec 6) (c : BitVec 5) (k : BitVec 4) (f : BitVec 3) (s : State) :
    Host.Outcome State Fault Refusal :=
  let w := s.me.sReg c.toNat
  let a := (s.cgroup s.myCluster (refRow w)).gaddr + 64 * refSeg w
  issueC (.ctap hd v c k f) hd
    { srcs := [.s c.toNat], vecs := [v.toNat], kfields := [k], tok := some (s.me.tokRef k.toNat),
      conds := s.badRef w true ++ (if (s.badRef w true).isEmpty then s.gammaBad a else []) ++ s.cisFull,
      waits := s.lineHeld a 64 }
    (fun s =>
      let t := s.me.tokRef k.toNat
      let r := s.readLsMany s.focus s.focus 2 ((List.range 32).map (fun i => a + 2 * i))
      (r.2.longStart (.v v.toNat) t).toCistern { r.2.creq 4 w t with lanes := r.1, form := f.toNat, d := v.toNat }) s
/-- `cscrub` (R248). -/
def execCscrub (hd : CHead) (c : BitVec 5) (k : BitVec 4) (s : State) : Host.Outcome State Fault Refusal :=
  let w := s.me.sReg c.toNat
  issueC (.cscrub hd c k) hd
    { srcs := [.s c.toNat], kfields := [k], tok := some (s.me.tokRef k.toNat), conds := s.badRef w false ++ s.cisFull }
    (fun s =>
      let t := s.me.tokRef k.toNat
      (s.onMe (fun c => c.raise t)).toCistern (s.creq 1 w t)) s
/-- `cspill` and `cfill` (R249): one remote request, with a snapshot of Seen (R175), and one entry in the group's sequence. -/
def issueImage (i : Instr) (hd : CHead) (op : Nat) (c a : BitVec 5) (k : BitVec 4) (body : Nat → Nat → Body) (s : State) :
    Host.Outcome State Fault Refusal :=
  let w := s.me.sReg c.toNat
  let va := (s.me.sReg a.toNat).toNat
  issueC i hd
    { srcs := [.s c.toNat, .s a.toNat], kfields := [k], tok := some (s.me.tokRef k.toNat), reqs := 1, mol := 1,
      conds := misaligned va 128 ++ s.badRef w false ++ s.cisFull }
    (fun s =>
      let t := s.me.tokRef k.toNat
      let q := s.creq op w t
      let p := (s.onMe (fun c => c.raise t)).requestHeld none (some t) 0 (body (refRow w) va) s.here.seen
      p.2.toCistern { q with msg := p.1 }) s
/-- `cspill` (R249). -/
def execCspill (hd : CHead) (c a : BitVec 5) (k : BitVec 4) (f : BitVec 1) (s : State) : Host.Outcome State Fault Refusal :=
  issueImage (.cspill hd c a k f) hd 2 c a k (fun row va => .spill row va (f == 1)) s
/-- `cfill` (R249). -/
def execCfill (hd : CHead) (c a : BitVec 5) (k : BitVec 4) (f : BitVec 1) (s : State) : Host.Outcome State Fault Refusal :=
  issueImage (.cfill hd c a k f) hd 3 c a k (fun row va => .fill row va (f == 1)) s
/-- `cinfo` (R252). -/
def execCinfo (hd : CHead) (d c : BitVec 5) (s : State) : Host.Outcome State Fault Refusal :=
  let w := s.me.sReg c.toNat
  issueC (.cinfo hd d c) hd
    { srcs := [.s c.toNat], tok := some s.me.ltkRef, conds := s.badRef w false ++ condIf (6 < refSel w) 6 0 w.toNat ++ s.cisFull }
    (fun s =>
      let t := s.me.ltkRef
      (s.longStart (.s d.toNat) t).toCistern { s.creq 5 w t with d := d.toNat }) s

/-! ### The two paths (R245 to R247, R253) -/

/-- The completion of a request at its core: its token, and its entry joins Seen (R176). -/
def CReq.endActs (q : CReq) (cl : Nat) : List Act :=
  match q.tok with
  | some t => [.lower t, .cisDone, .learn [(.row cl q.row, q.no)]]
  | none => []
/-- A request of the add path may be applied: it has arrived and its group is not held; a scrub's last cycle still holds. -/
def State.addReady (s : State) (cl : Nat) (q : CReq) : Bool :=
  let g := s.cgroup cl q.row
  decide (q.arrive ≤ s.gts) && g.st == .idle && !(g.until_ != 0 && s.isAt g.until_) && q.tile.isNone
/-- The bytes of an image: its header, the elements, zeros up to a multiple of 128 (R250). -/
def imageElem (compact : Bool) : Nat := if compact then 2 else 5
def imageData (compact : Bool) (per : Nat) : Nat := 64 + imageElem compact * 16384 * per
/-- A `cspill` as one operation of a streamer (R249): the model's own block names the cluster and the group, in rows of 128
bytes (log 18). -/
def spillBlock (va cl row per : Nat) (compact : Bool) : Block :=
  { mode := 0, det := false, dk := 0, span := 0, opx := ofBool compact, tag := 0, va := va, loc := row,
    rows := (imageData compact per + 64) / 128, rowb := 128, vstr := 128, lstr := 0, aux := cl, geom := 0, upc := 0 }
/-- The operation of a spill, with every entry of its group's sequence in its Seen set. -/
def State.spillOp (s : State) (cl : Nat) (q : CReq) (m : Msg) (va : Nat) (compact : Bool) : SOp :=
  { src := m.src, seq := m.seq, pc := m.pc, tok := m.tok, kind := .spill, blk := spillBlock va cl q.row (s.cgroup cl q.row).per compact,
    idx := [], owner := s.ownerOf m.src.hid va, wm := 0, done := 0, read := [], sent := [], bytes := 0, status := 0, badVa := 0,
    issued := m.gts, behind := [],
    know := joinSeen m.know (s.allNodes (.row cl q.row)) }
/-- One request of the add path is applied in this cycle and enters the group's sequence (R176, R243, R246, R248, R249). -/
def State.applyPath (s : State) (cl : Nat) (q : CReq) : State :=
  let g := s.cgroup cl q.row
  let node := s.appendNode (.row cl q.row) 0 0
  let s := node.2
  let q := { q with no := node.1 }
  match q.op with
  | 0 =>
    let r := (s.clusterAt cl).applyAdd q.core q.row (32 * q.seg) g.sum q.lanes
    let since := g.sinceScrub + 1
    let s := { s with clusters := tput s.clusters cl r.1 }
    let s := s.onGroup cl q.row (fun g =>
      { g with sum := r.2, adds := (g.adds + 1) % 2 ^ 64, sinceScrub := since })
    let s := s.molEntry q.core q.ctx 3 0 0 q.pc cl ((g.adds + 1) % 2 ^ 64) s.gts
    let s := s.doneAt (s.gts + 1) q.core q.ctx (q.endActs cl)
    if g.ascrub != 0 && since == g.ascrub then
      let auto : CReq := { q with op := 6, tok := none, lanes := [], arrive := s.gts }
      s.onCluster cl (fun k => { k with addQ := auto :: k.addQ })
    else s
  | 2 =>
    let s := s.onGroup cl q.row (fun g => { g with st := .spill, spills := (g.spills + 1) % 2 ^ 32, holder := some q })
    match tfind s.bag q.msg with
    | none => s
    | some m =>
      match m.body with
      | .spill _ va compact => (s.setOp q.msg (s.spillOp cl q m va compact)).soon (.streamerStep q.msg)
      | _ => s
  | 3 =>
    let know := ((tfind s.bag q.msg).map (fun m => m.know)).getD []
    (s.onGroup cl q.row (fun g => { g with st := .fill, holder := some q, got := [], wrote := 0, know := know })).soon
      (.fillComplete cl q.row)
  | _ =>
    let e := s.gts + 256 * g.per - 1
    (s.onGroup cl q.row (fun g => { g with st := .scrub, until_ := e, sinceScrub := 0, holder := some q })).stepAt e
      (.scrubEnd cl q.row)
/-- The path's next request, in the next cycle. -/
def State.pathAgain (s : State) (cl : Nat) (tap : Bool) : State :=
  s.stepAt (s.gts + 1) (if tap then .cisternTapPath cl else .cisternAddPath cl)
/-- `CISTERN_ADD_PATH`: the first request whose group is not held is applied, one in a cycle (R245, R253). -/
def execCisternAddPath (cl : Nat) (s : State) : Host.Outcome State Fault Refusal :=
  let k := s.clusterAt cl
  match k.addQ.find? (s.addReady cl) with
  | none => .next s
  | some q =>
    if s.gts < k.addNext then .next (s.pathAgain cl false)
    else
      let s := s.onCluster cl (fun k => { k with addQ := k.addQ.erase q, addNext := s.gts + 1 })
      let s := s.applyPath cl q
      .next (if (s.clusterAt cl).addQ.isEmpty then s else s.pathAgain cl false)
/-- A request of the tap path may be applied: its group is not in the Fill or a frozen state (R247). -/
def State.tapReady (s : State) (cl : Nat) (q : CReq) : Bool :=
  let g := s.cgroup cl q.row
  decide (q.arrive ≤ s.gts) && (g.st == .idle || g.st == .scrub || g.st == .spill)
/-- What `cinfo` reads (R252). -/
def CGroup.info (g : CGroup) (row sel : Nat) : Nat :=
  match sel with
  | 0 => (packFields [(40, 17, g.n), (38, 2, g.per - 1), (32, 6, row), (0, 32, g.eps)]).toNat
  | 1 => g.sum
  | 2 => g.adds
  | 3 => g.drift
  | 4 => g.scrubs % 2 ^ 32 * 2 ^ 32 + g.spills % 2 ^ 32
  | 5 => g.gaddr
  | _ => g.st.code
/-- The 32 lanes of a tap (R197, R244). -/
def State.tapLanes (s : State) (cl : Nat) (q : CReq) : List Nat :=
  let g := s.cgroup cl q.row
  let k := s.clusterAt cl
  ((List.range 32).zip q.lanes).map (fun p => tapElem q.core g (tapFmt q.form) (k.elem q.row (32 * q.seg + p.1)) p.2)
/-- A step that may apply an add of a cluster, or end the hold of one of its groups. -/
def Event.changesRows (cl : Nat) (e : Event) : Bool :=
  match e with
  | .cisternAddPath c => c == cl
  | .scrubEnd c _ => c == cl
  | .spillComplete c _ => c == cl
  | .fillComplete c _ => c == cl
  | _ => false
/-- What a tap has at its core (R245), or a `cinfo`: it enters no sequence. -/
def CReq.tapActs (q : CReq) : List Act :=
  match q.tok with
  | some t => [.lower t, .cisDone]
  | none => []
/-- The entries of a group's sequence that a tap reflects (R247): all but that of a scrub which holds the group. -/
def State.tapNodes (s : State) (cl row : Nat) : Seen :=
  let g := s.cgroup cl row
  let l := s.allNodes (.row cl row)
  if g.st == .scrub then l.filter (fun n => g.holder.map (fun q => q.no) != some n.2) else l
/-- `CISTERN_TAP_PATH`: one tap or `cinfo` is applied, after the add of its cycle (R178, R245) and after a change that ends a
hold (R253). A tap's prefix joins Seen of its core (R176). -/
def execCisternTapPath (cl : Nat) (s : State) : Host.Outcome State Fault Refusal :=
  if s.agenda.any (Event.changesRows cl) then .next (s.next (.cisternTapPath cl))
  else
    let k := s.clusterAt cl
    match k.tapQ.find? (s.tapReady cl) with
    | none => .next s
    | some q =>
      if s.gts < k.tapNext then .next (s.pathAgain cl true)
      else
        let s := s.onCluster cl (fun k => { k with tapQ := k.tapQ.erase q, tapNext := s.gts + 1 })
        let s :=
          if q.op = 4 then
            (s.learn q.core (s.tapNodes cl q.row)).doneAt (s.gts + 8) q.core q.ctx
              ([Act.write (.v q.d) (ofLanes (s.tapLanes cl q)).toNat, .unpend (.v q.d)] ++ q.tapActs)
          else
            s.doneAt (s.gts + 2) q.core q.ctx
              ([Act.write (.s q.d) ((s.cgroup cl q.row).info q.row q.sel), .unpend (.s q.d)] ++ q.tapActs)
        .next (if (s.clusterAt cl).tapQ.isEmpty then s else s.pathAgain cl true)
/-- A group leaves its hold; what waited is served after the change (R253). -/
def State.freeGroup (s : State) (cl row : Nat) : State :=
  let s := s.onGroup cl row (fun g => { g with st := .idle, holder := none, got := [], wrote := 0, know := [] })
  let k := s.clusterAt cl
  let s := if k.addQ.isEmpty then s else s.pathAgain cl false
  if k.tapQ.isEmpty then s else s.pathAgain cl true
/-- A scrub is suspect (R450): |DRIFT| > |new| · 2^−DSH, or DRIFT a NaN, while new is finite. -/
def driftSuspect (dsh drift new : Nat) : Bool :=
  let sh : Int := if 8 ≤ dsh ∧ dsh ≤ 63 then dsh else 24
  match unpack .f64 new, unpack .f64 drift with
  | .fin _ m e, .fin _ m' e' => cmpExact (.fin false m (e - sh)) (.fin false m' e') == .lt
  | .fin _ _ _, _ => true
  | _, _ => false
/-- `SCRUB_END`: S is replaced and DRIFT recorded; a suspect scrub writes a record (R248, R448, R450). -/
def execScrubEnd (cl row : Nat) (s : State) : Host.Outcome State Fault Refusal :=
  let g := s.cgroup cl row
  match g.st, g.holder with
  | .scrub, some q =>
    if !s.isAt g.until_ then .next s
    else
      let new := (s.clusterAt cl).sumSquares q.core row g.per
      let drift := fSub .f64 (cisNaN q.core .f64) g.sum new
      let s := s.onGroup cl row (fun g => { g with sum := new, drift := drift, scrubs := (g.scrubs + 1) % 2 ^ 32 })
      let s :=
        if driftSuspect g.dsh drift new then
          s.record (s.queueOfCore q.core) 2
            (packRecord [(1, 4), (1, 2), (2, 0), (4, cl), (8, row), (8, s.gts), (8, drift >>> 32)]) none
        else s
      .next ((s.freeGroup cl row).doneAt (s.gts + 1) q.core q.ctx (q.endActs cl))
  | _, _ => .next s

/-! ### Images (R249 to R251) -/

/-- The header of an image (R250). -/
def CGroup.header (g : CGroup) (compact : Bool) : List Byte :=
  bytesOf 2 (if compact then 2 else 1) ++ bytesOf 1 g.per ++ bytesOf 1 1 ++ bytesOf 4 g.n ++ bytesOf 4 g.eps ++ bytesOf 4 0 ++
    bytesOf 8 g.sum ++ bytesOf 8 g.adds ++ bytesOf 4 g.spills ++ bytesOf 28 0
/-- Byte j of an image (R250). -/
def State.imageByte (s : State) (cl row : Nat) (compact : Bool) (j : Nat) : Nat :=
  let g := s.cgroup cl row
  let w := imageElem compact
  if j < 64 then ((g.header compact).getD j 0).toNat
  else
    let e := (j - 64) / w
    if e < 16384 * g.per then
      let x := (s.clusterAt cl).elem row e
      (if compact then convert .w40 .bf16 x else x) / 256 ^ ((j - 64) % w) % 256
    else 0
/-- Eight bytes of an image. -/
def State.imageEight (s : State) (cl row : Nat) (compact : Bool) (j : Nat) : Nat := bytesAt (s.imageByte cl row compact) j 8
/-- The bytes of an image (R250). -/
def State.image (s : State) (cl row : Nat) (compact : Bool) : List Byte :=
  (List.range (imageData compact (s.cgroup cl row).per + 64)).map (fun j => BitVec.ofNat 8 (s.imageByte cl row compact j))
/-- Bytes written one after another; the first refused byte stops with its reason and address. -/
def State.putBytes (s : State) (hid va : Nat) (bs : List Byte) : State × Option (Nat × Nat) :=
  match bs with
  | [] => (s, none)
  | b :: rest =>
    match s.access hid va true with
    | .error r => (s, some (r, va))
    | .ok p => (s.writePlace p b).putBytes hid (va + 1) rest
/-- n bytes read, or the reason and address of the first byte that is refused; poison reads as reason 14 (R418). -/
def State.getBytes (s : State) (hid va n : Nat) : Except (Nat × Nat) (List Byte) :=
  match n with
  | 0 => .ok []
  | k + 1 =>
    match s.access hid va false with
    | .error r => .error (r, va)
    | .ok p =>
      if s.poisoned p then .error (14, va)
      else
        match s.getBytes hid (va + 1) k with
        | .error e => .error e
        | .ok bs => .ok (s.readPlace p :: bs)
/-- `SPILL_COMPLETE`: the last byte of the image is performed, and the operation's Seen set joins Seen of the core (R249); or
the operation has been refused, and leaves its image part written (R251). -/
def execSpillComplete (cl row : Nat) (s : State) : Host.Outcome State Fault Refusal :=
  let g := s.cgroup cl row
  match g.st, g.holder with
  | .spill, some q =>
    match tfind s.ops q.msg with
    | none => .next s
    | some op =>
      let u := { s.freeGroup cl row with ops := tdel s.ops q.msg }
      if op.status ≠ 0 then .next (u.refuseMsg q.msg op.status op.badVa)
      else if op.wm < op.blk.rows then .next s
      else
        let u := u.learn q.core (joinSeen op.know [(.row cl row, q.no)])
        .next ((u.onMsg q.msg (fun m => { m with app := some (0, 0, s.gts) })).ackNow q.msg)
  | _, _ => .next s
/-- The check of an image's header (R251). -/
def headerOk (g : CGroup) (compact : Bool) (h : List Byte) : Bool :=
  let n := natOfBytes h
  bits n 0 16 == (if compact then 2 else 1) && bits n 16 8 == g.per && bits n 24 8 == 1 && bits n 96 32 == 0 && bits n 288 224 == 0
/-- Element e of an image's bytes, as W40 (R250). -/
def imageElement (compact : Bool) (bs : List Byte) (e : Nat) : Nat :=
  let w := imageElem compact
  let p := natOfBytes ((bs.drop (64 + w * e)).take w)
  if compact then convert .bf16 .w40 p else p
/-- The next element of a fill is written. -/
def State.fillOne (s : State) (cl row : Nat) (compact : Bool) : State :=
  let g := s.cgroup cl row
  (s.onCluster cl (fun k => k.setElem row g.wrote (imageElement compact g.got g.wrote))).onGroup cl row (fun g =>
    { g with wrote := g.wrote + 1 })
/-- S and the counts of a group whose elements a fill has written (R250). -/
def State.fillCounts (s : State) (cl row core : Nat) (compact : Bool) : State :=
  let g := s.cgroup cl row
  let h := natOfBytes (g.got.take 64)
  let sum := if compact then (s.clusterAt cl).sumSquares core row g.per else bits h 128 64
  s.onGroup cl row (fun g => { g with sum := sum, adds := bits h 192 64, spills := bits h 256 32 })
/-- One step of a fill at its group: the next atom of the image is read and the header checked once it is whole; then the
elements are written, one in a step; then S and the counts (R249 to R251). What its reads
teach is not passed on to the core, which learns the fill's own node (log 33). -/
def State.fillStep (s : State) (cl row : Nat) (q : CReq) (m : Msg) (va : Nat) (compact : Bool) : State :=
  let g := s.cgroup cl row
  let again (s : State) : State := s.soon (.fillComplete cl row)
  let n := g.got.length
  let a := (va + n) % 2 ^ 64
  if s.heldBehind m then s.stepAt (s.gts + 1) (.fillComplete cl row)
  else if n < imageData compact g.per then
    match s.readBurst g.know (ownerDie (s.ownerOf m.src.hid va)) m.src.hid ((List.range 4).map (fun i => a + 8 * i)) with
    | .ok s v know =>
      let got := g.got ++ bytesOf 32 v
      if n = 32 && !headerOk g compact got then (s.freeGroup cl row).refuseMsg q.msg 13 va
      else again (s.onGroup cl row (fun g => { g with got := got, know := know }))
    | .wait s => s.stepAt (s.gts + 1) (.fillComplete cl row)
    | .refused s r => (s.freeGroup cl row).refuseMsg q.msg r a
  else if g.wrote < 16384 * g.per then again (s.fillOne cl row compact)
  else
    let s := (s.fillCounts cl row q.core compact).freeGroup cl row
    let s := s.learn q.core [(.row cl row, q.no)]
    (s.onMsg q.msg (fun m => { m with app := some (0, 0, s.gts) })).ackNow q.msg
/-- `FILL_COMPLETE`: a step of the fill that holds a group, the last of which completes it (R249 to R251). -/
def execFillComplete (cl row : Nat) (s : State) : Host.Outcome State Fault Refusal :=
  let g := s.cgroup cl row
  match g.st, g.holder with
  | .fill, some q =>
    match tfind s.bag q.msg with
    | some m =>
      match m.body with
      | .fill _ va compact => .next (s.fillStep cl row q m va compact)
      | _ => .next s
    | none => .next s
  | _, _ => .next s

end Sys2Proof.Machine
end

