-- ==== Sys2Proof/Machine/Chambers.lean ====
section
/-! DEFINITION. Chambers, handles and the lineage table (R255 to R276). -/
namespace Sys2Proof.Machine

/-! ### Shapes and cells (R255, R256) -/

/-- An item of a four-entry list of an axis. -/
def axis (l : List Nat) (a : Nat) : Nat := l[a]?.getD 0
/-- Element size of a view (R255). -/
def View.z (v : View) : Nat := typeBytes v.typ
/-- Cells in one row of the innermost axis (R256). -/
def View.rowCells (v : View) : Nat := axis v.ext (v.nax - 1) * v.z / 128
/-- V, the number of cells (R256). -/
def View.cells (v : View) : Nat := (List.range (v.nax - 1)).foldl (fun acc a => acc * axis v.ext a) v.rowCells
/-- The coordinates of a cell on the outer axes, from NAX − 2 down to 0 (R256). -/
def View.outer (v : View) (n rest : Nat) : List Nat :=
  match n with
  | 0 => []
  | a + 1 =>
    let e := max (axis v.ext a) 1
    v.outer a (rest / e) ++ [axis v.org a + rest % e]
/-- The byte of cell i within the chamber (R256). -/
def View.cellOff (v : View) (i : Nat) : Nat :=
  let w := max v.rowCells 1
  let last := axis v.org (v.nax - 1) + i % w * (128 / v.z)
  let coords := v.outer (v.nax - 1) (i / w) ++ [last]
  v.z * ((List.range v.nax).foldl (fun acc a => acc * axis v.dims a + coords[a]?.getD 0) 0)
/-- The address of a cell as a core reaches it (R256). -/
def View.cellAddr (v : View) (member i : Nat) : Nat :=
  let a := v.base + v.cellOff i
  if v.window then 0x1000000 + a
  else if v.home = member then a
  else windowAddr v.home a
/-- A shape descriptor of 16 bytes as a view at its origin, and whether it is well formed (R255). -/
def View.ofDesc (n : Nat) : View × Bool :=
  let typ := bits n 0 8
  let nax := bits n 8 8
  let d := (List.range 4).map (fun a => bits n (32 + 16 * a) 16)
  let v : View := { typ := typ, nax := nax, base := 0, window := false, home := 0, org := [0, 0, 0, 0], ext := d, dims := d }
  (v, decide (typ ≤ 15) && typ != 14 && decide (1 ≤ nax ∧ nax ≤ 4) && bits n 16 16 == 0 && bits n 96 32 == 0 &&
    (List.range 4).all (fun a => if a < nax then axis d a != 0 else axis d a == 0) &&
    axis d (nax - 1) * typeBytes typ % 128 == 0)
/-- Z, the bytes of a chamber (R255). -/
def View.bytes (v : View) : Nat := (List.range v.nax).foldl (fun acc a => acc * axis v.dims a) v.z

/-! ### Register states (R257) and the lineage table (R260) -/

/-- A source handle field must name a Live register. -/
def Ctx.handleSrc (c : Ctx) (h : Nat) : List Cond :=
  match (c.hReg h).st with
  | .live => []
  | .empty => [Cond.mk 20 0 h]
  | .vacant => [Cond.mk 20 1 h]
  | .pending => [Cond.mk 7 0 (192 + h)]
/-- A destination handle field must name an Empty or Vacant register, or one that the instruction reads. -/
def Ctx.handleDst (c : Ctx) (h : Nat) (reads : List Nat) : List Cond :=
  match (c.hReg h).st with
  | .empty => []
  | .vacant => []
  | _ => condIf (!reads.contains h) 21 0 h
def Ctx.isLive (c : Ctx) (h : Nat) : Bool := (c.hReg h).st == .live
/-- Puts a handle register into a state. -/
def Ctx.setHandle (c : Ctx) (h : Nat) (r : HReg) : Ctx := { c with h := c.h.setIfInBounds h r }
def HReg.vacant : HReg := { HReg.reset with st := .vacant }
/-- The code of a register state (R257). -/
def HState.code (h : HState) : Nat :=
  match h with
  | .empty => 0 | .vacant => 1 | .live => 2 | .pending => 3
/-- The Free entries of a member's slice that no instruction has taken, rising (R260). -/
def Cluster.freeSlice (k : Cluster) (member : Nat) : List Nat :=
  ((List.range 64).map (fun i => 64 * member + i)).filter (fun e =>
    (tget k.lineage LEntry.reset e).st == .free && !k.taken.contains e)
def State.freeEntries (s : State) : List Nat := (s.clusterAt s.myCluster).freeSlice (memberOf s.focus)
/-- Lineage-full (R260). -/
def State.sliceFull (s : State) (n : Nat) : List Cond := condIf (s.freeEntries.length < n) 22 0 s.freeEntries.length
/-- The handle value of a lineage entry. -/
def State.valOf (s : State) (cl e : Nat) : HVal :=
  let le := s.lentry cl e
  { cluster := cl, root := le.root, side := le.side, parent := if le.root then e else le.parent, entry := e }
/-- An instruction takes a Free entry for a handle, whose K it fixes (R177); the table shows the entry later (R260). -/
def State.takeEntry (s : State) (cl e : Nat) (know : Seen) : State :=
  (s.onCluster cl (fun k => { k with taken := k.taken ++ [e] })).onLentry cl e (fun _ => { LEntry.reset with know := know })
/-- The change that makes a taken entry Live, owned by the running context. -/
def State.makes (s : State) (parent : Nat) (root side : Bool) (view : View) (reg : Nat) : LChange :=
  .make parent root side view s.me.task s.here.run reg (s.here.hid.getD 0)

/-! ### Knowledge sets (R177) -/

/-- A location lies in a chamber's region of a cluster: its byte in the own local store of a core, or in the window. -/
def View.holds (v : View) (cl : Nat) (l : Loc) : Bool :=
  match l with
  | .ls c off =>
    clusterOf c == cl &&
      (if v.window then
        let a := windowAddr (memberOf c) off - 0x1000000
        decide (v.base ≤ a ∧ a < v.base + v.bytes)
       else memberOf c == v.home && decide (v.base ≤ off ∧ off < v.base + v.bytes))
  | _ => false
/-- K of a new chamber: what the core has seen of its region. -/
def State.regionKnow (s : State) (v : View) : Seen := s.here.seen.filter (fun p => v.holds s.myCluster p.1)
/-- Nodes join K of an entry. -/
def State.entryLearns (s : State) (cl e : Nat) (know : Seen) : State :=
  s.onLentry cl e (fun le => { le with know := joinSeen le.know know })
/-- K of every ancestor of an entry; a chain holds at most 1,024 entries. -/
def State.ancestorsKnow (s : State) (cl fuel e : Nat) : Seen :=
  match fuel with
  | 0 => []
  | n + 1 =>
    let le := s.lentry cl e
    if le.root || le.parent == e then []
    else joinSeen (s.lentry cl le.parent).know (s.ancestorsKnow cl n le.parent)

/-! ### Instructions -/

/-- The address conditions of `hnew` (R263, R276), with the first byte outside its class (R373). -/
def newConds (s : State) (a b : Nat) : List Cond :=
  let d := View.ofDesc (s.here.ls.readN b 16)
  let n := d.1.bytes
  misaligned a 128 ++ misaligned b 16 ++ ownOnly b ++
    (match classify a with
     | .none => condIf true 5 0 a
     | .event _ => condIf true 5 3 a
     | .own x => condIf (x < s.here.boundary) 5 1 a ++ condIf (d.2 && lsBytes < x + n) 5 3 (max a lsBytes)
     | .window _ _ => condIf (d.2 && 0x1600000 < a + n) 5 3 (max a 0x1600000)) ++
    condIf (!d.2) 6 0 b
/-- `hnew` (R263). -/
def execHnew (hd : CHead) (hh : BitVec 4) (a b : BitVec 5) (s : State) : Host.Outcome State Fault Refusal :=
  let av := (s.me.sReg a.toNat).toNat
  let bv := (s.me.sReg b.toNat).toNat
  issueC (.hnew hd hh a b) hd
    { srcs := [.s a.toNat, .s b.toNat], conds := newConds s av bv ++ s.me.handleDst hh.toNat [] ++ s.sliceFull 1,
      waits := s.lineHeld bv 16 }
    (fun s =>
      let e := s.freeEntries.headD 0
      let v := (View.ofDesc (s.here.ls.readN bv 16)).1
      let v := match classify av with
        | .own x => { v with base := x, window := false, home := memberOf s.focus }
        | _ => { v with base := av - 0x1000000, window := true, home := (av - 0x1000000) / 128 % 16 }
      let cl := s.myCluster
      let s := (s.takeEntry cl e (s.regionKnow v)).lineageAt s.focus s.here.run [(cl, e, s.makes e true false v hh.toNat)]
      s.onMe (fun c => c.setHandle hh.toNat
        { st := .live, val := { cluster := cl, root := true, side := false, parent := e, entry := e }, view := v })) s
/-- `hmov` (R264). -/
def execHmov (hd : CHead) (hh g : BitVec 4) (s : State) : Host.Outcome State Fault Refusal :=
  issueC (.hmov hd hh g) hd { conds := s.me.handleSrc g.toNat ++ s.me.handleDst hh.toNat [] }
    (fun s =>
      let r := s.me.hReg g.toNat
      (s.onMe (fun c => (c.setHandle g.toNat HReg.vacant).setHandle hh.toNat r)).lineageAt s.focus s.here.run
        [(r.val.cluster, r.val.entry, .reg hh.toNat)]) s
/-- Bad-operand of `hsplit`: the axis, the index or hB = hC (R265). -/
def splitBad (c : Ctx) (x a b d : Nat) (i : Word) : List Cond :=
  let v := (c.hReg a).view
  condIf (b == d || (c.isLive a && (decide (v.nax ≤ x) || i.toNat == 0 || decide (axis v.ext x ≤ i.toNat) ||
    (x + 1 == v.nax && i.toNat * v.z % 128 != 0)))) 6 0 i.toNat
/-- A child's view (R265). -/
def View.child (v : View) (x i : Nat) (upper : Bool) : View :=
  if upper then { v with org := v.org.set x (axis v.org x + i), ext := v.ext.set x (axis v.ext x - i) }
  else { v with ext := v.ext.set x i }
/-- `hsplit` (R265). -/
def execHsplit (hd : CHead) (x : BitVec 2) (a b c : BitVec 4) (sl : BitVec 4) (s : State) : Host.Outcome State Fault Refusal :=
  let i := s.me.sReg sl.toNat
  issueC (.hsplit hd x a b c sl) hd
    { srcs := [.s sl.toNat],
      conds := splitBad s.me x.toNat a.toNat b.toNat c.toNat i ++ s.me.handleSrc a.toNat ++ s.me.handleDst b.toNat [a.toNat] ++
        s.me.handleDst c.toNat [a.toNat] ++ s.sliceFull 2 }
    (fun s =>
      let cl := s.myCluster
      let r := s.me.hReg a.toNat
      let p := r.val.entry
      let e0 := s.freeEntries.headD 0
      let e1 := (s.freeEntries.drop 1).headD 0
      let know := (s.lentry cl p).know
      let w0 := r.view.child x.toNat i.toNat false
      let w1 := r.view.child x.toNat i.toNat true
      let v0 : HVal := { cluster := cl, root := false, side := false, parent := p, entry := e0 }
      let s := ((s.takeEntry cl e0 know).takeEntry cl e1 know).lineageAt s.focus s.here.run
        [(cl, e0, s.makes p false false w0 b.toNat), (cl, e1, s.makes p false true w1 c.toNat), (cl, p, .split e0 e1)]
      s.onMe (fun k => ((k.setHandle a.toNat HReg.vacant).setHandle b.toNat { st := .live, val := v0, view := w0 }).setHandle c.toNat
        { st := .live, val := { v0 with side := true, entry := e1 }, view := w1 })) s
/-- `hsend` (R266): a remote request that leaves once the window writes of the handle and its ancestors have drained. -/
def execHsend (hd : CHead) (a : BitVec 4) (e : BitVec 5) (s : State) : Host.Outcome State Fault Refusal :=
  issueC (.hsend hd a e) hd
    { srcs := [.s e.toNat], conds := s.me.handleSrc a.toNat, reqs := 1, mol := 1 }
    (fun s =>
      let c := s.me
      let r := c.hReg a.toNat
      let dst := c.sReg e.toNat
      let ent : Entry :=
        { kind := 2, b1 := 0, seq := c.nseq, src := (s.srcOf s.focus s.here.run).field, payload := BitVec.ofNat 192 r.val.pack,
          ctxTo := wfld dst 20 4, placed := 0, fromCore := s.focus, fromCtx := s.here.run, know := [] }
      let task := wfld dst 0 20
      let s := (s.onMe (fun c => c.setHandle a.toNat HReg.vacant)).lineageAt s.focus s.here.run [(r.val.cluster, r.val.entry, .send)]
      let p := s.requestHeld (s.nearCore (s.srcOf s.focus s.here.run) task) none task (.hsend ent task r.val)
      p.2.soonAfter (s.gts + 3) (.hsendDepart p.1)) s
/-- WOUT of a handle's entry and of every ancestor is 0 (R266); a chain holds at most 1,024 entries. -/
def State.drained (s : State) (cl fuel e : Nat) : Bool :=
  match fuel with
  | 0 => true
  | n + 1 =>
    let le := s.lentry cl e
    le.wout == 0 && (le.root || le.parent == e || s.drained cl n le.parent)
/-- `HSEND_DEPART` (R266): as it leaves, its K gains that of every ancestor (R177). -/
def execHsendDepart (id : Nat) (s : State) : Host.Outcome State Fault Refusal :=
  match tfind s.bag id with
  | none => .next s
  | some m =>
    match m.body with
    | .hsend e task h =>
      let ahead := s.bag.any (fun p => p.1 < id && p.2.src == m.src && p.2.dst == m.dst && p.2.st == .going &&
        (match p.2.body with
         | .hsend e' _ _ => e'.ctxTo == e.ctxTo
         | _ => false))
      if s.drained h.cluster 1024 h.entry && !ahead then
        .next ((s.entryLearns h.cluster h.entry (s.ancestorsKnow h.cluster 1024 h.entry)).departTo id m task e.ctxTo true)
      else .next (s.soon (.hsendDepart id))
    | _ => .next s
/-- `hrecv` (R267). -/
def execHrecv (hd : CHead) (hh : BitVec 4) (s : State) : Host.Outcome State Fault Refusal :=
  issueC (.hrecv hd hh) hd { tok := some s.me.ltkRef, mol := 1, conds := s.me.handleDst hh.toNat [] }
    (fun s =>
      let pc := s.me.pc
      let i := s.here.run
      let s := s.onMe (fun c =>
        { ((c.raise c.ltkRef).setHandle hh.toNat { HReg.reset with st := .pending }) with wait := .hrecv hh.toNat s.gts })
      let s := s.serve s.focus i pc
      if s.me.wait.isSettled then s else s.switching) s
/-- Mismatched-rejoin (R268). -/
def joinBad (c : Ctx) (a b : Nat) : List Cond :=
  let x := (c.hReg a).val
  let y := (c.hReg b).val
  condIf (c.isLive a && c.isLive b && (x.root || y.root || x.parent != y.parent || x.side == y.side)) 23 0
    (x.entry + y.entry * 2 ^ 16)
/-- `hjoin` (R268). -/
def execHjoin (hd : CHead) (hh a b k : BitVec 4) (s : State) : Host.Outcome State Fault Refusal :=
  issueC (.hjoin hd hh a b k) hd
    { kfields := [k], tok := some (s.me.tokRef k.toNat),
      conds := s.me.handleSrc a.toNat ++ s.me.handleSrc b.toNat ++ s.me.handleDst hh.toNat [a.toNat, b.toNat] ++
        joinBad s.me a.toNat b.toNat }
    (fun s =>
      let t := s.me.tokRef k.toNat
      let x := (s.me.hReg a.toNat).val
      let y := (s.me.hReg b.toNat).val
      let cl := x.cluster
      let core := s.focus
      let run := s.here.run
      let s := s.lineageAt core run [(cl, x.entry, .joining), (cl, y.entry, .joining)]
      let s := s.onLentry cl x.parent (fun e => { e with waiter := some (core, run, t) })
      let s := s.onMe (fun c => (((c.raise t).setHandle a.toNat HReg.vacant).setHandle b.toNat HReg.vacant).setHandle hh.toNat
        { st := .pending, val := { cluster := cl, root := false, side := false, parent := 0, entry := x.parent }, view := View.none })
      s.stepAt (s.gts + 3) (.hjoinComplete core run hh.toNat)) s
/-- `HJOIN_COMPLETE`: in the first cycle in which the three counts are 0 the join is fixed for the next cycle (R268),
with K of the parent and of both children (R177). -/
def execHjoinComplete (core ctx reg : Nat) (s : State) : Host.Outcome State Fault Refusal :=
  let r := (s.ctxOf core ctx).hReg reg
  let cl := r.val.cluster
  let p := s.lentry cl r.val.entry
  match r.st, p.st, p.waiter with
  | .pending, .split, some (_, _, t) =>
    if p.wout == 0 && (s.lentry cl p.child0).wout == 0 && (s.lentry cl p.child1).wout == 0 then
      let know := joinSeen p.know (joinSeen (s.lentry cl p.child0).know (s.lentry cl p.child1).know)
      let s := s.onLentry cl r.val.entry (fun e => { e with waiter := none, know := know })
      .next (s.doneAt (s.gts + 1) core ctx
        [.handle reg (s.liveReg (s.valOf cl r.val.entry)), .freeEntry cl p.child0, .freeEntry cl p.child1,
         .owner cl r.val.entry reg, .learn know, .lower t])
    else .next (s.stepAt (s.gts + 1) (.hjoinComplete core ctx reg))
  | _, _, _ => .next s
/-- `hfree` (R269). -/
def execHfree (hd : CHead) (hh : BitVec 4) (s : State) : Host.Outcome State Fault Refusal :=
  let r := s.me.hReg hh.toNat
  issueC (.hfree hd hh) hd
    { tok := some s.me.ltkRef, conds := s.me.handleSrc hh.toNat ++ condIf (s.me.isLive hh.toNat && !r.val.root) 6 0 r.val.pack }
    (fun s =>
      let t := s.me.ltkRef
      let core := s.focus
      let run := s.here.run
      let s := s.onMe (fun c => (c.raise t).setHandle hh.toNat HReg.reset)
      let s := (s.onLentry r.val.cluster r.val.entry (fun e => { e with waiter := some (core, run, t) })).lineageAt core run
        [(r.val.cluster, r.val.entry, .freeing)]
      s.stepAt (s.gts + 3) (.hfreeComplete r.val.cluster r.val.entry)) s
/-- `HFREE_COMPLETE`: in the first cycle in which WOUT is 0 the end is fixed for the next cycle, in which K joins Seen (R269). -/
def execHfreeComplete (cl entry : Nat) (s : State) : Host.Outcome State Fault Refusal :=
  let e := s.lentry cl entry
  match e.st, e.waiter with
  | .freeing, some (core, ctx, t) =>
    if e.wout == 0 then
      let s := s.onLentry cl entry (fun e => { e with waiter := none })
      .next (s.doneAt (s.gts + 1) core ctx [.freeEntry cl entry, .learn e.know, .lower t])
    else .next (s.stepAt (s.gts + 1) (.hfreeComplete cl entry))
  | _, _ => .next s
/-- Four 16-bit fields, axis 0 lowest. -/
def packAxes (l : List Nat) : Nat := (List.range 4).foldl (fun acc a => acc + axis l a * 2 ^ (16 * a)) 0
/-- What `hinfo` reads (R270). -/
def State.handleInfo (s : State) (h f : Nat) : Nat :=
  let r := s.me.hReg h
  let v := r.view
  match f with
  | 0 => r.val.pack
  | 1 => v.typ % 16 + (v.nax - 1) * 2 ^ 4 + ofBool v.window * 2 ^ 6 + v.home % 16 * 2 ^ 8
  | 2 => packAxes v.org
  | 3 => packAxes v.ext
  | 4 => v.cells
  | 5 => v.cellAddr (memberOf s.focus) 0
  | 6 => r.st.code
  | _ => (s.lentry r.val.cluster r.val.entry).wout
/-- `hinfo` (R270). -/
def execHinfo (hd : CHead) (d : BitVec 5) (a : BitVec 4) (f : BitVec 3) (s : State) : Host.Outcome State Fault Refusal :=
  issueC (.hinfo hd d a f) hd
    { tok := some s.me.ltkRef, conds := if f = 6 then [] else s.me.handleSrc a.toNat }
    (fun s =>
      let t := s.me.ltkRef
      let val := s.handleInfo a.toNat f.toNat
      (s.longStart (.s d.toNat) t).doneAt (s.gts + 2) s.focus s.here.run
        [.write (.s d.toNat) val, .unpend (.s d.toNat), .lower t]) s
/-- The conditions of a cell access: Live, within the view, an own cell at or above the boundary (R271, R276). -/
def cellConds (s : State) (a : Nat) (i : Word) : List Cond :=
  let r := s.me.hReg a
  let addr := r.view.cellAddr (memberOf s.focus) i.toNat
  s.me.handleSrc a ++ condIf (s.me.isLive a && decide (r.view.cells ≤ i.toNat)) 24 0 i.toNat ++
    (if s.me.isLive a && decide (i.toNat < r.view.cells) then belowOwn s addr else [])
/-- `hldv` (R271): K of the handle joins Seen of the core first (R177). -/
def execHldv (hd : CHead) (v : BitVec 6) (a : BitVec 4) (sl : BitVec 5) (s : State) : Host.Outcome State Fault Refusal :=
  let i := s.me.sReg sl.toNat
  let r := s.me.hReg a.toNat
  let addr := r.view.cellAddr (memberOf s.focus) i.toNat
  let far := s.me.isLive a.toNat && isRemote addr
  issueC (.hldv hd v a sl) hd
    { srcs := [.s sl.toNat], vecs := [v.toNat], tok := some s.me.ltkRef, conds := cellConds s a.toNat i,
      reqs := if far then 1 else 0, mol := if far then 1 else 0, waits := s.lineHeld addr 128 }
    (fun s =>
      let t := s.me.ltkRef
      let s := (s.onMe (fun c => (c.raise t).startDest (.v v.toNat))).learn s.focus (s.lentry r.val.cluster r.val.entry).know
      if far then
        let no := s.me.nseq
        let s := s.onMe (fun c => { c with vloads := tput c.vloads no 1 })
        (s.request (s.dstOf addr) (some t) (.loadLine addr (laneAddrs (lanesFrom addr)) v.toNat no)
          (handle := some r.val.entry)).switching
      else
        let p := s.readLsMany s.focus s.focus 4 (lanesFrom addr)
        p.2.doneAt (s.gts + 4) s.focus s.here.run
          ([Act.write (.v v.toNat) (ofLanes p.1).toNat] ++ endDest (.v v.toNat) ++ [.lower t])) s
/-- `hstv` (R271): K joins Seen first, and the write's nodes join K (R177); a window write counts in the handle's WOUT until it is acknowledged. -/
def execHstv (hd : CHead) (v : BitVec 6) (a : BitVec 4) (sl : BitVec 5) (s : State) : Host.Outcome State Fault Refusal :=
  let i := s.me.sReg sl.toNat
  let r := s.me.hReg a.toNat
  let addr := r.view.cellAddr (memberOf s.focus) i.toNat
  let far := s.me.isLive a.toNat && isRemote addr
  issueC (.hstv hd v a sl) hd
    { srcs := [.v v.toNat, .s sl.toNat], vecs := [v.toNat], conds := cellConds s a.toNat i, reqs := if far then 1 else 0,
      mol := if far then 1 else 0, waits := s.lineHeld addr 128 }
    (fun s =>
      let data := s.me.vReg v.toNat
      let s := s.learn s.focus (s.lentry r.val.cluster r.val.entry).know
      if far then
        let s := s.onLentry r.val.cluster r.val.entry (fun e => { e with wout := e.wout + 1 })
        s.request (s.dstOf addr) none
          (.storeLine addr ((laneAddrs (lanesFrom addr)).map (fun p => (p.2, (vlane data p.1).toNat)))
            (some r.val.entry)) (handle := some r.val.entry)
      else
        let u := (laneAddrs (lanesFrom addr)).foldl (fun s p => s.storeLs s.focus s.focus p.2 4 (vlane data p.1).toNat) s
        u.entryLearns r.val.cluster r.val.entry (u.nodesAfter s.ctr ((List.range 128).map (fun j => .ls s.focus (addr + j))))) s

end Sys2Proof.Machine
end

