-- ==== Sys2Proof/Machine/Pantry.lean ====
section
/-! DEFINITION. Pantries (R293 to R298): descriptors, the five instructions and their grants. -/
namespace Sys2Proof.Machine

/-! ### Descriptors (R293) -/

/-- The fields of a descriptor. -/
structure Pan where
  base : Nat
  ssize : Nat
  count : Nat
  head : Nat
  tail : Nat
  relc : Nat
  cmtc : Nat
  zero : Nat
  states : Nat
deriving DecidableEq, Repr

def Pan.ofNat (n : Nat) : Pan :=
  { base := bits n 0 32, ssize := bits n 32 32, count := bits n 64 8, head := bits n 72 8, tail := bits n 80 8,
    relc := bits n 88 8, cmtc := bits n 96 8, zero := bits n 104 24, states := bits n 128 128 }
def Pan.toNat (p : Pan) : Nat :=
  p.base + p.ssize * 2 ^ 32 + p.count * 2 ^ 64 + p.head * 2 ^ 72 + p.tail * 2 ^ 80 + p.relc * 2 ^ 88 + p.cmtc * 2 ^ 96 +
    p.zero * 2 ^ 104 + p.states * 2 ^ 128
/-- The state code of stage j (R294). -/
def Pan.state (p : Pan) (j : Nat) : Nat := bits p.states (2 * j) 2
def Pan.setState (p : Pan) (j v : Nat) : Pan := { p with states := p.states + v * 4 ^ j - p.state j * 4 ^ j }
def Pan.stage (p : Pan) (j : Nat) : Nat := p.base + j * p.ssize
def Pan.after (p : Pan) (j : Nat) : Nat := (j + 1) % p.count
/-- What `pinit` checks (R293, R295); `low` is the fetch boundary of the home's control context. -/
def Pan.shapeOk (p : Pan) (low : Nat) : Bool :=
  decide (p.base < 2 ^ 19) && p.base % 128 == 0 && decide (128 ≤ p.ssize ∧ p.ssize ≤ 65536) && p.ssize % 128 == 0 &&
    decide (1 ≤ p.count ∧ p.count ≤ 64) && decide (p.base + p.count * p.ssize ≤ lsBytes) && decide (low ≤ p.base) &&
    p.zero == 0
/-- Every limit of a descriptor (R293). -/
def Pan.ok (p : Pan) (low : Nat) : Bool :=
  p.shapeOk low && decide (p.head < p.count) && decide (p.tail < p.count) && decide (p.relc < p.count) &&
    decide (p.cmtc < p.count) && p.states >>> (2 * p.count) == 0

/-- The five instructions. -/
inductive PanOp where
  | init | res | cmt | acq | rel
deriving DecidableEq, Repr
/-- The number of an instruction in a message. -/
def PanOp.code (o : PanOp) : Nat :=
  match o with
  | .init => 0
  | .res => 1
  | .cmt => 2
  | .acq => 3
  | .rel => 4
def PanOp.ofCode (n : Nat) : PanOp :=
  match n with
  | 0 => .init
  | 1 => .res
  | 2 => .cmt
  | 3 => .acq
  | _ => .rel

/-- What one instruction finds at a descriptor (R294 to R296): a refusal reason, no grant yet, or the descriptor after it
with the stage granted. -/
inductive PanRes where
  | refuse (reason : Nat)
  | wait
  | done (p : Pan) (stage : Nat)
deriving DecidableEq, Repr

def Pan.apply (p : Pan) (low : Nat) (op : PanOp) : PanRes :=
  match op with
  | .init =>
    if !p.shapeOk low then .refuse 16 else .done { p with head := 0, tail := 0, relc := 0, cmtc := 0, states := 0 } 0
  | .res =>
    if !p.ok low then .refuse 16
    else if p.state p.head = 0 then .done { p.setState p.head 1 with head := p.after p.head } p.head else .wait
  | .cmt =>
    if !p.ok low then .refuse 16
    else if p.state p.cmtc = 1 then .done { p.setState p.cmtc 2 with cmtc := p.after p.cmtc } p.cmtc else .refuse 8
  | .acq =>
    if !p.ok low then .refuse 16
    else if p.state p.tail = 2 then .done { p.setState p.tail 3 with tail := p.after p.tail } p.tail else .wait
  | .rel =>
    if !p.ok low then .refuse 16
    else if p.state p.relc = 3 then .done { p.setState p.relc 0 with relc := p.after p.relc } p.relc else .refuse 8

/-! ### At the home -/

/-- The descriptor at a local-store address. -/
def CoreSt.pan (x : CoreSt) (a : Nat) : Pan := Pan.ofNat (x.ls.readN a 32)
/-- The atomic step of a core on a descriptor (R294). -/
def State.setPan (s : State) (core home a : Nat) (p : Pan) : State := (s.atomicLs core home a 32 (fun _ => p.toNat)).2
/-- The published set of a stage (R299). -/
def CoreSt.stageSet (x : CoreSt) (a j : Nat) : Seen := tget x.stagePub [] (64 * a + j)
/-- A commit or a release adds to the published set of its stage (R299). -/
def State.publishStage (s : State) (home a j : Nat) (know : Seen) : State :=
  if know.isEmpty then s
  else s.onCore home (fun x => { x with stagePub := tput x.stagePub (64 * a + j) (joinSeen (x.stageSet a j) know) })
/-- A granted core acquires the published set of its stage (R299). -/
def State.acquireStage (s : State) (core home a j : Nat) : State := s.learn core ((s.coreOf home).stageSet a j)
/-- The result of an instruction at a home's descriptor. -/
def State.panResult (s : State) (home a : Nat) (op : PanOp) : PanRes :=
  ((s.coreOf home).pan a).apply (s.coreOf home).boundary op
/-- A stage's address as a core reaches it (R293). -/
def stageAddr (home core off : Nat) : Nat := if home = core then off else windowAddr (memberOf home) off
/-- Instructions in the deferred list (R296). -/
def Deferred.panOp (e : Deferred) : Option PanOp :=
  match e.op with
  | 1 => some .res
  | 2 => some .acq
  | _ => none
/-- A waiting `pres` or `pacq` of a descriptor can be granted. -/
def State.grantable (s : State) (home a : Nat) (e : Deferred) : Bool :=
  e.addr == a && (match e.panOp with
    | none => false
    | some op =>
      match s.panResult home a op with
      | .done _ _ => true
      | _ => false)
/-- The waiting requests of a descriptor are granted, oldest first, as far as its stages allow (R296). -/
def State.grantStages (s : State) (home a fuel : Nat) : State :=
  match fuel with
  | 0 => s
  | k + 1 =>
    match (s.coreOf home).deferred.find? (s.grantable home a) with
    | none => s
    | some e =>
      match e.panOp, e.msg with
      | some op, some id =>
        match s.panResult home a op, tfind s.bag id with
        | .done p j, some m =>
          let s := (s.setPan m.src.core home a p).onCore home (fun x => { x with deferred := x.deferred.erase e })
          let s := s.acquireStage m.src.core home a j
          (((s.granted home id 12).answer id [stageAddr home m.src.core (p.stage j)])).grantStages home a k
        | _, _ => s
      | _, _ => s
/-- A descriptor changes by a core's step; the grants that the change makes possible follow it. -/
def State.changePan (s : State) (core home a : Nat) (p : Pan) : State :=
  (s.setPan core home a p).grantStages home a ((s.coreOf home).deferred.length + 1)
/-- What an instruction publishes for the stage that it commits or releases (R295, R299). -/
def State.panRelease (s : State) (op : PanOp) (home a j : Nat) (know : Seen) : State :=
  match op with
  | .cmt => s.publishStage home a j know
  | .rel => s.publishStage home a j know
  | _ => s
/-- A pantry request through the window at its home (R294 to R296). -/
def State.pantryArrive (s : State) (home id : Nat) (m : Msg) (op : PanOp) (off a : Nat) : State :=
  match s.panResult home off op with
  | .refuse r => s.refuseMsg id r a
  | .wait =>
    match m.body with
    | .pantry _ _ d =>
      s.joinDeferred home
        { op := if op = .res then 1 else 2, addr := off, msg := some id, ctx := m.src.ctx, d := d, tok := m.tok.getD (.k 0) } id
    | _ => s
  | .done p j =>
    match op with
    | .res =>
      (((s.setPan m.src.core home off p).acquireStage m.src.core home off j).granted home id 12).answer id
        [stageAddr home m.src.core (p.stage j)]
    | .acq =>
      (((s.setPan m.src.core home off p).acquireStage m.src.core home off j).granted home id 12).answer id
        [stageAddr home m.src.core (p.stage j)]
    | _ =>
      let s := (s.panRelease op home off j m.know).countApplied home
      let s := s.onMsg id (fun m => { m with app := some (home, (s.coreOf home).appIdx, s.gts) })
      (s.changePan m.src.core home off p).acknowledge id
/-- A stage commit by a streamer operation with its Seen set (R297, R299): whether the stage was Reserved, and the state after
it. -/
def State.commitStage (s : State) (know : Seen) (home a loc : Nat) : State × Bool :=
  let p := (s.coreOf home).pan a
  let j := (loc - p.base) / p.ssize
  if p.ok (s.coreOf home).boundary && p.state j == 1 then
    let q := p.setState j 2
    let s := s.settleLs home a 32
    let r := s.noteWrite true know (Loc.ls home) (s.byteLs home) a 32 q.toNat
    let s := (r.2.onCore home (fun x => x.putLs a 32 q.toNat)).publishStage home a j r.1
    (s.grantStages home a ((s.coreOf home).deferred.length + 1), true)
  else (s, false)

/-! ### At the issuing core (R295, R296, R298) -/

/-- Conditions of a pantry instruction: the address, and in the own local store the refusal as bad-operand. -/
def panConds (s : State) (a : Nat) (op : PanOp) : List Cond :=
  misaligned a 32 ++ scalarBad s a false ++
    (match classify a with
     | .own x =>
       match s.panResult s.focus x op with
       | .refuse _ => condIf true 6 0 a
       | _ => []
     | _ => [])
/-- `pinit`, `pcmt` and `prel`; the published sets of the stages stand over a `pinit` (log 31). -/
def issuePan (i : Instr) (hd : CHead) (op : PanOp) (a : BitVec 5) (waits : Bool) (s : State) : Host.Outcome State Fault Refusal :=
  let x := (s.me.sReg a.toNat).toNat
  issueC i hd
    { srcs := [.s a.toNat], conds := panConds s x op, reqs := if isRemote x then 1 else 0, mol := if isRemote x then 1 else 0,
      waits := waits || s.lineHeld x 32 }
    (fun s =>
      if isRemote x then s.request (s.dstOf x) none (.pantry op.code x 0) (know := s.here.seen)
      else
        match s.panResult s.focus x op with
        | .done p j => (s.panRelease op s.focus x j s.here.seen).changePan s.focus s.focus x p
        | _ => s) s
/-- `pres` and `pacq`: long-latency on CCTL.LTK; a grant on arrival at the own store writes sD at issue + 3. -/
def issuePanTake (i : Instr) (hd : CHead) (op : PanOp) (d a : BitVec 5) (s : State) : Host.Outcome State Fault Refusal :=
  let x := (s.me.sReg a.toNat).toNat
  let r := RegId.s d.toNat
  issueC i hd
    { srcs := [.s a.toNat], conds := panConds s x op, tok := some s.me.ltkRef, reqs := if isRemote x then 1 else 0,
      mol := if isRemote x then 2 else 1, waits := s.lineHeld x 32 }
    (fun s =>
      let t := s.me.ltkRef
      let s := s.onMe (fun c => { (c.raise t).addPending r with wait := .pantry x })
      if isRemote x then (s.request (s.dstOf x) (some t) (.pantry op.code x d.toNat)).switching
      else
        match s.panResult s.focus x op with
        | .done p j =>
          let s := ((s.setPan s.focus s.focus x p).acquireStage s.focus s.focus x j).countApplied s.focus
          let s := s.molEntry s.focus s.here.run 5 12 0 s.me.pc.toNat s.focus s.here.appIdx s.gts
          s.doneAt (s.gts + 3) s.focus s.here.run [.write r (p.stage j), .unpend r, .lower t, .readyNext]
        | _ =>
          let p := s.localMsg t (.pantry op.code x d.toNat)
          (p.2.joinDeferred s.focus
            { op := if op = .res then 1 else 2, addr := x, msg := some p.1, ctx := s.here.run, d := d.toNat, tok := t } p.1).switching) s
/-- `pinit` (R295). -/
def execPinit (hd : CHead) (a : BitVec 5) (s : State) : Host.Outcome State Fault Refusal := issuePan (.pinit hd a) hd .init a false s
/-- `pres` (R296). -/
def execPres (hd : CHead) (d a : BitVec 5) (s : State) : Host.Outcome State Fault Refusal := issuePanTake (.pres hd d a) hd .res d a s
/-- `pcmt` (R295): issues once ORC.COUNT = 0. -/
def execPcmt (hd : CHead) (a : BitVec 5) (s : State) : Host.Outcome State Fault Refusal :=
  issuePan (.pcmt hd a) hd .cmt a (!s.me.out.isEmpty) s
/-- `pacq` (R296). -/
def execPacq (hd : CHead) (d a : BitVec 5) (s : State) : Host.Outcome State Fault Refusal := issuePanTake (.pacq hd d a) hd .acq d a s
/-- `prel` (R295): issues once ORC.COUNT = 0 and the condition of `fence.acq` holds. -/
def execPrel (hd : CHead) (a : BitVec 5) (s : State) : Host.Outcome State Fault Refusal :=
  issuePan (.prel hd a) hd .rel a (!s.me.out.isEmpty || !s.me.acq.isEmpty) s

end Sys2Proof.Machine
end

