-- ==== Sys2Proof/Machine/Vector.lean ====
section
/-! DEFINITION. Vector and predicate instructions of the A slot (R199 to R212), with the latencies of R101. -/
namespace Sys2Proof.Machine

/-! ### Lanes -/

/-- Lane i as a number (R199). -/
def laneOf (v : VReg) (i : Nat) : Nat := (vlane v i).toNat
/-- Element i of width w bits of a packed register (R199). -/
def packedOf (v : VReg) (w i : Nat) : Nat := (v.toNat >>> (w * i)) % 2 ^ w
/-- A register from packed elements of width w bits, element 0 first. -/
def ofPacked (w : Nat) (es : List Nat) : Nat := es.foldr (fun e acc => e % 2 ^ w + acc * 2 ^ w) 0
/-- The result of R201: governed lanes take f, the others keep vD. -/
def governed (p : BitVec 32) (old : VReg) (f : Nat → Nat) : Nat :=
  ofPacked 32 ((List.range 32).map (fun i => if p.getLsbD i then f i else laneOf old i))
/-- A 32-bit lane read as the type's integer (R202): signed under `.i32`. -/
def laneInt (t x : Nat) : Int := readInt (t == 2) 32 x

/-! ### Lane operations: type code, generated NaN, a, b, d -/

def lAdd (t : Nat) (gen : Val) (a b _d : Nat) : Nat := if t = 8 then fAdd .f32 gen a b else (a + b) % 2 ^ 32
def lSub (t : Nat) (gen : Val) (a b _d : Nat) : Nat := if t = 8 then fSub .f32 gen a b else (a + 2 ^ 32 - b) % 2 ^ 32
def lMul (t : Nat) (gen : Val) (a b _d : Nat) : Nat := if t = 8 then fMul .f32 gen a b else a * b % 2 ^ 32
def lFma (_t : Nat) (gen : Val) (a b d : Nat) : Nat := fFma .f32 gen a b d
def lFms (_t : Nat) (gen : Val) (a b d : Nat) : Nat := fFms .f32 gen a b d
def lMin (t : Nat) (gen : Val) (a b _d : Nat) : Nat :=
  if t = 8 then fMin .f32 gen a b else if laneInt t b < laneInt t a then b else a
def lMax (t : Nat) (gen : Val) (a b _d : Nat) : Nat :=
  if t = 8 then fMax .f32 gen a b else if laneInt t a < laneInt t b then b else a
def lAnd (_t : Nat) (_gen : Val) (a b _d : Nat) : Nat := a &&& b
def lOr (_t : Nat) (_gen : Val) (a b _d : Nat) : Nat := a ||| b
def lXor (_t : Nat) (_gen : Val) (a b _d : Nat) : Nat := a ^^^ b
def lShl (_t : Nat) (_gen : Val) (a b _d : Nat) : Nat := a * 2 ^ (b % 32) % 2 ^ 32
/-- Arithmetic under `.i32`, logical under `.n32` (R202). -/
def lShr (t : Nat) (_gen : Val) (a b _d : Nat) : Nat := wrapInt 32 ((laneInt t a).fdiv (2 ^ (b % 32) : Nat))
/-- min(max(d, a), b) (R204). -/
def lClamp (t : Nat) (gen : Val) (a b d : Nat) : Nat := lMin t gen (lMax t gen d a d) b d
/-- The dot product of R210. -/
def lDot (_t : Nat) (_gen : Val) (a b d : Nat) : Nat :=
  wrapInt 32 ((d : Int) + ((List.range 4).map (fun j =>
    readInt true 8 (a >>> (8 * j)) * readInt true 8 (b >>> (8 * j)))).foldl (· + ·) 0)
/-- The comparison of R206. -/
def lCmp (c t : Nat) (a b : Nat) : Bool :=
  if t = 8 then fCompare .f32 c a b else iCompare c (laneInt t a) (laneInt t b)
/-- The one-source operations of R205. -/
def lAbs (t : Nat) (_gen : Val) (a : Nat) : Nat :=
  if t = 8 then fAbs .f32 a else wrapInt 32 ((readInt true 32 a).natAbs : Int)
def lNeg (t : Nat) (_gen : Val) (a : Nat) : Nat := if t = 8 then fNeg .f32 a else (2 ^ 32 - a) % 2 ^ 32
def lRcp (_t : Nat) (_gen : Val) (a : Nat) : Nat := fRcp .f32 a
def lRsqrt (_t : Nat) (gen : Val) (a : Nat) : Nat := fRsqrt .f32 gen true a
def lExp2 (_t : Nat) (_gen : Val) (a : Nat) : Nat := fExp2 .f32 a
def lLog2 (_t : Nat) (gen : Val) (a : Nat) : Nat := fLog2 .f32 gen a

/-! ### The tree of R195 -/

/-- One level: adjacent pairs combined. -/
def treeLevel (f : Nat → Nat → Nat) (l : List Nat) : List Nat :=
  match l with
  | a :: b :: rest => f a b :: treeLevel f rest
  | l => l
/-- The tree over at most 2^n values. -/
def tree (f : Nat → Nat → Nat) (n : Nat) (l : List Nat) : Nat :=
  match n with
  | 0 => l.headD 0
  | k + 1 => tree f k (treeLevel f l)
/-- The identity of a reduction (R195). -/
def redIdentity (o t : Nat) : Nat :=
  match o with
  | 0 => if t = 8 then 0x80000000 else 0
  | 1 => if t = 8 then 0x7F800000 else if t = 2 then 0x7FFFFFFF else 0xFFFFFFFF
  | 2 => if t = 8 then 0xFF800000 else if t = 2 then 0x80000000 else 0
  | 3 => 0xFFFFFFFF
  | _ => 0
/-- The node of a reduction. -/
def redNode (o t : Nat) (gen : Val) (a b : Nat) : Nat :=
  match o with
  | 0 => lAdd t gen a b 0
  | 1 => lMin t gen a b 0
  | 2 => lMax t gen a b 0
  | 3 => a &&& b
  | 4 => a ||| b
  | _ => a ^^^ b
/-- `vred` (R209): the tree over the governed lanes, the others entering as the identity. -/
def vReduce (o t : Nat) (gen : Val) (p : BitVec 32) (v : VReg) : Nat :=
  tree (redNode o t gen) 5 ((List.range 32).map (fun i => if p.getLsbD i then laneOf v i else redIdentity o t))

/-! ### Conversion and splat -/

/-- `vcvt` (R208): packed elements converted, kept where the predicate is 0, the rest of a narrow result cleared. -/
def vConvert (td ts : Nat) (p : BitVec 32) (a old : VReg) : Nat :=
  let wd := typeWidth td
  ofPacked wd ((List.range 32).map (fun i =>
    if p.getLsbD i then
      (let e := packedOf a (typeWidth ts) i
       if td = ts then e else convElem td ts e)
    else packedOf old wd i))
/-- The pattern that `vsplat` writes (R211). -/
def splatPattern (t x : Nat) : Nat :=
  match typeBytes t with
  | 4 => x % 2 ^ 32
  | 2 => x % 2 ^ 16 * 0x10001
  | _ => x % 2 ^ 8 * 0x1010101

/-! ### Issue of vector words -/

/-- What a governed vector word reads and names (R201): vD is a source when p is not p0 or the operation uses d. Their order
is the one in which a condition names them: vA, vB, sB, p, vD for reads, and vD, vA, vB for quota (log 33). -/
def vUse (d : BitVec 6) (vs : List (BitVec 6)) (ss : List (BitVec 5)) (p : BitVec 3) (usesD : Bool) : Use :=
  { srcs := vs.map (fun v => RegId.v v.toNat) ++ ss.map (fun x => RegId.s x.toNat) ++ [.p p.toNat] ++
      (if usesD || p != 0 then [.v d.toNat] else []),
    vecs := d.toNat :: vs.map (fun v => v.toNat) }
/-- Latencies of the integer and floating forms (R101). -/
def vLat (t int fp : Nat) : Nat := if t = 8 then fp else int
/-- A governed word with two vector sources. -/
def issueVV (i : Instr) (f : Nat → Val → Nat → Nat → Nat → Nat) (usesD : Bool) (t lat : Nat) (d a b : BitVec 6)
    (p : BitVec 3) (s : State) : Host.Outcome State Fault Refusal :=
  issueA i (vUse d [a, b] [] p usesD) (fun s =>
    let c := s.me
    let va := c.vReg a.toNat
    let vb := c.vReg b.toNat
    let vd := c.vReg d.toNat
    s.fixedWrite (.v d.toNat)
      (governed (c.pReg p.toNat) vd (fun n => f t s.genF32 (laneOf va n) (laneOf vb n) (laneOf vd n))) lat) s
/-- A governed word whose second source is a scalar (R201). -/
def issueVS (i : Instr) (f : Nat → Val → Nat → Nat → Nat → Nat) (usesD : Bool) (t lat : Nat) (d a : BitVec 6)
    (b : BitVec 5) (p : BitVec 3) (s : State) : Host.Outcome State Fault Refusal :=
  issueA i (vUse d [a] [b] p usesD) (fun s =>
    let c := s.me
    let va := c.vReg a.toNat
    let x := f32Of (c.sReg b.toNat)
    let vd := c.vReg d.toNat
    s.fixedWrite (.v d.toNat)
      (governed (c.pReg p.toNat) vd (fun n => f t s.genF32 (laneOf va n) x (laneOf vd n))) lat) s
/-- A governed word with one vector source. -/
def issueV1 (i : Instr) (f : Nat → Val → Nat → Nat) (t lat : Nat) (d a : BitVec 6) (p : BitVec 3) (s : State) :
    Host.Outcome State Fault Refusal :=
  issueA i (vUse d [a] [] p false) (fun s =>
    let c := s.me
    let va := c.vReg a.toNat
    s.fixedWrite (.v d.toNat)
      (governed (c.pReg p.toNat) (c.vReg d.toNat) (fun n => f t s.genF32 (laneOf va n))) lat) s

/-- `vadd` (R202). -/
def execVadd (d a b : BitVec 6) (t : BitVec 4) (p : BitVec 3) (s : State) : Host.Outcome State Fault Refusal :=
  issueVV (.vadd d a b t p) lAdd false t.toNat (vLat t.toNat 2 4) d a b p s
/-- `vadd` with a scalar second source (R202). -/
def execVaddS (d a : BitVec 6) (b : BitVec 5) (t : BitVec 4) (p : BitVec 3) (s : State) : Host.Outcome State Fault Refusal :=
  issueVS (.vaddS d a b t p) lAdd false t.toNat (vLat t.toNat 2 4) d a b p s
/-- `vsub` (R202). -/
def execVsub (d a b : BitVec 6) (t : BitVec 4) (p : BitVec 3) (s : State) : Host.Outcome State Fault Refusal :=
  issueVV (.vsub d a b t p) lSub false t.toNat (vLat t.toNat 2 4) d a b p s
/-- `vsub` with a scalar second source (R202). -/
def execVsubS (d a : BitVec 6) (b : BitVec 5) (t : BitVec 4) (p : BitVec 3) (s : State) : Host.Outcome State Fault Refusal :=
  issueVS (.vsubS d a b t p) lSub false t.toNat (vLat t.toNat 2 4) d a b p s
/-- `vmul` (R202). -/
def execVmul (d a b : BitVec 6) (t : BitVec 4) (p : BitVec 3) (s : State) : Host.Outcome State Fault Refusal :=
  issueVV (.vmul d a b t p) lMul false t.toNat (vLat t.toNat 3 4) d a b p s
/-- `vmul` with a scalar second source (R202). -/
def execVmulS (d a : BitVec 6) (b : BitVec 5) (t : BitVec 4) (p : BitVec 3) (s : State) : Host.Outcome State Fault Refusal :=
  issueVS (.vmulS d a b t p) lMul false t.toNat (vLat t.toNat 3 4) d a b p s
/-- `vfma` (R203). -/
def execVfma (d a b : BitVec 6) (t : BitVec 4) (p : BitVec 3) (s : State) : Host.Outcome State Fault Refusal :=
  issueVV (.vfma d a b t p) lFma true t.toNat 4 d a b p s
/-- `vfma` with a scalar second source (R203). -/
def execVfmaS (d a : BitVec 6) (b : BitVec 5) (t : BitVec 4) (p : BitVec 3) (s : State) : Host.Outcome State Fault Refusal :=
  issueVS (.vfmaS d a b t p) lFma true t.toNat 4 d a b p s
/-- `vfms` (R203). -/
def execVfms (d a b : BitVec 6) (t : BitVec 4) (p : BitVec 3) (s : State) : Host.Outcome State Fault Refusal :=
  issueVV (.vfms d a b t p) lFms true t.toNat 4 d a b p s
/-- `vfms` with a scalar second source (R203). -/
def execVfmsS (d a : BitVec 6) (b : BitVec 5) (t : BitVec 4) (p : BitVec 3) (s : State) : Host.Outcome State Fault Refusal :=
  issueVS (.vfmsS d a b t p) lFms true t.toNat 4 d a b p s
/-- `vmin` (R204). -/
def execVmin (d a b : BitVec 6) (t : BitVec 4) (p : BitVec 3) (s : State) : Host.Outcome State Fault Refusal :=
  issueVV (.vmin d a b t p) lMin false t.toNat (vLat t.toNat 2 4) d a b p s
/-- `vmin` with a scalar second source (R204). -/
def execVminS (d a : BitVec 6) (b : BitVec 5) (t : BitVec 4) (p : BitVec 3) (s : State) : Host.Outcome State Fault Refusal :=
  issueVS (.vminS d a b t p) lMin false t.toNat (vLat t.toNat 2 4) d a b p s
/-- `vmax` (R204). -/
def execVmax (d a b : BitVec 6) (t : BitVec 4) (p : BitVec 3) (s : State) : Host.Outcome State Fault Refusal :=
  issueVV (.vmax d a b t p) lMax false t.toNat (vLat t.toNat 2 4) d a b p s
/-- `vmax` with a scalar second source (R204). -/
def execVmaxS (d a : BitVec 6) (b : BitVec 5) (t : BitVec 4) (p : BitVec 3) (s : State) : Host.Outcome State Fault Refusal :=
  issueVS (.vmaxS d a b t p) lMax false t.toNat (vLat t.toNat 2 4) d a b p s
/-- `vand` (R202). -/
def execVand (d a b : BitVec 6) (t : BitVec 4) (p : BitVec 3) (s : State) : Host.Outcome State Fault Refusal :=
  issueVV (.vand d a b t p) lAnd false t.toNat 2 d a b p s
/-- `vand` with a scalar second source (R202). -/
def execVandS (d a : BitVec 6) (b : BitVec 5) (t : BitVec 4) (p : BitVec 3) (s : State) : Host.Outcome State Fault Refusal :=
  issueVS (.vandS d a b t p) lAnd false t.toNat 2 d a b p s
/-- `vor` (R202). -/
def execVor (d a b : BitVec 6) (t : BitVec 4) (p : BitVec 3) (s : State) : Host.Outcome State Fault Refusal :=
  issueVV (.vor d a b t p) lOr false t.toNat 2 d a b p s
/-- `vor` with a scalar second source (R202). -/
def execVorS (d a : BitVec 6) (b : BitVec 5) (t : BitVec 4) (p : BitVec 3) (s : State) : Host.Outcome State Fault Refusal :=
  issueVS (.vorS d a b t p) lOr false t.toNat 2 d a b p s
/-- `vxor` (R202). -/
def execVxor (d a b : BitVec 6) (t : BitVec 4) (p : BitVec 3) (s : State) : Host.Outcome State Fault Refusal :=
  issueVV (.vxor d a b t p) lXor false t.toNat 2 d a b p s
/-- `vxor` with a scalar second source (R202). -/
def execVxorS (d a : BitVec 6) (b : BitVec 5) (t : BitVec 4) (p : BitVec 3) (s : State) : Host.Outcome State Fault Refusal :=
  issueVS (.vxorS d a b t p) lXor false t.toNat 2 d a b p s
/-- `vshl` (R202). -/
def execVshl (d a b : BitVec 6) (t : BitVec 4) (p : BitVec 3) (s : State) : Host.Outcome State Fault Refusal :=
  issueVV (.vshl d a b t p) lShl false t.toNat 2 d a b p s
/-- `vshl` with a scalar second source (R202). -/
def execVshlS (d a : BitVec 6) (b : BitVec 5) (t : BitVec 4) (p : BitVec 3) (s : State) : Host.Outcome State Fault Refusal :=
  issueVS (.vshlS d a b t p) lShl false t.toNat 2 d a b p s
/-- `vshr` (R202). -/
def execVshr (d a b : BitVec 6) (t : BitVec 4) (p : BitVec 3) (s : State) : Host.Outcome State Fault Refusal :=
  issueVV (.vshr d a b t p) lShr false t.toNat 2 d a b p s
/-- `vshr` with a scalar second source (R202). -/
def execVshrS (d a : BitVec 6) (b : BitVec 5) (t : BitVec 4) (p : BitVec 3) (s : State) : Host.Outcome State Fault Refusal :=
  issueVS (.vshrS d a b t p) lShr false t.toNat 2 d a b p s
/-- `vclamp` (R204). -/
def execVclamp (d a b : BitVec 6) (t : BitVec 4) (p : BitVec 3) (s : State) : Host.Outcome State Fault Refusal :=
  issueVV (.vclamp d a b t p) lClamp true t.toNat (vLat t.toNat 2 4) d a b p s
/-- `vdot.i8` (R210). -/
def execVdotI8 (d a b : BitVec 6) (p : BitVec 3) (s : State) : Host.Outcome State Fault Refusal :=
  issueVV (.vdotI8 d a b p) lDot true 0 4 d a b p s
/-- `vabs` (R205). -/
def execVabs (d a : BitVec 6) (t : BitVec 4) (p : BitVec 3) (s : State) : Host.Outcome State Fault Refusal :=
  issueV1 (.vabs d a t p) lAbs t.toNat (vLat t.toNat 2 4) d a p s
/-- `vneg` (R205). -/
def execVneg (d a : BitVec 6) (t : BitVec 4) (p : BitVec 3) (s : State) : Host.Outcome State Fault Refusal :=
  issueV1 (.vneg d a t p) lNeg t.toNat (vLat t.toNat 2 4) d a p s
/-- `vrcp` (R205). -/
def execVrcp (d a : BitVec 6) (t : BitVec 4) (p : BitVec 3) (s : State) : Host.Outcome State Fault Refusal :=
  issueV1 (.vrcp d a t p) lRcp t.toNat 8 d a p s
/-- `vrsqrt` (R205). -/
def execVrsqrt (d a : BitVec 6) (t : BitVec 4) (p : BitVec 3) (s : State) : Host.Outcome State Fault Refusal :=
  issueV1 (.vrsqrt d a t p) lRsqrt t.toNat 8 d a p s
/-- `vexp2` (R205). -/
def execVexp2 (d a : BitVec 6) (t : BitVec 4) (p : BitVec 3) (s : State) : Host.Outcome State Fault Refusal :=
  issueV1 (.vexp2 d a t p) lExp2 t.toNat 8 d a p s
/-- `vlog2` (R205). -/
def execVlog2 (d a : BitVec 6) (t : BitVec 4) (p : BitVec 3) (s : State) : Host.Outcome State Fault Refusal :=
  issueV1 (.vlog2 d a t p) lLog2 t.toNat 8 d a p s
/-- `vperm` (R211). -/
def execVperm (d a b : BitVec 6) (t : BitVec 4) (p : BitVec 3) (s : State) : Host.Outcome State Fault Refusal :=
  issueA (.vperm d a b t p) (vUse d [a, b] [] p false) (fun s =>
    let c := s.me
    s.fixedWrite (.v d.toNat) (governed (c.pReg p.toNat) (c.vReg d.toNat)
      (fun n => laneOf (c.vReg a.toNat) (laneOf (c.vReg b.toNat) n % 32))) 2) s
/-- `vsel` (R207): p selects, so vD is not read. -/
def execVsel (d a b : BitVec 6) (t : BitVec 4) (p : BitVec 3) (s : State) : Host.Outcome State Fault Refusal :=
  issueA (.vsel d a b t p) { srcs := [.v a.toNat, .v b.toNat, .p p.toNat], vecs := [d.toNat, a.toNat, b.toNat] } (fun s =>
    let c := s.me
    s.fixedWrite (.v d.toNat) (governed (c.pReg p.toNat) (c.vReg b.toNat) (laneOf (c.vReg a.toNat))) 2) s
/-- The lanes of a compare's predicate (R206). -/
def cmpLanes (p : BitVec 32) (f : Nat → Bool) : Nat :=
  ofPacked 1 ((List.range 32).map (fun n => ofBool (p.getLsbD n && f n)))
/-- `vcmp` (R206). -/
def execVcmp (d c : BitVec 3) (a b : BitVec 6) (t : BitVec 4) (p : BitVec 3) (s : State) : Host.Outcome State Fault Refusal :=
  issueA (.vcmp d c a b t p) { srcs := [.v a.toNat, .v b.toNat, .p p.toNat], vecs := [a.toNat, b.toNat] } (fun s =>
    let x := s.me
    s.fixedWrite (.p d.toNat) (cmpLanes (x.pReg p.toNat)
      (fun n => lCmp c.toNat t.toNat (laneOf (x.vReg a.toNat) n) (laneOf (x.vReg b.toNat) n))) 2) s
/-- `vcmp` with a scalar second source (R206). -/
def execVcmpS (d c : BitVec 3) (a : BitVec 6) (b : BitVec 5) (t : BitVec 4) (p : BitVec 3) (s : State) : Host.Outcome State Fault Refusal :=
  issueA (.vcmpS d c a b t p) { srcs := [.v a.toNat, .s b.toNat, .p p.toNat], vecs := [a.toNat] } (fun s =>
    let x := s.me
    s.fixedWrite (.p d.toNat) (cmpLanes (x.pReg p.toNat)
      (fun n => lCmp c.toNat t.toNat (laneOf (x.vReg a.toNat) n) (f32Of (x.sReg b.toNat)))) 2) s
/-- `vcvt` (R208). -/
def execVcvt (d a : BitVec 6) (td ts : BitVec 4) (p : BitVec 3) (s : State) : Host.Outcome State Fault Refusal :=
  issueA (.vcvt d a td ts p) (vUse d [a] [] p false) (fun s =>
    let c := s.me
    s.fixedWrite (.v d.toNat)
      (vConvert td.toNat ts.toNat (c.pReg p.toNat) (c.vReg a.toNat) (c.vReg d.toNat)) 3) s
/-- `vred` (R209): the result in all 32 lanes, vD not read. -/
def execVred (d a : BitVec 6) (o : BitVec 3) (t : BitVec 4) (p : BitVec 3) (s : State) : Host.Outcome State Fault Refusal :=
  issueA (.vred d a o t p) { srcs := [.v a.toNat, .p p.toNat], vecs := [d.toNat, a.toNat] } (fun s =>
    let c := s.me
    s.fixedWrite (.v d.toNat)
      (ofPacked 32 (List.replicate 32 (vReduce o.toNat t.toNat s.genF32 (c.pReg p.toNat) (c.vReg a.toNat)))) 6) s
/-- `vbcast` (R211). -/
def execVbcast (d a : BitVec 6) (e : BitVec 5) (p : BitVec 3) (s : State) : Host.Outcome State Fault Refusal :=
  issueA (.vbcast d a e p) (vUse d [a] [] p false) (fun s =>
    let c := s.me
    s.fixedWrite (.v d.toNat)
      (governed (c.pReg p.toNat) (c.vReg d.toNat) (fun _ => laneOf (c.vReg a.toNat) e.toNat)) 2) s
/-- `vsplat` (R211). -/
def execVsplat (d : BitVec 6) (a : BitVec 5) (t : BitVec 4) (p : BitVec 3) (s : State) : Host.Outcome State Fault Refusal :=
  issueA (.vsplat d a t p) (vUse d [] [a] p false) (fun s =>
    let c := s.me
    s.fixedWrite (.v d.toNat)
      (governed (c.pReg p.toNat) (c.vReg d.toNat) (fun _ => splatPattern t.toNat (c.sReg a.toNat).toNat)) 2) s
/-- `vext` (R211). -/
def execVext (d : BitVec 5) (a : BitVec 6) (e : BitVec 5) (s : State) : Host.Outcome State Fault Refusal :=
  issueA (.vext d a e) { srcs := [.v a.toNat], vecs := [a.toNat] } (fun s =>
    s.fixedWrite (.s d.toNat) (laneOf (s.me.vReg a.toNat) e.toNat) 2) s
/-- `vins` (R211): vD is read (R201). -/
def execVins (d : BitVec 6) (a e : BitVec 5) (s : State) : Host.Outcome State Fault Refusal :=
  issueA (.vins d a e) { srcs := [.s a.toNat, .v d.toNat], vecs := [d.toNat] } (fun s =>
    let c := s.me
    s.fixedWrite (.v d.toNat) (setLane (c.vReg d.toNat) e.toNat (f32Of (c.sReg a.toNat))).toNat 2) s
/-- `pset` (R212). -/
def execPset (d : BitVec 3) (a : BitVec 5) (s : State) : Host.Outcome State Fault Refusal :=
  issueA (.pset d a) { srcs := [.s a.toNat] } (fun s => s.fixedWrite (.p d.toNat) (f32Of (s.me.sReg a.toNat)) 1) s
/-- `pand` (R212). -/
def execPand (d a b : BitVec 3) (s : State) : Host.Outcome State Fault Refusal :=
  issueA (.pand d a b) { srcs := [.p a.toNat, .p b.toNat] }
    (fun s => s.fixedWrite (.p d.toNat) (s.me.pReg a.toNat &&& s.me.pReg b.toNat).toNat 1) s
/-- `por` (R212). -/
def execPor (d a b : BitVec 3) (s : State) : Host.Outcome State Fault Refusal :=
  issueA (.por d a b) { srcs := [.p a.toNat, .p b.toNat] }
    (fun s => s.fixedWrite (.p d.toNat) (s.me.pReg a.toNat ||| s.me.pReg b.toNat).toNat 1) s
/-- `pnot` (R212). -/
def execPnot (d a : BitVec 3) (s : State) : Host.Outcome State Fault Refusal :=
  issueA (.pnot d a) { srcs := [.p a.toNat] } (fun s => s.fixedWrite (.p d.toNat) (~~~ (s.me.pReg a.toNat)).toNat 1) s

end Sys2Proof.Machine
end

