-- ==== Sys2Proof/Machine/Engines.lean ====
section
/-! DEFINITION. Streamers (R277 to R292, R297, R300): commands, steps, completions and collectives. -/
namespace Sys2Proof.Machine

/-! ### Parameter blocks (R280) and geometry (R285, R286) -/

/-- A 64-bit field as a signed number. -/
def signed64 (n : Nat) : Int := (BitVec.ofNat 64 n).toInt
/-- The fields of a block of 64 bytes. -/
def Block.ofNat (n : Nat) : Block :=
  { mode := bits n 0 2, det := bit n 2, dk := bits n 8 8, span := bits n 16 3, opx := bits n 24 8, tag := bits n 32 32,
    va := bits n 64 64, loc := bits n 128 64, rows := bits n 192 32, rowb := bits n 224 32, vstr := signed64 (bits n 256 64),
    lstr := bits n 320 32, aux := bits n 352 32, geom := bits n 384 64, upc := bits n 448 32 }
/-- A nonzero bit that R280 reserves in every block. -/
def blockReserved (n : Nat) : Bool := bits n 3 5 != 0 || bits n 19 5 != 0 || bits n 480 32 != 0
def Block.x0 (b : Block) : Nat := bits b.geom 0 7
def Block.y0 (b : Block) : Nat := bits b.geom 8 6
def Block.gw (b : Block) : Nat := bits b.geom 16 7
def Block.gh (b : Block) : Nat := bits b.geom 24 7
def Block.br (b : Block) : Nat := bits b.geom 32 16
/-- The rectangle of a DK 2 block keeps the limits of R286. -/
def Block.geomOk (b : Block) : Bool :=
  !bit b.geom 7 && bits b.geom 14 2 == 0 && !bit b.geom 23 && !bit b.geom 31 && bits b.geom 48 16 == 0 &&
    decide (b.x0 ≤ 79) && decide (1 ≤ b.gw ∧ b.gw ≤ 80) && decide (1 ≤ b.gh ∧ b.gh ≤ 64) && decide (1 ≤ b.br) &&
    decide (b.x0 + b.gw ≤ 80) && decide (b.y0 + b.gh ≤ 64)
/-- The core and local row of row r in a rectangle (R286). -/
def Block.meshRow (b : Block) (r : Nat) : Nat × Nat :=
  let k := r / b.br
  let q := k % (b.gw * b.gh)
  (coreAt (b.x0 + q % b.gw) (b.y0 + q / b.gw), k / (b.gw * b.gh) * b.br + r % b.br)
/-- The highest local row that any core of the rectangle receives (R286). -/
def Block.topRow (b : Block) : Nat :=
  let last := (b.rows - 1) / b.br
  let l := last / (b.gw * b.gh)
  if l * (b.gw * b.gh) < last then l * b.br + b.br - 1 else l * b.br + (b.rows - 1) % b.br
/-- The local address of byte j of local row r, swizzled in row m (R285). -/
def Block.localAt (b : Block) (r m j : Nat) : Nat := b.loc + ((r * b.lstr + j) ^^^ (m % 2 ^ b.span * 16))
/-- Where an element of the local side lies: a byte of a core's local store, of its B store, or nowhere. -/
inductive Local where
  | ls (core a : Nat)
  | loft (core a : Nat)
  | nowhere
deriving DecidableEq, Repr
/-- The place of byte j of row r (R285, R286) for a command of a core. -/
def Block.localPlace (b : Block) (core r j : Nat) : Local :=
  match b.dk with
  | 1 => .loft core (b.loc + r * b.lstr + j)
  | 2 =>
    let p := b.meshRow r
    .ls p.1 (b.localAt p.2 p.2 j)
  | _ =>
    match classify (b.localAt r r j) with
    | .own a => .ls core a
    | .window m off => .ls (coreIn (clusterOf core) m) off
    | _ => .nowhere
/-- P, IDX, COLID and kind of a collective (R292). -/
def Block.colP (b : Block) : Nat := bits b.aux 16 6 + 1
def Block.colIdx (b : Block) : Nat := bits b.aux 22 6
def Block.colId (b : Block) : Nat := bits b.aux 0 16
def Block.colKind (b : Block) : Nat := bits b.opx 0 2
/-- Local rows of a command. -/
def Block.localRows (b : Block) (k : SKind) : Nat := if k = .col ∧ b.colKind = 1 then b.colP * b.rows else b.rows
/-- The VA of a memory row, modulo 2^64 (R285, R290, R292). -/
def Block.rowVa (b : Block) (r : Nat) (idx : Table Nat) (k : SKind) : Nat :=
  let f (n : Nat) : Nat := (((b.va : Int) + (n : Int) * b.vstr) % ((2 ^ 64 : Nat) : Int)).toNat
  match k with
  | .gat => f (tget idx 0 r)
  | .col => b.va + r * b.rowb
  | _ => f r

/-! ### Checks at issue (R279, R297, R300) -/

/-- Element bytes of a `sred` type. -/
def redBytes (t : Nat) : Nat := if t = 9 then 2 else 4
/-- DK, MODE, OPX and AUX that an instruction accepts (R288 to R292). -/
def Block.accepts (b : Block) (k : SKind) : Bool :=
  match k with
  | .get => (b.mode == 2) == (b.dk == 3) && b.opx == 0
  | .put => (b.dk == 0 || b.dk == 2) && b.mode != 2 && b.opx == 0
  | .gat => b.dk != 3 && b.mode != 2 && b.opx == 0
  | .red =>
    let t := bits b.opx 2 4
    (b.dk == 0 || b.dk == 2) && b.mode != 2 && bits b.opx 0 2 != 3 && (t == 2 || t == 6 || t == 8 || t == 9) &&
      bits b.opx 6 2 == 0
  | .col =>
    b.dk == 0 && b.mode != 2 && b.colKind != 3 && bits b.opx 2 6 == 0 && decide (2 ≤ b.colP) && decide (b.colIdx < b.colP)
  | .spill => false
/-- AUX holds only what its use gives it. -/
def Block.auxOk (b : Block) (k : SKind) : Bool :=
  match k with
  | .get => if b.dk = 3 then decide (b.aux < 2 ^ 25) else b.aux == 0
  | .gat => decide (b.aux < 2 ^ 19)
  | .col => bits b.aux 28 4 == 0
  | _ => b.aux == 0
/-- Bad-operand of a block (R300). -/
def Block.fieldsBad (b : Block) (raw : Nat) (k : SKind) : Bool :=
  blockReserved raw || decide (4 ≤ b.dk) || !b.accepts k || !b.auxOk k || decide (2 ^ 52 ≤ b.va) ||
    b.rows == 0 || decide (65536 < b.rows) || decide (b.rowb < 8) || decide (65536 < b.rowb) || b.rowb % 8 != 0 ||
    decide (393216 < b.lstr) || (b.dk == 1 && b.span != 0) || (if b.dk = 2 then !b.geomOk else b.geom != 0) ||
    (if b.mode = 1 then decide (2 ^ 19 ≤ b.upc) else b.upc != 0)
/-- Misaligned-access of a block: the first misaligned field (R300, R373). -/
def Block.misalignedBy (b : Block) (k : SKind) : List Cond :=
  let u := if b.dk = 1 then 64 else 8
  misaligned b.va 8 ++ condIf (b.vstr % 8 != 0) 4 0 ((b.vstr % ((2 ^ 64 : Nat) : Int)).toNat) ++ misaligned b.loc u ++ misaligned b.lstr u ++
    (if b.dk = 1 then misaligned b.rowb 64 else misaligned b.loc (2 ^ b.span * 16)) ++
    (if b.mode = 1 then misaligned b.upc 8 else []) ++
    (if k = .gat then misaligned b.aux 4 else if b.dk = 3 then misaligned b.aux 32 else [])
/-- The home and the local-store address of a pantry descriptor. -/
def panHome (core a : Nat) : Option (Nat × Nat) :=
  match classify a with
  | .own x => some (core, x)
  | .window m off => some (coreIn (clusterOf core) m, off)
  | _ => none
/-- The first byte of an extent at or above a limit, none when every byte lies below it: rows in ascending order (R373). -/
def firstBeyond (loc lstr rowb rows lim : Nat) : Option Nat :=
  if loc + (rows - 1) * lstr + rowb ≤ lim then none
  else
    let r := if lim < loc + rowb then 0 else (lim - loc - rowb) / lstr + 1
    some (max (loc + r * lstr) lim)
/-- Bad-address of a DK 0 extent: outside every class, in the event window, or past the end of its store (R285, R300, R373). -/
def Block.placeBad (b : Block) (k : SKind) : List Cond :=
  let past (lim : Nat) : List Cond :=
    match firstBeyond b.loc b.lstr b.rowb (b.localRows k) lim with
    | none => []
    | some a => condIf true 5 3 a
  match classify b.loc with
  | .own _ => past lsBytes
  | .window _ _ => past 0x1600000
  | .event _ => condIf true 5 3 b.loc
  | .none => condIf true 5 0 b.loc
/-- The first element of an extent that lies outside a stage (R297, R373). -/
def Block.outOfStage (b : Block) (core home lo hi : Nat) : Option Nat :=
  ((List.range b.rows).flatMap (fun r => (List.range (b.rowb / 8)).map (fun e => (r, 8 * e)))).findSome? (fun p =>
    match b.localPlace core p.1 p.2 with
    | .ls h a => if h == home && decide (lo ≤ a ∧ a + 8 ≤ hi) then none else some (b.localAt p.1 p.1 p.2)
    | _ => some (b.localAt p.1 p.1 p.2))
/-- Bad-address and bad-operand of a block's extent (R286, R297, R300). -/
def State.extentBad (s : State) (b : Block) (k : SKind) : List Cond :=
  let past (rows lim : Nat) : List Cond :=
    match firstBeyond b.loc b.lstr b.rowb rows lim with
    | none => []
    | some a => condIf true 5 3 a
  match b.dk with
  | 0 => b.placeBad k
  | 1 => past b.rows 524288
  | 2 => if b.geomOk then past (b.topRow + 1) lsBytes else []
  | 3 =>
    match panHome s.focus b.aux with
    | none => condIf true 5 (match classify b.aux with
      | .none => 0
      | _ => 3) b.aux
    | some (home, a) =>
      let p := (s.coreOf home).pan a
      if !p.ok (s.coreOf home).boundary then condIf true 6 0 b.aux
      else
        match (List.range p.count).find? (fun j => stageAddr home s.focus (p.stage j) == b.loc) with
        | none => condIf true 5 3 b.loc
        | some j =>
          if 65536 < b.rows || 65536 < b.rowb then condIf true 5 3 b.loc
          else
            match b.outOfStage s.focus home (p.stage j) (p.stage j + p.ssize) with
            | none => []
            | some x => condIf true 5 3 x
  | _ => []
/-- The index table of a `sgat` lies in the own local store at or above the boundary (R290). -/
def State.tableBad (s : State) (b : Block) (k : SKind) : List Cond :=
  if k = .gat then condIf (b.aux < s.here.boundary) 5 1 b.aux ++ condIf (lsBytes < b.aux + 4 * b.rows) 5 3 (max b.aux lsBytes) else []
/-- Every check of a streamer instruction at its block (R279, R300, R377): a field and an extent are both examined. -/
def State.blockConds (s : State) (x : Nat) (k : SKind) : List Cond :=
  let place := ownOnly x ++ belowOwn s x
  if x % 64 ≠ 0 then misaligned x 64
  else if !place.isEmpty then place
  else
    let raw := s.here.ls.readN x 64
    let b := Block.ofNat raw
    b.misalignedBy k ++ (if b.dk = 3 && k != .get then [] else s.extentBad b k) ++ s.tableBad b k ++ condIf (b.fieldsBad raw k) 6 0 x
/-- An entry of the index table of a `sgat` (R290): one read step of its operation. -/
def State.tableEntry (s : State) (know : Seen) (core : Nat) (b : Block) (r : Nat) : Nat × Seen × State :=
  s.readStep know (Loc.ls core) (s.byteLs core) (b.aux + 4 * r) 4
/-- A streamer instruction (R279): its command leaves with a snapshot of Seen (R175). Of a `sgat`, the entry of the first row is
read at once, because it names the owner (R278, R290). UPC and the token of an upcall
stand in a table by context and SEQ, so that a SEQ used again while its entry waits replaces them (log 33). -/
def issueStream (i : Instr) (hd : CHead) (kind : SKind) (a : BitVec 5) (k : BitVec 4) (s : State) : Host.Outcome State Fault Refusal :=
  let x := (s.me.sReg a.toNat).toNat
  issueC i hd
    { srcs := [.s a.toNat], kfields := [k], tok := some (s.me.tokRef k.toNat), reqs := 1, mol := 2,
      conds := s.blockConds x kind, waits := s.lineHeld x 64 }
    (fun s =>
      let t := s.me.tokRef k.toNat
      let b := Block.ofNat (s.here.ls.readN x 64)
      let first : Table Nat × Seen × State :=
        if kind = .gat then
          let r := s.tableEntry s.here.seen s.focus b 0
          ([(0, r.1)], r.2)
        else ([], s.here.seen, s)
      let key := 65536 * s.here.run + s.me.nseq
      let s := first.2.2.onMe (fun c => c.raise t)
      if b.mode = 1 then
        (s.onHere (fun y => { y with upcs := tput y.upcs key (b.upc, if b.det then none else some t) })).request .streamer
          (if b.det then some t else none) (.command kind b first.1) (know := first.2.1)
      else s.request .streamer (some t) (.command kind b first.1) (know := first.2.1)) s
/-- `sget` (R288). -/
def execSget (hd : CHead) (a : BitVec 5) (k : BitVec 4) (s : State) : Host.Outcome State Fault Refusal :=
  issueStream (.sget hd a k) hd .get a k s
/-- `sput` (R289). -/
def execSput (hd : CHead) (a : BitVec 5) (k : BitVec 4) (s : State) : Host.Outcome State Fault Refusal :=
  issueStream (.sput hd a k) hd .put a k s
/-- `sgat` (R290). -/
def execSgat (hd : CHead) (a : BitVec 5) (k : BitVec 4) (s : State) : Host.Outcome State Fault Refusal :=
  issueStream (.sgat hd a k) hd .gat a k s
/-- `sred` (R291). -/
def execSred (hd : CHead) (a : BitVec 5) (k : BitVec 4) (s : State) : Host.Outcome State Fault Refusal :=
  issueStream (.sred hd a k) hd .red a k s
/-- `scol` (R292). -/
def execScol (hd : CHead) (a : BitVec 5) (k : BitVec 4) (s : State) : Host.Outcome State Fault Refusal :=
  issueStream (.scol hd a k) hd .col a k s

/-! ### Local steps -/

/-- A core runs a task of a household. -/
def State.hasTask (s : State) (core hid : Nat) : Bool :=
  let x := s.coreOf core
  x.hid == some hid && !x.ended && (x.ctx 0).live
/-- The refusal reason of a local element: a window member or a rectangle core that runs no task of the household (R286,
R382, R444). -/
def State.localRefuses (s : State) (op : SOp) (l : Local) : Nat :=
  match l with
  | .ls core _ =>
    if op.blk.dk = 2 then
      (if s.hasTask core op.src.hid && ((s.coreOf core).ctx 0).fen == op.src.fen then 0 else 6)
    else if s.hasTask core op.src.hid then 0
    else 2
  | _ => 0
/-- A read step of the local side (R167). -/
def State.readLocal (s : State) (op : SOp) (l : Local) : Met :=
  if s.localRefuses op l ≠ 0 then .refused s (s.localRefuses op l)
  else
    match l with
    | .ls core a =>
      if s.readWaits core a 8 then .wait s
      else
        let r := s.readStep op.know (Loc.ls core) (s.byteLs core) a 8
        .ok r.2.2 r.1 r.2.1
    | _ => .ok s 0 op.know
/-- A write step of the local side (R166): 8 bytes, or a line of the Loft (R217). -/
def State.writeLocal (s : State) (op : SOp) (l : Local) (val : Nat) : Met :=
  if s.localRefuses op l ≠ 0 then .refused s (s.localRefuses op l)
  else
    match l with
    | .ls core a =>
      if (s.coreOf core).lineBusy a none then .wait s
      else
        let r := s.noteWrite false op.know (Loc.ls core) (s.byteLs core) a 8 val
        .ok (r.2.onCore core (fun x => x.putLs a 8 val)) 0 r.1
    | .loft core a =>
      if (s.coreOf core).loftFree s.gts then
        let r := s.loftWrite op.know core a (bytesOf 64 val)
        .ok r.2 0 r.1
      else .wait s
    | .nowhere => .ok s 0 op.know

/-! ### The steps of an operation (R287, R339, R398) -/

/-- Bytes of one step: 8, or 64 in the Loft. -/
def SOp.unit (op : SOp) : Nat := if op.blk.dk = 1 then 64 else 8
/-- Steps of one row. -/
def SOp.rowSteps (op : SOp) : Nat := op.blk.rowb / op.unit
/-- Element e, counted from row 0, is done. -/
def SOp.isDone (op : SOp) (e : Nat) : Bool :=
  decide (e < op.wm * op.rowSteps) || op.done.testBit (e - op.wm * op.rowSteps)
/-- The elements that may be read, written or acknowledged next: at most eight rows are in progress. -/
def SOp.open_ (op : SOp) : List Nat :=
  ((List.range (min 8 (op.blk.rows - op.wm) * op.rowSteps)).filter (fun e => !op.done.testBit e)).map
    (fun e => op.wm * op.rowSteps + e)
/-- The leading rows of `done` that are full pass into `wm`. -/
def SOp.advance (op : SOp) (fuel : Nat) : SOp :=
  match fuel with
  | 0 => op
  | k + 1 =>
    let w := op.rowSteps
    if op.wm < op.blk.rows && op.done % 2 ^ w == 2 ^ w - 1 then
      ({ op with wm := op.wm + 1, done := op.done >>> w }).advance k
    else op
/-- An element is done. -/
def SOp.finish (op : SOp) (e : Nat) : SOp :=
  ({ op with done := op.done ||| (1 <<< (e - op.wm * op.rowSteps)), sent := op.sent.erase e }).advance 8
/-- The write step of an element has been taken: inside the module it is done; outside, once the acknowledgement comes (R398). -/
def SOp.wrote (op : SOp) (e : Nat) (outside : Bool) : SOp :=
  let op := { op with read := tdel op.read e, bytes := op.bytes + op.unit }
  if outside then { op with sent := op.sent ++ [e] } else op.finish e
/-- The update of a `sred` in one 8-byte element (R291). -/
def redElement (opx core old x : Nat) : Nat :=
  let t := bits opx 2 4
  let w := redBytes t
  let gen := genNaN core 511
  let g := gen.into .f32 .bf16
  let one (a b : Nat) : Nat :=
    match bits opx 0 2, t == 9 with
    | 0, false => lAdd t gen a b 0
    | 1, false => lMin t gen a b 0
    | _, false => lMax t gen a b 0
    | 0, true => fAdd .bf16 g a b
    | 1, true => fMin .bf16 g a b
    | _, true => fMax .bf16 g a b
  natOfBytes ((List.range (8 / w)).flatMap (fun i => bytesOf w (one (bits old (8 * w * i) (8 * w)) (bits x (8 * w * i) (8 * w)))))
/-- The memory side of element e: its VA. -/
def SOp.memAt (op : SOp) (e : Nat) : Nat :=
  (op.blk.rowVa (e / op.rowSteps) op.idx op.kind + e % op.rowSteps * op.unit) % 2 ^ 64
/-- The elements of a burst (R417): those in the row and the atom of element e whose write is still to be taken. A Loft line is one
step. -/
def SOp.burst (op : SOp) (e : Nat) : List Nat :=
  if op.blk.dk = 1 then [e]
  else
    let w := op.rowSteps
    let k := op.memAt e % 32 / 8
    ((List.range 4).filter (fun i => decide (k ≤ e % w + i ∧ e % w + i < w + k))).map (fun i => e + i - k) |>.filter
      (fun x => !op.isDone x && !op.sent.contains x)
/-- The VAs of the 8-byte elements that some elements stand for: a Loft line for eight. -/
def SOp.vasOf (op : SOp) (es : List Nat) : List Nat :=
  if op.blk.dk = 1 then (List.range 8).map (fun i => op.memAt (es.headD 0) + 8 * i) else es.map op.memAt
/-- The first row that is not done, of a `sgat` the first whose address is known. -/
def SOp.lead (op : SOp) : Nat :=
  if op.kind = .gat then ((op.idx.map (fun p => p.1)).find? (fun r => decide (op.wm ≤ r))).getD 0 else op.wm
/-- The local side of element e. -/
def SOp.localAt (op : SOp) (e : Nat) : Local := op.blk.localPlace op.src.core (e / op.rowSteps) (e % op.rowSteps * op.unit)
/-- It writes household memory. -/
def SOp.writesMem (op : SOp) : Bool := op.kind == .put || op.kind == .red || op.kind == .col || op.kind == .spill
/-- An element has been read and is not yet written. -/
def SOp.hasRead (op : SOp) (e : Nat) : Bool := (tfind op.read e).isSome
/-- The elements that the next step at element e reads: a burst of memory, or one local element; with none, it writes. -/
def SOp.readsNow (op : SOp) (e : Nat) : List Nat :=
  let l := (op.burst e).filter (fun x => !op.hasRead x)
  if op.writesMem then l.take 1 else if op.hasRead e then [] else l
/-- The elements that it writes: a burst of memory, whose elements have all been read, or one local element. -/
def SOp.writesNow (op : SOp) (e : Nat) : List Nat := if op.writesMem then op.burst e else [e]
/-- The read steps of elements of one atom, or of one local element; what a spill writes comes from its group (R249). -/
def State.stepRead (s : State) (op : SOp) (es : List Nat) : Met :=
  let e := es.headD 0
  match op.kind with
  | .get => s.readAtoms op.know (ownerDie op.owner) op.src.hid (op.vasOf es) 3
  | .gat => s.readAtoms op.know (ownerDie op.owner) op.src.hid (op.vasOf es) 3
  | .spill => .ok s (s.imageEight op.blk.aux op.blk.loc (op.blk.opx == 1) (8 * e)) op.know
  | _ => s.readLocal op (op.localAt e)
/-- What has been read stands in the operation. -/
def SOp.took (op : SOp) (es : List Nat) (v : Nat) (know : Seen) : SOp :=
  if op.blk.dk = 1 then { op with read := tput op.read (es.headD 0) v, know := know }
  else { op with read := (List.range es.length).foldl (fun t i => tput t (es.getD i 0) (eightOf v i)) op.read, know := know }
/-- The write steps of elements of one atom, or of one local element; the atomic steps of a `sred`. -/
def State.stepWrite (s : State) (op : SOp) (es : List Nat) : Met :=
  let val (e : Nat) : Nat := tget op.read 0 e
  let ws := es.map (fun e => (op.memAt e, val e))
  let e := es.headD 0
  match op.kind with
  | .get => s.writeLocal op (op.localAt e) (val e)
  | .gat => s.writeLocal op (op.localAt e) (val e)
  | .red => s.atomicBurst op.know (ownerDie op.owner) op.src.hid (fun x old => redElement op.blk.opx op.src.core old x) ws
  | _ => s.writeBurst op.know (ownerDie op.owner) op.src.hid ws
/-- The write of element e leaves the module: to host memory, a peer or the Annex (R398). -/
def State.outside (s : State) (op : SOp) (e : Nat) : Bool := op.writesMem && s.leavesModule op.src.hid (op.memAt e)
/-- Some write of a command leaves the module (R398): its streamer is the Annex's, the host's or a Boardwalk port's, or a row
reaches beyond. -/
def State.blockLeaves (s : State) (hid owner : Nat) (k : SKind) (b : Block) (idx : Table Nat) : Bool :=
  (k == .put || k == .red || k == .col || k == .spill) && (decide (96 ≤ owner) || (List.range b.rows).any (fun r =>
    let va := b.rowVa r idx k
    s.leavesModule hid va || s.leavesModule hid (va + b.rowb - 1)))
/-- The same of an operation. -/
def State.opLeaves (s : State) (op : SOp) : Bool := s.blockLeaves op.src.hid op.owner op.kind op.blk op.idx
/-- The operation ends: with its last step taken, or refused (R381); no answer from outside comes within 1,900 cycles of its
pair (R398). -/
def State.endOp (s : State) (n : Nat) (op : SOp) : State :=
  let u := s.setOp n (if op.status = 0 then op else { op with badAt := s.gts })
  let from_ := if s.opLeaves op then op.issued + 1900 else 0
  if op.kind = .spill then u.soonAfter from_ (.spillComplete op.blk.aux op.blk.loc)
  else if op.blk.mode = 2 && op.status = 0 then u.soonAfter from_ (.pantryCommit n)
  else u.soonAfter from_ (.streamerComplete n)
/-- The operation goes on with its next step, or ends. -/
def State.opOn (s : State) (n : Nat) (op : SOp) : State :=
  if op.wm < op.blk.rows then (s.setOp n op).soon (.streamerStep n) else s.endOp n op
/-- The request of an operation must wait for one that a release marker puts ahead of it (R165). -/
def State.opBehind (s : State) (op : SOp) : Bool := s.heldFor op.src op.behind
/-- The elements that a step wrote are done, or on their way. -/
def State.wroteAll (s : State) (op : SOp) (es : List Nat) (know : Seen) : SOp :=
  es.foldl (fun o e => o.wrote e (s.outside op e)) { op with know := know }
/-- The entry of the index table that a row needs is still to be read (R290). -/
def SOp.needsEntry (op : SOp) (row : Nat) : Bool := op.kind == .gat && (tfind op.idx row).isNone
/-- `STREAMER_STEP` (R287, R417): the read or the write steps of a burst, one local step, or an acknowledgement from outside, in an
order that is not fixed; an answer of the host that comes after a PASID teardown does not count (R352); a bank that is busy makes the
step wait for the next cycle. -/
def execStreamerStep (n : Nat) (s : State) : Host.Outcome State Fault Refusal :=
  match tfind s.ops n with
  | none => .next s
  | some op =>
    if op.status ≠ 0 || op.kind == .col then .next s
    else if s.opBehind op then .next (s.stepAt (s.gts + 1) (.streamerStep n))
    else
      let l := op.open_
      let c := s.choose l.length
      match l[c.1]? with
      | none => .next s
      | some e =>
        let s := c.2
        let again (s : State) : State := s.stepAt (s.gts + 1) (.streamerStep n)
        let refused (s : State) (es : List Nat) (r : Nat) : State :=
          s.endOp n { op with status := r, badVa := op.memAt (es.headD 0), read := [] }
        if op.sent.contains e then
          .next (if s.gts < op.issued + 1900 then s.soon (.streamerStep n)
            else if s.inHost op.src.hid (op.memAt e) && !(s.queue (s.household op.src.hid).queue).pvalid then again s
            else s.opOn n (op.finish e))
        else
          let row := e / op.rowSteps
          if op.needsEntry row then
            if s.readWaits op.src.core (op.blk.aux + 4 * row) 4 then .next (again s)
            else
              let r := s.tableEntry op.know op.src.core op.blk row
              .next ((r.2.2.setOp n { op with idx := tput op.idx row r.1, know := r.2.1 }).soon (.streamerStep n))
          else
            match op.readsNow e with
            | [] =>
              let es := op.writesNow e
              match s.stepWrite op es with
              | .ok s _ know => .next (s.opOn n (s.wroteAll op es know))
              | .wait s => .next (again s)
              | .refused s r => .next (refused s es r)
            | es =>
              match s.stepRead op es with
              | .ok s v know => .next ((s.setOp n (op.took es v know)).soon (.streamerStep n))
              | .wait s => .next (again s)
              | .refused s r => .next (refused s es r)

/-! ### Acceptance (R278, R282, R292) -/

/-- The collective that a command names. -/
def State.findColl (s : State) (hid colid : Nat) : Option Coll := s.colls.find? (fun c => c.hid == hid && c.colid == colid)
def State.putColl (s : State) (c : Coll) : State :=
  { s with colls := c :: s.colls.filter (fun d => !(d.hid == c.hid && d.colid == c.colid)) }
def State.dropColl (s : State) (hid colid : Nat) : State :=
  { s with colls := s.colls.filter (fun d => !(d.hid == hid && d.colid == colid)) }
/-- A `scol` joins its collective, or is refused with reason 9 (R292). -/
def State.joinColl (s : State) (n : Nat) (op : SOp) : State :=
  let b := op.blk
  let hid := op.src.hid
  let refuse : State := s.endOp n { op with status := 9, badVa := b.va }
  let start (s : State) (c : Coll) : State := if c.ops.length = c.count then s.soon (.collectiveRun hid b.colId) else s
  match s.findColl hid b.colId with
  | none =>
    (s.setOp n op).putColl
      { hid := hid, colid := b.colId, count := b.colP, kind := b.colKind, va := b.va, rows := b.rows, rowb := b.rowb,
        ops := [(b.colIdx, n)], pos := 0, data := [] }
  | some c =>
    if c.count != b.colP || c.kind != b.colKind || c.va != b.va || c.rows != b.rows || c.rowb != b.rowb ||
        (tfind c.ops b.colIdx).isSome then refuse
    else
      let c := { c with ops := tput c.ops b.colIdx n }
      start ((s.setOp n op).putColl c) c
/-- `STREAMER_ACCEPT` (R282): the command enters its owner's queue; with DET = 1 it is acknowledged. A Fen identifier that
the household does not hold is refused with reason 6 (R32, R444). -/
def execStreamerAccept (id : Nat) (s : State) : Host.Outcome State Fault Refusal :=
  match tfind s.bag id with
  | none => .next s
  | some m =>
    match m.body with
    | .command kind b idx =>
      if (tfind s.ops id).isSome then .next s
      else
        let s := s.onMsg id (fun m => { m with delivered := true })
        let op : SOp :=
          { src := m.src, seq := m.seq, pc := m.pc, tok := m.tok, kind := kind, blk := b, idx := idx,
            owner := s.ownerOf m.src.hid (b.rowVa 0 idx kind), wm := 0, done := 0, read := [], sent := [], bytes := 0,
            status := 0, badVa := 0, issued := m.gts, know := m.know, behind := m.behind }
        let s := if b.det then s.ackNow id else s
        if (s.fenIndex m.src.hid m.src.fen).isNone then .next (s.endOp id { op with status := 6, badVa := b.va })
        else if kind = .col then .next (s.joinColl id op)
        else .next ((s.setOp id op).soon (.streamerStep id))
    | _ => .next s

/-! ### Collectives (R292) -/

/-- 8-byte elements of one row and of one contribution. -/
def Coll.rowW (c : Coll) : Nat := c.rowb / 8
def Coll.part (c : Coll) : Nat := c.rows * c.rowW
/-- Contributions read, and elements of one result. -/
def Coll.nIn (c : Coll) : Nat := if c.kind = 2 then c.part else c.count * c.part
def Coll.nOut (c : Coll) : Nat := if c.kind = 1 then c.count * c.part else c.part
/-- Element q of the result: the sum in IDX order, the gathered element, or participant 0's. -/
def Coll.result (c : Coll) (coreOfIdx : Nat → Nat) (q : Nat) : Nat :=
  if c.kind = 0 then
    let lane (k : Nat) : Nat :=
      (List.range (c.count - 1)).foldl (fun acc i =>
        fAdd .f32 (genNaN (coreOfIdx (i + 1)) 511) acc (bits (c.data.getD ((i + 1) * c.part + q) 0) (32 * k) 32))
        (bits (c.data.getD q 0) (32 * k) 32)
    lane 0 + lane 1 * 2 ^ 32
  else c.data.getD q 0
/-- Every participant's operation ends with a status, and with the VA of the refused step (R386). -/
def State.endColl (s : State) (c : Coll) (status va : Nat) : State :=
  c.ops.foldl (fun s p =>
    match tfind s.ops p.2 with
    | none => s
    | some op => s.endOp p.2 { op with status := status, badVa := va }) (s.dropColl c.hid c.colid)
/-- The VA of 8-byte element e of participant i's scratch rows from row r on. -/
def Coll.scratch (c : Coll) (row e : Nat) : Nat := c.va + (row + e / c.rowW) * c.rowb + 8 * (e % c.rowW)
/-- The operation of participant i. -/
def State.collOp (s : State) (c : Coll) (i : Nat) : Option (Nat × SOp) :=
  match tfind c.ops i with
  | none => none
  | some n => (tfind s.ops n).map (fun op => (n, op))
/-- The elements of participant i's contribution from element q on that one burst stores in the scratch area (R417). -/
def Coll.burst (c : Coll) (i q : Nat) : List Nat :=
  let j := q % c.rowW
  let va := c.va + (i * c.rows + q / c.rowW) * c.rowb + 8 * j
  (List.range (min (4 - va % 32 / 8) (c.rowW - j))).map (fun n => q + n)
/-- Local elements read one after another. -/
def State.readLocals (s : State) (op : SOp) (ls : List Local) : Met :=
  match ls with
  | [] => .ok s 0 op.know
  | l :: rest =>
    match s.readLocal op l with
    | .ok s v know =>
      match s.readLocals { op with know := know } rest with
      | .ok s w know => .ok s (v + 2 ^ 64 * w) know
      | m => m
    | m => m
/-- Elements of a contribution are read by its participant's operation and stored in the scratch area. -/
def State.collIn (s : State) (c : Coll) (i : Nat) (qs : List Nat) (op : SOp) : Met :=
  let local_ (q : Nat) : Local :=
    op.blk.localPlace op.src.core (if c.kind = 1 then i * c.rows + q / c.rowW else q / c.rowW) (8 * (q % c.rowW))
  match s.readLocals op (qs.map local_) with
  | .ok s v know =>
    match s.writeBurst know (ownerDie op.owner) c.hid
        ((List.range qs.length).map (fun n => (c.scratch (i * c.rows) (qs.getD n 0), eightOf v n))) with
    | .ok s _ know => .ok s v know
    | m => m
  | m => m
/-- What the operations of a collective know together: each result comes from every contribution (R175). -/
def State.collKnow (s : State) (c : Coll) : Seen :=
  c.ops.foldl (fun k p => joinSeen k (((tfind s.ops p.2).map (fun op => op.know)).getD [])) []
/-- `COLLECTIVE_RUN` (R292): the next element of a full collective: contributions in IDX order, then the results, each in one
ascending order of the many that R287 allows (logs 20, 33). -/
def execCollectiveRun (hid colid : Nat) (s : State) : Host.Outcome State Fault Refusal :=
  match s.findColl hid colid with
  | none => .next s
  | some c =>
    if c.ops.length < c.count then .next s
    else if c.ops.any (fun p => ((tfind s.ops p.2).map s.opBehind).getD false) then .next (s.stepAt (s.gts + 1) (.collectiveRun hid colid))
    else if c.pos < c.nIn then
      let i := c.pos / c.part
      match s.collOp c i with
      | none => .next s
      | some (n, op) =>
        let qs := c.burst i (c.pos % c.part)
        match s.collIn c i qs op with
        | .ok s v know =>
          .next (((s.setOp n { op with know := know }).putColl
            { c with pos := c.pos + qs.length, data := c.data ++ (List.range qs.length).map (eightOf v) }).soon
            (.collectiveRun hid colid))
        | .wait s => .next (s.stepAt (s.gts + 1) (.collectiveRun hid colid))
        | .refused s r => .next (s.endColl c r (c.scratch (i * c.rows) (c.pos % c.part)))
    else
      let q := c.pos - c.nIn
      if c.count * c.nOut ≤ q then .next (s.endColl c 0 0)
      else
        let i := q / c.nOut
        match s.collOp c i with
        | none => .next s
        | some (n, op) =>
          let e := q % c.nOut
          let cores (i : Nat) : Nat := ((s.collOp c i).map (fun p => p.2.src.core)).getD 0
          let op := { op with know := joinSeen op.know (s.collKnow c) }
          match s.writeLocal op (op.blk.localPlace op.src.core (e / c.rowW) (8 * (e % c.rowW))) (c.result cores e) with
          | .ok s _ know =>
            .next (((s.setOp n { op with bytes := op.bytes + 8, know := know }).putColl { c with pos := c.pos + 1 }).soon
              (.collectiveRun hid colid))
          | .wait s => .next (s.stepAt (s.gts + 1) (.collectiveRun hid colid))
          | .refused s r => .next (s.endColl c r (c.scratch (if c.kind = 0 then i * c.rows else 0) e))

/-! ### Completion (R281 to R283, R297, R381, R387) -/

/-- `PANTRY_COMMIT` (R297): the last step of a MODE 2 operation, at the pantry's home. STATUS 8 also for a
descriptor that is outside its limits by then and for a home that no longer runs a task of the household (log 33). -/
def execPantryCommit (n : Nat) (s : State) : Host.Outcome State Fault Refusal :=
  match tfind s.ops n with
  | none => .next s
  | some op =>
    match panHome op.src.core op.blk.aux with
    | none => .next ((s.setOp n { op with status := 8, badVa := op.blk.va, badAt := s.gts }).next (.streamerComplete n))
    | some (home, a) =>
      let loc := match classify op.blk.loc with
        | .window _ off => off
        | _ => op.blk.loc
      let r := if s.hasTask home op.src.hid then s.commitStage op.know home a loc else (s, false)
      if (s.coreOf home).lineBusy a none then .next (s.stepAt (s.gts + 1) (.pantryCommit n))
      else .next ((r.1.setOp n (if r.2 then op else { op with status := 8, badVa := op.blk.va, badAt := s.gts })).next (.streamerComplete n))
/-- The entry that a completion places (R283), with the operation's Seen set (R175). -/
def SOp.entry (op : SOp) (g : Nat) : Entry :=
  { kind := 4 + op.blk.mode, b1 := op.status, seq := op.seq, src := op.src.field,
    payload := BitVec.ofNat 192 (op.blk.tag % 2 ^ 32 + op.bytes % 2 ^ 32 * 2 ^ 32 + g % 2 ^ 64 * 2 ^ 64), ctxTo := op.src.ctx,
    placed := g, fromCore := op.src.core, fromCtx := op.src.ctx, know := op.know }
/-- The detached notice of R355. -/
def SOp.notice (op : SOp) (g : Nat) : BitVec 256 :=
  packRecord [(1, 2), (1, op.status), (2, op.seq), (4, op.src.field), (4, op.blk.tag), (4, 0), (8, g), (8, 0)]
/-- The report of a refused operation (R380, R386, R387): its record keeps the VA of the first refused step. -/
def SOp.report (op : SOp) : LateReport :=
  { cause := 25, sub := 0, seq := op.seq, reason := op.status, rkind := 10, addr := op.badVa, tag := op.blk.tag, gts := op.badAt }
/-- `STREAMER_COMPLETE` (R281, R282): delivery as MODE gives, or for a context that has retired a notice or a record. -/
def execStreamerComplete (n : Nat) (s : State) : Host.Outcome State Fault Refusal :=
  match tfind s.ops n with
  | none => .next s
  | some op =>
    let s := { s with ops := tdel s.ops n }
    let q := (s.household op.src.hid).queue
    let x := s.coreOf op.src.core
    let s := if x.hid == some op.src.hid && (x.ctx 0).task == op.src.task then
        s.molEntry op.src.core op.src.ctx 4 10 op.seq op.pc op.owner op.bytes s.gts
      else s
    if s.stillThere op.src then
      let s := if op.status = 0 then s else s.lateReport op.src.core op.src.ctx op.report
      if op.blk.mode ≤ 1 then .next (s.arriveEntry op.src.core (op.entry s.gts) (some n))
      else .next (s.ackNow n)
    else if op.status = 0 then .next (s.record q 1 (op.notice s.gts) none)
    else .next (s.record q 2 (lateRecord 1 op.src.field op.report) none)

/-! ### Upcalls (R284) -/

/-- The place of the oldest upcall entry of a context: in the inbox, or in its box. -/
def State.upcallEntry (s : State) (core ctx : Nat) : Option (Entry × Option Nat) :=
  match (s.coreOf core).inbox.find? (fun e => e.ctxTo == ctx && e.kind == 5) with
  | some e => some (e, none)
  | none =>
    match (List.range (s.boxCount core)).find? (fun j =>
      (s.boxEntry core j).ctxTo == ctx && (s.boxEntry core j).kind == 5) with
    | some j => some (s.boxEntry core j, some j)
    | none => none
/-- `UPCALL` (R284): the entry is removed and what it carries acquired (R174), UPCALL and RQSEQ are written, the token is lowered and the
handler entered. -/
def execUpcall (s : State) : Host.Outcome State Fault Refusal :=
  let core := s.focus
  let ctx := s.here.run
  match s.upcallEntry core ctx with
  | none => .next s
  | some (e, j) =>
    let key := 65536 * ctx + e.seq
    let u := tget s.here.upcs (0, none) key
    let tag := bits e.payload.toNat 0 32
    let epc := if s.me.wait == .halt then s.me.lastPc else s.me.pc
    let s := match j with
      | none => s.onHere (fun x => { x with inbox := x.inbox.erase e, upcs := tdel x.upcs key })
      | some j => (s.boxRemove core j).onHere (fun x => { x with upcs := tdel x.upcs key })
    let s := (s.refill core).learn core e.know
    let s := match u.2 with
      | some t => s.onMe (fun c => c.lower t)
      | none => s
    let s := { s with latch := .trapped 27 }
    let s := s.onHere (fun x => x.endRb x.run)
    .next (s.onMe (fun c =>
      { c.trapEntry 27 0 0 false 0 epc (BitVec.ofNat 64 u.1) with
        upcall := BitVec.ofNat 64 u.1, rqseq := packFields [(32, 16, e.seq), (0, 32, tag)] }))

end Sys2Proof.Machine
end

