-- ==== Sys2Proof/Machine/Remote.lean ====
section
/-! DEFINITION. Requests at their home (R134 to R148, R152, R165, R395), and the reply or refusal at the issuing core (R136,
R381). -/
namespace Sys2Proof.Machine

/-! ### At the home -/

/-- The local-store byte of an address at its home. -/
def homeOff (a : Nat) : Nat :=
  match classify a with
  | .own x => x
  | .window _ off => off
  | _ => 0
/-- The addresses that a request accesses. -/
def Body.addrs (b : Body) : List Nat :=
  match b with
  | .load a _ _ _ => [a]
  | .loadLine _ lanes _ _ => lanes.map (fun p => p.2)
  | .store a _ _ => [a]
  | .storeLine _ lanes _ => lanes.map (fun p => p.1)
  | .take a _ => [a]
  | .give a _ => [a]
  | .feSet a _ => [a]
  | .amo _ _ _ a _ _ _ _ => [a]
  | .red _ _ _ a _ _ => [a]
  | .region line accs => line :: accs.map (fun x => x.addr)
  | .pantry _ a _ => [a]
  | _ => []
/-- A request that has still to be performed: a waiting `take`, `pres` or `pacq` and a held atomic stand at the home already. -/
def Msg.unperformed (m : Msg) : Bool :=
  m.st == .going && m.app.isNone && m.remote &&
    (match m.body with
     | .take .. => false
     | .pantry op .. => op != 1 && op != 3
     | .amo _ _ _ _ _ _ _ (some _) => false
     | .red _ _ _ _ _ (some _) => false
     | .hsend .. => false
     | .send .. => false
     | _ => true)
/-- An event counter that a load reads. -/
def Msg.counterOf (m : Msg) : Option Nat :=
  match m.dst, m.body with
  | .event _, .load a _ _ _ => some ((a - 0x2000000) / 8)
  | _, _ => none
/-- A request of a context that must be performed before another of it: to the same core through the window (R135), through
the same handle (R271), or to the same counter through the event window (R135). -/
def Msg.precedes (e m : Msg) : Bool :=
  e.src == m.src && e.unperformed &&
    ((e.goal.isSome && e.goal == m.goal) || (e.handle.isSome && e.handle == m.handle) ||
      (e.counterOf.isSome && e.counterOf == m.counterOf))
/-- A request waits for an earlier one of its context (R135, R165, R271). -/
def State.outOfTurn (s : State) (id : Nat) (m : Msg) : Bool :=
  s.bag.any (fun p => p.1 < id && p.2.precedes m) || s.heldBehind m
/-- The request is counted at its home and keeps what its log entry needs (R468). -/
def State.applied (s : State) (home id : Nat) : State :=
  let s := s.countApplied home
  s.onMsg id (fun m => { m with app := some (home, (s.coreOf home).appIdx, s.gts) })
/-- A held atomic joins the home's list (R145). -/
def State.holdAt (s : State) (home id key step : Nat) (m : Msg) (op : AmoOp) (z : Nat) (uns : Bool) (off b c d : Nat)
    (returning : Bool) : State :=
  let a : HeldAmo :=
    { key := key, step := step, core := m.src.core, ctx := m.src.ctx, seq := m.seq, msg := some id, req := some m, op := op,
      z := z, uns := uns, addr := off, b := b, c := c, d := d, returning := returning, tok := m.tok.getD (.k 0) }
  s.onCore home (fun x => { x with heldAmos := insertHeld a x.heldAmos })
/-- The values that the loads of a region have read. -/
def loadedVals (accs : List RegionAcc) : List Nat := (accs.filter (fun a => !a.store)).map (fun a => a.val)
/-- A region of a message leaves its line. -/
def CoreSt.regionEnd (x : CoreSt) (id : Nat) : CoreSt := { x with regions := x.regions.filter (fun r => r.2.1 != id) }
/-- The next access of a window region (R148, R395): one in a cycle, from the cycle of its arrival; the line is free in the
cycle after the last. A load's value stays with its access until the reply; the whole is one atomic step (R168). -/
def State.regionStep (s : State) (home id line : Nat) (m : Msg) (accs : List RegionAcc) (i : Nat) : State :=
  match accs[i]? with
  | none => ((s.onCore home (fun x => x.regionEnd id)).applied home id).answer id (loadedVals accs)
  | some a =>
    let s := if i = 0 then s.openLine home (homeOff line) else s
    let off := homeOff a.addr
    let a := if a.store then a else { a with val := extendTo64 a.z a.sext ((s.coreOf home).ls.readN off a.z) }
    let accs := accs.set i a
    let s := if a.store then s.onCore home (fun x => x.putLs off a.z a.val)
      else s.onMsg id (fun m => { m with body := .region line accs })
    let s := s.onCore home (fun x =>
      { x with regions := (x.regions.filter (fun r => r.2.1 != id)) ++ [(homeOff line, id, i + 1)] })
    let s := s.stepAt (s.gts + 1) (.remoteRequestPerform id)
    if i + 1 < accs.length then s
    else ((s.closeLine m.src.core home (homeOff line)).applied home id).answer id (loadedVals accs)
/-- The lanes of a line stored by a core, one write step each (R137, R167); the nodes of an `hstv` join K of its handle
(R177). -/
def State.storeLanes (s : State) (home : Nat) (m : Msg) (lanes : List (Nat × Nat)) (wout : Option Nat) : State :=
  let u := lanes.foldl (fun s p => s.storeLs m.src.core home (homeOff p.1) 4 p.2) s
  match wout with
  | none => u
  | some e =>
    u.entryLearns (clusterOf m.src.core) e
      (u.nodesAfter s.ctr (lanes.flatMap (fun p => (List.range 4).map (fun j => Loc.ls home (homeOff p.1 + j)))))
/-- What a request does at its home (R134 to R148, R294 to R296). -/
def State.performAt (s : State) (home id : Nat) (m : Msg) : State :=
  let core := m.src.core
  match m.body with
  | .load a z _ _ =>
    let r := s.readLs core home (homeOff a) z
    (r.2.applied home id).answer id [r.1]
  | .loadLine _ lanes _ _ =>
    let r := s.readLsMany core home 4 (lanes.map (fun p => homeOff p.2))
    (r.2.applied home id).answer id r.1
  | .store a z v => ((s.storeLs core home (homeOff a) z v).applied home id).acknowledge id
  | .storeLine _ lanes wout => ((s.storeLanes home m lanes wout).applied home id).acknowledge id
  | .take a d =>
    let off := homeOff a
    if (s.coreOf home).takeable off then
      let r := s.takeStep core home off
      (r.2.granted home id 2).answer id [r.1]
    else
      s.joinDeferred home { op := 0, addr := off, msg := some id, ctx := m.src.ctx, d := d, tok := m.tok.getD (.k 0) } id
  | .give a v => ((s.applied home id).giveAt core home (homeOff a) v).acknowledge id
  | .feSet a f => ((s.applied home id).feSetAt core home (homeOff a) f).acknowledge id
  | .amo op z uns a b c d inst =>
    match inst with
    | some (key, step) => s.holdAt home id key step m op z uns (homeOff a) b c d true
    | none =>
      let r := s.amoStep core home op z uns (homeOff a) b c
      (r.2.applied home id).answer id [r.1]
  | .red op z uns a b inst =>
    match inst with
    | some (key, step) => ((s.applied home id).holdAt home id key step m op z uns (homeOff a) b 0 0 false).acknowledge id
    | none => ((s.amoStep core home op z uns (homeOff a) b 0).2.applied home id).acknowledge id
  | .region line accs => s.regionStep home id line m accs 0
  | .pantry op a _ => s.pantryArrive home id m (PanOp.ofCode op) (homeOff a) a
  | _ => s
/-- A line is free again of the near atomic that locked it (R144). -/
def State.unlock (s : State) (home id : Nat) : State :=
  s.onCore home (fun x => { x with locks := x.locks.filter (fun l => l.2 != id) })
/-- A refusal at the home. A `red` in deterministic mode is acknowledged when it reaches its home, and its refusal reported
apart (R146, R381). -/
def State.refuseHere (s : State) (id : Nat) (m : Msg) (reason addr : Nat) : State :=
  match m.body with
  | .red _ _ _ _ _ (some _) => (s.acknowledge id).refuseApart m reason addr
  | _ => s.refuseMsg id reason addr
/-- The first address of a request that lies below the fetch boundary of its home (R134, R382). -/
def State.lowAddr (s : State) (home : Nat) (m : Msg) : Nat :=
  (m.body.addrs.find? (fun a => homeOff a < (s.coreOf home).boundary)).getD (m.body.addrs.headD 0)
/-- A near atomic at its home (R144): it locks the line, or, when it finds the line locked, is executed at home and its core's
predictor marks the line contended; the operation follows after a time that is not fixed. -/
def State.nearArrive (s : State) (home id : Nat) (m : Msg) : State :=
  let a := m.body.addrs.headD 0
  let off := homeOff a
  let x := s.coreOf home
  if x.locks.any (fun l => l.2 == id) then (s.performAt home id m).unlock home id
  else if x.regions.any (fun r => off / 128 == r.1 / 128) then s.stepAt (s.gts + 1) (.remoteRequestPerform id)
  else if x.locks.any (fun l => off / 128 == l.1 / 128) then
    ((s.onMsg id (fun m => { m with near := false })).contend m.src.core a).stepAt (s.gts + 1) (.remoteRequestPerform id)
  else (s.onCore home (fun x => { x with locks := x.locks ++ [(off, id)] })).soon (.remoteRequestPerform id)
/-- A store of a whole granule reads none (R419). -/
def Body.storesWhole (b : Body) : Bool :=
  match b with
  | .store _ z _ => z == 8
  | _ => false
/-- The checks at the home, then the request. A request to a line that another party holds waits for the next cycle (R148), and
so does one that is out of its turn. -/
def State.perform (s : State) (home id : Nat) (m : Msg) : State :=
  if m.st != .going || m.app.isSome || !m.delivered then s
  else if s.outOfTurn id m then s.stepAt (s.gts + 1) (.remoteRequestPerform id)
  else
    match s.homeRefuses home m.src.hid (m.body.addrs.map homeOff) with
    | some r => (s.unlock home id).refuseHere id m r (if r = 1 then s.lowAddr home m else m.body.addrs.headD 0)
    | none =>
      if m.near then s.nearArrive home id m
      else if m.body.addrs.any (fun a => (s.coreOf home).lineBusy (homeOff a) (some id) ||
        !m.body.storesWhole && s.granuleFailed 0 home (homeOff a) 1) then
        s.stepAt (s.gts + 1) (.remoteRequestPerform id)
      else s.performAt home id m
/-- A load of an event counter at the event unit (R152). -/
def State.readCounter (s : State) (cl id : Nat) (m : Msg) (a z : Nat) : State :=
  let off := a - 0x2000000
  let e := off / 8
  let r := s.readNode m.src.core (.counter cl e) (s.counter cl e)
  (r.2.onMsg id (fun m => { m with app := some (0, 0, s.gts) })).answer id [(r.1 >>> (8 * (off % 8))) % 2 ^ (8 * z)]
/-- `REMOTE_REQUEST_PERFORM`: a request that has reached its home is performed or refused there (R133, R134, R382), behind
every earlier request that it must follow (R135, R165). -/
def execRemoteRequestPerform (id : Nat) (s : State) : Host.Outcome State Fault Refusal :=
  match tfind s.bag id with
  | none => .next s
  | some m =>
    match m.dst with
    | .event cl =>
      match m.body with
      | .load a z _ _ =>
        if m.st != .going || m.app.isSome then .next s
        else if s.outOfTurn id m then .next (s.stepAt (s.gts + 1) (.remoteRequestPerform id))
        else .next (s.readCounter cl id m a z)
      | _ => .next s
    | .core home =>
      match (s.coreOf home).regions.find? (fun r => r.2.1 == id), m.body with
      | some (_, _, i), .region line accs =>
        if i < accs.length then .next (s.regionStep home id line m accs i)
        else .next (s.onCore home (fun x => x.regionEnd id))
      | _, _ => .next (s.perform home id m)
    | _ => .next s

/-! ### At the issuing core -/

/-- A line of a vector load has been answered: the last one lowers the token and clears the pending bit (R137). -/
def State.lineAnswered (s : State) (m : Msg) (v no : Nat) : State × List Act :=
  let c := s.ctxOf m.src.core m.src.ctx
  let left := tget c.vloads 0 no - 1
  let last := endDest (.v v) ++ (match m.tok with
    | some t => [Act.lower t]
    | none => [])
  if left = 0 then (s.onCtx m.src.core m.src.ctx (fun c => { c with vloads := tdel c.vloads no }), last)
  else (s.onCtx m.src.core m.src.ctx (fun c => { c with vloads := tput c.vloads no left }), [])
/-- What lowers a message's token. -/
def Msg.lowerActs (m : Msg) : List Act :=
  match m.tok with
  | some t => [.lower t]
  | none => []
/-- What acknowledges a message in ORC. -/
def Msg.orcActs (m : Msg) : List Act := if m.remote then [.ack m.seq] else []
/-- What a reply does at its context (R136, R137, R139, R142, R148, R296). -/
def State.replyActs (s : State) (m : Msg) (vals : List Nat) : State × List Act :=
  let v := vals.headD 0
  match m.body with
  | .load _ z sext d => (s, [Act.write (.s d) (extendTo64 z sext v)] ++ endDest (.s d) ++ m.lowerActs ++ m.orcActs)
  | .loadLine _ lanes d no =>
    let r := s.lineAnswered m d no
    (r.1, (lanes.zip vals).map (fun p => Act.lane d p.1.1 p.2) ++ r.2 ++ m.orcActs)
  | .take _ d => (s, [Act.write (.s d) v] ++ endDest (.s d) ++ m.lowerActs ++ m.orcActs ++ [.readyNext])
  | .amo _ z uns _ _ _ d _ => (s, [Act.write (.s d) (extendTo64 z (!uns) v)] ++ endDest (.s d) ++ m.lowerActs ++ m.orcActs)
  | .region _ accs => (s, regionActs accs vals ++ m.lowerActs ++ m.orcActs)
  | .pantry _ _ d => (s, [Act.write (.s d) v, .unpend (.s d)] ++ m.lowerActs ++ m.orcActs ++ [.readyNext])
  | _ => (s, m.lowerActs ++ m.orcActs)
/-- `REPLY_RECEIVE`: the value reaches the issuing core (R136, R139, R142): destinations written, token lowered, ORC
acknowledged. -/
def execReplyReceive (id : Nat) (s : State) : Host.Outcome State Fault Refusal :=
  match tfind s.bag id with
  | none => .next s
  | some m =>
    match m.st with
    | .answered vals =>
      let r := s.replyActs m vals
      let s := if m.remote then r.1.logAck m else r.1
      .next ((s.complete m.src.core m.src.ctx r.2).dropMsg id)
    | _ => .next s
/-- What a refusal does at its context (R381). -/
def State.refusalActs (s : State) (m : Msg) : State × List Act :=
  let ends (r : RegId) : List Act := endDest r ++ m.lowerActs ++ m.orcActs
  match m.body with
  | .load _ _ _ d => (s, ends (.s d))
  | .loadLine _ _ v no =>
    let r := s.lineAnswered m v no
    (r.1, r.2 ++ m.orcActs)
  | .take _ d => (s, ends (.s d) ++ [.ready])
  | .amo _ _ _ _ _ _ d _ => (s, ends (.s d))
  | .region _ accs =>
    (s, ((accs.filter (fun a => !a.store)).flatMap (fun a => endDest (.s a.d))) ++ m.lowerActs ++ m.orcActs)
  | .pantry op _ d =>
    if op = 1 ∨ op = 3 then (s, [Act.unpend (.s d)] ++ m.lowerActs ++ m.orcActs ++ [.ready]) else (s, m.ackActs)
  | _ => (s, m.ackActs)
/-- The late report of a refusal (R380, R443). -/
def Msg.report (m : Msg) (g reason addr : Nat) : LateReport :=
  if reason = 28 then { cause := 28, sub := 0, seq := m.seq, reason := 0, rkind := 8, addr := addr, tag := 0, gts := g }
  else { cause := 25, sub := 0, seq := m.seq, reason := reason, rkind := m.body.rkind, addr := addr, tag := 0, gts := g }
/-- A refused item that the order guard of its destination has never met holds nothing back any more (R439). -/
def State.passGuard (s : State) (m : Msg) : State :=
  match m.goal with
  | some n => if m.delivered || (s.coreOf n).held.isEmpty then s else s.stepAt (s.gts + 1) (.orderRestoreDeliver n)
  | none => s
/-- A refused `take`, `pres` or `pacq` is granted nothing: the entry reserved for its grant is free again (R469). -/
def State.unreserve (s : State) (m : Msg) : State :=
  let grants : Bool := match m.body with
    | .take _ _ => true
    | .pantry op _ _ => op == 1 || op == 3
    | _ => false
  if grants then s.onCore m.src.core (fun x => { x with molRes := x.molRes - 1 }) else s
/-- `REFUSAL_RECEIVE` (R379 to R381): the effects of the refusal, then its late report; a refused handle comes back as an
entry of KIND 0x03 (R266). -/
def execRefusalReceive (id : Nat) (s : State) : Host.Outcome State Fault Refusal :=
  match tfind s.bag id with
  | none => .next s
  | some m =>
    match m.st with
    | .refused reason addr =>
      let r := s.refusalActs m
      let s := if m.remote then (r.1.logAck m).unreserve m else r.1
      let s := ((s.complete m.src.core m.src.ctx r.2).dropMsg id).passGuard m
      let rep := m.report ((m.app.map (fun a => a.2.2)).getD s.gts) reason addr
      let s := if s.stillThere m.src then s.lateReport m.src.core m.src.ctx rep
        else s.record (s.household m.src.hid).queue 2 (lateRecord 1 m.src.field rep) none
      match m.body with
      | .hsend e _ _ => .next (s.arriveEntry m.src.core { e with kind := 3, ctxTo := m.src.ctx } none)
      | _ => .next s
    | _ => .next s

end Sys2Proof.Machine
end

