-- ==== Sys2Proof/Machine/Network.lean ====
section
/-! DEFINITION. Routers (R22, R23, R32, R438, R444), the order guard (R439) and forwarding stubs (R349). -/
namespace Sys2Proof.Machine

/-! ### Routes (R32, R438) -/

/-- The core whose router hands a message to its addressee: the core itself, or a core of the unit's cluster; none for
units that the sending core's router hands it to. -/
def Msg.target (m : Msg) : Option Nat :=
  match m.dst with
  | .core n => some n
  | .cluster cl => some (coreIn cl 0)
  | _ => none

/-! ### The order guard (R439) -/

/-- The guard's record of a source at a destination. -/
def lastKey (m : Msg) : Nat := 11 * memberOf m.src.core + m.src.ctx
/-- An item that the guard orders: a window request or an `hsend` entry. -/
def Msg.guarded (m : Msg) : Bool := m.goal.isSome && m.remote && m.stubs.isEmpty
/-- The interface delivers an item: LAST takes its SEQ, and it is performed or placed. -/
def State.deliver (s : State) (core id : Nat) (m : Msg) : State :=
  let s := s.onMsg id (fun m => { m with delivered := true })
  let s := if m.guarded then s.onCore core (fun x => { x with last := tput x.last (lastKey m) m.seq }) else s
  match m.body with
  | .send .. => s.next (.entryPlace id)
  | .hsend .. => s.next (.entryPlace id)
  | _ => s.next (.remoteRequestPerform id)
/-- An item may be delivered: its PREV is none or equals LAST of its source. Where the item that PREV names is no longer
outstanding, because it was refused on its way or acknowledged, nothing is left to wait for (log 32). -/
def State.inOrder (s : State) (core : Nat) (m : Msg) : Bool :=
  match m.prev with
  | none => true
  | some q =>
    tfind (s.coreOf core).last (lastKey m) == some q ||
      !s.bag.any (fun p => p.2.src == m.src && p.2.seq == q && p.2.guarded && p.2.goal == some core)
/-- An item arrives at its core's mesh interface. -/
def State.atInterface (s : State) (core id : Nat) (m : Msg) : State :=
  if m.delivered then s.next (.remoteRequestPerform id)
  else if !m.guarded || s.inOrder core m then
    let s := s.deliver core id m
    if (s.coreOf core).held.isEmpty then s else s.stepAt (s.gts + 1) (.orderRestoreDeliver core)
  else s.onCore core (fun x => { x with held := x.held ++ [id] })
/-- `ORDER_RESTORE_DELIVER` (R439): a held item is delivered in the cycle after the one that its PREV names. -/
def execOrderRestoreDeliver (core : Nat) (s : State) : Host.Outcome State Fault Refusal :=
  let hit := (s.coreOf core).held.find? (fun id =>
    match tfind s.bag id with
    | some m => s.inOrder core m
    | none => true)
  match hit with
  | none => .next s
  | some id =>
    let s := s.onCore core (fun x => { x with held := x.held.erase id })
    let s := match tfind s.bag id with
      | some m => s.deliver core id m
      | none => s
    .next (if (s.coreOf core).held.isEmpty then s else s.stepAt (s.gts + 1) (.orderRestoreDeliver core))

/-! ### Routers -/

/-- The record of a `sig` at the Porch (R355): the signal is acknowledged when it is written. -/
def State.signal (s : State) (id : Nat) (m : Msg) (imm val : Nat) : State :=
  (s.onMsg id (fun m => { m with delivered := true })).record (s.household m.src.hid).queue 1
    (packRecord [(1, 1), (1, 0), (2, imm), (4, m.src.field), (8, val), (8, m.gts), (8, 0)]) (some id)
/-- A message leaves the mesh for a shared unit, which checks its Fen identifier (R32). -/
def State.atUnit (s : State) (id : Nat) (m : Msg) : State :=
  match m.dst, m.body with
  | .streamer, _ => s.soon (.streamerAccept id)
  | .porch, .sig imm val => if s.heldBehind m then s.stepAt (s.gts + 1) (.routerReceive id) else s.signal id m imm val
  | .porch, _ => if s.heldBehind m then s.stepAt (s.gts + 1) (.routerReceive id) else s.soon (.porchAnswer id)
  | .event _, .esig _ _ => s.soon (.esigAdd id)
  | .event _, _ => s.soon (.remoteRequestPerform id)
  | _, _ => s
/-- A router discards a message of a Fen that it does not serve: counted, and refused with reason 6 (R444). A streamer
command is refused by the streamer's own check. -/
def State.discard (s : State) (id : Nat) (m : Msg) : State :=
  let s := s.onDie (dieOf m.at_) (fun d => { d with fenx := min 65535 (d.fenx + 1) })
  match m.body with
  | .command .. => s.next (.streamerAccept id)
  | .correct .. => s.dropMsg id
  | .send e task => (s.corrections m task m.at_).refuseMsg id 6 (destField task e.ctxTo)
  | .hsend e task _ => (s.corrections m task m.at_).refuseMsg id 6 (destField task e.ctxTo)
  | b => s.refuseMsg id 6 (b.addrs.headD 0)
/-- `ROUTER_RECEIVE` (R32, R438, R444): the router of the core that the message stands at checks its Fen and hands it on:
to its addressee, or to the next router; it waits while its crossing retrains (R426); a message without a route is held and its
household killed. -/
def execRouterReceive (id : Nat) (s : State) : Host.Outcome State Fault Refusal :=
  match tfind s.bag id with
  | none => .next s
  | some m =>
    if m.st != .going then .next s
    else if !s.fenHolds m.src.hid m.src.fen (clusterOf m.at_) then .next (s.discard id m)
    else
      match m.target with
      | none => .next (s.atUnit id m)
      | some n =>
        if m.at_ = n then
          match m.dst with
          | .cluster _ => .next (s.next (.stubCorrection id))
          | _ => .next (s.atInterface n id m)
        else
          match s.nextHop m n with
          | some (c, det) =>
            if s.crossingBusy m.at_ c then .next (s.stepAt (s.gts + 1) (.routerReceive id))
            else .next ((s.onMsg id (fun m => { m with at_ := c, detour := det })).soon (.routerReceive id))
          | none => .next (s.killNow m.src.hid)

/-! ### Forwarding stubs (R349, R444) -/

/-- The task that an entry message addresses. -/
def Body.task (b : Body) : Option Nat :=
  match b with
  | .send _ t => some t
  | .hsend _ t _ => some t
  | _ => none
/-- `STUB_FORWARD`: the cluster at the old place sends the message on; a fourth stub refuses it with reason 15, and an `hsend` whose
task the stubs lead out of the sender's cluster is refused with reason 12 (R266). -/
def execStubForward (id : Nat) (s : State) : Host.Outcome State Fault Refusal :=
  match tfind s.bag id with
  | none => .next s
  | some m =>
    match m.dst, m.body.task with
    | .core n, some task =>
      match tfind (s.clusterAt (clusterOf n)).stubs (dirKey m.src.hid task) with
      | none => .next s
      | some c =>
        let ctx := match m.body with
          | .send e _ => e.ctxTo
          | .hsend e _ _ => e.ctxTo
          | _ => 0
        let away : Bool := match m.body with
          | .hsend .. => clusterOf (s.stubEnd m.src.hid task c 4) != clusterOf m.src.core
          | _ => false
        if away then .next ((s.corrections m task c).refuseMsg id 12 (destField task ctx))
        else if 3 ≤ m.stubs.length then .next ((s.corrections m task c).refuseMsg id 15 (destField task ctx))
        else
          .next ((s.onMsg id (fun m =>
            { m with stubs := m.stubs ++ [clusterOf n], dst := .core c, at_ := n, prev := none, delivered := false })).soon
              (.routerReceive id))
    | _, _ => .next s
/-- `STUB_CORRECTION`: the sending cluster's directory entry is rewritten. -/
def execStubCorrection (id : Nat) (s : State) : Host.Outcome State Fault Refusal :=
  match tfind s.bag id with
  | none => .next s
  | some m =>
    match m.dst, m.body with
    | .cluster cl, .correct task core =>
      .next ((s.onCluster cl (fun k => { k with dir := tput k.dir (dirKey m.src.hid task) core })).dropMsg id)
    | _, _ => .next s

end Sys2Proof.Machine
end

