-- ==== Sys2Proof/Machine/Tasks.lean ====
section
/-! DEFINITION. The end of helpers and tasks (R39, R157, R274, R449). -/
namespace Sys2Proof.Machine

/-! ### Conditions -/

/-- Every token of a context is 0. -/
def Ctx.quiet (c : Ctx) : Bool :=
  (List.range 16).all (fun j => c.tok (.k j) == 0) && (List.range 4).all (fun j => c.tok (.t j) == 0) && c.out.isEmpty
/-- A halted context whose tokens and ORC are 0 (R39), whose upcalls have been entered (R284) and which the matrix unit
does not still serve. -/
def State.mayEnd (s : State) (core ctx : Nat) : Bool :=
  let x := s.coreOf core
  let c := x.ctx ctx
  c.live && c.wait == .halt && !c.fatal && c.quiet && (s.upcallEntry core ctx).isNone &&
    !(x.mowner == some ctx && (x.mheld != 0 || !x.mlds.isEmpty))

/-! ### Entries of a context that ends -/

/-- An entry of a handle. -/
def Entry.isHandle (e : Entry) : Bool := e.kind == 2 || e.kind == 3
/-- Every box entry, oldest first. -/
def State.boxAll (s : State) (core : Nat) : List Entry := (List.range (s.boxCount core)).map (s.boxEntry core)
/-- Box entries written from slot j on. -/
def State.boxFill (s : State) (core j : Nat) (es : List Entry) : State :=
  match es with
  | [] => s
  | e :: rest => ((s.boxStore core (s.boxSlot core j) e.boxWord e.know).getD s).boxFill core (j + 1) rest
/-- The box's entries replaced, in their order. -/
def State.boxReplace (s : State) (core : Nat) (es : List Entry) : State :=
  if s.boxCount core = 0 then s else (s.boxFill core 0 es).boxHeader core (s.boxHead core) es.length
/-- The record of an entry that a retired helper never dequeued (R157). -/
def State.purgeRecord (s : State) (core ctx task : Nat) (e : Entry) : State :=
  s.record (s.queueOfCore core) 2
    (faultRecord 1 12 e.seq e.src (destField task ctx) s.gts (if e.kind = 1 then 8 else 10) 0
      (if e.kind = 1 then 0 else bits e.payload.toNat 0 32)) none
/-- An entry as the control context receives it (R274). -/
def Entry.toControl (e : Entry) : Entry := { e with kind := 3, ctxTo := 0 }
/-- The lineage entry of a handle in flight has no owner. -/
def State.toFlight (s : State) (h : HVal) : State := s.onLentry h.cluster h.entry (fun e => { e with st := .sent, infl := true })
/-- One entry for each Live handle of a helper, in register order (R274), with SEQ 0 and the helper as SRC (log 32). -/
def State.handleEntries (s : State) (core ctx : Nat) : List (HVal × Entry) :=
  let c := s.ctxOf core ctx
  ((List.range 16).filter c.isLive).map (fun j =>
    ((c.hReg j).val,
     { kind := 3, b1 := 0, seq := 0, src := (s.srcOf core ctx).field, payload := BitVec.ofNat 192 (c.hReg j).val.pack,
       ctxTo := 0, placed := s.gts, fromCore := core, fromCtx := ctx, know := [] }))
/-- A change of a lineage entry that a completion holds. -/
def Act.inTable (a : Act) : Bool :=
  match a with
  | .lineage .. => true
  | .owner .. => true
  | _ => false
/-- The lineage changes that a context has issued and the table does not show yet (R260) are written: they come before those
of its end (R274). -/
def State.flushLineage (s : State) (core ctx : Nat) : State :=
  let mine (d : Due) : List Act :=
    match d.ev with
    | .done c i acts => if c = core ∧ i = ctx then acts.filter Act.inTable else []
    | .step _ => []
  let acts := s.due.flatMap mine
  let due := s.due.map (fun d =>
    match d.ev with
    | .done c i as => if c = core ∧ i = ctx then { d with ev := .done c i (as.filter (fun a => !a.inTable)) } else d
    | .step _ => d)
  if acts.isEmpty then s else acts.foldl (State.actOutside core ctx) { s with due := due }
/-- Waiting entries at the input for a context are refused with reason 12 (R157). -/
def State.refuseInput (s : State) (core ctx task : Nat) : State :=
  let mine (p : Entry × Nat × Option Nat) : Bool := p.1.ctxTo == ctx && p.2.2.isSome
  let gone := (s.coreOf core).input.filter mine
  gone.foldl (fun s p =>
    match p.2.2 with
    | none => s
    | some id =>
      let s := match tfind s.bag id with
        | some m => s.corrections m task core
        | none => s
      s.refuseMsg id 12 (destField task ctx))
    (s.onCore core (fun x => { x with input := x.input.filter (fun p => !mine p) }))
/-- A retiring context with suspect results writes one record (R448, R449). -/
def State.suspectRecord (s : State) (core ctx : Nat) : State :=
  let c := s.ctxOf core ctx
  if c.scnt = 0 then s
  else
    s.record (s.queueOfCore core) 2
      (packRecord [(1, 4), (1, 1), (2, 0), (4, (s.srcOf core ctx).field), (8, 0), (8, s.gts), (8, c.scnt)]) none

/-! ### Retirement (R39, R157, R274) -/

/-- A retired helper is no member of an instance any more: a later helper of its slot joins anew (R45). -/
def State.leaveDoms (s : State) (core ctx : Nat) : State :=
  { s with doms := s.doms.map (fun d => (d.1, { d.2 with members := d.2.members.filter (fun m => m != (core, ctx)) })) }
/-- A returned handle that waits at the input has no message: it belongs to the core that it returned to (R266). -/
def returned (p : Entry × Nat × Option Nat) : Bool := p.1.isHandle && p.2.2.isNone
/-- `HELPER_RETIRE`: handles go to the control context, undequeued entries are recorded, and the slot is free. Its undequeued handle
entries keep their places in the queue, and those of its registers are placed behind them (log 32). Its recording or replay
ends with it (log 33). -/
def execHelperRetire (core ctx : Nat) (s : State) : Host.Outcome State Fault Refusal :=
  if ctx = 0 || !s.mayEnd core ctx then .next s
  else
    let task := (s.ctxOf core ctx).task
    let s := (s.suspectRecord core ctx).flushLineage core ctx
    let hs := s.handleEntries core ctx
    let s := hs.foldl (fun s p => s.toFlight p.1) s
    let x := s.coreOf core
    let mine (e : Entry) : Bool := e.ctxTo == ctx
    let box := s.boxAll core
    let purged := (x.inbox ++ box).filter (fun e => mine e && !e.isHandle)
    let keep (l : List Entry) : List Entry :=
      (l.filter (fun e => !mine e || e.isHandle)).map (fun e => if mine e then e.toControl else e)
    let s := purged.foldl (fun s e => s.purgeRecord core ctx task e) s
    let s := s.boxReplace core (keep box)
    let s := s.onCore core (fun x =>
      ({ x with inbox := keep x.inbox, mowner := if x.mowner == some ctx then none else x.mowner,
                input := x.input.map (fun (p : Entry × Nat × Option Nat) => if mine p.1 && returned p then (p.1.toControl, p.2) else p),
                upcs := x.upcs.filter (fun p => p.1 / 65536 != ctx) }.setCtx ctx Ctx.reset).endRb ctx)
    let s := (s.leaveDoms core ctx).refuseInput core ctx task
    let s := hs.foldl (fun s p => s.arriveEntry core p.2 none) s
    .next ((s.serve core 0 (s.ctxOf core 0).lastPc).refill core)

/-! ### The end of a task (R39, R274) -/

/-- Lineage entries of a cluster that stand for a handle of a context of the core, or for a handle entry placed for it; an entry
that still waits at the input is refused and returns to its sender (R157, R266). -/
def State.ownedEntries (s : State) (core : Nat) : List (Nat × Nat) :=
  let x := s.coreOf core
  let regs := (List.range 11).flatMap (fun i =>
    ((List.range 16).filter (x.ctx i).isLive).map (fun j => ((x.ctx i).hReg j).val))
  let back := (x.input.filter returned).map (fun p => p.1)
  let sent := ((x.inbox ++ s.boxAll core ++ back).filter Entry.isHandle).map
    (fun e => HVal.unpack (e.payload.toNat % 2 ^ 64))
  (regs ++ sent).map (fun h => (h.cluster, h.entry))
/-- A child of a Split entry is still in use. -/
def Cluster.childUsed (k : Cluster) (p c : Nat) : Bool :=
  match tfind k.lineage c with
  | none => false
  | some e => !e.root && e.parent == p
/-- One pass: Split entries of a household both of whose children are Free become Free; their number. -/
def Cluster.freeSplit (k : Cluster) (hid : Nat) : Cluster × Nat :=
  let gone := (k.lineage.filter (fun p =>
    p.2.st == .split && p.2.hid == hid && !k.childUsed p.1 p.2.child0 && !k.childUsed p.1 p.2.child1)).map (fun p => p.1)
  ({ k with lineage := k.lineage.filter (fun p => !gone.contains p.1) }, gone.length)
/-- The passes of R274, up the lineage. -/
def Cluster.freeUp (k : Cluster) (hid fuel : Nat) : Cluster × Nat :=
  match fuel with
  | 0 => (k, 0)
  | n + 1 =>
    let r := k.freeSplit hid
    if r.2 = 0 then (k, 0)
    else
      let r' := r.1.freeUp hid n
      (r'.1, r.2 + r'.2)
/-- The lineage entries freed at a task's end; their number (R274). -/
def State.freeLineage (s : State) (core : Nat) : State × Nat :=
  let hid := (s.coreOf core).hid.getD 0
  let cl := clusterOf core
  let mine := (s.ownedEntries core).eraseDups
  let s := mine.foldl (fun s p => s.onCluster p.1 (fun k => { k with lineage := tdel k.lineage p.2 })) s
  let r := (s.clusterAt cl).freeUp hid 1024
  ({ s with clusters := tput s.clusters cl r.1 }, mine.length + r.2)
/-- No task of a household runs on a cluster. -/
def State.clusterIdle (s : State) (cl hid : Nat) : Bool :=
  (clusterCores cl).all (fun c =>
    let x := s.coreOf c
    x.hid != some hid || !(x.ctx 0).live || x.ended)
/-- The cistern groups of a cluster become Undeclared with its last task, once every request has completed (R253). -/
def State.undeclare (s : State) (cl hid : Nat) : State :=
  let k := s.clusterAt cl
  if s.clusterIdle cl hid && k.addQ.isEmpty && k.tapQ.isEmpty && k.groups.all (fun g => g.2.st == .idle || g.2.st == .undeclared) then
    s.onCluster cl (fun k => { k with groups := k.groups.map (fun g => (g.1, { g.2 with st := .undeclared })) })
  else s
/-- `TASK_END`: every helper has retired and the control context's tokens and ORC are 0 (R39); the task's lineage entries are
freed (R274) and its end is reported in the same cycle (R318). -/
def execTaskEnd (core : Nat) (s : State) : Host.Outcome State Fault Refusal :=
  let x := s.coreOf core
  if x.ended || !s.mayEnd core 0 || (List.range 10).any (fun i => (x.ctx (i + 1)).live) then .next s
  else
    let hid := x.hid.getD 0
    let s := (s.suspectRecord core 0).flushLineage core 0
    let r := s.freeLineage core
    let s := r.1.onCore core (fun x =>
      { x with ended := true, freed := r.2, planTodo := [], input := x.input.filter (fun p => !returned p),
               mowner := none }.setCtx 0 { x.ctx 0 with live := false })
    let s := s.refuseInput core 0 (x.ctx 0).task
    .next ((s.undeclare (clusterOf core) hid).next (.taskEndReport core))

end Sys2Proof.Machine
end

