-- ==== Sys2Proof/Machine/Ring.lean ====
section
/-! DEFINITION. Writing records to the rings: completion, signal and fault records (R353 to R355, R385), module event records
(R428) and the scheduling log (R466). -/
namespace Sys2Proof.Machine

/-! ### A queue's rings -/

/-- N of a ring: 4,096 for completions, else 16·2^LOG2N (R302, R355). -/
def QueueSt.slots (x : QueueSt) (n : Nat) : Nat := if n = 0 then 4096 else 16 * 2 ^ (x.ring n).log2n
/-- The address of a ring's first slot: the completion ring follows the submission ring (R302). -/
def QueueSt.ringBase (x : QueueSt) (n : Nat) : Nat := if n = 0 then 4096 * x.rbase + 0x80000 else 4096 * (x.ring n).base
/-- The ring has room for its next record. -/
def QueueSt.hasRoom (x : QueueSt) (n : Nat) : Bool :=
  decide (((x.ring n).tail + 2 ^ 32 - (x.ring n).head) % 2 ^ 32 < x.slots n)
/-- The bytes of a record at its write: a group record takes the GTS then (R320). -/
def recordAt (ring : Nat) (rec_ : BitVec 256) (g : Nat) : Nat :=
  let n := rec_.toNat
  if ring = 0 && n % 256 == 1 then bits n 0 128 + g % 2 ^ 64 * 2 ^ 128 + bits n 192 64 * 2 ^ 192 else n
/-- The try of a held record waits for a bank: one such try stands in the next cycle. -/
def State.tryNext (s : State) (q ring : Nat) : State :=
  let again := Due.mk (s.gts + 1) (.step (.recordWrite q ring))
  if s.due.contains again then s else s.later again.at_ again.ev
/-- A ring's record is refused and will be tried again (R353). -/
def State.retryLater (s : State) (q ring : Nat) : State :=
  (s.onQueue q (fun x => x.setRing ring { x.ring ring with refused := true, retryAt := some (s.gts + 1900000) })).stepAt
    (s.gts + 1900000) (.recordRetry q ring)
/-- One try of the oldest held record of a ring (R353, R364); a refused one is tried again after 1,900,000 cycles. -/
def State.tryRecord (s : State) (q ring : Nat) : State :=
  let x := s.queue q
  let r := x.ring ring
  match r.held, x.hid with
  | (rec_, ack) :: rest, some hid =>
    let va := x.ringBase ring + 32 * (r.tail % x.slots ring)
    if s.linkDown 26 || x.ringsTorn || !x.hasRoom ring then s
    else if s.vaBusy hid va then s.tryNext q ring
    else
      match s.writeVa hid va 32 (recordAt ring rec_ s.gts) with
      | .ok s =>
        let s := s.onQueue q (fun x =>
          x.setRing ring { x.ring ring with held := rest, tail := (r.tail + 1) % 2 ^ 32, refused := false, retryAt := none })
        let s := match ack with
          | some id => s.acknowledge id
          | none => s
        if rest.isEmpty then s else s.next (.recordWrite q ring)
      | .error _ =>
        let s := if r.refused then s else s.moduleEvent 0x0C q ring 0 hid
        match r.retryAt with
        | some g => if s.gts < g then s else s.retryLater q ring
        | none => s.retryLater q ring
  | _, _ => s
/-- `RECORD_WRITE` (R353, R354, R385). -/
def execRecordWrite (q ring : Nat) (s : State) : Host.Outcome State Fault Refusal := .next (s.tryRecord q ring)
/-- `RECORD_RETRY` (R353): the periodic try of a refused record. -/
def execRecordRetry (q ring : Nat) (s : State) : Host.Outcome State Fault Refusal :=
  .next (if ((s.queue q).ring ring).retryAt.any s.isAt then s.tryRecord q ring else s)
/-- The write of a ring's HEAD reaches the Porch (R353 to R355, R385). -/
def State.headWrite (s : State) (q ring val : Nat) : State :=
  let s := s.onQueue q (fun x => x.setRing ring { x.ring ring with head := val % 2 ^ 32 })
  if ((s.queue q).ring ring).refused then s.stepAt (s.gts + 1) (.recordWrite q ring) else s.next (.recordWrite q ring)
/-- `RING_HEAD_WRITE`: CHEAD, SQIDX.HEAD or FQIDX.HEAD. -/
def execRingHeadWrite (q ring : Nat) (val : BitVec 64) (s : State) : Host.Outcome State Fault Refusal :=
  .next (s.headWrite q ring val.toNat)

/-! ### Module rings (R428, R466) -/

/-- A module ring's room, by 16-bit arithmetic; N is at most 2^15. -/
def Ring.moduleRoom (r : Ring) : Bool := decide ((r.tail + 65536 - r.head) % 65536 < 16 * 2 ^ min r.log2n 11)
/-- The oldest held record stored in a ring in host memory, as far as there is room. -/
def State.flushRing (s : State) (r : Ring) : State × Ring :=
  match r.held with
  | [] => (s, r)
  | (rec_, _) :: rest =>
    if s.linkDown 26 || !r.moduleRoom then (s, r)
    else
      ({ s with host := s.host.writeN (pfHost + 4096 * r.base + 32 * (r.tail % (16 * 2 ^ min r.log2n 11))) 32 rec_.toNat },
       { r with held := rest, tail := (r.tail + 1) % 65536 })
/-- A module event record of an uncorrectable error (R428, R429). -/
def uncorrectable (rec_ : BitVec 256) : Bool :=
  let k := rec_.toNat % 256
  k == 1 || k == 9 || k == 0x0B
/-- `EVENT_RECORD_WRITE` (R428): an uncorrectable error is reported through AER as its record is written. -/
def execEventRecordWrite (s : State) : Host.Outcome State Fault Refusal :=
  let old := s.porch.mev.held
  let p := s.flushRing s.porch.mev
  let ue : Bool := p.2.held.length < old.length && (old.head?.map (fun r => uncorrectable r.1)).getD false
  let s := { p.1 with porch := { p.1.porch with mev := p.2, aer := p.1.porch.aer + ofBool ue } }
  .next (if !p.2.held.isEmpty && p.2.moduleRoom && !s.linkDown 26 then s.next .eventRecordWrite else s)
/-- Every held record of the scheduling log that has room is stored. -/
def State.flushSlog (s : State) (fuel : Nat) : State :=
  match fuel with
  | 0 => s
  | k + 1 =>
    if s.porch.slog.held.isEmpty then s
    else
      let p := s.flushRing s.porch.slog
      (({ p.1 with porch := { p.1.porch with slog := p.2 } }).flushSlog k)
/-- Free slots of the scheduling log's ring. -/
def State.slogFree (s : State) : Nat :=
  16 * 2 ^ min s.porch.slog.log2n 11 - ((s.porch.slog.tail + 65536 - s.porch.slog.head) % 65536 + s.porch.slog.held.length)
/-- A record of the scheduling log (R466). -/
def State.slogRecord (s : State) (kind q eff cls ticket ox oy status : Nat) : State :=
  let r := s.porch.slog
  let rec_ := packRecord [(1, kind), (1, q), (1, eff), (1, cls), (4, ticket), (8, s.gts), (1, ox), (1, oy), (1, status), (1, 0),
    (4, s.porch.echg), (8, 0)]
  if r.held.length < 1024 then
    ({ s with porch := { s.porch with slog := { r with held := r.held ++ [(rec_, none)] } } }).flushSlog 1025
  else { s with porch := { s.porch with slogLost := min 65535 (s.porch.slogLost + 1) } }

end Sys2Proof.Machine
end

