-- ==== Sys2Proof/Machine/Sched.lean ====
section
/-! DEFINITION. Launch and scheduling: tickets, intake, the descriptor's checks, placement, admission, loading, group ends
and cancels (R303 to R321). -/
namespace Sys2Proof.Machine

/-! ### Tickets and groups -/

/-- n − m modulo 2^32. -/
def sub32 (n m : Nat) : Nat := (n + 2 ^ 32 - m % 2 ^ 32) % 2 ^ 32
/-- An earlier ticket, by arithmetic modulo 2^32 (R303). -/
def ticketBefore (a b : Nat) : Bool := a != b && decide (sub32 b a < 2 ^ 31)
def State.taskGroup (s : State) (q t : Nat) : Option Group := (s.queue q).groups.find? (fun g => g.ticket == t)
def State.onTaskGroup (s : State) (q t : Nat) (f : Group → Group) : State :=
  s.onQueue q (fun x => { x with groups := x.groups.map (fun g => if g.ticket == t then f g else g) })
def State.dropGroup (s : State) (q t : Nat) : State :=
  s.onQueue q (fun x => { x with groups := x.groups.filter (fun g => g.ticket != t) })
/-- Numbers in rising order. -/
def insertNat (n : Nat) (l : List Nat) : List Nat :=
  match l with
  | [] => [n]
  | m :: rest => if n ≤ m then n :: m :: rest else m :: insertNat n rest
def sortNat (l : List Nat) : List Nat := l.foldr insertNat []
/-- A group holds its clusters (R309). -/
def Group.holds (g : Group) : Bool := g.st == .loading || g.st == .running || g.st == .draining
/-- The core of a revived task (R412). -/
def State.reviveCore (s : State) (g : Group) (t : ReviveTask) : Nat :=
  match tfind (s.household g.hid).fens g.desc.fidx with
  | none => 0
  | some f => coreIn (clAt (f.cx + g.ox + t.x) (f.cy + g.oy + t.y)) t.member
/-- The cores of a group that run a task, in core order (R306, R412). -/
def State.groupCores (s : State) (g : Group) : List Nat :=
  match g.revive with
  | some (_, ts) => sortNat (ts.map (s.reviveCore g))
  | none => sortNat ((s.groupClusters g).flatMap (fun cl => ((List.range 16).filter (bit g.desc.cmask)).map (coreIn cl)))
/-- Every group that holds clusters. -/
def State.holders (s : State) : List Group := s.queues.flatMap (fun q => q.2.groups.filter Group.holds)
/-- STATUS of a finished ticket (R310); void tickets finish as done. -/
def QueueSt.statusOf (x : QueueSt) (t : Nat) : Option Nat :=
  match x.groups.find? (fun g => g.ticket == t) with
  | some g => if g.reported then some 0 else none
  | none => some (tget x.finished 0 (t % 4096))
/-- A group record (R320); bytes 23:16 are filled as it is written. -/
def groupRecord (status reason ticket start mcls ox oy freed : Nat) : BitVec 256 :=
  packRecord [(1, 1), (1, status), (2, reason), (4, ticket), (8, start), (8, 0), (1, mcls), (1, ox), (1, oy), (1, 0), (4, freed)]
/-- A cancel record (R320). -/
def cancelRecord (status ticket g : Nat) : BitVec 256 := packRecord [(1, 2), (1, status), (2, 0), (4, ticket), (8, g), (16, 0)]
/-- A ticket finishes with a STATUS. -/
def State.finish (s : State) (q t status : Nat) : State :=
  s.onQueue q (fun x => { x with finished := tput x.finished (t % 4096) status })
/-- The statuses of a group's dependences. -/
def QueueSt.depsOf (x : QueueSt) (g : Group) : List (Option Nat) := g.desc.deps.map x.statusOf
/-- A dependence has finished with a status other than 0. -/
def depFailed (l : List (Option Nat)) : Bool := l.any (fun d => d.isSome && d != some 0)
/-- Waiting groups whose dependences have finished become Ready or DepFailed, dependents of those in turn (R309). -/
def State.settle (s : State) (q fuel : Nat) : State :=
  match fuel with
  | 0 => s
  | k + 1 =>
    let x := s.queue q
    match x.groups.find? (fun g => g.st == .waiting && depFailed (x.depsOf g)) with
    | some g =>
      (((s.dropGroup q g.ticket).finish q g.ticket 3).record q 0 (groupRecord 3 0 g.ticket 0 0 0 0 0) none).settle q k
    | none =>
      let g := s.gts
      s.onQueue q (fun x => { x with groups := x.groups.map (fun y =>
        if y.st == .waiting && (x.depsOf y).all (fun d => d == some 0) then { y with st := .ready, readyGts := g } else y) })
/-- A ticket finishes without having run: its record, with the origin of a group that has been placed, its status, its
dependents. -/
def State.finishEarly (s : State) (q t status reason : Nat) (ox oy : Nat := 0) : State :=
  let s := (s.dropGroup q t).finish q t status
  (s.record q 0 (groupRecord status reason t 0 0 ox oy 0) none).settle q 4097

/-! ### Tickets from the host (R303, R304) -/

/-- `TKR_CAS` (R303): the reservation, when NEXT equals the compare value and the run is allowed. -/
def execTkrCas (q : Nat) (cmp new : BitVec 64) (s : State) : Host.Outcome State Fault Refusal :=
  let x := s.queue q
  let n := new.toNat % 2 ^ 32
  if cmp.toNat = x.next && 1 ≤ sub32 n x.next && sub32 n x.next ≤ 64 && sub32 n x.intk ≤ 4096 then
    .next (s.onQueue q (fun x => { x with next := n }))
  else .next s
/-- A tick of this cycle has still to decide: what reaches the Porch in its cycle acts after it (R305, R316, R321). -/
def State.tickPending (s : State) : Bool := s.agenda.contains .schedulerTick
/-- `CMT` (R304, R305). -/
def execCmt (q : Nat) (val : BitVec 64) (s : State) : Host.Outcome State Fault Refusal :=
  if s.tickPending then .next (s.next (.cmt q val))
  else
    let x := s.queue q
    let t := val.toNat % 2 ^ 32
    if sub32 t x.intk < sub32 x.next x.intk && !x.commits.contains t then
      .next (s.onQueue q (fun x => { x with commits := x.commits ++ [t] }))
    else .next s

/-! ### The launch descriptor (R306 to R308) -/

/-- A launch descriptor's fields from its 1,024 bits (R306). -/
def Desc.ofNat (n : Nat) (raw : List Byte) : Desc :=
  { raw := raw, pri := bits n 8 3, pin := bit n 11, level := bits n 16 3, ecls := bits n 24 4, fidx := bits n 64 6,
    eslot := bits n 72 8, w := bits n 80 8, h := bits n 88 8, ox := bits n 96 8, oy := bits n 104 8, cmask := bits n 112 16,
    tbase := bits n 128 20, deps := (List.range (min 4 (bits n 336 8))).map (fun i => bits n (736 + 32 * i) 32) }
def Desc.nat (d : Desc) : Nat := natOfBytes d.raw
def Desc.codeb (d : Desc) : Nat := bits d.nat 160 32
def Desc.codeva (d : Desc) : Nat := bits d.nat 192 64
def Desc.segva (d : Desc) : Nat := bits d.nat 256 64
def Desc.nseg (d : Desc) : Nat := bits d.nat 320 8
def Desc.ncis (d : Desc) : Nat := bits d.nat 328 8
def Desc.mf (d : Desc) : Nat := bits d.nat 344 8
def Desc.entry (d : Desc) : Nat := bits d.nat 352 32
def Desc.arg (d : Desc) : Nat := bits d.nat 384 64
def Desc.planva (d : Desc) : Nat := bits d.nat 448 64
def Desc.planstr (d : Desc) : Nat := bits d.nat 512 32
def Desc.xpla (d : Desc) : Nat := bits d.nat 544 32
def Desc.cisva (d : Desc) : Nat := bits d.nat 576 64
def Desc.ovh (d : Desc) : Nat := bits d.nat 640 32
def Desc.msa (d : Desc) : Nat := bits d.nat 672 32
def Desc.msb (d : Desc) : Nat := bits d.nat 704 32
/-- T (R306). -/
def Desc.tasks (d : Desc) : Nat := ((List.range 16).filter (bit d.cmask)).length * d.w * d.h
/-- The end of the code image, rounded up (R308, R317). -/
def Desc.codeEnd (d : Desc) : Nat := (d.codeb + 255) / 256 * 256
/-- Reason 1: a field outside R306 that no later reason names. -/
def Desc.bad1 (d : Desc) : Bool :=
  let n := d.nat
  bits n 0 8 != 1 || bits n 12 4 != 0 || d.level == 7 || bits n 19 5 != 0 || bits n 28 4 != 0 || bits n 70 2 != 0 ||
    d.w == 0 || 20 < d.w || d.h == 0 || 16 < d.h || (!d.pin && (d.ox != 0 || d.oy != 0)) || bits n 148 12 != 0 ||
    d.codeb < 8 || 393216 < d.codeb || d.codeb % 8 != 0 || d.codeva % 8 != 0 ||
    [d.codeva, d.segva, d.planva, d.cisva].any (fun a => decide (2 ^ 52 ≤ a)) || 16 < d.nseg || 64 < d.ncis ||
    d.planstr % 16 != 0 || d.xpla % 16 != 0 || bits n 864 160 != 0
/-- Reason 3. -/
def State.bad3 (s : State) (hid : Nat) (d : Desc) : Bool :=
  match tfind (s.household hid).fens d.fidx with
  | none => true
  | some f => f.w < d.w || f.h < d.h || (d.pin && (f.w < d.ox + d.w || f.h < d.oy + d.h))
/-- Tables of 16-byte entries. -/
def State.table16 (s : State) (hid va n : Nat) : Except (Nat × Nat) (List Nat) :=
  match s.getBytes hid va (16 * n) with
  | .error e => .error e
  | .ok bs => .ok ((List.range n).map (fun i => natOfBytes ((bs.drop (16 * i)).take 16)))
/-- A segment: VA, local address, bytes (R307). -/
def segOf (e : Nat) : Nat × Nat × Nat := (bits e 0 64, bits e 64 32, bits e 96 32)
/-- A cistern entry breaks R67. -/
def cisBad (e : Nat) : Bool :=
  let first := bits e 0 8
  let count := bits e 8 8
  let per := bits e 16 8
  let n := bits e 32 32
  let eps := bits e 64 32
  let gamma := bits e 96 32
  63 < first || 64 < first + count || per == 0 || 4 < per || count % per != 0 || n == 0 || per * 16384 < n ||
    2 ^ 31 ≤ eps || 0x7F800000 < eps || gamma % 2 != 0 || 0x60000 ≤ gamma
/-- Two entries share a row. -/
def cisShare (es : List Nat) : Bool :=
  let rows := es.flatMap (fun e => (List.range (bits e 8 8)).map (fun i => bits e 0 8 + i))
  rows.eraseDups.length != rows.length
/-- A plan is malformed (R34). -/
def planBad (bs : List Byte) : Bool :=
  let h := natOfBytes (bs.take 16)
  let period := bits h 0 16
  period == 0 || bits h 32 96 != 0 ||
    (List.range (bits h 16 16)).any (fun i =>
      let e := natOfBytes ((bs.drop (16 + 32 * i)).take 32)
      let kind := bits e 16 8
      let n := bits e 128 32
      let sa := bits e 64 32
      let da := bits e 96 32
      period ≤ bits e 0 16 || 1 < kind || bits e 24 8 != 0 || bits e 52 12 != 0 || bits e 160 96 != 0 || sa % 8 != 0 ||
        da % 8 != 0 || n < 8 || 393216 < n || n % 8 != 0 || 0x60000 < sa + n ||
        (if kind = 0 then 0x60000 < da + n else 524288 < da + n))
/-- The plan of task j: its bytes; COUNT above 4,095 is malformed and read as no entry (log 21). -/
def State.planBytes (s : State) (hid : Nat) (d : Desc) (j : Nat) : Except (Nat × Nat) (List Byte × Bool) :=
  if d.planva = 0 then .ok (bytesOf 16 1, true)
  else
    let va := d.planva + j * d.planstr
    match s.getBytes hid va 16 with
    | .error e => .error e
    | .ok h =>
      let count := bits (natOfBytes h) 16 16
      if 4095 < count then .ok (h, false)
      else
        match s.getBytes hid va (16 + 32 * count) with
        | .error e => .error e
        | .ok bs => .ok (bs, !planBad bs)
/-- Two ranges (address, bytes) overlap. -/
def overlaps (a b : Nat × Nat) : Bool := decide (a.1 < b.1 + b.2 ∧ b.1 < a.1 + a.2 ∧ 0 < a.2 ∧ 0 < b.2)
/-- Some pair of ranges overlaps. -/
def anyOverlap (l : List (Nat × Nat)) : Bool :=
  match l with
  | [] => false
  | a :: rest => rest.any (overlaps a) || anyOverlap rest
/-- The reasons of R308 that the tables and plans give: 5, 6, 7 and 10. -/
def State.tableReasons (s : State) (hid : Nat) (d : Desc) : List Nat :=
  let segs := s.table16 hid d.segva d.nseg
  let cis := s.table16 hid d.cisva d.ncis
  let plans := (List.range d.tasks).map (s.planBytes hid d)
  let sl := (segs.toOption.getD []).map segOf
  let plen := (plans.map (fun p => ((p.toOption.getD ([], true)).1).length)).foldl max 16
  let ranges := [(0, d.codeb), (d.xpla, plen)] ++ sl.map (fun x => (x.2.1, x.2.2))
  let r5 : Bool := ranges.any (fun r => decide (0x60000 < r.1 + r.2)) || anyOverlap ranges ||
    sl.any (fun x => decide (x.2.1 < d.codeEnd)) || 0x60000 ≤ d.msa || 0x60000 ≤ d.msb || d.entry % 8 != 0 ||
    d.codeb ≤ d.entry || d.ovh % 8 != 0 || d.codeb ≤ d.ovh
  let cl := cis.toOption.getD []
  let failed : Bool := segs.toOption.isNone || cis.toOption.isNone || plans.any (fun p => p.toOption.isNone)
  (if sl.any (fun x => decide (2 ^ 52 ≤ x.1)) || cl.any (fun e => bits e 24 8 != 0) then [1] else []) ++
    (if r5 then [5] else []) ++ (if plans.any (fun p => !(p.toOption.getD ([], true)).2) then [6] else []) ++
    (if cl.any cisBad || cisShare cl then [7] else []) ++ (if failed then [10] else [])
/-- The reason of a refusal at intake: the lowest code that holds, 0 for none (R308). -/
def State.descReason (s : State) (hid t : Nat) (d : Desc) : Nat :=
  let n := d.nat
  if d.bad1 then 1
  else
    let tabs := s.tableReasons hid d
    if tabs.contains 1 then 1
    else if bits n 32 32 != t then 2
    else if s.bad3 hid d then 3
    else if d.cmask = 0 || 2 ^ 20 < d.tbase + d.tasks then 4
    else
      match tabs.filter (fun r => r != 10) with
      | r :: _ => r
      | [] =>
        if 4 < bits n 336 8 || d.deps.any (fun x => sub32 t x == 0 || 4096 < sub32 t x) then 8
        else if tabs.contains 10 then 10 else 0

/-! ### Intake (R305, R354, R356, R358) -/

/-- A completion record is held, for want of room or because its write was refused (R353, R354). -/
def QueueSt.blocked (x : QueueSt) : Bool :=
  x.ringsTorn || (!x.comp.held.isEmpty && (x.comp.refused || 4096 - sub32 x.comp.tail x.comp.head < x.comp.held.length))
/-- The same, or the host port is down while records wait (R427). -/
def State.held_ (s : State) (x : QueueSt) : Bool := x.blocked || (s.linkDown 26 && !x.comp.held.isEmpty)
/-- The household's queue is served: it is live, unsaved and its TDI, if bound, is in RUN (R330, R358, R394). -/
def State.served (s : State) (x : QueueSt) : Bool :=
  match x.hid with
  | none => false
  | some h => (s.household h).alive && x.swState == 0 && !x.killed && ((s.household h).tdi == 0 || (s.household h).tdi == 3)
/-- One ticket is taken in: INTK advances and its commit bit clears. -/
def QueueSt.take (x : QueueSt) : QueueSt :=
  { x with intk := (x.intk + 1) % 2 ^ 32, commits := x.commits.filter (fun t => t != x.intk),
           cancels := x.cancels.filter (fun t => t != x.intk) }
/-- The group of a descriptor that passed its checks. -/
def Group.ofDesc (t hid : Nat) (d : Desc) (g : Nat) (ready : Bool) : Group :=
  { ticket := t, hid := hid, desc := d, st := if ready then .ready else .waiting, ox := 0, oy := 0,
    readyGts := if ready then g else 0, start := 0, dispatched := 0, charge := 0, cls := 0, mcls := 0, loads := [], runs := [],
    freed := 0, reported := false, revive := none, det := 0 }
/-- The ticket at INTK is taken in (R305, R308 to R310, R319); the ticket of a revive group reads no slot (R412). -/
def State.takeIn (s : State) (q hid : Nat) : State :=
  let x := s.queue q
  let t := x.intk
  let s := s.onQueue q QueueSt.take
  let rv := x.revives.find? (fun r => r.1.ticket == t)
  let s := match rv with
    | some (_, id) =>
      let s := s.onQueue q (fun x => { x with revives := x.revives.filter (fun r => r.1.ticket != t) })
      match tfind s.bag id with
      | some m => (s.complete m.src.core m.src.ctx m.lowerActs).dropMsg id
      | none => s
    | none => s
  if x.cancels.contains t then s.finishEarly q t 2 0
  else if let some (g, _) := rv then
    let now := s.gts
    s.onQueue q (fun x => { x with groups := x.groups ++ [{ g with st := .ready, readyGts := now }] })
  else
    match s.getBytes hid (4096 * x.rbase + 128 * (t % 4096)) 128 with
    | .error _ => s.finishEarly q t 1 10
    | .ok raw =>
      let s := s.touchVa hid (4096 * x.rbase + 128 * (t % 4096)) 128
      let d := Desc.ofNat (natOfBytes raw) raw
      if bits d.nat 0 8 == 0 then (s.finish q t 0).settle q 4097
      else
        let r := s.descReason hid t d
        if r != 0 then s.finishEarly q t 1 r
        else
          let deps := d.deps.map (s.queue q).statusOf
          if depFailed deps then s.finishEarly q t 3 0
          else
            let g := Group.ofDesc t hid d s.gts (deps.all (fun d => d == some 0))
            s.onQueue q (fun x => { x with groups := x.groups ++ [g] })
/-- Intake of a queue: as far as the next ticket is committed and nothing holds it; a slot whose bank is busy is read at a later
tick (R364). -/
def State.intake (s : State) (q fuel : Nat) : State :=
  match fuel with
  | 0 => s
  | k + 1 =>
    let x := s.queue q
    if x.en && s.served x && !s.held_ x && !s.linkDown 26 && x.commits.contains x.intk &&
        !(x.waitState != 0 && x.waitTicket == x.intk) && !s.vaBusy (x.hid.getD 0) (4096 * x.rbase + 128 * (x.intk % 4096)) then
      (s.takeIn q (x.hid.getD 0)).intake q k
    else s

/-! ### Placement and admission (R311 to R316) -/

/-- Eff (R311). -/
def State.eff (s : State) (g : Group) : Nat :=
  if s.porch.age = 0 then g.desc.pri else min 7 (g.desc.pri + (s.gts - g.readyGts) / (65536 * s.porch.age))
/-- The order of R311. -/
def State.goesFirst (s : State) (a b : Nat × Group) : Bool :=
  let ea := s.eff a.2
  let eb := s.eff b.2
  decide (eb < ea) || (ea == eb && (decide (a.2.readyGts < b.2.readyGts) || (a.2.readyGts == b.2.readyGts &&
    (decide (a.1 < b.1) || (a.1 == b.1 && ticketBefore a.2.ticket b.2.ticket)))))
def State.insertGroup (s : State) (a : Nat × Group) (l : List (Nat × Group)) : List (Nat × Group) :=
  match l with
  | [] => [a]
  | b :: rest => if s.goesFirst a b then a :: b :: rest else b :: s.insertGroup a rest
/-- The Ready groups of every queue that may dispatch, in the order of R311. -/
def State.readyGroups (s : State) : List (Nat × Group) :=
  (s.queues.flatMap (fun q =>
    if s.served q.2 && !s.held_ q.2 then (q.2.groups.filter (fun g => g.st == .ready)).map (fun g => (q.1, g)) else [])).foldr
      s.insertGroup []
/-- A group placed at an origin of its Fen. -/
def Group.at_ (g : Group) (o : Nat × Nat) : Group := { g with ox := o.1, oy := o.2 }
/-- The clusters of a group's Fen. -/
def State.fenClusters (s : State) (g : Group) : List Nat :=
  match tfind (s.household g.hid).fens g.desc.fidx with
  | none => []
  | some f => (List.range f.h).flatMap (fun y => (List.range f.w).map (fun x => clAt (f.cx + x) (f.cy + y)))
/-- The quadrant of a cluster (R20). -/
def quadOfCluster (cl : Nat) : Nat := quadOf (coreIn cl 0)
/-- A level excludes a rectangle from the domains of a group with given clusters, Fen and cores (R312). -/
def levelBars (level : Nat) (rect clusters : List Nat) (sameFen : Bool) : Bool :=
  match level with
  | 3 => rect.any (fun a => clusters.any (fun b => quadOfCluster a == quadOfCluster b))
  | 4 => rect.any (fun a => clusters.any (fun b => a / 80 == b / 80))
  | 5 => !clusters.isEmpty
  | 6 => sameFen && !clusters.isEmpty
  | _ => false
/-- Domain exclusion in both directions (R312). -/
def State.excluded (s : State) (g : Group) (rect : List Nat) : Bool :=
  (s.holders.filter (fun h => h.hid == g.hid)).any (fun h =>
    let cores := (s.groupCores h).map clusterOf
    let same : Bool := h.desc.fidx == g.desc.fidx
    (if g.desc.level = 3 || g.desc.level = 4 then h.desc.level == g.desc.level && levelBars g.desc.level rect cores same
     else levelBars g.desc.level rect (s.groupClusters h) same) ||
    (if h.desc.level = 3 || h.desc.level = 4 then levelBars h.desc.level rect cores same
     else levelBars h.desc.level rect (s.groupClusters h) same))
/-- A cluster that QUAR excludes (R449), or of a die that its boot left out of service (R369). -/
def State.quarantined (s : State) (cl : Nat) : Bool := bit s.porch.quar cl || (s.dieAt (cl / 80)).outOfService
/-- The candidate origins of a group (R312). -/
def State.origins (s : State) (g : Group) : List (Nat × Nat) :=
  match tfind (s.household g.hid).fens g.desc.fidx with
  | none => []
  | some f =>
    if g.desc.pin then (if g.desc.ox + g.desc.w ≤ f.w ∧ g.desc.oy + g.desc.h ≤ f.h then [(g.desc.ox, g.desc.oy)] else [])
    else
      (List.range (f.h + 1 - g.desc.h)).flatMap (fun y => (List.range (f.w + 1 - g.desc.w)).map (fun x => (x, y)))
/-- FirstFit (R312); `busy` says whether groups that hold clusters exclude domains. -/
def State.firstFit (s : State) (g : Group) (x : List Nat) (busy : Bool) : Option (Nat × Nat) :=
  (s.origins g).find? (fun o =>
    let rect := s.groupClusters (g.at_ o)
    rect.all (fun cl => !x.contains cl && !s.quarantined cl) && !(busy && s.excluded g rect))
/-- The class used at dispatch (R314). -/
def State.classOf (s : State) (q : Nat) (g : Group) : Nat := tget (s.queue q).energy g.desc.ecls g.desc.eslot
/-- A group's charge in mW (R314). -/
def chargeOf (g : Group) (c : Nat) : Nat := g.desc.w * g.desc.h * 800 * (c + 1)
/-- The classes a thermal rank admits (R316). -/
def rankPermits (rank c : Nat) : Bool :=
  match rank with
  | 0 => true
  | 1 => c ≤ 11
  | 2 => c ≤ 7
  | _ => false
/-- Admit (R315); an overheated die takes no dispatch (R437). -/
def State.admits (s : State) (q : Nat) (g : Group) (o : Nat × Nat) : Bool :=
  let c := s.classOf q g
  decide (s.porch.mbudBase + s.porch.echg + chargeOf g c ≤ s.porch.mbudLimit) &&
    (s.groupClusters (g.at_ o)).all (fun cl => rankPermits (bits s.porch.thr (2 * (cl / 80)) 2) c && !(s.dieAt (cl / 80)).overheat)
/-- What a tick decides (R313). -/
inductive Decision where
  | none
  | dispatch (q : Nat) (g : Group) (o : Nat × Nat)
  | budget (q : Nat) (g : Group)
deriving DecidableEq, Repr
/-- The scan of R313: the reservations in scan order, and the decision. -/
def State.scan (s : State) (busy res : List Nat) (gs : List (Nat × Group)) : List (Nat × Group × (Nat × Nat)) × Decision :=
  match gs with
  | [] => ([], .none)
  | (q, g) :: rest =>
    match s.firstFit g (busy ++ res) true with
    | none =>
      if (s.fenClusters g).any res.contains then s.scan busy res rest
      else
        match s.firstFit g res false with
        | none => s.scan busy res rest
        | some o =>
          let r := s.scan busy (res ++ s.groupClusters (g.at_ o)) rest
          ((q, g, o) :: r.1, r.2)
    | some o =>
      if s.admits q g o then ([], .dispatch q g o)
      else if s.eff g = 7 then ([], .budget q g)
      else s.scan busy res rest

/-! ### Dispatch and loading (R309, R317) -/

/-- The number of a group's task on a core. -/
def State.taskOn (s : State) (g : Group) (core : Nat) : Nat :=
  match g.revive with
  | some (_, ts) => ((ts.find? (fun t => s.reviveCore g t == core)).map (fun t => t.task)).getD 0
  | none => g.desc.tbase + (s.groupCores g).idxOf core
/-- A cistern group as the launch installs it (R67, R239, R450). -/
def CGroup.installed (e ascrub dsh : Nat) : CGroup :=
  { CGroup.reset with n := bits e 32 32, eps := bits e 64 32, per := bits e 16 8, gaddr := bits e 96 32, st := .idle,
                      ascrub := ascrub, dsh := if 8 ≤ dsh ∧ dsh ≤ 63 then dsh else 24 }
/-- A cistern entry installed in a cluster: its rows zeroed, its groups Idle. -/
def Cluster.install (k : Cluster) (ascrub dsh e : Nat) : Cluster :=
  let first := bits e 0 8
  let count := bits e 8 8
  let per := bits e 16 8
  let k := { k with elems := k.elems.filter (fun p => p.1 / 16384 < first || first + count ≤ p.1 / 16384) }
  (List.range (count / per)).foldl (fun k i =>
    { k with groups := tput k.groups (first + i * per) (CGroup.installed e ascrub dsh) }) k
/-- A cluster's counters and cistern rows as a launch or a release leaves them. -/
def Cluster.cleared (k : Cluster) : Cluster :=
  { k with counters := [], groups := [], elems := [], addQ := [], tapQ := [], addNext := 0, tapNext := 0 }
/-- Task numbers of a group enter the placement table (R54, R317). -/
def State.placeTasks (s : State) (g : Group) : State :=
  (s.groupCores g).foldl (fun s c =>
    s.onHousehold g.hid (fun h => { h with place := tput h.place (s.taskOn g c) (g.desc.fidx, c) })) s
/-- The share of a launch that the clusters take: cistern entries, placement table (R317), and the event counters of every
cluster of the Fen (R151). -/
def State.dispatchClusters (s : State) (q : Nat) (g : Group) (cis : List Nat) : State :=
  let x := s.queue q
  let s := (s.fenClusters g).foldl (fun s cl => (s.onCluster cl (fun k => { k with counters := [] })).freshCounters cl) s
  let s := (s.groupClusters g).foldl (fun s cl =>
    (s.onCluster cl (fun k => cis.foldl (fun k e => k.install x.ascrub x.dsh e) k.cleared)).freshRows cl) s
  s.placeTasks g
/-- The header of a task's memory-order log is zeroed at dispatch (R468). -/
def State.zeroMol (s : State) (q hid task : Nat) : State :=
  if bit (s.queue q).detctl 1 then ((s.writeVa hid ((s.queue q).molb + 65536 * task) 8 0).toOption).getD s else s
/-- The control context of a task at its start (R33, R317). -/
def Ctx.launched (d : Desc) (fen task j : Nat) : Ctx :=
  let regs := ((Ctx.reset.writeReg (.s 1) d.arg).writeReg (.s 2) d.tasks).writeReg (.s 3) j
  { regs with pc := BitVec.ofNat 64 d.entry, npc := BitVec.ofNat 64 d.entry, jumped := true, level := d.level, ovh := d.ovh / 8,
              bound := (d.codeb + 255) / 256, fen := fen, task := task }
/-- The bytes that the Porch places in a core: code, segments and plan, with their local addresses (R317). -/
def State.loadImages (s : State) (hid : Nat) (d : Desc) (j : Nat) : Except (Nat × Nat) (List (Nat × List Byte)) :=
  match s.getBytes hid d.codeva d.codeb, s.table16 hid d.segva d.nseg, s.planBytes hid d j with
  | .ok code, .ok segs, .ok plan =>
    let read (e : Nat) : Except (Nat × Nat) (Nat × List Byte) :=
      match s.getBytes hid (segOf e).1 (segOf e).2.2 with
      | .ok bs => .ok ((segOf e).2.1, bs)
      | .error x => .error x
    let parts := segs.map read
    if parts.all (fun p => p.toOption.isSome) then
      .ok ((0, code) :: (d.xpla, plan.1) :: parts.filterMap (fun p => p.toOption))
    else .error (10, 0)
  | _, _, _ => .error (10, 0)
/-- The ranges, VA and bytes, that a core's load reads (R317): code, segment table, segments, plan. -/
def State.loadRanges (s : State) (hid : Nat) (d : Desc) (j : Nat) : List (Nat × Nat) :=
  let segs := ((s.table16 hid d.segva d.nseg).toOption.getD []).map segOf
  let plan := if d.planva = 0 then 0 else ((s.planBytes hid d j).toOption.map (fun p => p.1.length)).getD 0
  [(d.codeva, d.codeb), (d.segva, 16 * d.nseg), (d.planva + j * d.planstr, plan)] ++ segs.map (fun x => (x.1, x.2.2))
/-- A core as a launch loads it: every byte that is not placed is zero, every FE bit 1 (R33, R317, R337). A launch empties the
repetition buffer (log 33). -/
def CoreSt.loaded (old : CoreSt) (q hid det fen : Nat) (g : Group) (task j : Nat) (parts : List (Nat × List Byte)) : CoreSt :=
  let d := g.desc
  let x := { CoreSt.reset with hid := some hid, queue := q, ticket := g.ticket, det := det, seen := old.seen, b := old.b, tiles := old.tiles,
                               chunkIdx := old.chunkIdx, mfa := d.mf % 16, mfb := d.mf / 16, msa := d.msa, msb := d.msb, xpl := d.xpla,
                               dbg := old.dbg, trace := old.trace, lastPair := old.lastPair }
  (parts.foldl (fun x p => x.putLsBytes p.1 p.2) x).setCtx 0 (Ctx.launched d fen task j)
/-- A core that runs nothing: its stores, tiles with their chunk indices (R194) and matrix registers (R218) keep what they hold
(log 5). The repetition buffer goes with the rest (log 33). -/
def CoreSt.freed_ (x : CoreSt) : CoreSt :=
  { CoreSt.reset with ls := x.ls, seen := x.seen.filter (fun p => p.1.isLoft), b := x.b, tiles := x.tiles, chunkIdx := x.chunkIdx,
                      mfa := x.mfa, mfb := x.mfb, msa := x.msa,
                      msb := x.msb, dbg := x.dbg, trace := x.trace, lastPair := x.lastPair }
/-- The directories forget the tasks of cores whose placement ends (R54). -/
def State.forgetTasks (s : State) (hid : Nat) (tasks cores : List Nat) : State :=
  { s with clusters := s.clusters.map (fun k =>
      (k.1, { k.2 with dir := k.2.dir.filter (fun e =>
        !(e.1 / 2 ^ 20 == hid && (tasks.contains (e.1 % 2 ^ 20) || cores.contains e.2))) })) }
/-- Log entries of a core's task that still wait are kept behind it (R363). -/
def State.keepMol (s : State) (core : Nat) : State :=
  let x := s.coreOf core
  match x.hid with
  | some hid =>
    let base := s.molBase core
    s.onHousehold hid (fun h => { h with molLate := h.molLate ++
      (x.molQ.zip (List.range x.molQ.length)).map (fun p => (base, (x.molTail + p.2) % 2 ^ 32, p.1)) })
  | none => s
/-- A group's clusters, charge, placement entries and domain instances are released (R309). -/
def State.releaseGroup (s : State) (q : Nat) (g : Group) : State :=
  let cores := s.groupCores g
  let s := s.forgetTasks g.hid (cores.map (s.taskOn g)) cores
  let s := cores.foldl (fun s c => (s.keepMol c).onCore c CoreSt.freed_) s
  let s := s.dropDoms g.hid
  let s := (s.groupClusters g).foldl (fun s cl => ((s.onCluster cl Cluster.cleared).freshCounters cl).freshRows cl) s
  let s := s.onHousehold g.hid (fun h => { h with place := h.place.filter (fun p => !cores.contains p.2.2) })
  ({ s with porch := { s.porch with echg := s.porch.echg - g.charge } }).dropGroup q g.ticket
/-- An armed save or kill that counts from the next dispatched group takes this one (R329, R391). -/
def State.bindStops (s : State) (q t : Nat) : State :=
  s.onQueue q (fun x =>
    { x with
      stop := match x.stop with
        | .rel n => .load n t
        | o => o,
      killRel := match x.killRel with
        | some (n, none) => some (n, some t)
        | o => o })
/-- A group that the start of an armed save or kill waits for does not start: the next dispatched one is waited for. -/
def State.unbindStops (s : State) (q t : Nat) : State :=
  s.onQueue q (fun x =>
    { x with
      stop := match x.stop with
        | .load n t' => if t' = t then .rel n else .load n t'
        | o => o,
      killRel := match x.killRel with
        | some (n, some t') => if t' = t then some (n, none) else some (n, some t')
        | o => o })
/-- The GTS of an armed save or kill is fixed once the start of its group is (R329, R391). -/
def State.fixStops (s : State) (q hid t start : Nat) : State :=
  let x := s.queue q
  let s := match x.stop with
    | .load n t' =>
      let g := start + 1 + n
      if t' = t then (s.onQueue q (fun x => { x with stop := .at_ g, swlast := g })).stepAt g (.switchStop hid) else s
    | _ => s
  match x.killRel with
  | some (n, some t') =>
    if t' = t then (s.onQueue q (fun x => { x with killRel := none })).armKill hid (start + 1 + n) 256 else s
  | _ => s
/-- A group refused at loading (R308): its clusters and charge go before its record is written. -/
def State.refuseLoading (s : State) (q : Nat) (g : Group) (reason : Nat) : State :=
  ((s.releaseGroup q g).unbindStops q g.ticket).finishEarly q g.ticket 1 reason g.ox g.oy
/-- The box header of a launch (R441): HEAD 1, COUNT 0, zeros. -/
def State.launchBox (s : State) (core : Nat) : State := (s.boxPut core 0 32 1).getD s
/-- One core's load (R317); its local store is a set of new locations (R162). -/
def State.loadCore (s : State) (q : Nat) (g : Group) (core : Nat) (parts : List (Nat × List Byte)) : State :=
  let fen := ((tfind (s.household g.hid).fens g.desc.fidx).map (fun f => f.ident)).getD 0
  let task := s.taskOn g core
  ((s.freshCore core).onCore core (fun x => x.loaded q g.hid g.det fen g task (task - g.desc.tbase) parts)).launchBox core
/-- A core has acknowledged; with the last one the group is Running (R309) and its start GTS S = A + 96 is fixed (R317), or the
resume GTS of a revive group (R413). -/
def State.acknowledged (s : State) (q : Nat) (g : Group) (core : Nat) : State :=
  let left := g.loads.filter (fun c => c != core)
  let at_ := s.gts + 96
  if left.isEmpty then
    ((s.onTaskGroup q g.ticket (fun g => { g with st := .running, loads := [], start := at_, runs := s.groupCores g })).stepAt at_
      (if g.revive.isSome then .reviveResume q g.ticket else .groupStart q g.ticket)).fixStops q g.hid g.ticket at_
  else s.onTaskGroup q g.ticket (fun g => { g with loads := left })
/-- A group is dispatched (R309, R313, R317); a cistern table that no longer translates refuses it at loading (R308). -/
def State.dispatch (s : State) (q : Nat) (g : Group) (o : Nat × Nat) : State :=
  let c := s.classOf q g
  let charge := chargeOf g c
  let g := { g.at_ o with st := .loading, dispatched := s.gts, charge := charge, cls := c, det := (s.queue q).detctl }
  let cores := s.groupCores g
  let g := { g with loads := cores }
  let s := s.onTaskGroup q g.ticket (fun _ => g)
  let s := { s with porch := { s.porch with echg := s.porch.echg + charge, dispatched := true } }
  let s := s.bindStops q g.ticket
  let loads (s : State) : State :=
    let s := cores.foldl (fun s c => s.zeroMol q g.hid (s.taskOn g c)) s
    cores.foldl (fun s c => s.soon (.coreLoadAck q g.ticket c)) s
  if g.revive.isSome then loads (s.placeTasks g)
  else
    match s.table16 g.hid g.desc.cisva g.desc.ncis with
    | .error _ => s.refuseLoading q g 10
    | .ok cis => loads (s.dispatchClusters q g cis)
/-- The records of a tick's decisions (R466). -/
def State.logTick (s : State) (r : List (Nat × Group × (Nat × Nat))) (d : Decision) : State :=
  let s := r.foldl (fun s x => s.slogRecord 3 x.1 (s.eff x.2.1) (s.classOf x.1 x.2.1) x.2.1.ticket x.2.2.1 x.2.2.2 0) s
  match d with
  | .none => s
  | .dispatch q g o => s.slogRecord 1 q (s.eff g) (s.classOf q g) g.ticket o.1 o.2 0
  | .budget q g => s.slogRecord 2 q (s.eff g) (s.classOf q g) g.ticket 0 0 0
/-- The decision of a tick (R313, R370, R446). -/
def State.decide_ (s : State) : State :=
  if s.porch.slogSync && s.slogFree < 66 then s
  else if s.porch.dispatchOff || !s.porch.started then s
  else
    let busy := s.holders.flatMap s.groupClusters
    let r := s.scan busy [] s.readyGroups
    match r.2 with
    | .dispatch q g o => (s.dispatch q g o).logTick r.1 r.2
    | _ => s.logTick r.1 r.2
/-- A task's end, its report and a group's completion, which step 2 of a tick applies (R321). -/
def Event.reports (e : Event) : Bool :=
  match e with
  | .taskEnd _ => true
  | .helperRetire _ _ => true
  | .taskEndReport _ => true
  | .groupFree _ _ => true
  | _ => false
/-- What a group's completion does not wait for in its cycle: another one, and the tick's decision. -/
def Event.settles (e : Event) : Bool :=
  match e with
  | .groupFree _ _ => true
  | .schedulerTick => true
  | _ => false
/-- `SCHEDULER_TICK` (R313, R321): intake, then the reports of the cycle, then the decision. -/
def execSchedulerTick (s : State) : Host.Outcome State Fault Refusal :=
  let s := (s.queues.map (fun q => q.1)).foldl (fun s q => s.intake q 4096) s
  if s.agenda.any Event.reports then .next (s.next .schedulerTick) else .next s.decide_
/-! ### Start and end (R309, R314, R317, R318) -/

/-- `GROUP_START`: at S every control context of the launch becomes live; each issues from S + 1 (R33, R317). -/
def execGroupStart (q t : Nat) (s : State) : Host.Outcome State Fault Refusal :=
  match s.taskGroup q t with
  | none => .next s
  | some g =>
    if g.st != .running || !s.isAt g.start then .next s
    else
      let at_ := s.gts
      .next ((s.groupCores g).foldl (fun s c => s.onCtx c 0 (fun x => { x with live := true, readyAt := at_ + 1, born := at_ })) s)
/-- m of R314, from the energy in µJ and the run time in cycles of 1/1,900 µs. -/
def measuredClass (e cyc w h : Nat) : Nat :=
  let d := cyc * w * h * 800
  if d = 0 then 15 else min 15 ((e * 1000 * 1900 + d - 1) / d - 1)
/-- The energy-table entry after a run (R314). -/
def newClass (old : Option Nat) (m : Nat) : Nat :=
  match old with
  | none => m
  | some c => if c ≤ m then m else max m (c - 1)
/-- The energy of a group's clusters over its run (R314): measured, so free; one value for each cluster. -/
def State.runEnergy (s : State) (g : Group) : Nat :=
  ((List.range (s.groupClusters g).length).map (fun i => Config.energy (s.ctr + i))).foldl (fun a b => a + b) 0
/-- The last report: the record is written and the group drains (R314, R318). -/
def State.drainGroup (s : State) (q : Nat) (g : Group) : State :=
  let m := measuredClass (s.runEnergy g) (s.gts - g.start) g.desc.w g.desc.h
  let s := { s with ctr := s.ctr + (s.groupClusters g).length }
  let s := if g.desc.eslot < 256 then
      s.onQueue q (fun x => { x with energy := tput x.energy g.desc.eslot (newClass (tfind x.energy g.desc.eslot) m) })
    else s
  let s := (s.onTaskGroup q g.ticket (fun g => { g with st := .draining, mcls := m, reported := true })).finish q g.ticket 0
  ((s.record q 0 (groupRecord 0 0 g.ticket g.start m g.ox g.oy g.freed) none).settle q 4097).next (.groupFree q g.ticket)
/-- `TASK_END_REPORT` (R318). -/
def execTaskEndReport (core : Nat) (s : State) : Host.Outcome State Fault Refusal :=
  let x := s.coreOf core
  match s.taskGroup x.queue x.ticket with
  | none => .next s
  | some g =>
    if g.st != .running || !g.runs.contains core then .next s
    else
      let g := { g with runs := g.runs.filter (fun c => c != core), freed := g.freed + x.freed }
      let s := s.onTaskGroup x.queue x.ticket (fun _ => g)
      .next (if g.runs.isEmpty then s.drainGroup x.queue g else s)
/-- Nothing of a group reaches its cores any more (R309, R387). -/
def State.drained_ (s : State) (q : Nat) (g : Group) : Bool :=
  let cores := s.groupCores g
  !(s.ops.any (fun o => cores.contains o.2.src.core)) && !(s.bag.any (fun m => cores.contains m.2.src.core)) &&
    !(s.cores.any (fun x => x.2.heldAmos.any (fun a => cores.contains a.core))) && (s.queue q).fault.held.isEmpty &&
    (s.groupClusters g).all (fun cl => (s.clusterAt cl).groups.all (fun r => r.2.st == .undeclared))
/-- `GROUP_FREE`: a drained group is released (R309) in the cycle in which nothing of it is left: the Porch looks in every cycle,
after what happens in it and before a tick's decision (R321). -/
def execGroupFree (q t : Nat) (s : State) : Host.Outcome State Fault Refusal :=
  match s.taskGroup q t with
  | none => .next s
  | some g =>
    if g.st != .draining then .next s
    else if s.agenda.any (fun e => !e.settles) then .next (s.next (.groupFree q t))
    else
      let s := (s.groupClusters g).foldl (fun s cl => s.undeclare cl g.hid) s
      .next (if s.drained_ q g then s.releaseGroup q g else s.stepAt (s.gts + 1) (.groupFree q t))

/-! ### Cancels (R319 to R321) -/

/-- The STATUS of a cancel (R319). The row of a
group that still stands is taken before the row of a ticket more than 4,096 below INTK (log 33). -/
def State.cancelStatus (s : State) (q t : Nat) : Nat :=
  let x := s.queue q
  if sub32 t x.intk < sub32 x.next x.intk then 0
  else
    match s.taskGroup q t with
    | some g => if g.st == .waiting || g.st == .ready then 0 else 1
    | none => if 0 < sub32 x.intk t && sub32 x.intk t ≤ 4096 then 1 else 2
/-- `CANCEL` (R319, R321): in a tick's cycle it is applied after the tick. -/
def execCancel (q : Nat) (val : BitVec 64) (s : State) : Host.Outcome State Fault Refusal :=
  if s.tickPending then .next (s.next (.cancel q val))
  else
    let t := val.toNat % 2 ^ 32
    let st := s.cancelStatus q t
    let x := s.queue q
    let waiting : Bool := sub32 t x.intk < sub32 x.next x.intk
    let grp := s.taskGroup q t
    let s := if st != 0 then s
      else if waiting then s.onQueue q (fun x => { x with cancels := if x.cancels.contains t then x.cancels else x.cancels ++ [t] })
      else ((s.dropGroup q t).finish q t 2).record q 0 (groupRecord 2 0 t 0 0 0 0 0) none
    let s := s.record q 0 (cancelRecord st t s.gts) none
    let s := if st == 0 && !waiting then s.settle q 4097 else s
    .next (s.slogRecord 4 q ((grp.map s.eff).getD 0) 0 t 0 0 st)

end Sys2Proof.Machine
end

