-- ==== Sys2Proof/Machine/Host.lean ====
section
/-! DEFINITION. The host's side: register writes (R6, R301), rings and PASIDs (R351, R352), wait packets (R356, R357), TDISP
(R358), invalidation (R361), GTS and leases (R366 to R368), boot (R369, R370), households and Fens (R30, R341), CXL.mem and
Boardwalk accesses (R350, R365), and what the host reads of the registers (R6). -/
namespace Sys2Proof.Machine

/-! ### Module registers -/

/-- Queue registers of a bound household that its TDI locks (R358). -/
def State.locked (s : State) (q : Nat) : Bool :=
  match (s.queue q).hid with
  | none => false
  | some h => 2 ≤ (s.household h).tdi
def State.onPorch (s : State) (f : Porch → Porch) : State := { s with porch := f s.porch }
def State.link (s : State) (n : Nat) : Link := tget s.links Link.reset n
def State.onLink (s : State) (n : Nat) (f : Link → Link) : State := { s with links := tput s.links n (f (s.link n)) }
/-- The holder of the lease may act (R368). -/
def State.leaderActs (s : State) : Bool := s.porch.leaseHolder != 7 && decide (s.gts + 16384 < s.porch.leaseExpiry)
/-- A ring's placement: BASE and LOG2N. -/
def Ring.place (r : Ring) (v : Nat) : Ring := { r with base := bits v 12 40, log2n := bits v 0 4 }
/-- The module registers of the Porch that the host writes (R301, R311, R315, R316, R401, R421 to R423, R428, R446, R449, R457, R464 to R466). -/
def State.writeModule (s : State) (off v : Nat) : State :=
  if off = 0x0 then s.onPorch (fun p => { p with mbudBase := bits v 32 24, mbudLimit := bits v 0 24 })
  else if off = 0x8 then s.onPorch (fun p => { p with thr := bits v 0 8 })
  else if off = 0x10 then s.onPorch (fun p => { p with age := bits v 0 16 })
  else if off = 0x28 then
    (if s.porch.dispatched then s else s.onPorch (fun p => { p with pwbSize := bits v 56 8, pwbBase := bits v 30 9 }))
  else if off = 0x38 then s.next (.pwrel (BitVec.ofNat 64 v))
  else if off = 0x40 then (s.onPorch (fun p => { p with mev := p.mev.place v })).next .eventRecordWrite
  else if off = 0x48 then
    (s.onPorch (fun p => { p with mev := { p.mev with head := bits v 0 16 }, mevLost := bits v 32 16 })).next .eventRecordWrite
  else if off = 0x50 then (if s.porch.dispatched then s else s.onPorch (fun p => { p with almpol := bits v 0 10 }))
  else if off = 0x58 then s.onPorch (fun p => { p with almstat := p.almstat &&& (31 - bits v 0 5) })
  else if off = 0x60 then s.onPorch (fun p => { p with dbgva := bits v 7 45 * 128 })
  else if off = 0x68 then s.onPorch (fun p => { p with bdsel := bits v 0 11 })
  else if off = 0x70 then (if s.porch.bdsel ≤ 1087 then s.onPorch (fun p =>
    { p with bdval := tput p.bdval p.bdsel (if p.bdsel < 1024 then v else v / 2 ^ 32 * 2 ^ 32) }) else s)
  else if off = 0x78 then s.onPorch (fun p => { p with drpb := bits v 12 40, drpEn := bit v 0 })
  else if off = 0x80 then (List.range 4).foldl (fun s d => s.onDie d (fun x => { x with droops := bits v (16 * d) 16 })) s
  else if off = 0x88 then (s.onPorch (fun p => { p with slog := p.slog.place v, slogSync := bit v 4 })).flushSlog 1025
  else if off = 0x90 then
    (s.onPorch (fun p => { p with slog := { p.slog with head := bits v 0 16 }, slogLost := bits v 32 16 })).flushSlog 1025
  else if 0x100 ≤ off ∧ off < 0x140 then
    s.onStack ((off - 0x100) / 8) (fun k => { k with odc := bits v 48 16, ce := bits v 32 16, ue := bits v 24 8, rmgt := bits v 8 16 })
  else if 0x140 ≤ off ∧ off < 0x160 then
    s.onDie ((off - 0x140) / 8) (fun d => { d with cce := bits v 48 16, cue := bits v 40 8, sce := bits v 24 16, sue := bits v 16 8 })
  else if 0x160 ≤ off ∧ off < 0x180 then s.onDie ((off - 0x160) / 8) (fun d => { d with fenx := 0 })
  else if 0x200 ≤ off ∧ off < 0x2F8 then
    s.onLink ((off - 0x200) / 8) (fun l =>
      { l with replay := bits v 48 16, fecc := if off < 0x240 then 0 else bits v 32 16, retrain := bits v 16 16 })
  else if 0x300 ≤ off ∧ off < 0x328 then
    s.onPorch (fun p =>
      let j := (off - 0x300) / 8
      { p with quar := p.quar % 2 ^ (64 * j) + v * 2 ^ (64 * j) + p.quar / 2 ^ (64 * j + 64) * 2 ^ (64 * j + 64) })
  else s

/-! ### Queue registers -/

/-- The ring's base or HEAD has been written (R353): a refused record is tried in the next cycle. -/
def State.ringTouched (s : State) (q ring : Nat) : State :=
  if ((s.queue q).ring ring).refused then s.stepAt (s.gts + 1) (.recordWrite q ring) else s.next (.recordWrite q ring)
/-- PBIND (R351, R352): TORN clears on a 1; PASID only while VALID = 0; clearing VALID tears the PASID down. -/
def State.writePbind (s : State) (q v : Nat) : State :=
  let x := s.queue q
  let s := s.onQueue q (fun x =>
    { x with ptorn := x.ptorn && !bit v 30, pasid := if x.pvalid then x.pasid else bits v 0 20 })
  if x.pvalid && !bit v 31 then s.next (.pasidTeardown q)
  else if !x.pvalid && bit v 31 then
    let s := s.onQueue q (fun x => { x with pvalid := true, ringsTorn := x.ringsTorn && !x.tornOff, tornOff := false })
    [0, 1, 2].foldl (fun s r => s.next (.recordWrite q r)) s
  else s
/-- QCFG (R302): RBASE changes only while EN = 0. -/
def State.writeQcfg (s : State) (q v : Nat) : State :=
  (s.onQueue q (fun x =>
    { x with rbase := if x.en then x.rbase else bits v 12 40, en := bit v 8, tornOff := x.tornOff || (x.ringsTorn && !bit v 8) })).ringTouched q 0
/-- The passes of the leader's checker over a queue's table have begun (R451). -/
def State.checking (s : State) (q : Nat) : Bool :=
  s.due.any (fun d => match d.ev with
    | .step (.signatureCheck n _) => n == q
    | _ => false)
/-- The registers of a queue block, by their offset in it (R301, R322, R351, R385, R391, R441, R443, R450 to R452, R467, R468). -/
def State.writeQueue (s : State) (q off : Nat) (val : BitVec 64) : State :=
  let v := val.toNat
  let set (f : QueueSt → QueueSt) : State := s.onQueue q f
  match off with
  | 0x000 => if s.locked q then s else s.writeQcfg q v
  | 0x010 => s.next (.cmt q val)
  | 0x018 => s.next (.cancel q val)
  | 0x028 => set (fun x => { x with swva := bits v 7 45 * 128 })
  | 0x030 => set (fun x => { x with swgts := v })
  | 0x038 =>
    if v < 16 ∧ v % 4 = 2 then s.next (.swcmdRestore q val)
    else if v < 16 ∧ v % 4 = 3 then s.next (.swcmdDisarm q val)
    else s.next (.swcmdSave q val)
  | 0x060 => if s.locked q then s else s.writePbind q v
  | 0x068 => if s.locked q then s else (set (fun x => { x with sig := x.sig.place v })).ringTouched q 1
  | 0x070 => s.next (.ringHeadWrite q 1 val)
  | 0x078 => s.next (.ringHeadWrite q 0 val)
  | 0x080 => set (fun x => { x with waitVa := bits v 3 49 * 8 })
  | 0x088 => set (fun x => { x with waitVal := v })
  | 0x090 => s.next (.waitArm q val)
  | 0x0A0 => s.next (.tinv q val)
  | 0x0A8 => (set (fun x => { x with fault := x.fault.place v })).ringTouched q 2
  | 0x0B0 => s.next (.ringHeadWrite q 2 val)
  | 0x0B8 => s.next (.kill q val)
  | 0x0D0 =>
    let sealed_ := (tget s.peats Peat.reset (bits v 0 16)).sealed_
    let prot := match (s.queue q).hid with
      | some h => (s.household h).secured
      | none => false
    if sealed_ && !prot then s else set (fun x => { x with pgrant := bits v 0 16 })
  | 0x0D8 => set (fun x => { x with ovfb := if x.en then x.ovfb else bits v 16 36 * 65536 })
  | 0x0E0 =>
    let s := set (fun x => { x with stallt := bits v 0 32 })
    ((s.cores.filter (fun c => c.2.queue == q && !c.2.input.isEmpty)).map (fun c => c.1)).foldl State.armStalls s
  | 0x0E8 => set (fun x => { x with ascrub := bits v 16 32, dsh := bits v 0 8 })
  | 0x0F0 =>
    let s := set (fun x => { x with sigbBase := bits v 12 40, sigbCount := bits v 0 12 })
    if s.checking q then s else s.soon (.signatureCheck q 0)
  | 0x0F8 => s.next (.dbgunlk q val)
  | 0x100 => set (fun x => { x with detctl := bits v 0 3 })
  | 0x108 => set (fun x => { x with molb := bits v 16 36 * 65536 })
  | _ => s

/-! ### Core debug blocks (R453, R458, R461) -/

def State.writeDebug (s : State) (core off : Nat) (val : BitVec 64) : State :=
  let v := val.toNat
  let tr (f : Trace → Trace) : State := s.onCore core (fun x => { x with trace := f x.trace })
  match off with
  | 0x00 =>
    match bits v 0 3 with
    | 1 => s.next (.debugStop core)
    | 2 => s.next (.debugRun core)
    | 3 => s.next (.debugStep core (bits v 4 4))
    | 4 => s.next (.debugSnapshot core)
    | _ => s
  | 0x10 => s.onCore core (fun x => { x with dbg := { x.dbg with gts := v } })
  | 0x18 =>
    tr (fun t =>
      { t with ctl := packFields [(48, 16, bits v 48 16), (16, 11, bits v 16 11), (0, 5, bits v 0 5)],
               winOpen := t.winOpen && (t.en && bit v 0) })
  | 0x20 => tr (fun t => { t with trig0 := packFields [(62, 2, bits v 62 2), (0, 61, bits v 0 61)] })
  | 0x28 => tr (fun t => { t with trig1 := packFields [(62, 2, bits v 62 2), (0, 61, bits v 0 61)] })
  | 0x30 => tr (fun t => { t with base := packFields [(12, 40, bits v 12 40), (0, 4, bits v 0 4)] })
  | 0x38 => tr (fun t => { t with idx := packFields [(32, 32, t.tail), (0, 32, bits v 0 32)] })
  | _ => s
/-- `REGISTER_WRITE` (R6, R301, R350): a 64-bit write to a register of the Porch; reserved and read-only fields ignore it.
What the scheduler reads acts after a tick of the write's cycle (R316). -/
def execRegisterWrite (off : Nat) (val : BitVec 64) (s : State) : Host.Outcome State Fault Refusal :=
  if off % 8 != 0 then .next s
  else if (off < 0x18 || (0x300 ≤ off && off < 0x328)) && s.tickPending then .next (s.next (.registerWrite off val))
  else if off < 0x10000 then .next (s.writeModule off val.toNat)
  else if off < 0x14000 then .next (s.writeQueue ((off - 0x10000) / 0x400) ((off - 0x10000) % 0x400) val)
  else if 0x20000 ≤ off && (off - 0x20000) / 0x40 < 5120 then .next (s.writeDebug ((off - 0x20000) / 0x40) ((off - 0x20000) % 0x40) val)
  else .next s
/-- `UNSUPPORTED_ATOMICOP` (R301, R303): completes as an unsupported request and changes nothing. -/
def execUnsupportedAtomicop (_off : Nat) (_val : BitVec 64) (s : State) : Host.Outcome State Fault Refusal := .next s

/-! ### PASID teardown (R352, R445) -/

/-- Operations of a household with a row in host memory that have not ended (R278, R445). -/
def State.hostOps (s : State) (hid : Nat) : List (Nat × SOp) :=
  s.ops.filter (fun o => o.2.src.hid == hid && o.2.status == 0 && (List.range o.2.blk.rows).any (fun r =>
    let va := o.2.blk.rowVa r o.2.idx o.2.kind
    s.inHost hid va || s.inHost hid (va + o.2.blk.rowb - 1)))
/-- A write of an operation to host memory has no answer yet. -/
def State.hostSent (s : State) (op : SOp) : Bool := op.sent.any (fun e => s.inHost op.src.hid (op.memAt e))
/-- `PASID_TEARDOWN`: no further request starts. The answer to a write under way comes too late and is discarded (R352); every other
operation with a row in host memory may have a read under way. -/
def execPasidTeardown (q : Nat) (s : State) : Host.Outcome State Fault Refusal :=
  let x := s.queue q
  if !x.pvalid then .next s
  else
    let ops := s.hostOps (x.hid.getD 256)
    let sent := (ops.filter (fun o => s.hostSent o.2)).length
    let c := s.choose (ops.length - sent + 1)
    let n := sent + c.1
    let s := c.2.onQueue q (fun x => { x with pvalid := false, discards := x.discards + n })
    .next ((List.replicate n ()).foldl (fun s _ => s.soon (.hostResponseDiscard q)) s)
/-- `HOST_RESPONSE_DISCARD`: the response counts as not performed; its operation completes with STATUS 10 (R445). After the
last one the rings are torn. -/
def execHostResponseDiscard (q : Nat) (s : State) : Host.Outcome State Fault Refusal :=
  let x := s.queue q
  if x.discards = 0 then .next s
  else
    let ops := s.hostOps (x.hid.getD 256)
    let hit := (ops.filter (fun o => s.hostSent o.2) ++ ops).head?
    let s := match hit with
      | some (n, op) => s.endOp n { op with status := 10, badVa := op.blk.va }
      | none => s
    .next (s.onQueue q (fun x =>
      if x.discards = 1 then { x with discards := 0, ptorn := true, ringsTorn := true, tornOff := false }
      else { x with discards := x.discards - 1 }))

/-! ### Wait packets (R356, R357) -/

/-- The lowest watch slot that no packet holds. -/
def State.freeSlot (s : State) : Option Nat := (List.range 64).find? (fun n => !s.queues.any (fun q => q.2.waitSlot == some n))
/-- A packet takes a slot and watches, or waits for one (R356); its first read falls at a given cycle. -/
def State.takeSlot (s : State) (q : Nat) (read : State → State) : State :=
  match s.freeSlot with
  | some n => read (s.onQueue q (fun x => { x with waitSlot := some n, waitState := 1, waitFault := none }))
  | none => s.onQueue q (fun x => { x with waitState := 3, waitFault := none })
/-- A slot is freed: waiting packets take slots in ascending queue number. -/
def State.dropSlot (s : State) (q st : Nat) : State :=
  let s := s.onQueue q (fun x => { x with waitSlot := none, waitState := st, waitFault := none })
  match s.queues.find? (fun x => x.2.waitState == 3) with
  | some x => s.takeSlot x.1 (fun s => s.stepAt (s.gts + 1) (.watchRead x.1))
  | none => s
/-- `WAIT_ARM` (R356). -/
def execWaitArm (q : Nat) (val : BitVec 64) (s : State) : Host.Outcome State Fault Refusal :=
  let x := s.queue q
  let t := bits val.toNat 32 32
  if x.waitState != 0 || ticketBefore t x.intk then .next s
  else .next ((s.onQueue q (fun x => { x with waitTicket := t })).takeSlot q (fun s => s.soon (.watchRead q)))
/-- The next poll (R350): every 1,900 cycles in a PCIe mode; a snoop comes after a time that is not fixed. -/
def State.watchAgain (s : State) (q : Nat) : State :=
  match s.porch.mode with
  | some 2 => s.stepAt (s.gts + 1900) (.watchRead q)
  | some 3 => s.stepAt (s.gts + 1900) (.watchRead q)
  | _ => s.soon (.watchRead q)
/-- The host page of the signal word, under the queue's PASID, when it is not resident (R357). -/
def State.absentPage (s : State) (x : QueueSt) : Option (Nat × Nat) :=
  match s.translate (x.hid.getD 0) x.waitVa false with
  | .ok (.hostM pasid a) => if s.hostAbsent.contains (pasid, a / 4096) then some (pasid, a / 4096) else none
  | _ => none
/-- `WATCH_READ` (R356, R357, R445). A read that meets another refusal, or a bank in its busy window, leaves the packet watching
(log 32). -/
def execWatchRead (q : Nat) (s : State) : Host.Outcome State Fault Refusal :=
  let x := s.queue q
  if x.waitState != 1 || x.waitFault.isSome then .next s
  else if !x.pvalid then .next (s.watchAgain q)
  else if (s.absentPage x).isSome then
    .next ((s.onQueue q (fun x => { x with waitFault := some s.gts })).stepAt (s.gts + 38000) (.watchYield q))
  else if s.vaBusy (x.hid.getD 0) x.waitVa then .next (s.stepAt (s.gts + 1) (.watchRead q))
  else
    match s.readVa (x.hid.getD 0) x.waitVa 8 with
    | .error _ => .next (s.watchAgain q)
    | .ok v =>
      let s := s.touchVa (x.hid.getD 0) x.waitVa 8
      .next (if x.waitVal ≤ v then s.dropSlot q 0 else s.watchAgain q)
/-- `WATCH_YIELD` (R357): a response in the same cycle wins. -/
def execWatchYield (q : Nat) (s : State) : Host.Outcome State Fault Refusal :=
  if s.agenda.contains (.pageResponse q) then .next (s.next (.watchYield q))
  else
    match (s.queue q).waitState, (s.queue q).waitFault with
    | 1, some f => .next (if s.gts = f + 38000 then s.dropSlot q 2 else s)
    | _, _ => .next s
/-- `PAGE_RESPONSE` (R357): the host has made the page resident. -/
def execPageResponse (q : Nat) (s : State) : Host.Outcome State Fault Refusal :=
  let x := s.queue q
  let s := { s with hostAbsent := s.hostAbsent.filter (fun p => some p != s.absentPage x) }
  if x.waitState = 1 && x.waitFault.isSome then
    .next ((s.onQueue q (fun x => { x with waitFault := none })).stepAt (s.gts + 1) (.watchRead q))
  else if x.waitState = 2 then
    .next ((s.onQueue q (fun x => { x with waitState := 3 })).takeSlot q (fun s => s.stepAt (s.gts + 1) (.watchRead q)))
  else .next s

/-! ### TDISP (R343, R358, R405) -/

/-- A fresh key of the Porch. -/
def State.newKey (s : State) : BitVec 256 × State := (Config.freshKey s.ctr, { s with ctr := s.ctr + 1 })
/-- PK of the peats that destroyed households of a queue's TDI have left goes as that TDI leaves RUN (R405). -/
def State.erasePeats (s : State) (q : Nat) : State :=
  { s with peats := s.peats.map (fun (p : Nat × Peat) => if p.2.tdi == some q then (p.1, { p.2 with pk := none, tdi := none }) else p) }
/-- `TDI_STATE_CHANGE`: st is 0 CONFIG_UNLOCKED, 1 CONFIG_LOCKED, 2 RUN, 3 another state; the household keeps 0 for no TDI,
else the state plus 1, and 4 once RUN has been left. The region key and HSK are made as the TDI enters CONFIG_LOCKED; CONFIG_UNLOCKED
has none. -/
def execTdiStateChange (q st : Nat) (s : State) : Host.Outcome State Fault Refusal :=
  let s := if st = 2 then s else s.erasePeats q
  match (s.queue q).hid with
  | none => .next s
  | some hid =>
    let h := s.household hid
    if h.tdi = 4 then .next s
    else if h.tdi = 3 then
      if st = 2 then .next s
      else
        let k := s.gts + 4096
        let s := s.onHousehold hid (fun h => { h with tdi := 4, eraseAt := some k })
        .next ((s.armKill hid k 257).stepAt k (.killStop hid))
    else if st = 0 then .next (s.onHousehold hid (fun h => { h with tdi := 1, region := none, hsk := none }))
    else if st < 3 && h.region.isNone then
      let a := s.newKey
      let b := a.2.newKey
      .next (b.2.onHousehold hid (fun h => { h with tdi := st + 1, region := some a.1, hsk := some b.1 }))
    else .next (s.onHousehold hid (fun h => { h with tdi := min st 3 + 1 }))

/-! ### Invalidation (R361) -/

/-- A TLB entry of a household overlaps an invalidated range. -/
def TlbEntry.hit (t : TlbEntry) (hid va size : Nat) : Bool :=
  let n := leafBytes (3 - size)
  t.hid == hid && (size == 3 || decide (t.va < va / n * n + n ∧ va / n * n < t.va + leafBytes t.level))
def State.dropTlb (s : State) (hid va size : Nat) : State := { s with tlb := s.tlb.filter (fun t => !t.hit hid va size) }
/-- `TINV`. -/
def execTinv (q : Nat) (val : BitVec 64) (s : State) : Host.Outcome State Fault Refusal :=
  let x := s.queue q
  if x.tinvBusy then .next s
  else
    let va := bits val.toNat 16 36 * 65536
    let size := bits val.toNat 2 2
    let s := s.onQueue q (fun x => { x with tinvVa := va, tinvSize := size, tinvBusy := true })
    .next ((s.dropTlb (x.hid.getD 256) va size).soon (.tinvComplete q))
/-- `TINV_COMPLETE`: every step that used a matching entry has been taken; refused records are tried again (R353). -/
def execTinvComplete (q : Nat) (s : State) : Host.Outcome State Fault Refusal :=
  let x := s.queue q
  if !x.tinvBusy then .next s
  else
    let s := (s.onQueue q (fun x => { x with tinvBusy := false })).dropTlb (x.hid.getD 256) x.tinvVa x.tinvSize
    .next ([0, 1, 2].foldl (fun s r =>
      if ((s.queue q).ring r).refused then s.stepAt (s.gts + 1) (.recordWrite q r) else s) s)

/-! ### Time and the lease (R366 to R368) -/

/-- The module follows the reference: another module has a lower identifier (R366). -/
def Porch.follows (p : Porch) : Bool := p.named && p.peerIds.any (fun i => i < p.moduleId)
/-- `GTS_JOIN`: before any household runs, GTS steps forward to the reference; never backward. -/
def execGtsJoin (ref : Nat) (s : State) : Host.Outcome State Fault Refusal :=
  if !s.porch.follows || s.porch.gtsJoined || s.households.any (fun h => h.2.alive) then .next s
  else .next ({ s with gts := max s.gts ref }.onPorch (fun p => { p with gtsJoined := true }))
/-- The next correction may come: one in 65,536 cycles (R366). -/
def Porch.mayCorrect (p : Porch) (g : Nat) : Bool :=
  p.gtsJoined && (match p.corrected with
    | some c => decide (c + 65536 ≤ g)
    | none => true)
/-- `GTS_CORRECT`: one count is added, so that the next cycle's GTS is two higher; a withheld count is a cycle that GTS does not
see (log 8). -/
def execGtsCorrect (add : Bool) (s : State) : Host.Outcome State Fault Refusal :=
  if s.porch.mayCorrect s.gts then
    .next (s.onPorch (fun p => { p with corrected := some s.gts, skipped := if add then some (s.gts + 1) else p.skipped }))
  else .next s
/-- LEASE as a 64-bit value. -/
def Porch.lease (p : Porch) : Nat := p.leaseHolder * 2 ^ 61 + p.leaseExpiry
/-- The leader writes HMCFG of a stack (R432): a threshold and a page limit of its own choice, within their ranges.
When it does is with its
housekeeping after boot (log 33). -/
def State.configure (s : State) (n : Nat) : State :=
  let a := s.choose 128
  let b := a.2.choose 255
  b.2.onStack n (fun k => { k with th := 32 * (a.1 + 1), hotth := b.1 + 1 })
/-- The leader sets the module identifier at boot, 16 bits of its own choice, once it may act (R366, R367), and before dispatch
HMCFG of every stack (R432). -/
def State.identify (s : State) : State :=
  if s.leaderActs && !s.porch.named then
    let c := s.choose 65536
    let s := c.2.onPorch (fun p => { p with moduleId := c.1, named := true })
    if s.porch.dispatched then s else (List.range 8).foldl State.configure s
  else s
/-- `LEASE_CAS`: taken when it is free or has lapsed, renewed by its holder once half its term has passed (R368). -/
def execLeaseCas (cmp new : BitVec 64) (s : State) : Host.Outcome State Fault Refusal :=
  let p := s.porch
  let holder := bits new.toNat 61 3
  let expiry := bits new.toNat 0 61
  let open_ : Bool := p.leaseHolder == 7 || decide (p.leaseExpiry ≤ s.gts) ||
    (holder == p.leaseHolder && decide (p.leaseExpiry - p.leaseFrom ≤ 2 * (s.gts - p.leaseFrom)))
  if cmp.toNat = p.lease && open_ && holder ≤ 4 && expiry ≤ s.gts + 2097152 then
    .next (s.onPorch (fun p => { p with leaseHolder := holder, leaseExpiry := expiry, leaseFrom := s.gts })).identify
  else .next s

/-! ### Reset and boot (R7, R369, R370) -/

/-- An event that comes from outside the module. -/
def Event.external (e : Event) : Bool :=
  match e with
  | .registerWrite _ _ => true
  | .tkrCas _ _ _ => true
  | .tdiStateChange _ _ => true
  | .pageResponse _ => true
  | .gtsJoin _ => true
  | .gtsCorrect _ => true
  | .leaseCas _ _ => true
  | .coldReset => true
  | .warmReset => true
  | .getMeasurements => true
  | .hostPortTrain _ => true
  | .householdCreate _ _ _ _ _ => true
  | .householdDestroy _ => true
  | .fenCreate _ _ _ _ _ => true
  | .fenEnd _ _ => true
  | .hostCxlMemAccess _ _ _ => true
  | .boardwalkPeerAccess _ _ _ _ _ => true
  | .unsupportedAtomicop _ _ => true
  | .sramUe _ _ _ => true
  | .sensorRead _ _ => true
  | .securityAlarm _ => true
  | .droopDetect _ _ _ => true
  | .flitReceive _ _ _ => true
  | .retrainEnd _ _ => true
  | _ => false
def DueEv.external (d : DueEv) : Bool :=
  match d with
  | .done _ _ _ => false
  | .step e => e.external
/-- `COLD_RESET`: every register at its reset value, every key erased; memories outside the module, and what errors and
cables are, stay; what has still to come from outside still comes. -/
def execColdReset (s : State) : Host.Outcome State Fault Refusal :=
  .next { State.reset with
    ctr := s.ctr, pa := s.pa, host := s.host, peer := s.peer, errors := s.errors, dieErrors := s.dieErrors, hostAbsent := s.hostAbsent,
    poison := s.poison, peerPages := s.peerPages,
    cabling := s.cabling, peerDenied := s.peerDenied, agenda := State.reset.agenda ++ s.agenda.filter Event.external,
    due := State.reset.due ++ s.due.filter (fun d => d.ev.external) }
/-- Bytes of a die's flash. -/
def flashBytes (die a n : Nat) : List Byte := (List.range n).map (fun i => Config.flash die (a + i))
/-- The header of a slot, 128 bytes. -/
def flashHeader (die slot : Nat) : List Byte := flashBytes die (Config.flashSlot die slot) 128
/-- The image that a header names. -/
def flashImage (die : Nat) (hdr : List Byte) : List Byte := flashBytes die (Config.hdrOff hdr) (Config.hdrLen hdr)
/-- The first stage over one flash slot (R369): its header and the digest when the image is accepted. -/
def flashDigest (die slot : Nat) : Option (List Byte × List Byte) :=
  let hdr := flashHeader die slot
  let d := Config.shake256 (hdr ++ flashImage die hdr) 64
  let ok : Bool := Config.shake256 (Config.hdrPk hdr) 32 == Config.otpPkh die &&
    Config.xmssVerify (Config.hdrPk hdr) (Config.hdrSig hdr) d && Config.otpSvn die ≤ Config.hdrSvn hdr
  if ok then some (hdr, d) else none
/-- `FIRST_STAGE_BOOT` (R369): slot A, else slot B; MEAS0 is extended, the image copied to the Hearth's SRAM and entered, or the
die is out of service. The Hearth sets OFFSET of its CWIN (R364): a value that is not fixed. -/
def execFirstStageBoot (die : Nat) (s : State) : Host.Outcome State Fault Refusal :=
  let x := s.dieAt die
  if x.booted || x.outOfService then .next s
  else
    let d := match flashDigest die 0 with
      | some d => some d
      | none => flashDigest die 1
    let s := match d with
      | some (hdr, d) =>
        let c := s.choose 4096
        c.2.onDie die (fun x =>
          { x with meas0 := Config.shake256 (x.meas0 ++ d) 64, booted := true, cwinOffset := if die < 4 then c.1 else 0,
                   hearth := Memory.writeBytes x.hearth (Config.hdrLoad hdr) (flashImage die hdr), hearthPc := Config.hdrEntry hdr })
      | none => s.onDie die (fun x => { x with outOfService := true })
    let ended : Bool := (List.range 5).all (fun i => (s.dieAt i).booted || (s.dieAt i).outOfService)
    .next (s.onPorch (fun p => { p with started := p.started || ended }))
/-- `GET_MEASUREMENTS` (R370): block 0 of the Porch die, blocks 1 to 4 of D0 to D3; a leader answers. -/
def execGetMeasurements (s : State) : Host.Outcome State Fault Refusal :=
  if s.leaderActs then
    .next (s.onPorch (fun p => { p with answer := [4, 0, 1, 2, 3].flatMap (fun d => (s.dieAt d).meas0) }))
  else .next s
/-- `HOST_PORT_TRAIN` (R350): bit m of `modes` says that both ends support mode m of the table. -/
def execHostPortTrain (modes : BitVec 4) (s : State) : Host.Outcome State Fault Refusal :=
  match (List.range 4).find? (fun m => modes.getLsbD m) with
  | none => .next s
  | some m => .next (s.onPorch (fun p => { p with mode := some m }))

/-! ### Households and Fens (R30, R31, R341, R343) -/

/-- The queue block of a new household: SAVECNT 0, no switch, no kill, no peat. -/
def QueueSt.fresh (x : QueueSt) (hid : Nat) : QueueSt :=
  { x with hid := some hid, swState := 0, swArm := false, swResult := 0, swlast := 0, resgts := 0, savecnt := 0, stop := .none,
           klast := 0, killStop := .none, killRel := none, peat := 0, peatResult := 0, peatState := 0, killReason := 0, killed := false,
           revives := [], pgrant := 0, groups := [] }
/-- `HOUSEHOLD_CREATE`. -/
def execHouseholdCreate (hid q : Nat) (root : BitVec 64) (prot : Bool) (cred : BitVec 64) (s : State) :
    Host.Outcome State Fault Refusal :=
  if (tfind s.households hid).isSome || (s.queue q).hid.isSome || 256 ≤ hid || 16 ≤ q then .next s
  else
    let a := s.newKey
    let b := a.2.newKey
    let h : Household :=
      { Household.reset with alive := true, queue := q, root := root.toNat, prot := prot,
                             hsk := if prot then some a.1 else none, pk := some b.1, cred := cred }
    .next ({ b.2 with households := tput b.2.households hid h }.onQueue q (fun x => x.fresh hid))
/-- The peat of a household that is destroyed: its key goes with a TDI that has left RUN, or waits for one that is in RUN (R405).
A destruction does not end the wait for it (log 33). -/
def Peat.orphaned (p : Peat) (h : Household) : Peat :=
  if h.eraseAt.isSome then { p with pk := none } else if h.tdi = 3 then { p with tdi := some h.queue } else p
/-- A household ends: its keys, SAVECNT, Fens and mounts go, and its queue serves no household. -/
def State.endHousehold (s : State) (hid : Nat) : State :=
  let h := s.household hid
  let n := (s.queue h.queue).peat
  let s := { s with peats := s.peats.map (fun (p : Nat × Peat) => if p.1 = n && p.2.hid == hid then (p.1, p.2.orphaned h) else p) }
  let s := s.onQueue h.queue (fun x => { x with hid := none, en := false, savecnt := 0, groups := [], commits := [], cancels := [] })
  let s := (s.forgetHousehold hid).forgetPlaces hid
  { s with households := tdel s.households hid, mounts := s.mounts.filter (fun m => m.hid != hid),
           tlb := s.tlb.filter (fun t => t.hid != hid) }
/-- `HOUSEHOLD_DESTROY`: a household none of whose groups holds clusters, and which no switch or kill stops; a dead one gives
its HID and its queue free. -/
def execHouseholdDestroy (hid : Nat) (s : State) : Host.Outcome State Fault Refusal :=
  let h := s.household hid
  let x := s.queue h.queue
  if (tfind s.households hid).isNone || h.asleep || x.groups.any Group.holds || x.killStop != .none && h.alive then .next s
  else .next (s.endHousehold hid)
/-- Two rectangles of clusters meet. -/
def Fen.meets (f : Fen) (cx cy w h : Nat) : Bool := decide (f.cx < cx + w ∧ cx < f.cx + f.w ∧ f.cy < cy + h ∧ cy < f.cy + f.h)
/-- Every Fen of the module. -/
def State.allFens (s : State) : List Fen := s.households.flatMap (fun h => h.2.fens.map (fun f => f.2))
/-- The identifiers in use, those of saved households included. -/
def State.fenIdents (s : State) : List Nat :=
  s.households.flatMap (fun h => (h.2.fens ++ (h.2.frozen.map (fun f => f.fens)).getD []).map (fun f => f.2.ident))
/-- `FEN_CREATE`: a rectangle of the module that no Fen meets; a free identifier, the lowest free index. -/
def execFenCreate (hid cx cy w ht : Nat) (s : State) : Host.Outcome State Fault Refusal :=
  let h := s.household hid
  let used := s.fenIdents
  let idents := (List.range 255).map (fun i => i + 1) |>.filter (fun i => !used.contains i)
  let idx := (List.range 64).find? (fun i => (tfind h.fens i).isNone)
  match idx with
  | none => .next s
  | some i =>
    if !h.alive || h.asleep || h.frozen.isSome || w = 0 || ht = 0 || 20 < cx + w || 16 < cy + ht ||
      s.allFens.any (fun f => f.meets cx cy w ht) || idents.isEmpty then
      .next s
    else
      let c := s.choose idents.length
      let f : Fen := { ident := idents[c.1]?.getD 0, cx := cx, cy := cy, w := w, h := ht }
      .next (((fensClusters [(i, f)]).flatMap clusterCores).foldl State.freshLoft (c.2.onHousehold hid (fun h => { h with fens := tput h.fens i f })))
/-- `FEN_END`: a Fen in which no group of its household holds clusters or is to be placed. -/
def execFenEnd (hid idx : Nat) (s : State) : Host.Outcome State Fault Refusal :=
  let h := s.household hid
  if h.asleep || h.frozen.isSome || (s.queue h.queue).groups.any (fun g => g.desc.fidx == idx && g.holds) then .next s
  else .next (s.onHousehold hid (fun h => { h with fens := tdel h.fens idx }))

/-! ### Accesses from outside (R350, R363, R365) -/

/-- A read of 8 bytes through CXL.mem (R350), the atom checked (R416); what a read of a failed atom returns is not fixed. -/
def State.cxlRead (s : State) (pa : Nat) : State :=
  let c := s.checkAtom pa
  if c.2 then c.1.onPorch (fun p => { p with cxlData := c.1.pa.readN pa 8 })
  else
    let v := c.1.choose (2 ^ 64)
    v.2.onPorch (fun p => { p with cxlData := v.1 })
/-- A write of 8 bytes through CXL.mem: part of an atom, which is read and checked first (R417); one to a Cellar outside its quiet
phase is not performed and is reported (R363). -/
def State.cxlWrite (s : State) (pa val : Nat) : State :=
  if isCellar pa && !s.quiet (cellarDie pa) then
    (s.onPorch (fun p => { p with aer := p.aer + 1 })).moduleEvent 0x0C (cellarDie pa) 3 0 0
  else
    let c := s.checkAtom pa
    if c.2 then (List.range 8).foldl (fun s i => s.writePlace (.device (pa + i)) (BitVec.ofNat 8 (val / 256 ^ i))) c.1 else c.1
/-- `HOST_CXL_MEM_ACCESS`: 8 bytes of HBM or a Cellar in a region that a household maps, in a CXL mode (R350). -/
def execHostCxlMemAccess (pa : Nat) (wr : Bool) (val : BitVec 64) (s : State) : Host.Outcome State Fault Refusal :=
  if !deviceMapped pa || !deviceMapped (pa + 7) then .fault (.noSuchAddress pa)
  else
    match s.porch.mode with
    | some m =>
      if 2 ≤ m || !s.cxlReaches pa || !s.cxlReaches (pa + 7) then .next s
      else
        match s.bankWait pa with
        | some w => .next ((s.countWait pa w).stepAt (s.gts + 1) (.hostCxlMemAccess pa wr val))
        | none => .next (if wr then (s.touch pa).cxlWrite pa val.toNat else (s.touch pa).cxlRead pa)
    | none => .next s
/-- A page of a household that its peers may reach (R365). -/
def State.peerReaches (s : State) (hid va : Nat) : Bool := (s.household hid).alive && s.peerPages.contains (hid, va / 65536)
/-- The answer to a peer: a refusal reason, 0 for none, and a value. -/
def State.answerPeer (s : State) (reason val : Nat) : State := s.onPorch (fun p => { p with peerAnswer := (reason, val) })
/-- `BOARDWALK_PEER_ACCESS`: an 8-byte step of a peer, refused while the household is Saved (R348) or where its page is not
peer-mapped (R365), and then with reason 11. One that reaches its port by 64 cycles after a stop is caught there, and goes on after the
resume (R331, R332); a later one waits until the household is Saved or runs. -/
def execBoardwalkPeerAccess (port hid va : Nat) (wr : Bool) (val : BitVec 64) (s : State) : Host.Outcome State Fault Refusal :=
  let again (s : State) : Host.Outcome State Fault Refusal := .next (s.stepAt (s.gts + 1) (.boardwalkPeerAccess port hid va wr val))
  if s.linkDown (8 + port) then .next s
  else if (s.household hid).asleep then
    if s.gts ≤ (s.household hid).stopped + 64 then .next (s.putOff hid (.step (.boardwalkPeerAccess port hid va wr val))) else again s
  else if !s.peerReaches hid va || (s.queue (s.household hid).queue).swState == 2 then .next (s.answerPeer 11 0)
  else
    match if wr then s.writeElement [] ioDie hid (va / 8 * 8) val.toNat else s.readElement [] ioDie hid (va / 8 * 8) with
    | .ok s v _ => .next (s.answerPeer 0 v)
    | .wait s => again s
    | .refused s r => .next (s.answerPeer r 0)

/-! ### Register reads (R6, R7, R301) -/

/-- Fields (lowest bit, width, value) packed into one 64-bit value. -/
def packNat (fs : List (Nat × Nat × Nat)) : Nat := (packFields fs).toNat
/-- BASE and LOG2N of a ring's placement register. -/
def Ring.placement (r : Ring) : Nat := packNat [(12, 40, r.base), (0, 4, r.log2n)]
/-- TAIL and HEAD of a ring's index register. -/
def Ring.indices (r : Ring) : Nat := packNat [(32, 32, r.tail), (0, 32, r.head)]
/-- TAIL, LOST and HEAD of a module ring. -/
def Ring.moduleIndices (r : Ring) (lost : Nat) : Nat := packNat [(48, 16, r.tail), (32, 16, lost), (0, 16, r.head)]
/-- Free bytes in the peat well (R401). -/
def State.wellFree (s : State) : Nat := s.porch.pwbSize * 2 ^ 30 - s.peats.foldl (fun n p => n + 65536 * p.2.units) 0
/-- A module register as the host reads it: WO and reserved fields are zero, RO fields are composed. -/
def State.readModule (s : State) (off : Nat) : Nat :=
  let p := s.porch
  if off = 0x0 then packNat [(32, 24, p.mbudBase), (0, 24, p.mbudLimit)]
  else if off = 0x8 then packNat [(0, 8, p.thr)]
  else if off = 0x10 then packNat [(0, 16, p.age)]
  else if off = 0x18 then packNat [(0, 24, p.echg)]
  else if off = 0x20 then p.lease
  else if off = 0x28 then packNat [(56, 8, p.pwbSize), (30, 9, p.pwbBase)]
  else if off = 0x30 then packNat [(48, 16, p.pwNext), (0, 40, s.wellFree)]
  else if off = 0x40 then p.mev.placement
  else if off = 0x48 then p.mev.moduleIndices p.mevLost
  else if off = 0x50 then packNat [(0, 10, p.almpol)]
  else if off = 0x58 then packNat [(0, 5, p.almstat)]
  else if off = 0x60 then packNat [(0, 52, p.dbgva)]
  else if off = 0x68 then packNat [(0, 11, p.bdsel)]
  else if off = 0x70 then (if p.bdsel ≤ 1087 then packNat [(0, 64, tget p.bdval 0 p.bdsel)] else 0)
  else if off = 0x78 then packNat [(12, 40, p.drpb), (0, 1, ofBool p.drpEn)]
  else if off = 0x80 then packNat ((List.range 4).map (fun d => (16 * d, 16, (s.dieAt d).droops)))
  else if off = 0x88 then packNat [(12, 40, p.slog.base), (4, 1, ofBool p.slogSync), (0, 4, p.slog.log2n)]
  else if off = 0x90 then p.slog.moduleIndices p.slogLost
  else if 0x100 ≤ off ∧ off < 0x140 then
    let k := s.stack ((off - 0x100) / 8)
    packNat [(48, 16, k.odc), (32, 16, k.ce), (24, 8, k.ue), (8, 16, k.rmgt), (0, 1, ofBool k.takeover.isSome)]
  else if 0x140 ≤ off ∧ off < 0x160 then
    let d := s.dieAt ((off - 0x140) / 8)
    packNat [(48, 16, d.cce), (40, 8, d.cue), (24, 16, d.sce), (16, 8, d.sue)]
  else if 0x160 ≤ off ∧ off < 0x180 then packNat [(0, 16, (s.dieAt ((off - 0x160) / 8)).fenx)]
  else if 0x180 ≤ off ∧ off < 0x1C0 then
    let k := s.stack ((off - 0x180) / 8)
    packNat [(32, 8, k.hotth), (0, 16, k.th)]
  else if 0x200 ≤ off ∧ off < 0x2F8 then
    let l := s.link ((off - 0x200) / 8)
    packNat [(48, 16, l.replay), (32, 16, l.fecc), (16, 16, l.retrain), (0, 2, l.st)]
  else if 0x300 ≤ off ∧ off < 0x328 then bits p.quar (64 * ((off - 0x300) / 8)) 64
  else 0
/-- Groups of a queue in states that a test names (R305). -/
def QueueSt.countGroups (x : QueueSt) (f : GrpState → Bool) : Nat := (x.groups.filter (fun g => f g.st)).length
/-- QSTAT (R305). -/
def QueueSt.qstat (x : QueueSt) : Nat :=
  packNat [(32, 32, x.intk), (8, 12, x.countGroups (fun st => st == .waiting || st == .ready)),
    (0, 8, x.countGroups (fun st => st == .loading || st == .running || st == .draining))]
/-- A word of CBM (R304). -/
def QueueSt.commitWord (x : QueueSt) (j : Nat) : Nat :=
  packNat ((List.range 64).map (fun i => (i, 1, ofBool (x.commits.any (fun t => t % 4096 == 64 * j + i)))))
/-- A register of a queue block as the host reads it. -/
def State.readQueue (s : State) (q off : Nat) : Nat :=
  let x := s.queue q
  match off with
  | 0x000 => packNat [(12, 40, x.rbase), (8, 1, ofBool x.en), (0, 8, x.hid.getD 0)]
  | 0x008 => packNat [(0, 32, x.next)]
  | 0x020 => x.qstat
  | 0x028 => packNat [(0, 52, x.swva)]
  | 0x030 => packNat [(0, 64, x.swgts)]
  | 0x040 => packNat [(8, 8, x.swResult), (4, 1, ofBool x.swArm), (0, 3, x.swState)]
  | 0x048 => packNat [(0, 64, x.savecnt)]
  | 0x050 => packNat [(0, 64, x.swlast)]
  | 0x058 => packNat [(0, 64, x.resgts)]
  | 0x060 => packNat [(31, 1, ofBool x.pvalid), (30, 1, ofBool x.ptorn), (0, 20, x.pasid)]
  | 0x068 => x.sig.placement
  | 0x070 => x.sig.indices
  | 0x078 => packNat [(0, 32, x.comp.head)]
  | 0x080 => packNat [(0, 52, x.waitVa)]
  | 0x088 => packNat [(0, 64, x.waitVal)]
  | 0x090 => packNat [(0, 2, x.waitState)]
  | 0x0A0 => packNat [(0, 1, ofBool x.tinvBusy)]
  | 0x0A8 => x.fault.placement
  | 0x0B0 => x.fault.indices
  | 0x0C0 => packNat [(0, 64, x.klast)]
  | 0x0C8 => packNat [(16, 16, x.peat), (8, 8, x.peatResult), (0, 3, x.peatState)]
  | 0x0D0 => packNat [(0, 16, x.pgrant)]
  | 0x0D8 => packNat [(0, 52, x.ovfb)]
  | 0x0E0 => packNat [(0, 32, x.stallt)]
  | 0x0E8 => packNat [(16, 32, x.ascrub), (0, 8, if 8 ≤ x.dsh ∧ x.dsh ≤ 63 then x.dsh else 24)]
  | 0x0F0 => packNat [(12, 40, x.sigbBase), (0, 12, x.sigbCount)]
  | 0x100 => packNat [(0, 3, x.detctl)]
  | 0x108 => packNat [(0, 52, x.molb)]
  | _ => if 0x200 ≤ off ∧ off < 0x400 ∧ off % 8 = 0 then x.commitWord ((off - 0x200) / 8) else 0
/-- A register of a core's debug block as the host reads it (R453, R458, R461). -/
def State.readDebug (s : State) (core off : Nat) : Nat :=
  let x := s.coreOf core
  match off with
  | 0x08 =>
    packNat [(16, 32, x.dbg.steps), (8, 1, ofBool x.dbg.snapBusy), (4, 4, x.dbg.lastCtx), (1, 1, ofBool x.dbg.armed),
      (0, 1, ofBool x.dbg.stopped)]
  | 0x10 => packNat [(0, 64, x.dbg.gts)]
  | 0x18 => x.trace.ctl.toNat
  | 0x20 => x.trace.trig0.toNat
  | 0x28 => x.trace.trig1.toNat
  | 0x30 => x.trace.base.toNat
  | 0x38 => x.trace.idx.toNat
  | _ => 0
/-- What a 64-bit read of a Porch register returns (R6, R7, R301). It changes nothing, so no event stands for it. -/
def State.readRegister (s : State) (off : Nat) : Word :=
  BitVec.ofNat 64 (
    if off % 8 != 0 then 0
    else if off < 0x10000 then s.readModule off
    else if off < 0x14000 then s.readQueue ((off - 0x10000) / 0x400) ((off - 0x10000) % 0x400)
    else if 0x20000 ≤ off && (off - 0x20000) / 0x40 < 5120 then s.readDebug ((off - 0x20000) / 0x40) ((off - 0x20000) % 0x40)
    else 0)

end Sys2Proof.Machine
end

