-- ==== Sys2Proof/Machine/Freeze.lean ====
section
/-! DEFINITION. Stopping a household at one GTS and letting it go on (R328 to R332, R394), taking its state off its holders
and putting it back (R327, R345, R346): shared by the context switch and by peats. -/
namespace Sys2Proof.Machine

/-! ### Tag failures (R446) -/

/-- A tag failure of a household: the sixteenth within 2^32 cycles is an alarm of class 3. -/
def State.tagFail (s : State) (hid : Nat) : State :=
  let l := (s.household hid).tagFails.filter (fun g => decide (s.gts < g + 2 ^ 32)) ++ [s.gts]
  if 16 ≤ l.length then (s.onHousehold hid (fun h => { h with tagFails := [] })).next (.securityAlarm 3)
  else s.onHousehold hid (fun h => { h with tagFails := l })

/-! ### Whose an event is -/

/-- The household whose Fen holds a cluster (R31). -/
def State.clusterHid (s : State) (cl : Nat) : Option Nat :=
  (s.households.find? (fun h => h.2.fens.any (fun f =>
    decide (f.2.cx ≤ clX cl ∧ clX cl < f.2.cx + f.2.w ∧ f.2.cy ≤ clY cl ∧ clY cl < f.2.cy + f.2.h)))).map (fun h => h.1)
/-- What an event belongs to. -/
inductive Owner where
  | core (c : Nat)
  | msg (id : Nat)
  | op (n : Nat)
  | cluster (cl : Nat)
  | hid (h : Nat)
  | group (q t : Nat)
  | none
deriving DecidableEq, Repr
def Event.owner (e : Event) : Owner :=
  match e with
  | .helperRetire c _ => .core c
  | .taskEnd c => .core c
  | .phaseComplete h _ _ => .hid h
  | .syncTLimit c _ => .core c
  | .planEntry c _ => .core c
  | .remoteRequestPerform id => .msg id
  | .takeRetry id => .msg id
  | .replyReceive id => .msg id
  | .requestAck id => .msg id
  | .refusalReceive id => .msg id
  | .predictorDecay c _ => .core c
  | .esigAdd id => .msg id
  | .ewaitAnswer c _ => .core c
  | .msendDepart id => .msg id
  | .entryPlace id => .msg id
  | .inbxTLimit c _ => .core c
  | .boxWrite c => .core c
  | .boxMoveBack c => .core c
  | .stallTimeout c => .core c
  | .matrixCommandStart c => .core c
  | .matrixCommit c => .core c
  | .mldBStart c => .core c
  | .mldBDone c => .core c
  | .cisternAddPath cl => .cluster cl
  | .cisternTapPath cl => .cluster cl
  | .scrubEnd cl _ => .cluster cl
  | .spillComplete cl _ => .cluster cl
  | .fillComplete cl _ => .cluster cl
  | .hsendDepart id => .msg id
  | .hjoinComplete c _ _ => .core c
  | .hfreeComplete cl _ => .cluster cl
  | .streamerAccept id => .msg id
  | .streamerStep n => .op n
  | .streamerComplete n => .op n
  | .pantryCommit n => .op n
  | .collectiveRun h _ => .hid h
  | .coreLoadAck q t _ => .group q t
  | .groupStart q t => .group q t
  | .reviveResume q t => .group q t
  | .taskEndReport c => .core c
  | .groupFree q t => .group q t
  | .stubForward id => .msg id
  | .stubCorrection id => .msg id
  | .routerReceive id => .msg id
  | .orderRestoreDeliver c => .core c
  | .molHeadReread c _ => .core c
  | .boxFetch c _ => .core c
  | .inboxServe c _ => .core c
  | .porchAnswer id => .msg id
  | _ => .none
/-- The household of an owner. -/
def State.ownerHid (s : State) (o : Owner) : Option Nat :=
  match o with
  | .core c => (s.coreOf c).hid
  | .msg id => (tfind s.bag id).map (fun m => m.src.hid)
  | .op n => (tfind s.ops n).map (fun o => o.src.hid)
  | .cluster cl => s.clusterHid cl
  | .hid h => some h
  | .group q t => (s.taskGroup q t).map (fun g => g.hid)
  | .none => none
def State.dueHid (s : State) (d : DueEv) : Option Nat :=
  match d with
  | .done core _ _ => (s.coreOf core).hid
  | .step e => s.ownerHid e.owner
/-- Steps that bring a re-injected message to its place while a restore loads the household (R346). -/
def Event.brings (e : Event) : Bool :=
  match e with
  | .remoteRequestPerform _ => true
  | .takeRetry _ => true
  | .replyReceive _ => true
  | .requestAck _ => true
  | .refusalReceive _ => true
  | .esigAdd _ => true
  | .entryPlace _ => true
  | .streamerAccept _ => true
  | .stubForward _ => true
  | .stubCorrection _ => true
  | .routerReceive _ => true
  | .orderRestoreDeliver _ => true
  | .boxWrite _ => true
  | .porchAnswer _ => true
  | _ => false
/-- An event that does not happen while its household is stopped (R330). -/
def State.heldBack (s : State) (e : Event) : Option Nat :=
  match s.ownerHid e.owner with
  | none => none
  | some h => if (s.household h).asleep && !((s.queue (s.household h).queue).swState == 3 && e.brings) then some h else none

/-! ### The stop (R330, R331) -/

/-- Events that a stop drops: the predictor returns to quiet, a load in progress is discarded (R330). A group that every core
has acknowledged is Running (R309): its start is owed. -/
def DueEv.dropped (d : DueEv) : Bool :=
  match d with
  | .step (.predictorDecay _ _) => true
  | .step (.coreLoadAck _ _ _) => true
  | _ => false
/-- A core at its stop, its matrix unit and `mld.b` as they stood at the end of the cycle before (R330, R454). -/
def CoreSt.stopAt (x : CoreSt) : CoreSt :=
  { x with pred := [], dbg := { x.dbg with stopped := false, armed := false, stepReq := none, resume := false } }
def LState.code (l : LState) : Nat :=
  match l with
  | .free => 0
  | .live => 1
  | .sent => 2
  | .split => 3
  | .joining => 4
  | .freeing => 5
  | .frozen _ => 6
def LState.ofCode (n : Nat) : LState :=
  match n with
  | 1 => .live
  | 2 => .sent
  | 3 => .split
  | 4 => .joining
  | 5 => .freeing
  | _ => .free
def GState.ofCode (n : Nat) : GState :=
  match n with
  | 1 => .idle
  | 2 => .scrub
  | 3 => .spill
  | 4 => .fill
  | _ => .undeclared
/-- Every declared group and every lineage entry becomes Frozen (R253, R262). -/
def Cluster.freeze (k : Cluster) : Cluster :=
  { k with groups := k.groups.map (fun g => (g.1, if g.2.st == .undeclared then g.2 else { g.2 with st := .frozen g.2.st.code })),
           lineage := k.lineage.map (fun e => (e.1, { e.2 with st := .frozen e.2.st.code })) }
/-- They return to their states. -/
def Cluster.thaw (k : Cluster) : Cluster :=
  let g (x : CGroup) : CGroup := match x.st with
    | .frozen w => { x with st := GState.ofCode w }
    | _ => x
  let e (x : LEntry) : LEntry := match x.st with
    | .frozen w => { x with st := LState.ofCode w }
    | _ => x
  { k with groups := k.groups.map (fun p => (p.1, g p.2)), lineage := k.lineage.map (fun p => (p.1, e p.2)) }
/-- The listed cores of a household. -/
def State.coresOf (s : State) (hid : Nat) : List Nat := (s.cores.filter (fun x => x.2.hid == some hid)).map (fun x => x.1)
/-- The groups of a household in Loading return to Ready, and their loads are discarded (R330). -/
def State.unload (s : State) (q : Nat) : State :=
  ((s.queue q).groups.filter (fun g => g.st == .loading)).foldl (fun s g =>
    let s := (s.releaseGroup q g).unbindStops q g.ticket
    s.onQueue q (fun x => { x with groups := x.groups ++ [{ g with st := .ready, loads := [], charge := 0, start := 0 }] })) s
/-- The household's messages are caught in the routers that hold them, or let go (R332). -/
def State.catchMsgs (s : State) (hid : Nat) (c : Bool) : State :=
  { s with bag := s.bag.map (fun (m : Nat × Msg) => if m.2.src.hid == hid then (m.1, { m.2 with caught := c }) else m) }
/-- The changes that pairs before the stop owe to the lineage tables are applied (R330). -/
def State.flushTables (s : State) (hid : Nat) : State :=
  ((s.due.filterMap (fun d => match d.ev with
    | .done c i acts => if (s.coreOf c).hid == some hid && acts.any Act.inTable then some (c, i) else none
    | .step _ => none)).eraseDups).foldl (fun s p => s.flushLineage p.1 p.2) s
/-- A signal whose record waits for room has not been taken in by the Porch: at a stop it stands in its router, as caught (R332,
R348), and arrives again after the resume. -/
def State.heldSignals (s : State) (q : Nat) : List Due :=
  (s.queue q).sig.held.filterMap (fun r => r.2.map (fun id => Due.mk 0 (.step (.routerReceive id))))
def State.unsign (s : State) (q : Nat) : State :=
  let ids := (s.queue q).sig.held.filterMap (fun r => r.2)
  (ids.foldl (fun s id => s.onMsg id (fun m => { m with delivered := false })) s).onQueue q (fun x =>
    { x with sig := { x.sig with held := x.sig.held.filter (fun r => r.2.isNone) } })
/-- The stop of a household at the start of this cycle (R330 to R332): its events are owed from now on, its messages stay in
the routers that hold them, and nothing of it happens. -/
def State.sleep (s : State) (hid : Nat) : State :=
  let q := (s.household hid).queue
  let s := s.flushTables hid
  let mine := (s.due.filter (fun d => s.dueHid d.ev == some hid)).filter (fun d => !d.ev.dropped)
  let now := (s.agenda.filter (fun e => s.ownerHid e.owner == some hid)).map (fun e => Due.mk 0 (.step e))
  let owed := now ++ mine.map (fun d => { d with at_ := d.at_ - s.gts })
  let due := s.due.filter (fun d => s.dueHid d.ev != some hid)
  let agenda := s.agenda.filter (fun e => s.ownerHid e.owner != some hid)
  let g := s.gts
  let s : State := { s with due := due, agenda := agenda }
  let s := s.unload q
  let s := (s.coresOf hid).foldl (fun s c => (s.matrixAdvance c (g - 1)).onCore c CoreSt.stopAt) s
  let s := (fensClusters (s.household hid).fens).foldl (fun s cl => s.onCluster cl Cluster.freeze) s
  let back := s.heldSignals q
  let s := (s.catchMsgs hid true).unsign q
  s.onHousehold hid (fun h => { h with asleep := true, slept := owed ++ back, stopped := g })

/-! ### Going on (R331, R347) -/

/-- The limit of the wait that an event decides (R47, R159). -/
def State.limitOf (s : State) (e : Event) : Option Nat :=
  let lim (w : Wait) : Option Nat := match w with
    | .syncT _ l => some l
    | .inbxT _ _ l => some l
    | _ => none
  match e with
  | .syncTLimit c x => lim (s.ctxOf c x).wait
  | .inbxTLimit c x => lim (s.ctxOf c x).wait
  | _ => none
/-- An owed event in its cycle after the resume R: R + 1 + d, or the cycle of its limit (R331, R347). -/
def State.owedAt (s : State) (r : Nat) (d : Due) : Due :=
  match d.ev with
  | .step e =>
    match s.limitOf e with
    | some l => { d with at_ := max l (r + 1) }
    | none => { d with at_ := r + 1 + d.at_ }
  | _ => { d with at_ := r + 1 + d.at_ }
/-- A count of cycles that stood still during the switch. -/
def stoodStill (d n : Nat) : Nat := if n = 0 then 0 else n + d
/-- A context's and a core's cycles moved by the length of the switch. -/
def Ctx.shift (d : Nat) (c : Ctx) : Ctx := { c with readyAt := stoodStill d c.readyAt }
def CoreSt.shift (d : Nat) (x : CoreSt) : CoreSt :=
  { x with ctxs := x.ctxs.map (Ctx.shift d), mq := x.mq.map (fun c => { c with issued := c.issued + d }),
           mrun := x.mrun.map (fun r => { r with start := r.start + d }), mlast := stoodStill d x.mlast,
           mlds := x.mlds.map (fun l => { l with issued := l.issued + d, started := l.started.map (fun n => n + d) }),
           mldLast := stoodStill d x.mldLast, input := x.input.map (fun i => (i.1, i.2.1 + d, i.2.2)) }
def CReq.shift (d : Nat) (q : CReq) : CReq := { q with arrive := q.arrive + d }
def Cluster.shift (d : Nat) (k : Cluster) : Cluster :=
  { k with addQ := k.addQ.map (CReq.shift d), tapQ := k.tapQ.map (CReq.shift d), addNext := stoodStill d k.addNext,
           tapNext := stoodStill d k.tapNext,
           groups := k.groups.map (fun g => (g.1, { g.2 with until_ := stoodStill d g.2.until_, holder := g.2.holder.map (CReq.shift d) })) }
def DomInst.shift (d : Nat) (x : DomInst) : DomInst := { x with release := x.release.map (fun n => n + d) }
/-- The resume of a stopped household in cycle R (R331, R346): what it owes falls due from R + 1 on. -/
def State.wake (s : State) (hid : Nat) : State :=
  let h := s.household hid
  let r := s.gts
  let d := r + 1 - h.stopped
  let owed := h.slept.map (s.owedAt r)
  let s := (s.coresOf hid).foldl (fun s c => s.onCore c (CoreSt.shift d)) s
  let s := (fensClusters h.fens).foldl (fun s cl => s.onCluster cl (fun k => k.thaw.shift d)) s
  let doms : Table DomInst := s.doms.map (fun x => (x.1, if x.1 / 65536 / 16 == hid then x.2.shift d else x.2))
  let s : State := { s.catchMsgs hid false with doms := doms, due := s.due ++ owed }
  let s := s.onQueue h.queue (fun x =>
    { x with groups := x.groups.map (fun g => if g.st == .running && decide (h.stopped ≤ g.start) then { g with start := g.start + d } else g) })
  s.onHousehold hid (fun h => { h with asleep := false, slept := [] })

/-! ### Taking the state off its holders and putting it back (R327) -/

/-- A location that the holders of some cores and clusters hold. -/
def Loc.within (l : Loc) (cores cls : List Nat) : Bool :=
  match l with
  | .ls c _ => cores.contains c
  | .loft c _ => cores.contains c
  | .counter c _ => cls.contains c
  | .row c _ => cls.contains c
  | .mem _ _ => false
/-- What the holders of a stopped household hold. -/
def State.capture (s : State) (hid : Nat) : Frozen :=
  let h := s.household hid
  let cls := fensClusters h.fens
  { hid := hid, stop := h.stopped, cores := s.cores.filter (fun x => x.2.hid == some hid),
    clusters := s.clusters.filter (fun k => cls.contains k.1), doms := s.doms.filter (fun d => d.1 / 65536 / 16 == hid),
    order := s.order.filter (fun p => p.1.within (s.coresOf hid) cls), pub := s.pub.filter (fun p => p.1 / 65536 / 16 == hid),
    bag := s.bag.filter (fun m => m.2.src.hid == hid), ops := s.ops.filter (fun o => o.2.src.hid == hid),
    colls := s.colls.filter (fun c => c.hid == hid), due := h.slept, groups := (s.queue h.queue).groups.filter Group.holds,
    fens := h.fens, place := h.place, sections := [] }
/-- Every holder of the household is zeroed, and its clusters and charge are released (R327). -/
def State.clearHolders (s : State) (hid : Nat) : State :=
  let h := s.household hid
  let x := s.queue h.queue
  let charge := ((x.groups.filter Group.holds).map (fun g => g.charge)).foldl (fun a b => a + b) 0
  let cls := fensClusters h.fens
  let s : State := { s with order := s.order.filter (fun p => !p.1.within (s.coresOf hid) cls),
                            pub := s.pub.filter (fun p => p.1 / 65536 / 16 != hid) }
  let s := (s.coresOf hid).foldl (fun s c => s.onCore c (fun x =>
    { CoreSt.reset with dbg := x.dbg, trace := { x.trace with held := [] }, lastPair := x.lastPair })) s
  let s : State :=
    { s with clusters := s.clusters.filter (fun k => !cls.contains k.1), doms := s.doms.filter (fun d => d.1 / 65536 / 16 != hid),
             bag := s.bag.filter (fun m => m.2.src.hid != hid), ops := s.ops.filter (fun o => o.2.src.hid != hid),
             colls := s.colls.filter (fun c => c.hid != hid), porch := { s.porch with echg := s.porch.echg - charge } }
  (s.onQueue h.queue (fun x => { x with groups := x.groups.filter (fun g => !g.holds) })).onHousehold hid (fun h =>
    { h with place := [], fens := [] })
/-- Every entry of a table put into another. -/
def tputAll {α : Type} (t u : Table α) : Table α := u.foldl (fun t p => tput t p.1 p.2) t
/-- A saved core in a core that it comes back to: the debug block, the encoder's registers and the last pair are the core's
own (R453, R458, R465); records that still wait are the household's. -/
def CoreSt.into (x here : CoreSt) : CoreSt :=
  { x with dbg := here.dbg, trace := { here.trace with held := x.trace.held }, lastPair := here.lastPair }
/-- A saved state put back into its holders; the household stays asleep until it resumes. -/
def State.putBack (s : State) (f : Frozen) : State :=
  let q := (s.household f.hid).queue
  let s := f.cores.foldl (fun s x => s.onCore x.1 x.2.into) s
  let s : State := { s with clusters := tputAll s.clusters f.clusters }
  let s : State := { s with doms := tputAll s.doms f.doms, bag := tputAll s.bag f.bag, ops := tputAll s.ops f.ops,
                            colls := s.colls ++ f.colls, order := f.order ++ s.order, pub := s.pub ++ f.pub }
  let charge := (f.groups.map (fun g => g.charge)).foldl (fun a b => a + b) 0
  let s := s.onPorch (fun p => { p with echg := p.echg + charge })
  (s.onQueue q (fun x => { x with groups := x.groups ++ f.groups })).onHousehold f.hid (fun h =>
    { h with fens := f.fens, place := f.place, slept := f.due, stopped := f.stop, asleep := true })

/-! ### Moving references (R345) -/

/-- A move of clusters: old to new, the others unmoved. -/
abbrev Move := Table Nat
def Move.cl (m : Move) (cl : Nat) : Nat := tget m cl cl
def Move.core (m : Move) (c : Nat) : Nat := coreIn (m.cl (clusterOf c)) (memberOf c)
def Loc.move (m : Move) (l : Loc) : Loc :=
  match l with
  | .ls c a => .ls (m.core c) a
  | .loft c a => .loft (m.core c) a
  | .counter cl n => .counter (m.cl cl) n
  | .row cl r => .row (m.cl cl) r
  | .mem h p => .mem h p
def Seen.move (m : Move) (k : Seen) : Seen := k.map (fun p => (p.1.move m, p.2))
def HVal.move (m : Move) (h : HVal) : HVal := { h with cluster := m.cl h.cluster }
def HReg.move (m : Move) (r : HReg) : HReg := { r with val := r.val.move m }
def Ctx.move (m : Move) (c : Ctx) : Ctx := { c with h := c.h.map (HReg.move m) }
def Entry.move (m : Move) (e : Entry) : Entry :=
  let e := { e with know := Seen.move m e.know }
  if e.kind = 2 || e.kind = 3 then
    let n := e.payload.toNat
    { e with fromCore := m.core e.fromCore, payload := BitVec.ofNat 192 (((HVal.unpack (n % 2 ^ 64)).move m).pack + n / 2 ^ 64 * 2 ^ 64) }
  else { e with fromCore := m.core e.fromCore }
def Src.move (m : Move) (x : Src) : Src := { x with core := m.core x.core }
def Dst.move (m : Move) (d : Dst) : Dst :=
  match d with
  | .core n => .core (m.core n)
  | .event cl => .event (m.cl cl)
  | .task cl t => .task (m.cl cl) t
  | .cluster cl => .cluster (m.cl cl)
  | d => d
/-- A cluster of the move with a property, and where it went. -/
def Move.unit (m : Move) (f : Nat → Nat) (u : Nat) : Nat :=
  match m.find? (fun p => f p.1 == u) with
  | some p => f p.2
  | none => u
/-- The key of a domain instance after a move. -/
def Move.key (m : Move) (k : Nat) : Nat :=
  let u := k % 65536
  let u' := match k / 65536 % 16 with
    | 1 => m.core u
    | 2 => m.cl u
    | 3 => m.unit quadOfCluster u
    | 4 => m.unit (fun cl => cl / 80) u
    | _ => u
  k / 65536 * 65536 + u'
/-- A block's rectangle moved with a cluster of its Fen (R345); a block of another DK names none. -/
def Block.move (m : Move) (cl : Nat) (b : Block) : Block :=
  if b.dk != 2 then b else
  let n := m.cl cl
  let x := b.geom % 128 + 4 * clX n - 4 * clX cl
  let y := b.geom / 256 % 64 + 4 * clY n - 4 * clY cl
  { b with geom := b.geom / 2 ^ 14 * 2 ^ 14 + y % 64 * 256 + b.geom / 128 % 2 * 128 + x % 128 }
def Body.move (m : Move) (cl : Nat) (b : Body) : Body :=
  match b with
  | .amo op z u a x y d inst => .amo op z u a x y d (inst.map (fun i => (m.key i.1, i.2)))
  | .red op z u a x inst => .red op z u a x (inst.map (fun i => (m.key i.1, i.2)))
  | .send e t => .send (e.move m) t
  | .hsend e t h => .hsend (e.move m) t (h.move m)
  | .command k blk idx => .command k (blk.move m cl) idx
  | .correct t c => .correct t (m.core c)
  | b => b
def Msg.move (m m0 : Move) (x : Msg) : Msg :=
  let dst := match x.body with
    | .send _ _ => x.dst.move m0
    | _ => x.dst.move m
  { x with src := x.src.move m, dst := dst, at_ := m0.core x.at_, stubs := x.stubs.map m.cl, goal := x.goal.map m.core,
           know := Seen.move m x.know, body := x.body.move m (clusterOf x.src.core), app := x.app.map (fun a => (m.core a.1, a.2)) }
def SOp.move (m : Move) (o : SOp) : SOp :=
  let b := o.blk.move m (clusterOf o.src.core)
  { o with src := o.src.move m, blk := if o.kind = .spill then { o.blk with aux := m.cl o.blk.aux } else b, know := Seen.move m o.know }
def CReq.move (m : Move) (q : CReq) : CReq := { q with core := m.core q.core }
def LEntry.move (m : Move) (e : LEntry) : LEntry := { e with waiter := e.waiter.map (fun w => (m.core w.1, w.2)), know := Seen.move m e.know }
def Act.move (m : Move) (a : Act) : Act :=
  match a with
  | .handle h r => .handle h (r.move m)
  | .wout cl e => .wout (m.cl cl) e
  | .owner cl e r => .owner (m.cl cl) e r
  | .addTile cl n => .addTile (m.cl cl) n
  | .freeEntry cl e => .freeEntry (m.cl cl) e
  | .lineage cl e ch => .lineage (m.cl cl) e ch
  | .learn k => .learn (Seen.move m k)
  | a => a
def Event.move (m : Move) (e : Event) : Event :=
  match e with
  | .helperRetire c x => .helperRetire (m.core c) x
  | .taskEnd c => .taskEnd (m.core c)
  | .phaseComplete h l u => .phaseComplete h l (m.key (l * 65536 + u) % 65536)
  | .syncTLimit c x => .syncTLimit (m.core c) x
  | .planEntry c i => .planEntry (m.core c) i
  | .ewaitAnswer c x => .ewaitAnswer (m.core c) x
  | .inbxTLimit c x => .inbxTLimit (m.core c) x
  | .boxWrite c => .boxWrite (m.core c)
  | .boxMoveBack c => .boxMoveBack (m.core c)
  | .stallTimeout c => .stallTimeout (m.core c)
  | .matrixCommandStart c => .matrixCommandStart (m.core c)
  | .matrixCommit c => .matrixCommit (m.core c)
  | .mldBStart c => .mldBStart (m.core c)
  | .mldBDone c => .mldBDone (m.core c)
  | .cisternAddPath cl => .cisternAddPath (m.cl cl)
  | .cisternTapPath cl => .cisternTapPath (m.cl cl)
  | .scrubEnd cl r => .scrubEnd (m.cl cl) r
  | .spillComplete cl r => .spillComplete (m.cl cl) r
  | .fillComplete cl r => .fillComplete (m.cl cl) r
  | .hjoinComplete c x r => .hjoinComplete (m.core c) x r
  | .hfreeComplete cl e => .hfreeComplete (m.cl cl) e
  | .taskEndReport c => .taskEndReport (m.core c)
  | .orderRestoreDeliver c => .orderRestoreDeliver (m.core c)
  | .molHeadReread c x => .molHeadReread (m.core c) x
  | .boxFetch c x => .boxFetch (m.core c) x
  | .inboxServe c x => .inboxServe (m.core c) x
  | e => e
def Due.move (m : Move) (d : Due) : Due :=
  match d.ev with
  | .done c x acts => { d with ev := .done (m.core c) x (acts.map (Act.move m)) }
  | .step e => { d with ev := .step (e.move m) }
def CoreSt.move (m m0 : Move) (x : CoreSt) : CoreSt :=
  { x with ctxs := x.ctxs.map (Ctx.move m), gang := x.gang.map (fun g => { g with members := g.members.map m.core }),
           inbox := x.inbox.map (Entry.move m), input := x.input.map (fun i => (i.1.move m, i.2)),
           heldAmos := x.heldAmos.map (fun a => { a with key := m.key a.key, core := m.core a.core, req := a.req.map (Msg.move m m0) }),
           mrun := x.mrun.map (fun r => { r with know := Seen.move m r.know }), seen := Seen.move m x.seen,
           boxKnow := x.boxKnow.map (fun p => (p.1, Seen.move m p.2)),
           stagePub := x.stagePub.map (fun p => (p.1, Seen.move m p.2)) }
def Cluster.move (m m0 : Move) (k : Cluster) : Cluster :=
  { k with addQ := k.addQ.map (CReq.move m), tapQ := k.tapQ.map (CReq.move m),
           groups := k.groups.map (fun g => (g.1, { g.2 with holder := g.2.holder.map (CReq.move m), know := Seen.move m g.2.know })),
           lineage := k.lineage.map (fun e => (e.1, e.2.move m)), dir := k.dir.map (fun d => (d.1, m0.core d.2)),
           stubs := k.stubs.map (fun d => (d.1, m0.core d.2)) }
/-- Every saved reference moved (R345): m moves what stands on a cluster, m0, by the Fens' offsets alone, what directory
entries and the destinations of `msend` entries name. -/
def Frozen.move (m m0 : Move) (f : Frozen) : Frozen :=
  { f with cores := f.cores.map (fun x => (m.core x.1, x.2.move m m0)), clusters := f.clusters.map (fun k => (m.cl k.1, k.2.move m m0)),
           doms := f.doms.map (fun d => (m.key d.1, { d.2 with members := d.2.members.map (fun x => (m.core x.1, x.2)) })),
           order := f.order.map (fun p => (p.1.move m, p.2)), pub := f.pub.map (fun p => (m.key p.1, Seen.move m p.2)),
           bag := f.bag.map (fun x => (x.1, x.2.move m m0)), ops := f.ops.map (fun o => (o.1, o.2.move m)), due := f.due.map (Due.move m),
           place := f.place.map (fun p => (p.1, (p.2.1, m.core p.2.2))),
           groups := f.groups.map (fun g => { g with loads := g.loads.map m.core, runs := g.runs.map m.core }) }

end Sys2Proof.Machine
end

