-- ==== Sys2Proof/Machine/Frame.lean ====
section
/-! DEFINITION. The bytes of frames (R333 to R341): the payload of every section, sealing, and the frame's layout. Where the
spec names contents without their bytes, log 7 gives the model's. -/
namespace Sys2Proof.Machine

/-- Fields of (bytes, value), little-endian, one after another. -/
def fieldBytes (fs : List (Nat × Nat)) : List Byte := fs.flatMap (fun f => bytesOf f.1 f.2)
/-- n zero bytes. -/
def zeros (n : Nat) : List Byte := List.replicate n 0
/-- Exactly n bytes: cut or filled with zeros. -/
def fit (n : Nat) (bs : List Byte) : List Byte := (bs ++ zeros (n - bs.length)).take n
/-- Bits, the first in bit 0 of the first byte. -/
def bitBytes (bs : List Bool) (n : Nat) : List Byte :=
  bytesOf n ((List.range bs.length).foldl (fun acc i => if bs[i]?.getD false then acc + 2 ^ i else acc) 0)
def tokNum (t : Option TokRef) : Nat :=
  match t with
  | some (.k n) => n
  | some (.t n) => n
  | none => 0

/-! ### Contexts (R335) -/

/-- The 48 bytes of a lineage entry (R261); `code` is its state code. -/
def LEntry.bytes (e : LEntry) (code : Nat) : List Byte :=
  let v := e.view
  fieldBytes [(1, code + ofBool e.side * 8 + ofBool e.root * 16), (1, v.typ % 16 + (v.nax - 1) % 4 * 16), (2, e.parent), (2, e.child0),
    (2, e.child1), (4, e.ownTask + e.ownCtx * 2 ^ 20 + e.ownReg * 2 ^ 24 + ofBool e.infl * 2 ^ 31),
    (4, v.base % 2 ^ 23 + ofBool v.window * 2 ^ 23 + v.home * 2 ^ 24), (8, packAxes v.org), (8, packAxes v.ext), (8, packAxes v.dims),
    (2, e.wout), (6, 0)]
/-- A handle register in 64 bytes: state code, value, shadow. -/
def HReg.bytes (r : HReg) : List Byte :=
  fieldBytes [(1, r.st.code), (7, 0), (8, r.val.pack)] ++
    { LEntry.reset with side := r.val.side, root := r.val.root, parent := r.val.parent, view := r.view }.bytes 0
/-- What a context that no issued instruction makes wait waits in at the pair at its PC: WAIT code and WAITARG; code 0 when
that pair can issue. -/
def State.pairWait (s : State) (core ctx : Nat) : Nat × Nat :=
  let c := s.ctxOf core ctx
  let w := { s with focus := core }.wordAt c.pc.toNat
  let hd := decodeHead w
  let whenWaits (p : Bool) (r : Nat × Nat) : Nat × Nat := if p then r else (0, 0)
  if c.dlyRem ≠ 0 then (0, 0)
  else if !c.waitMet hd then (1, hd.wk.toNat + hd.wn.toNat * 16)
  else
    match decodeC w with
    | .ok (.kwait _ k b) => whenWaits (decide (b.toNat < c.tok (c.tokRef k.toNat))) (1, k.toNat + b.toNat * 16)
    | .ok (.fenceAcq _ _) => whenWaits (!c.acq.isEmpty) (7, 0)
    | .ok (.fenceRel _ sc) => whenWaits (sc != 0 && !c.out.isEmpty) (7, 0)
    | .ok (.fenceAr _ sc) => whenWaits (!c.acq.isEmpty || (sc != 0 && !c.out.isEmpty)) (7, 0)
    | .ok (.eret _) => whenWaits (c.inh && !c.trapTokensZero) (9, 0)
    | _ => (0, 0)
/-- WAIT code, WAITARG and WAITLIM of a context. -/
def State.waitCode (s : State) (core ctx : Nat) : Nat × Nat × Nat :=
  let c := s.ctxOf core ctx
  if c.wait == .none then ((s.pairWait core ctx).1, (s.pairWait core ctx).2, 0) else c.wait.code
def RegId.code (r : RegId) : Nat :=
  match r with
  | .s n => 1 * 4096 + n
  | .v n => 2 * 4096 + n
  | .p n => 3 * 4096 + n
/-- A pending fixed write in 136 bytes; j is its place in the order of issue. -/
def FixedW.bytes (w : FixedW) (j : Nat) : List Byte := fieldBytes [(2, w.reg.code), (1, w.rem), (1, j), (4, 0), (128, w.val)]
/-- The STATE word of R335. -/
def State.ctxState (s : State) (core ctx : Nat) : Nat :=
  let x := s.coreOf core
  let c := x.ctx ctx
  let w := (s.waitCode core ctx).1
  let run := if c.parked then 4 else if c.wait == .halt then 3 else if c.wait != .none || w != 0 then 2 else 1
  run + w * 2 ^ 4 + ofBool c.inh * 2 ^ 8 + c.dlyRem % 64 * 2 ^ 10 + c.fixed.length % 256 * 2 ^ 16 + c.quota / 8 * 2 ^ 24
/-- The registers of a context as `getc` reads them, for a context that is not the running one. -/
def State.ctlOf (s : State) (core ctx n : Nat) : Nat :=
  (({ s with focus := core }.onCore core (fun x => { x with run := ctx })).readCtl n).toNat
/-- The payload of a context section (R335). -/
def State.ctxPayload (s : State) (core ctx : Nat) : List Byte :=
  let x := s.coreOf core
  let c := x.ctx ctx
  let w := s.waitCode core ctx
  let sp := (List.range 32).map (fun i => c.isPending (.s i))
  let pp := (List.range 8).map (fun i => c.isPending (.p i))
  let hp := (List.range 16).map (fun i => (c.hReg i).st == .pending)
  let ctl := [0x000, 0x002, 0x003, 0x005, 0x006, 0x007, 0x010, 0x011, 0x012, 0x018, 0x019].map (fun n => (8, s.ctlOf core ctx n))
  fieldBytes [(8, c.pc.toNat), (8, s.ctxState core ctx), (8, w.2.1), (8, w.2.2)] ++
    fieldBytes ((List.range 32).map (fun i => (8, (c.sReg i).toNat))) ++ fieldBytes ((List.range 8).map (fun i => (4, (c.pReg i).toNat))) ++
    fieldBytes ((List.range 16).map (fun i => (1, c.tok (.k i)))) ++ fieldBytes ((List.range 4).map (fun i => (1, c.tok (.t i)))) ++ zeros 4 ++
    bitBytes (sp ++ pp ++ hp) 8 ++ bitBytes ((List.range 64).map (fun i => c.isPending (.v i))) 8 ++ fieldBytes ctl ++
    fieldBytes [(1, c.lateQ.length), (1, c.lost), (62, 0)] ++ (List.range 16).flatMap (fun i => (c.hReg i).bytes) ++
    (c.fixed.zip (List.range c.fixed.length)).flatMap (fun p => p.1.bytes p.2) ++
    (List.range c.quota).flatMap (fun i => bytesOf 128 (c.vReg i).toNat) ++
    c.lateQ.flatMap (fun r => fieldBytes [(8, r.info), (1, r.cause), (1, r.sub), (6, 0)])

/-! ### Cores (R336, R337) -/

/-- A command in the layout of R222. -/
def MCmd.bytes (c : MCmd) : List Byte :=
  if c.zero then fieldBytes [(4, 0x80000000 + c.acc), (60, 0)]
  else
    fieldBytes [(4, c.acc + ofBool c.clr * 8 + ofBool c.scl * 16), (4, c.aaddr), (2, c.m), (2, c.k), (4, c.boff), (4, c.span + c.rstr * 16),
      (4, c.asoff), (4, c.bsoff), (36, 0)]
/-- A deferred entry in 16 bytes. -/
def State.deferredBytes (s : State) (core : Nat) (e : Deferred) : List Byte :=
  let m := e.msg.bind (fun id => tfind s.bag id)
  fieldBytes [(1, e.op + 1), (1, e.ctx), (2, (m.map (fun m => m.src.core)).getD core), (4, e.addr),
    (2, (m.map (fun m => if m.remote then m.seq else 0)).getD 0), (1, tokNum (some e.tok)), (1, e.d), (4, 0)]
/-- The repetition buffer in 128 bytes. -/
def CoreSt.rbBytes (x : CoreSt) : List Byte :=
  let words := fit 64 (x.rb.flatMap (fun w => bytesOf 4 w.toNat))
  let t := match x.rbSt with
    | .idle => [(1, 0), (1, 0), (1, 0), (1, x.rb.length), (2, 0), (2, 0), (8, 0)]
    | .recording o left => [(1, 1), (1, o), (1, x.rb.length), (1, x.rb.length), (2, 0), (2, left + x.rb.length), (8, 0)]
    | .replaying o pass passes idx stag _ =>
      [(1, 2), (1, o), (1, idx), (1, x.rb.length), (2, pass), (2, passes), (8, stag.toNat)]
  fit 128 (words ++ fieldBytes t)
/-- Held requests (R336, R395): atomics of deterministic mode, then accesses of a region not yet applied; 16 bytes each:
operation and width, context, core, sequence number, address, low half of the operand. -/
def State.heldBytes (s : State) (core : Nat) : List Byte :=
  let x := s.coreOf core
  let z : Nat := 0
  let amos := x.heldAmos.flatMap (fun a =>
    fieldBytes [(1, (if a.returning then 64 else 32) + a.z), (1, a.ctx), (2, a.core), (2, a.seq), (2, z), (4, a.addr), (4, a.b)])
  let reg := x.regions.flatMap (fun r =>
    match tfind s.bag r.2.1 with
    | none => []
    | some m =>
      match m.body with
      | .region _ accs => (accs.drop r.2.2).flatMap (fun a =>
          fieldBytes [(1, 128 + ofBool a.store * 16 + a.z), (1, m.src.ctx), (2, m.src.core), (2, m.seq), (2, z), (4, a.addr), (4, a.val)])
      | _ => [])
  amos ++ reg
/-- The payload of a core section (R336). -/
def State.corePayload (s : State) (core : Nat) : List Byte :=
  let x := s.coreOf core
  let gang := match x.gang with
    | none => (0, 0)
    | some g => (g.shape % 4 + 4 + ofBool (g.members.head? == some core) * 8, g.ox + g.oy * 4)
  let mld := match x.mlds with
    | [] => [(12, 0)]
    | l :: _ => [(4, l.src), (4, l.dst), (2, l.wrote), (1, tokNum (some l.tok)), (1, x.mowner.getD 0)]
  let slot (e : Entry) : List Byte := fieldBytes [(32, e.word), (1, e.ctxTo), (1, 1), (4, e.no), (2, 0)]
  let queue := (x.mrun.map (fun r => r.cmd)).toList ++ x.mq
  fieldBytes [(1, x.mowner.getD 255), (1, gang.1), (1, gang.2), (1, 0)] ++
    fieldBytes ((List.range 8).map (fun i => (2, x.chunkIdx[i]?.getD 0))) ++ fieldBytes [(4, (x.mrun.map (fun r => r.steps)).getD 0)] ++
    fieldBytes mld ++ zeros 4 ++ fieldBytes [(8, x.mfa), (8, x.mfb), (8, x.msa), (8, x.msb), (8, x.xpl)] ++
    fieldBytes ((List.range 10).map (fun i => (1, if (x.ctx (i + 1)).live then (x.ctx (i + 1)).quota else 0))) ++
    fieldBytes [(2, x.planPhase), (4, 0), (8, x.arrNo)] ++ zeros 152 ++
    fit 2560 (x.inbox.flatMap slot) ++ fit 512 (x.deferred.flatMap (s.deferredBytes core)) ++
    x.rbBytes ++ zeros 128 ++ fit 1024 (queue.flatMap MCmd.bytes) ++
    (List.range 512).flatMap (fun i => bytesOf 128 (x.tileRow (i / 64) (i % 64)).toNat) ++
    fit 8192 (((x.mrun.map (fun r => r.work)).getD []).flatMap (fun v => bytesOf 128 v.toNat)) ++ s.heldBytes core
/-- A local-store page with its FE bits (R337). -/
def CoreSt.pagePayload (x : CoreSt) (p : Nat) : List Byte :=
  x.ls.readBytes (4096 * p) 4096 ++ bitBytes ((List.range 512).map (fun i => x.fe (512 * p + i))) 64
/-- A B-store unit (R337). -/
def CoreSt.unitPayload (x : CoreSt) (u : Nat) : List Byte := x.b.readBytes (65536 * u) 65536

/-! ### Clusters (R338) -/

/-- A group record in 64 bytes; a Frozen group's state is the one before it. -/
def CGroup.record (g : CGroup) (row stop : Nat) : List Byte :=
  let st := match g.st with
    | .frozen w => w
    | x => x.code
  fieldBytes [(8, g.info row 0), (8, g.sum), (8, g.adds), (8, g.drift), (4, g.scrubs), (4, g.spills), (4, g.gaddr), (1, st), (3, 0),
    (4, if st = 2 then g.until_ + 1 - stop else if st = 4 then g.wrote else 0), (4, g.sinceScrub), (8, 0)]
/-- A waiting cistern request in 16 bytes: operation, context, core, row, segment, arrival. -/
def CReq.bytes (q : CReq) : List Byte :=
  fieldBytes [(1, q.op), (1, q.ctx), (2, q.core), (1, q.row), (1, q.sel), (2, q.seg), (1, tokNum q.tok), (1, q.d), (2, q.pc / 8), (4, q.arrive)]
/-- A directory entry (R349) in 8 bytes: task, cluster, member with bit 7 for a stub, 1. -/
def dirBytes (p : Nat × Nat) (stub : Bool) : List Byte :=
  fieldBytes [(4, p.1 % 2 ^ 20), (2, clusterOf p.2), (1, memberOf p.2 + ofBool stub * 128), (1, 1)]
/-- The barrier bytes of a member core. -/
def State.barrierBytes (s : State) (core : Nat) : List Byte :=
  let x := s.coreOf core
  fieldBytes ((List.range 11).map (fun i =>
    let c := x.ctx i
    let done := c.arr && (s.dom (x.hid.getD 0) c.level (unitOf c.level core c.fen)).release.isSome
    (1, if c.live then c.level + ofBool c.arr * 8 + ofBool done * 16 else 0))) ++ zeros 5
/-- The payload of a cluster section (R338); the requests that hold groups stand before those that wait. -/
def State.clusterPayload (s : State) (cl stop : Nat) : List Byte :=
  let k := s.clusterAt cl
  let code (e : LEntry) : Nat := match e.st with
    | .frozen w => w
    | x => x.code
  fieldBytes ((List.range 256).map (fun i => (4, tget k.counters 0 i))) ++ (clusterCores cl).flatMap s.barrierBytes ++
    (List.range 64).flatMap (fun r => match tfind k.groups r with
      | some g => if g.st == .undeclared then zeros 64 else g.record r stop
      | none => zeros 64) ++
    fit 8192 ((k.groups.filterMap (fun g => g.2.holder) ++ k.addQ ++ k.tapQ).flatMap CReq.bytes) ++
    (List.range 1024).flatMap (fun i => match tfind k.lineage i with
      | some e => e.bytes (code e)
      | none => zeros 48) ++
    fit 2816 (k.dir.flatMap (fun p => dirBytes p false) ++ k.stubs.flatMap (fun p => dirBytes p true))

/-! ### Streamer operations, sluices, the household (R332, R339, R340) -/

/-- A parameter block in 64 bytes (R280). -/
def Block.bytes (b : Block) : List Byte :=
  fieldBytes [(1, b.mode + ofBool b.det * 4), (1, b.dk), (1, b.span), (1, b.opx), (4, b.tag), (8, b.va), (8, b.loc), (4, b.rows), (4, b.rowb),
    (8, (b.vstr % (2 ^ 64 : Nat)).toNat), (4, b.lstr), (4, b.aux), (8, b.geom), (4, b.upc), (4, 0)]
/-- A held message in 192 bytes (R332): router, port, kind, catch order, source, sequence number, then the message as carried. -/
def sluiceRecord (core port order kind src seq : Nat) (msg : List Byte) : List Byte :=
  let msg := msg.take 174
  fieldBytes [(4, core), (1, port), (1, kind), (2, msg.length), (4, order), (4, src), (2, seq)] ++ fit 174 msg
/-- The bytes of a request as carried on the mesh (log 7): addresses, operands, entries, blocks. -/
def Body.carried (b : Body) : List Byte :=
  match b with
  | .load a z sx d => fieldBytes [(8, a), (1, z), (1, ofBool sx), (1, d)]
  | .loadLine a lanes v n => fieldBytes [(8, a), (1, v), (4, n)] ++ lanes.flatMap (fun l => fieldBytes [(1, l.1), (1, l.2 % 128)])
  | .store a z v => fieldBytes [(8, a), (1, z), (8, v)]
  | .storeLine a lanes _ => bytesOf 8 a ++ lanes.flatMap (fun l => fieldBytes [(1, l.1 % 128), (4, l.2)])
  | .take a d => fieldBytes [(8, a), (1, d)]
  | .give a v => fieldBytes [(8, a), (8, v)]
  | .feSet a f => fieldBytes [(8, a), (1, ofBool f)]
  | .amo _ z u a x y d _ => fieldBytes [(8, a), (1, z), (1, ofBool u), (8, x), (8, y), (1, d)]
  | .red _ z u a x _ => fieldBytes [(8, a), (1, z), (1, ofBool u), (8, x)]
  | .region line accs => bytesOf 8 line ++ accs.flatMap (fun x =>
    fieldBytes [(1, x.addr % 128), (1, x.z + ofBool x.store * 16), (8, x.val), (1, x.d)])
  | .pantry op a d => fieldBytes [(1, op), (8, a), (1, d)]
  | .esig c v => fieldBytes [(1, c), (4, v)]
  | .sig i v => fieldBytes [(2, i), (8, v)]
  | .send e t => fieldBytes [(32, e.word), (4, t), (1, e.ctxTo)]
  | .hsend e t _ => fieldBytes [(32, e.word), (4, t), (1, e.ctxTo)]
  | .command _ blk idx => blk.bytes ++ idx.flatMap (fun p => bytesOf 4 p.2)
  | .spill r va c => fieldBytes [(1, r), (8, va), (1, ofBool c)]
  | .fill r va c => fieldBytes [(1, r), (8, va), (1, ofBool c)]
  | .porch op d arg blk => fieldBytes [(1, op), (1, d), (8, arg)] ++ blk.flatMap (bytesOf 64)
  | .correct t c => fieldBytes [(4, t), (2, c)]
/-- The bytes of a message in a router: a request, or the values or the refusal that go back to its source. -/
def Msg.carried (m : Msg) : List Byte :=
  match m.st with
  | .going => 0 :: m.body.carried
  | .answered vs => 1 :: vs.flatMap (bytesOf (if vs.length ≤ 16 then 8 else 4))
  | .refused r a => 2 :: fieldBytes [(1, r), (8, a)]
/-- The port by which a message came into the router of a core (log 7): 0 from its own core, else from the west, the east, the
north or the south, X first. -/
def portFrom (src core : Nat) : Nat :=
  let a := clusterOf src
  let b := clusterOf core
  let x (c n : Nat) : Nat := 4 * clX c + memberOf n % 4
  let y (c n : Nat) : Nat := 4 * clY c + memberOf n / 4
  if src = core then 0
  else if y a src < y b core then 3
  else if y b core < y a src then 4
  else if x a src < x b core then 1
  else 2
def Msg.record (m : Msg) (core order : Nat) : List Byte :=
  sluiceRecord core (portFrom m.src.core core) order m.body.rkind (m.src.task + m.src.ctx * 2 ^ 20) m.seq m.carried
/-- The 8-byte elements of rows WM to WM + 7, done or held, in ⌈ROWB/64⌉ bytes for each row (R339); one written outside the
module is done once it is acknowledged (R398). -/
def SOp.bitmap (op : SOp) : List Byte :=
  let n := (op.blk.rowb + 63) / 64
  (List.range 8).flatMap (fun r =>
    bitBytes ((List.range (op.blk.rowb / 8)).map (fun j =>
      let e := (op.wm + r) * op.rowSteps + 8 * j / op.unit
      decide (op.wm + r < op.blk.rows) && (op.isDone e || (tfind op.read e).isSome))) n)
/-- The participants of a collective that have arrived, by IDX, behind their number (R339, log 7). -/
def State.arrivals (s : State) (op : SOp) : List Byte :=
  if op.kind == .col then
    match s.colls.find? (fun c => c.hid == op.src.hid && c.colid == op.blk.colId) with
    | some c => bytesOf 4 c.ops.length ++ c.ops.flatMap (fun o => bytesOf 4 o.1)
    | none => []
  else []
/-- The payload of a streamer-operation section (R339). -/
def State.opPayload (s : State) (op : SOp) : List Byte :=
  op.blk.bytes ++ fieldBytes [(4, op.src.task + op.src.ctx * 2 ^ 20), (2, op.seq), (1, tokNum op.tok), (1, 0), (8, op.wm), (48, 0)] ++
    op.bitmap ++ (op.read.zip (List.range op.read.length)).flatMap (fun p =>
      sluiceRecord op.src.core 0 p.2 10 (op.src.task + op.src.ctx * 2 ^ 20) op.seq (fieldBytes [(8, p.1.1), (op.unit, p.1.2)])) ++
    s.arrivals op
/-- The regions that homes have begun to apply, by message (R395). -/
def regionIds (cores : Table CoreSt) : List Nat := cores.flatMap (fun c => c.2.regions.map (fun r => r.2.1))
/-- A message stands in a router: it is under way, or waits at the interface of its home, or its answer, acknowledgement or
refusal is; an entry that has not departed waits at its own core's (log 7). A region part applied stands in its home (R395). -/
def Msg.inRouter (m : Msg) (applying : Bool) : Bool :=
  let waits : Bool := match m.body, m.dst with
    | .spill .., _ => false
    | .fill .., _ => false
    | _, .core _ => !m.delivered || (m.unperformed && !applying)
    | _, _ => !m.delivered
  m.caught && (waits || m.st != .going)
/-- The caught messages of a household by router, in catch order (R332). -/
def State.caughtAt (s : State) (hid : Nat) : List (Nat × List Msg) :=
  let busy := regionIds s.cores
  let ms := (s.bag.filter (fun m => m.2.src.hid == hid && m.2.inRouter (busy.contains m.1))).map (fun m => m.2)
  (sortNat (ms.map (fun m => m.at_)).eraseDups).map (fun c => (c, ms.filter (fun m => m.at_ == c)))
def sluicePayload (core : Nat) (ms : List Msg) : List Byte :=
  bytesOf 16 ms.length ++ (ms.zip (List.range ms.length)).flatMap (fun p => p.1.record core p.2)
def GrpState.code (g : GrpState) : Nat :=
  match g with
  | .waiting => 0
  | .ready => 1
  | .loading => 2
  | .running => 3
  | .draining => 4
  | .free => 5
  | .ended => 6
/-- The payload of the household section (R340): header, Fens, groups, placement table. -/
def State.householdPayload (s : State) (hid : Nat) : List Byte :=
  let h := s.household hid
  let x := s.queue h.queue
  fit 64 (fieldBytes [(1, hid), (1, ofBool h.prot), (2, h.fens.length), (4, x.groups.length), (4, h.place.length), (4, h.queue), (4, x.intk),
      (8, s.porch.age), (8, h.root)]) ++
    h.fens.flatMap (fun f => fieldBytes [(1, f.2.ident), (1, f.2.cx), (1, f.2.cy), (1, f.2.w), (1, f.2.h), (3, 0)]) ++
    x.groups.flatMap (fun g => fit 128 g.desc.raw ++ fit 64 (fieldBytes [(1, g.st.code), (1, g.ox), (1, g.oy), (1, 0), (4, g.ticket),
      (8, g.readyGts), (8, g.start), (4, g.charge)])) ++
    h.place.flatMap (fun p => fieldBytes [(4, p.1), (2, clusterOf p.2.2), (1, memberOf p.2.2), (1, 0)])

/-! ### The sections of a stopped household (R333) -/

def Section.plain (kind sub holder : Nat) (payload : List Byte) : Section :=
  { kind := kind, sub := sub, holder := holder, label := 0, payload := payload }
/-- The sections of one core: core, contexts, pages, units. -/
def State.coreSections (s : State) (c : Nat) : List Section :=
  let x := s.coreOf c
  [Section.plain 2 0 c (s.corePayload c)] ++
    ((List.range 11).filter (fun i => (x.ctx i).live)).map (fun i => Section.plain 1 i c (s.ctxPayload c i)) ++
    ((List.range 96).filter (bit x.pages)).map (fun p => Section.plain 3 p c (x.pagePayload p)) ++
    ((List.range 8).filter (bit x.units)).map (fun u => Section.plain 4 u c (x.unitPayload u))
/-- The sections of one cluster: its own, then its groups by first row, as exact spill images. -/
def State.clusterSections (s : State) (cl stop : Nat) : List Section :=
  Section.plain 5 0 cl (s.clusterPayload cl stop) ::
    (((s.clusterAt cl).groups.filter (fun g => g.2.st != .undeclared)).map (fun g => Section.plain 6 g.1 cl (s.image cl g.1 false)))
/-- A streamer operation goes before another: by streamer, then in queue order. -/
def insertOp (o : Nat × SOp) (l : List (Nat × SOp)) : List (Nat × SOp) :=
  match l with
  | [] => [o]
  | p :: rest => if o.2.owner < p.2.owner then o :: p :: rest else p :: insertOp o rest
/-- The cluster holds a stub of the household (R349). -/
def Cluster.hasStub (k : Cluster) (hid : Nat) : Bool := k.stubs.any (fun t => t.1 / 2 ^ 20 == hid)
/-- Every section, in the order of R333; a cluster that holds a stub has one though no group holds it (R349). -/
def State.sectionsOf (s : State) (hid : Nat) : List Section :=
  let h := s.household hid
  let cores := sortNat ((s.coresOf hid).filter (fun c => !(s.coreOf c).ended))
  let stubbed := (fensClusters h.fens).filter (fun cl => (s.clusterAt cl).hasStub hid)
  let cls := sortNat ((((s.queue h.queue).groups.filter Group.holds).flatMap s.groupClusters ++ stubbed).eraseDups)
  let ops := (s.ops.filter (fun o => o.2.src.hid == hid)).foldl (fun l o => insertOp o l) []
  [Section.plain 8 0 0 (s.householdPayload hid)] ++ cls.flatMap (fun cl => s.clusterSections cl h.stopped) ++
    cores.flatMap s.coreSections ++ ops.map (fun o => Section.plain 7 0 o.2.owner (s.opPayload o.2)) ++
    (s.caughtAt hid).map (fun p => Section.plain 9 0 p.1 (sluicePayload p.1 p.2))

/-! ### Frames (R333, R334, R341) -/

/-- A section's descriptor (R334, R403). -/
def Section.descriptor (x : Section) (index : Nat) (label : Bool) : List Byte :=
  fieldBytes [(1, x.kind), (1, 0), (2, x.sub), (4, x.holder), (4, index), (4, x.payload.length), (1, if label then x.label else 0), (15, 0)]
/-- The bytes of a section at its place in a frame: descriptor, payload, tag, zeros to a multiple of 128. -/
def Section.padded (x : Section) : Nat := (48 + x.payload.length + 127) / 128 * 128
/-- The initial vector of a section (R341, R405). -/
def ivOf (n index : Nat) : BitVec 96 := BitVec.ofNat 96 (n % 2 ^ 64 + index % 2 ^ 32 * 2 ^ 64)
/-- A section's bytes, sealed under a key or plain (R341). -/
def Section.bytes (x : Section) (index : Nat) (label : Bool) (header : List Byte) (key : Option (BitVec 256)) (n : Nat) : List Byte :=
  let d := x.descriptor index label
  let body := match key with
    | none => x.payload ++ zeros 16
    | some k => Config.gcmSeal k (ivOf n index) (header ++ d) x.payload ++
        bytesOf 16 (Config.gcmTag k (ivOf n index) (header ++ d) x.payload).toNat
  fit x.padded (d ++ body)
/-- The length of a frame of given sections. -/
def frameLength (l : List Section) : Nat := 128 + (l.map Section.padded).foldl (fun a b => a + b) 0
/-- The header of a frame (R334). -/
def frameHeader (sealed_ : Bool) (hid n g : Nat) (l : List Section) : List Byte :=
  fit 128 (fieldBytes [(2, 0x0010), (1, 1), (1, ofBool sealed_), (4, hid), (8, n), (8, g), (8, frameLength l), (4, l.length)])
/-- The sections of a frame one after another. -/
def sectionsBytes (l : List Section) (index : Nat) (label : Bool) (header : List Byte) (key : Option (BitVec 256)) (n : Nat) : List Byte :=
  match l with
  | [] => []
  | x :: rest => x.bytes index label header key n ++ sectionsBytes rest (index + 1) label header key n
/-- A whole frame. -/
def frameBytes (key : Option (BitVec 256)) (hid n g : Nat) (l : List Section) : List Byte :=
  let h := frameHeader key.isSome hid n g l
  h ++ sectionsBytes l 0 false h key n

end Sys2Proof.Machine
end

