-- ==== Sys2Proof/Machine/Switch.lean ====
section
/-! DEFINITION. The context switch: its commands (R322 to R329), the stop and the sluice (R330 to R332), the save (R333, R327),
the restore and the resume (R344 to R349). -/
namespace Sys2Proof.Machine

/-! ### Commands (R325, R329) -/

def State.swResult (s : State) (q n : Nat) : State := s.onQueue q (fun x => { x with swResult := n })
/-- A save is armed for a GTS. -/
def State.armStop (s : State) (q hid g : Nat) : State :=
  (s.onQueue q (fun x => { x with stop := .at_ g, swlast := g })).stepAt g (.switchStop hid)
/-- `SWCMD_SAVE` (R325, R329): a write of SWCMD that asks for a save, for nothing, or for what it may not. -/
def execSwcmdSave (q : Nat) (val : BitVec 64) (s : State) : Host.Outcome State Fault Refusal :=
  let x := s.queue q
  let v := val.toNat
  if 16 ≤ v then .next (s.swResult q 3)
  else if v % 4 = 0 then .next s
  else
    match x.hid with
    | none => .next (s.swResult q 4)
    | some hid =>
      if x.killed then .next (s.swResult q 4)
      else if x.swState = 4 then
        .next ((s.onQueue q (fun x => { x with swState := 1, frameVa := x.swva })).soon (.saveComplete hid))
      else if (x.swState = 0 || x.swState = 3) && !x.swArm then
        let s := s.onQueue q (fun x => { x with swArm := true })
        if bit v 2 then .next (s.onQueue q (fun x => { x with stop := .rel x.swgts }))
        else if x.swState = 0 then .next (s.armStop q hid (max x.swgts (s.gts + 4096)))
        else .next (s.onQueue q (fun x => { x with stop := .at_ x.swgts }))
      else .next (s.swResult q 4)
/-- `SWCMD_DISARM` (R325): before cycle G, which has not come while ARM is 1. -/
def execSwcmdDisarm (q : Nat) (_val : BitVec 64) (s : State) : Host.Outcome State Fault Refusal :=
  if (s.queue q).swArm then .next ((s.onQueue q (fun x => { x with swArm := false, stop := .none })).swResult q 0)
  else .next (s.swResult q 4)

/-! ### The stop and the save (R327, R330 to R334) -/

/-- `SWITCH_STOP`: the stop at the start of cycle G; a kill of the same cycle goes before it (R393). -/
def execSwitchStop (hid : Nat) (s : State) : Host.Outcome State Fault Refusal :=
  let q := (s.household hid).queue
  let x := s.queue q
  if !x.swArm || !x.stop.now s || x.swState != 0 || x.killed then .next s
  else if x.killStop.now s then .next (s.onQueue q (fun x => { x with swArm := false, stop := .none }))
  else
    let s := s.sleep hid
    .next ((s.onQueue q (fun x =>
      { x with swState := 1, swArm := false, stop := .none, frameVa := x.swva })).stepAt (s.gts + 64) (.sluiceClose hid))
/-- `SLUICE_CLOSE` (R332): 64 cycles after the stop, every message that the household's routers hold has been caught; a save
then writes its frame. -/
def execSluiceClose (hid : Nat) (s : State) : Host.Outcome State Fault Refusal :=
  let s := if (s.household hid).asleep then s.catchMsgs hid true else s
  .next (if (s.queue (s.household hid).queue).swState = 1 then s.soon (.saveComplete hid) else s)
/-- `SAVE_COMPLETE` (R327, R333): the frame is written through the household's translation, or a refused write leaves the
household Held. The write ends once the bank of its last byte is free (R364). -/
def execSaveComplete (hid : Nat) (s : State) : Host.Outcome State Fault Refusal :=
  let h := s.household hid
  let q := h.queue
  let x := s.queue q
  if x.swState != 1 || x.killed then .next s
  else
    let secs := s.sectionsOf hid
    let key := if h.secured then h.hsk else none
    let bytes := frameBytes key hid (x.savecnt + 1) h.stopped secs
    let r := s.putBytes hid x.frameVa bytes
    if s.endBusy hid x.frameVa bytes.length then .next (s.stepAt (s.gts + 1) (.saveComplete hid))
    else match r.2 with
    | some _ => .next ((r.1.onQueue q (fun x => { x with swState := 4 })).swResult q 6)
    | none =>
      let f := { r.1.capture hid with sections := secs }
      let s := (r.1.clearHolders hid).onHousehold hid (fun h => { h with frozen := some f, asleep := false, slept := [] })
      .next ((s.onQueue q (fun x => { x with swState := 2, savecnt := x.savecnt + 1 })).swResult q 0)

/-! ### Reading a frame (R344) -/

/-- A section's descriptor as read, with the section's address and whether the bytes that must be zero are. -/
structure SecHead where
  kind : Nat
  sub : Nat
  holder : Nat
  index : Nat
  len : Nat
  at_ : Nat
  zero : Bool
deriving DecidableEq, Repr
/-- A section as read: the fields of its descriptor, its payload and its tag. -/
structure RawSection where
  kind : Nat
  sub : Nat
  holder : Nat
  index : Nat
  body : List Byte
  tag : List Byte
deriving DecidableEq, Repr

/-- Bytes of a section in its frame (R334). -/
def SecHead.padded (x : SecHead) : Nat := (48 + x.len + 127) / 128 * 128
/-- The descriptors of n sections from an address on, up to the first that cannot be read, and whether all were. -/
def State.readHeads (s : State) (hid va n : Nat) : List SecHead × Bool :=
  match n with
  | 0 => ([], true)
  | k + 1 =>
    match s.getBytes hid va 32 with
    | .error _ => ([], false)
    | .ok d =>
      let v := natOfBytes d
      let h : SecHead :=
        { kind := bits v 0 8, sub := bits v 16 16, holder := bits v 32 32, index := bits v 64 32, len := bits v 96 32, at_ := va,
          zero := bits v 8 8 == 0 && bits v 128 128 == 0 }
      let r := s.readHeads hid (va + h.padded) k
      (h :: r.1, r.2)
/-- The payload and the tag of a section; none when they cannot be read. -/
def State.readSection (s : State) (hid : Nat) (h : SecHead) : Option RawSection :=
  match s.getBytes hid (h.at_ + 32) (h.len + 16) with
  | .error _ => none
  | .ok bs => some { kind := h.kind, sub := h.sub, holder := h.holder, index := h.index, body := bs.take h.len, tag := bs.drop h.len }
/-- The place of a section in the order of R333. -/
def SecHead.rank (x : SecHead) : Nat :=
  match x.kind with
  | 8 => 0
  | 5 => 2 ^ 40 + x.holder * 2 ^ 20
  | 6 => 2 ^ 40 + x.holder * 2 ^ 20 + 1 + x.sub
  | 2 => 2 * 2 ^ 40 + x.holder * 2 ^ 20
  | 1 => 2 * 2 ^ 40 + x.holder * 2 ^ 20 + 1000 + x.sub
  | 3 => 2 * 2 ^ 40 + x.holder * 2 ^ 20 + 2000 + x.sub
  | 4 => 2 * 2 ^ 40 + x.holder * 2 ^ 20 + 3000 + x.sub
  | 7 => 3 * 2 ^ 40 + x.holder * 2 ^ 20
  | _ => 4 * 2 ^ 40 + x.holder * 2 ^ 20
/-- A descriptor within R334: KIND, SUB and HOLDER in range, LEN as R335 to R338 fix it. -/
def SecHead.ok (x : SecHead) : Bool :=
  let n := x.len
  x.zero && (match x.kind with
    | 1 => decide (x.sub ≤ 10 ∧ x.holder < 5120 ∧ 1536 ≤ n)
    | 2 => decide (x.sub = 0 ∧ x.holder < 5120 ∧ 78336 ≤ n)
    | 3 => decide (x.sub ≤ 95 ∧ x.holder < 5120 ∧ n = 4160)
    | 4 => decide (x.sub ≤ 7 ∧ x.holder < 5120 ∧ n = 65536)
    | 5 => decide (x.sub = 0 ∧ x.holder < 320 ∧ n = 65536)
    | 6 => decide (x.sub ≤ 63 ∧ x.holder < 320)
    | 7 => decide (x.sub = 0 ∧ 128 ≤ n)
    | 8 => decide (x.sub = 0 ∧ x.holder = 0 ∧ 64 ≤ n)
    | 9 => decide (x.sub = 0 ∧ x.holder < 5120 ∧ 16 ≤ n)
    | _ => false)
/-- The sections stand in the order of R333, numbered from i. -/
def inOrder333 (l : List SecHead) (i : Nat) : Bool :=
  match l with
  | [] => true
  | x :: rest =>
    x.index == i && (match rest with
      | [] => true
      | y :: _ => decide (x.rank < y.rank) || (x.kind == 7 && y.kind == 7 && decide (x.rank ≤ y.rank))) && inOrder333 rest (i + 1)
/-- The section's tag verifies: in the model, when its bytes are those that sealing the retained payload gives (log 6). -/
def RawSection.verifies (x : RawSection) (kept : Option Section) (header : List Byte) (key : BitVec 256) (n : Nat) : Bool :=
  match kept with
  | none => false
  | some k =>
    let d := k.descriptor x.index false
    x.kind == k.kind && x.sub == k.sub && x.holder == k.holder && x.body == Config.gcmSeal key (ivOf n x.index) (header ++ d) k.payload &&
      x.tag == bytesOf 16 (Config.gcmTag key (ivOf n x.index) (header ++ d) k.payload).toNat
/-- The header and the descriptors of a frame within R334 and R333 (R344, order 2). -/
def frameShapeOk (hid : Nat) (hb : List Byte) (heads : List SecHead) (all : Bool) : Bool :=
  let v := natOfBytes hb
  bits v 0 16 == 0x10 && bits v 16 8 == 1 && bits v 25 7 == 0 && bits v 32 32 == hid && bits v 288 736 == 0 &&
    heads.all SecHead.ok && inOrder333 heads 0 &&
    (!all || 128 + (heads.map SecHead.padded).foldl (fun a b => a + b) 0 == bits v 192 64)
/-- Every section that could be read has a tag that verifies. -/
def tagsOk (f : Frozen) (read : List (Option RawSection)) (hb : List Byte) (key : BitVec 256) (n : Nat) : Bool :=
  read.length == f.sections.length && read.all (fun o => match o with
    | none => true
    | some y => y.verifies f.sections[y.index]? hb key n)
/-- The checks of R344 but the last, in their order: the RESULT of the first that fails, else the sections. What cannot be read
fails no check before the fifth. -/
def State.frameCheck (s : State) (hid va : Nat) (f : Frozen) : Except Nat (List RawSection) :=
  let h := s.household hid
  let x := s.queue h.queue
  if h.secured && h.hsk.isNone then .error 7
  else
    match s.getBytes hid va 128 with
    | .error _ => .error 6
    | .ok hb =>
      let v := natOfBytes hb
      let heads := s.readHeads hid (va + 128) (bits v 256 32)
      if !frameShapeOk hid hb heads.1 heads.2 then .error 3
      else if bits v 64 64 != x.savecnt then .error 1
      else if bit v 24 != h.secured then .error 2
      else
        let read := heads.1.map (s.readSection hid)
        let tags : Bool := match (if h.secured then h.hsk else none) with
          | none => true
          | some key => !heads.2 || tagsOk f read hb key x.savecnt
        if !tags then .error 2
        else if !heads.2 || read.any Option.isNone then .error 6
        else .ok (read.filterMap id)

/-! ### What a plain frame's bytes give (R335 to R338) -/

/-- A field of n bytes at an offset of a payload. -/
def field (bs : List Byte) (off n : Nat) : Nat := natOfBytes ((bs.drop off).take n)
/-- The view in a lineage entry's 48 bytes (R261). -/
def View.ofEntry (bs : List Byte) : View :=
  let f := field bs
  let axes (n : Nat) : List Nat := (List.range 4).map (fun a => bits n (16 * a) 16)
  { typ := bits (f 1 1) 0 4, nax := bits (f 1 1) 4 2 + 1, base := bits (f 12 4) 0 23, window := bit (f 12 4) 23, home := bits (f 12 4) 24 8,
    org := axes (f 16 8), ext := axes (f 24 8), dims := axes (f 32 8) }
/-- A handle register as its 64 bytes hold it; an Empty one is at reset. -/
def HReg.ofBytes (bs : List Byte) : HReg :=
  let v : HVal := HVal.unpack (field bs 8 8)
  let w : View := View.ofEntry (bs.drop 16)
  match field bs 0 1 with
  | 1 => { st := .vacant, val := v, view := w }
  | 2 => { st := .live, val := v, view := w }
  | 3 => { st := .pending, val := v, view := w }
  | _ => HReg.reset
/-- A pending fixed write as its 136 bytes hold it. -/
def FixedW.ofBytes (bs : List Byte) : FixedW :=
  let n := field bs 0 2
  { reg := match n / 4096 with
      | 1 => .s (n % 64)
      | 2 => .v (n % 64)
      | _ => .p (n % 64),
    rem := field bs 2 1, val := field bs 8 128 }
/-- A lineage entry as its 48 bytes hold it, Frozen. -/
def LEntry.ofBytes (e : LEntry) (bs : List Byte) : LEntry :=
  let f := field bs
  { e with st := .frozen (bits (f 0 1) 0 3), side := bit (f 0 1) 3, root := bit (f 0 1) 4, parent := f 2 2, child0 := f 4 2, child1 := f 6 2,
           ownTask := bits (f 8 4) 0 20, ownCtx := bits (f 8 4) 20 4, ownReg := bits (f 8 4) 24 4, infl := bit (f 8 4) 31,
           view := View.ofEntry bs, wout := f 40 2 }
/-- A group as its record of 64 bytes holds it, Frozen (R338). -/
def CGroup.ofRecord (g : CGroup) (bs : List Byte) : CGroup :=
  let f := field bs
  { g with sum := f 8 8, adds := f 16 8, drift := f 24 8, scrubs := f 32 4, spills := f 36 4, gaddr := f 40 4, st := .frozen (f 44 1),
           wrote := if f 44 1 = 4 then f 48 4 else g.wrote, sinceScrub := f 52 4 }
/-- Records of n bytes one after another. -/
def chunks (n count : Nat) (bs : List Byte) : List (List Byte) := (List.range count).map (fun i => (bs.drop (n * i)).take n)
/-- A directory section's entries (R338, R349), stubs or not, by task. -/
def dirOf (hid : Nat) (stub : Bool) (bs : List Byte) : Table Nat :=
  (chunks 8 352 bs).foldl (fun t e =>
    let m := field e 6 1
    if field e 7 1 = 0 || bit m 7 != stub then t else tput t (dirKey hid (field e 0 4)) (coreIn (field e 4 2) (m % 128))) []
/-- The token that a byte names, of the stream of the one that stood there. -/
def tokLike (old : Option TokRef) (n : Nat) : TokRef :=
  match old with
  | some (.t _) => .t n
  | _ => .k n
/-- A waiting cistern request as its 16 bytes hold it (R338). -/
def CReq.ofBytes (q : CReq) (bs : List Byte) : CReq :=
  let f := field bs
  { q with op := f 0 1, ctx := f 1 1, core := f 2 2, row := f 4 1, sel := f 5 1, seg := f 6 2,
           tok := q.tok.map (fun _ => tokLike q.tok (f 8 1)), d := f 9 1,
           pc := 8 * f 10 2, arrive := q.arrive / 2 ^ 32 * 2 ^ 32 + f 12 4 }
/-- An inbox slot of 40 bytes (R336): an entry that stood there keeps the snapshot that it carries. -/
def Entry.ofSlot (l : List Entry) (bs : List Byte) : Entry :=
  let n := field bs 34 4
  let e := Entry.ofBox (field bs 0 32)
  let old := l.find? (fun x => x.no == n)
  { e with b1 := field bs 1 1, ctxTo := field bs 32 1, no := n, placed := (old.map (fun x => x.placed)).getD 0,
           fromCore := (old.map (fun x => x.fromCore)).getD 0, fromCtx := (old.map (fun x => x.fromCtx)).getD 0,
           know := (old.map (fun x => x.know)).getD [] }
/-- A deferred entry of 16 bytes (R336), with the message that it answers. -/
def Deferred.ofBytes (l : List Deferred) (i : Nat) (bs : List Byte) : Deferred :=
  let f := field bs
  { op := f 0 1 - 1, ctx := f 1 1 % 16, addr := f 4 4, tok := tokLike ((l[i]?).map (fun e => e.tok)) (f 10 1 % 16), d := f 11 1,
    msg := (l[i]?).bind (fun e => e.msg) }
/-- A slot of the command queue (R336). -/
def MCmd.ofSlot (old : Option MCmd) (bs : List Byte) : MCmd :=
  let n := field bs 0 4
  let c := if bit n 31 then { MCmd.ofBytes 0 with zero := true, acc := n % 8 } else MCmd.ofBytes (field bs 0 64)
  { c with tok := old.bind (fun o => o.tok), pc := (old.map (fun o => o.pc)).getD 0, issued := (old.map (fun o => o.issued)).getD 0 }
/-- The repetition buffer of 128 bytes (R336). -/
def CoreSt.ofRb (x : CoreSt) (bs : List Byte) : CoreSt :=
  let f := field bs
  let n := f 67 1
  let sw : Bool := match x.rbSt with
    | .replaying _ _ _ _ _ sw => sw
    | _ => false
  { x with rb := (chunks 4 n bs).map (fun w => BitVec.ofNat 32 (natOfBytes w)),
           rbSt := match f 64 1 with
             | 1 => .recording (f 65 1) (f 70 2 - n)
             | 2 => .replaying (f 65 1) (f 68 2) (f 70 2) (f 66 1) (BitVec.ofNat 64 (f 72 8)) sw
             | _ => .idle }
/-- A held request of 16 bytes (R336): its address and the low half of its operand. -/
def HeldAmo.ofBytes (a : HeldAmo) (bs : List Byte) : HeldAmo :=
  { a with ctx := field bs 1 1, core := field bs 2 2, seq := field bs 4 2, addr := field bs 8 4, b := a.b / 2 ^ 32 * 2 ^ 32 + field bs 12 4 }
/-- A late-queue entry of 16 bytes (R335). -/
def LateReport.ofBytes (r : LateReport) (bs : List Byte) : LateReport :=
  let n := field bs 0 8
  let cause := field bs 8 1
  let low (old : Nat) : Nat := old / 2 ^ 32 * 2 ^ 32 + bits n 0 32
  let r := { r with cause := cause, sub := field bs 9 1 }
  match cause with
  | 18 => { r with tag := r.tag / 16 * 16 + bits n 32 4, addr := low r.addr }
  | 28 => { r with seq := bits n 48 16, rkind := bits n 32 4, addr := bits n 0 24 }
  | _ =>
    let r := { r with seq := bits n 48 16, reason := bits n 40 8, rkind := bits n 32 4 }
    if r.rkind = 10 then { r with tag := low r.tag } else { r with addr := low r.addr }
def LateReport.blank : LateReport := { cause := 0, sub := 0, seq := 0, reason := 0, rkind := 0, addr := 0, tag := 0, gts := 0 }
/-- An operation as its section holds it (R339): block, rows done, the elements done in the rows behind them, and those whose write it
holds. -/
def SOp.ofSection (op : SOp) (bs : List Byte) : SOp :=
  let f := field bs
  let op := { op with blk := Block.ofNat (f 0 64), wm := f 72 8, done := 0, read := [] }
  let n := (op.blk.rowb + 63) / 64
  let held := (chunks 192 ((bs.length - 128 - 8 * n) / 192) (bs.drop (128 + 8 * n))).filter (fun r => field r 5 1 == 10)
  let read := held.foldl (fun t r => tput t (field r 18 8) (field r 26 op.unit)) []
  let set (r j : Nat) : Bool := bit (field bs (128 + n * r + j * op.unit / 64) 1) (j * op.unit / 8 % 8)
  let done := (List.range 8).foldl (fun d r => (List.range op.rowSteps).foldl (fun d j =>
    if set r j && (tfind read ((op.wm + r) * op.rowSteps + j)).isNone then d ||| 2 ^ (r * op.rowSteps + j) else d) d) 0
  { op with read := if op.kind == .col then [] else read, done := done }
/-- What a cluster's section gives (R338): counters, groups, waiting requests, lineage, directory. The first requests are those that
hold groups. -/
def Cluster.ofSection (k : Cluster) (hid : Nat) (bs : List Byte) : Cluster :=
  let counters := (List.range 256).foldl (fun t i =>
    let n := field bs (4 * i) 4
    if n = 0 then tdel t i else tput t i n) k.counters
  let n := (k.groups.filterMap (fun g => g.2.holder)).length
  let req (i : Nat) (q : CReq) : CReq := q.ofBytes ((bs.drop (5376 + 16 * i)).take 16)
  let reqs (from_ : Nat) (l : List CReq) : List CReq := (l.zip (List.range l.length)).map (fun p => req (from_ + p.2) p.1)
  { k with counters := counters, addQ := reqs n k.addQ, tapQ := reqs (n + k.addQ.length) k.tapQ, dir := dirOf hid false (bs.drop 62720),
           stubs := dirOf hid true (bs.drop 62720),
           groups := k.groups.map (fun g => if g.2.st == .undeclared then g else (g.1, g.2.ofRecord ((bs.drop (1280 + 64 * g.1)).take 64))),
           lineage := k.lineage.map (fun e => (e.1, e.2.ofBytes ((bs.drop (13568 + 48 * e.1)).take 48))) }
/-- A context's registers as its section holds them (R335). -/
def Ctx.ofSection (c : Ctx) (bs : List Byte) : Ctx :=
  let f := field bs
  let npf := bits (f 8 8) 16 8
  let c := (List.range 31).foldl (fun c i => c.writeReg (.s (i + 1)) (f (32 + 8 * (i + 1)) 8)) c
  let c := (List.range 7).foldl (fun c i => c.writeReg (.p (i + 1)) (f (288 + 4 * (i + 1)) 4)) c
  let c := (List.range 16).foldl (fun c i => c.setTok (.k i) (f (320 + i) 1)) c
  let c := (List.range 4).foldl (fun c i => c.setTok (.t i) (f (336 + i) 1)) c
  let c := (List.range c.quota).foldl (fun c i => c.writeReg (.v i) (f (1536 + 136 * npf + 128 * i) 128)) c
  let c := (List.range 16).foldl (fun c i => c.setHandle i (HReg.ofBytes ((bs.drop (512 + 64 * i)).take 64))) c
  let fixed := (List.range npf).map (fun i => FixedW.ofBytes ((bs.drop (1536 + 136 * i)).take 136))
  let w (i : Nat) : Word := BitVec.ofNat 64 (f (360 + 8 * i) 8)
  let late := bs.drop (1536 + 136 * npf + 128 * c.quota)
  let lateQ := ((chunks 16 (f 448 1) late).zip (List.range (f 448 1))).map (fun p => ((c.lateQ[p.2]?).getD LateReport.blank).ofBytes p.1)
  { c with pc := BitVec.ofNat 64 (f 0 8), fixed := fixed, parked := bits (f 8 8) 0 4 == 4, lateQ := lateQ, lost := f 449 1,
           dlyRem := bits (f 8 8) 10 6, inh := bit (f 8 8) 8, ovh := wfld (w 2) 32 16, bound := wfld (w 2) 8 11, scnt := wfld (w 3) 32 32,
           susp := (w 3).getLsbD 2, uw := (w 3).getLsbD 0, ltk := wfld (w 4) 4 4, uwtrap := (w 4).getLsbD 0, epc := w 6, ecause := w 7,
           einfo := w 8, upcall := w 9, rqseq := w 10 }
/-- A page's bytes and FE bits (R337). -/
def CoreSt.ofPage (x : CoreSt) (p : Nat) (bs : List Byte) : CoreSt :=
  let fe := field bs 4096 64
  let empty := ((List.range 512).filter (fun i => !fe.testBit i)).map (fun i => 512 * p + i)
  { x with ls := x.ls.writeBytes (4096 * p) (bs.take 4096), pages := x.pages ||| 2 ^ p,
           feEmpty := sortNat (x.feEmpty.filter (fun w => w / 512 != p) ++ empty) }
/-- The parts of a core section that its bytes give (R336). -/
def CoreSt.ofSection (x : CoreSt) (bs : List Byte) : CoreSt :=
  let f := field bs
  let row (t : Table VReg) (i : Nat) : Table VReg :=
    let v := BitVec.ofNat 1024 (f (4608 + 128 * i) 128)
    if v = 0 then tdel t i else tput t i v
  let used (l : List (List Byte)) : List (List Byte) := l.filter (fun b => b.any (fun y => y != 0))
  let inbox := (chunks 40 64 (bs.drop 256)).filter (fun b => field b 33 1 != 0)
  let defer_ := used (chunks 16 32 (bs.drop 2816))
  let old := (x.mrun.map (fun r => r.cmd)).toList ++ x.mq
  let cmds := used (chunks 64 16 (bs.drop 3584))
  let queue := (cmds.zip (List.range cmds.length)).map (fun p => MCmd.ofSlot old[p.2]? p.1)
  let work := (chunks 128 64 (bs.drop 70144)).map (fun v => BitVec.ofNat 1024 (natOfBytes v))
  let owner := f 0 1
  let x := x.ofRb (bs.drop 3328)
  let quota (n : Nat) (c : Ctx) : Ctx := if n ≠ 0 && c.live then { c with quota := f (79 + n) 1 } else c
  { x with mowner := if owner = 255 then none else some owner, arrNo := f 96 8,
           mlds := match x.mlds with
             | l :: rest => { l with src := f 24 4, dst := f 28 4, wrote := f 32 2 } :: rest
             | [] => [],
           inbox := inbox.map (Entry.ofSlot x.inbox), deferred := (defer_.zip (List.range defer_.length)).map (fun p => Deferred.ofBytes x.deferred p.2 p.1),
           mrun := x.mrun.map (fun r => { r with cmd := queue.headD r.cmd, steps := f 20 4, work := work }),
           mq := (if x.mrun.isSome then queue.drop 1 else queue) ++ old.drop 16, ctxs := Vector.ofFn (fun i => quota i.val (x.ctx i.val)),
           heldAmos := (x.heldAmos.zip (List.range x.heldAmos.length)).map (fun p => p.1.ofBytes ((bs.drop (78336 + 16 * p.2)).take 16)),
           chunkIdx := (List.range 8).foldl (fun v i => v.setIfInBounds i (f (4 + 2 * i) 2)) x.chunkIdx, mfa := f 40 8, mfb := f 48 8,
           msa := f 56 8, msb := f 64 8, xpl := f 72 8, planPhase := f 90 2, tiles := (List.range 512).foldl row x.tiles }
/-- A cistern group from its image (R250). -/
def Cluster.ofImage (k : Cluster) (row : Nat) (bs : List Byte) : Cluster :=
  let n := (bs.length - 128) / 5
  let k := (List.range n).foldl (fun k e => k.setElem row e (field bs (64 + 5 * e) 5)) k
  { k with groups := k.groups.map (fun g => if g.1 = row then (g.1, { g.2 with sum := field bs 16 8, adds := field bs 24 8 }) else g) }
/-- ARR of the contexts of a cluster's cores, as the cluster's section holds it (R338). -/
def CoreSt.ofBarrier (x : CoreSt) (core : Nat) (bs : List Byte) : CoreSt :=
  { x with ctxs := Vector.ofFn (fun i => { x.ctx i.val with arr := (x.ctx i.val).live && bit (field bs (1024 + 16 * memberOf core + i.val) 1) 3 }) }
/-- What the household section gives (R340): Fens, groups, placement table. -/
def Frozen.ofHousehold (f : Frozen) (bs : List Byte) : Frozen :=
  let nf := field bs 2 2
  let ng := field bs 4 4
  let fens := (f.fens.zip (chunks 8 nf (bs.drop 64))).map (fun p =>
    let g := field p.2
    (p.1.1, { p.1.2 with ident := g 0 1, cx := g 1 1, cy := g 2 1, w := g 3 1, h := g 4 1 }))
  let groups := (f.groups.zip (chunks 192 ng (bs.drop (64 + 8 * nf)))).map (fun p =>
    let g := field (p.2.drop 128)
    { p.1 with ox := g 1 1, oy := g 2 1, readyGts := g 8 8, start := g 16 8, charge := g 24 4 })
  let place := (chunks 8 (field bs 8 4) (bs.drop (64 + 8 * nf + 192 * ng))).map (fun e =>
    let t := field e 0 4
    (t, ((tget f.place (0, 0) t).1, coreIn (field e 4 2) (field e 6 1))))
  { f with fens := fens, groups := groups, place := place }
/-- The saved state with what one section's bytes say; a sluice record's message is taken as it was caught (log 7). -/
def Frozen.overlay (f : Frozen) (x : RawSection) : Frozen :=
  let onCore (g : CoreSt → CoreSt) : Frozen := { f with cores := f.cores.map (fun c => if c.1 = x.holder then (c.1, g c.2) else c) }
  let onCl (g : Cluster → Cluster) : Frozen := { f with clusters := f.clusters.map (fun c => if c.1 = x.holder then (c.1, g c.2) else c) }
  match x.kind with
  | 1 => onCore (fun c => c.setCtx x.sub ((c.ctx x.sub).ofSection x.body))
  | 2 => onCore (fun c => c.ofSection x.body)
  | 3 => onCore (fun c => c.ofPage x.sub x.body)
  | 4 => onCore (fun c => { c with b := c.b.writeBytes (65536 * x.sub) x.body, units := c.units ||| 2 ^ x.sub })
  | 5 =>
    let f := onCl (fun k => k.ofSection f.hid x.body)
    { f with cores := f.cores.map (fun c => if clusterOf c.1 = x.holder then (c.1, c.2.ofBarrier c.1 x.body) else c) }
  | 6 => onCl (fun k => k.ofImage x.sub x.body)
  | 7 =>
    let n := field x.body 64 4
    { f with ops := f.ops.map (fun o =>
        if o.2.owner = x.holder && o.2.seq == field x.body 68 2 && o.2.src.task == n % 2 ^ 20 && o.2.src.ctx == bits n 20 4 then
          (o.1, o.2.ofSection x.body)
        else o) }
  | 8 => f.ofHousehold x.body
  | _ => f

/-! ### Placing the Fens and the groups (R345) -/

/-- A rectangle of the module that no Fen of a list meets. -/
def rectFree (used : List Fen) (cx cy w h : Nat) : Bool := !(used.any (fun f => f.meets cx cy w h))
/-- Where a saved Fen goes: its saved position, else the first free rectangle in ascending CY, then CX. -/
def placeFen (used : List Fen) (f : Fen) : Option Fen :=
  if rectFree used f.cx f.cy f.w f.h then some f
  else
    let all := (List.range (17 - f.h)).flatMap (fun y => (List.range (21 - f.w)).map (fun x => (x, y)))
    (all.find? (fun p => rectFree used p.1 p.2 f.w f.h)).map (fun p => { f with cx := p.1, cy := p.2 })
/-- Every saved Fen, in index order; none when one finds no room. -/
def placeFens (used : List Fen) (l : Table Fen) : Option (Table Fen) :=
  match l with
  | [] => some []
  | (i, f) :: rest =>
    match placeFen used f with
    | none => none
    | some g => (placeFens (g :: used) rest).map (fun r => (i, g) :: r)
/-- The move of Fens: every cluster by its Fen's offset. -/
def fenMove (old new : Table Fen) : Move :=
  old.foldl (fun m p =>
    match tfind new p.1 with
    | none => m
    | some g => (List.range p.2.h).foldl (fun m y => (List.range p.2.w).foldl (fun m x =>
        tput m (clAt (p.2.cx + x) (p.2.cy + y)) (clAt (g.cx + x) (g.cy + y))) m) m) []
/-- Groups in ascending ticket order. -/
def insertTicket (g : Group) (l : List Group) : List Group :=
  match l with
  | [] => [g]
  | h :: rest => if ticketBefore g.ticket h.ticket then g :: h :: rest else h :: insertTicket g rest
/-- The groups of a compacting restore at FirstFit, budget ignored; none when one finds no place. -/
def State.compactGroups (s : State) (q : Nat) (l : List Group) : Option (List Group) :=
  match l with
  | [] => some []
  | g :: rest =>
    match s.firstFit g (s.holders.flatMap s.groupClusters) true with
    | none => none
    | some o =>
      let g := g.at_ o
      ((s.onQueue q (fun x => { x with groups := x.groups ++ [g] })).compactGroups q rest).map (fun r => g :: r)
/-- The move of a group's clusters. -/
def groupMove (old new : Table Fen) (m : Move) (a b : Group) : Move :=
  match tfind old a.desc.fidx, tfind new b.desc.fidx with
  | some f, some g =>
    (List.range a.desc.h).foldl (fun m y => (List.range a.desc.w).foldl (fun m x =>
      tput m (clAt (f.cx + a.ox + x) (f.cy + a.oy + y)) (clAt (g.cx + b.ox + x) (g.cy + b.oy + y))) m) m
  | _, _ => m
/-- The stub of a moved task at the cluster that stands at its old place (R349). -/
def State.stubMoved (s : State) (hid : Nat) (m m0 : Move) (p : Nat × (Nat × Nat)) : State :=
  let old := p.2.2
  if m.core old = m0.core old then s
  else s.onCluster (m0.cl (clusterOf old)) (fun k => { k with stubs := tput k.stubs (dirKey hid p.1) (m.core old) })

/-! ### Restore and resume (R344 to R347) -/

/-- A core as a restore leaves it: the replay modes of its queue (R467), no record of deliveries (R439). -/
def CoreSt.restored (x : CoreSt) (det : Nat) : CoreSt := { x with det := det, last := [], held := [] }
/-- An owed step that brings a caught message on: it happens while the household is loaded (R346). -/
def State.broughtIn (s : State) (busy : List Nat) (d : Due) : Bool :=
  match d.ev with
  | .step e =>
    e.brings && (match e with
      | .remoteRequestPerform id => ((tfind s.bag id).map (fun m => m.inRouter (busy.contains id))).getD true
      | .takeRetry _ => false
      | .boxWrite _ => false
      | .orderRestoreDeliver _ => false
      | _ => true)
  | _ => false
/-- A caught message goes on: one under way is re-injected, the effect of another falls where it was going. -/
def State.bringIn (s : State) (d : Due) : State :=
  match d.ev with
  | .step e =>
    match e.owner with
    | .msg id =>
      match tfind s.bag id with
      | some m => if m.st == .going then s.soon (.reinject id) else s.soon e
      | none => s
    | _ => s
  | _ => s
/-- The household's state loaded into its holders, its caught messages re-injected (R346). -/
def State.load (s : State) (q hid : Nat) (f : Frozen) : State :=
  let det := (s.queue q).detctl
  let bag : Table Msg := f.bag.map (fun m => (m.1, { m.2 with prev := none }))
  let f := { f with cores := f.cores.map (fun x => (x.1, x.2.restored det)), bag := bag,
                    groups := f.groups.map (fun g => { g with det := det }) }
  let s := s.putBack f
  let held := (f.cores.flatMap (fun x => x.2.held)).map (fun id => Due.mk 0 (.step (.routerReceive id)))
  let busy := regionIds f.cores
  let moving := held ++ f.due.filter (s.broughtIn busy)
  let rest := f.due.filter (fun d => !s.broughtIn busy d)
  let s := s.onHousehold hid (fun h => { h with slept := rest, frozen := none, resumeAt := none })
  (moving.foldl State.bringIn s).soon (.restoreResume hid)
/-- `SWCMD_RESTORE` (R325, R344, R345). -/
def execSwcmdRestore (q : Nat) (val : BitVec 64) (s : State) : Host.Outcome State Fault Refusal :=
  let x := s.queue q
  match x.hid with
  | none => .next (s.swResult q 4)
  | some hid =>
    if x.swState != 2 || x.killed then .next (s.swResult q 4)
    else if s.vaBusy hid x.swva then .next (s.stepAt (s.gts + 1) (.swcmdRestore q val))
    else
      match (s.household hid).frozen with
      | none => .next (s.swResult q 7)
      | some f =>
        match s.frameCheck hid x.swva f with
        | .error r =>
          let sealed_ : Bool := ((s.getBytes hid x.swva 4).toOption.map (fun b => bit (natOfBytes b) 24)).getD false
          let s := if r = 2 && sealed_ && (s.household hid).secured then s.tagFail hid else s
          .next (s.swResult q r)
        | .ok l =>
          let s := s.touchVa hid x.swva (l.foldl (fun n y => n + (48 + y.body.length + 127) / 128 * 128) 128)
          let f := if (s.household hid).secured then f else l.foldl Frozen.overlay f
          match placeFens s.allFens f.fens with
          | none => .next (s.swResult q 5)
          | some fens =>
            let m0 := fenMove f.fens fens
            let groups := f.groups.foldr insertTicket []
            let placed := if bit val.toNat 3 then
                (s.onHousehold hid (fun h => { h with fens := fens })).compactGroups q groups
              else some groups
            match placed with
            | none => .next (s.swResult q 5)
            | some gs =>
              let m := (groups.zip gs).foldl (fun m p => groupMove f.fens fens m p.1 p.2) m0
              let g := { f.move m m0 with fens := fens }
              let place (a : Group) : Group := match gs.find? (fun b => b.ticket == a.ticket) with
                | some b => { a with ox := b.ox, oy := b.oy }
                | none => a
              let g := { g with groups := g.groups.map place }
              let s := s.onQueue q (fun x => { x with swState := 3, frameVa := x.swva })
              let s := s.load q hid g
              .next (f.place.foldl (fun s p => s.stubMoved hid m m0 p) s)
/-- The lines of a request are held by a region that goes on only after the resume. -/
def State.regionHolds (s : State) (id : Nat) (m : Msg) : Bool :=
  match m.dst with
  | .core home => m.delivered && m.body.addrs.any (fun a => (s.coreOf home).regions.any (fun r => r.2.1 != id && homeOff a / 128 == r.1 / 128))
  | _ => false
/-- A re-injected message that waits, at its home, for a step that the household takes only after its resume: for the end of
a region, or for an entry that has not departed. It stands where it waits (log 32). -/
def State.waitsOver (s : State) (fuel id : Nat) (m : Msg) : Bool :=
  match fuel with
  | 0 => false
  | k + 1 =>
    s.regionHolds id m || s.bag.any (fun p => p.1 < id && p.2.src == m.src && p.2.st == .going &&
      (p.2.precedes m || (p.2.remote && m.behind.contains p.2.seq)) &&
      ((match p.2.dst with
        | .task _ _ => true
        | _ => false) || s.waitsOver k p.1 p.2))
/-- A message has been placed or performed, or waits for what comes after the resume. -/
def State.inPlace (s : State) (id : Nat) (m : Msg) : Bool :=
  m.st != .going || m.app.isSome || (m.delivered && !m.unperformed) || s.waitsOver 16 id m
/-- `REINJECT` (R346): a message enters at the router that stands where it was caught, once those of its source to its
destination with lower sequence numbers are in place. -/
def execReinject (id : Nat) (s : State) : Host.Outcome State Fault Refusal :=
  match tfind s.bag id with
  | none => .next s
  | some m =>
    let ahead := s.bag.any (fun o => o.1 != id && o.2.src == m.src && o.2.dst == m.dst &&
      decide ((m.seq + 65536 - o.2.seq) % 65536 < 32768 ∧ o.2.seq ≠ m.seq) && !s.inPlace o.1 o.2)
    if ahead then .next (s.soon (.reinject id))
    else .next ((s.onMsg id (fun m => { m with caught := false })).soon (.routerReceive id))
/-- Every caught message is in place. -/
def State.allPlaced (s : State) (hid : Nat) : Bool :=
  let there (id : Nat) : Bool := ((tfind s.bag id).map (fun m => !m.caught && m.st == .going && s.waitsOver 16 id m)).getD false
  let owes (e : Event) : Bool := s.ownerHid e.owner == some hid && (match e with
    | .remoteRequestPerform id => !there id
    | .routerReceive id => !there id
    | e => e.brings)
  let reinjects := s.due.any (fun d => match d.ev with
    | .step (.reinject id) => ((tfind s.bag id).map (fun m => m.src.hid)) == some hid
    | .step e => owes e
    | _ => false)
  !reinjects && !(s.agenda.any (fun e => owes e || (match e with
    | .reinject id => ((tfind s.bag id).map (fun m => m.src.hid)) == some hid
    | _ => false)))
/-- `RESTORE_RESUME` (R327, R346, R393): R is 96 cycles after everything is in place; an armed save and a kill that waited
take their GTS. -/
def execRestoreResume (hid : Nat) (s : State) : Host.Outcome State Fault Refusal :=
  let h := s.household hid
  let q := h.queue
  let x := s.queue q
  if x.swState != 3 then .next s
  else
    match h.resumeAt with
    | none =>
      if s.allPlaced hid then
        .next ((s.onHousehold hid (fun h => { h with resumeAt := some (s.gts + 96) })).stepAt (s.gts + 96) (.restoreResume hid))
      else .next (s.soon (.restoreResume hid))
    | some r =>
      if !s.isAt r then .next s
      else
        let s := (s.wake hid).onQueue q (fun x => { x with swState := 0, resgts := r, swResult := 0 })
        let s := match x.swArm, x.stop with
          | true, .at_ w => s.armStop q hid (max w (r + 1))
          | true, .rel n => s.armStop q hid (r + 1 + n)
          | _, _ => s
        .next (match x.killStop with
          | .at_ k => if k ≤ r then (s.onQueue q (fun x => { x with killStop := .at_ (r + 1) })).stepAt (r + 1) (.killStop hid) else s
          | _ => s)

end Sys2Proof.Machine
end

