-- ==== Sys2Proof/Machine/Peats.lean ====
section
/-! DEFINITION. Peats: the kill (R390 to R394), labels (R396 to R400), the well and the image (R401 to R406), the four peat
instructions (R407 to R412, R414) and revival (R413). -/
namespace Sys2Proof.Machine

/-! ### The kill (R390, R391, R393) -/

/-- `KILL` (R391): REL in bit 63, bit 62 zero, WHEN below; refused when a kill is armed or made. STATE is 1 while a kill with
REL = 1 waits for a dispatch, and 2 once the kill is fixed (R392, log 23). -/
def execKill (q : Nat) (val : BitVec 64) (s : State) : Host.Outcome State Fault Refusal :=
  let x := s.queue q
  let v := val.toNat
  let result (n : Nat) : State := s.onQueue q (fun x => { x with peatResult := n })
  if bit v 62 then .next (result 3)
  else
    match x.hid with
    | none => .next (result 4)
    | some hid =>
      if x.peatState != 0 || !(s.household hid).alive then .next (result 4)
      else if bit v 63 then .next (s.onQueue q (fun x => { x with killRel := some (v % 2 ^ 62, none), peatState := 1 }))
      else .next (s.armKill hid (max v (s.gts + 4096)) 256)
/-- `WARM_RESET` (R390): a kill of every household. -/
def execWarmReset (s : State) : Host.Outcome State Fault Refusal :=
  .next ((s.households.filter (fun h => h.2.alive)).foldl (fun s h => s.armKill h.1 (s.gts + 4096) 259) s)
/-- Without its region key what the household's pages of HBM hold cannot be read (R358): a read decrypts to values that nothing fixes. -/
def State.scramble (s : State) (hid : Nat) : State :=
  (s.pa.filter (fun c => isHbm c.1 && tableMaps s.pa [0, 1, 2, 3] (s.household hid).root c.1)).foldl (fun s c =>
    let v := s.choose 256
    let p : Place := .device c.1
    (v.2.touchPlace none p v.1).setPlace p (BitVec.ofNat 8 v.1)) s
/-- HSK, PK and the region key of a household are erased, SAVECNT with them (R343), and the key of the peat that it has formed
(R405). -/
def State.eraseKeys (s : State) (hid : Nat) : State :=
  let q := (s.household hid).queue
  let n := (s.queue q).peat
  let s := if (s.household hid).region.isSome then s.scramble hid else s
  let s := s.onHousehold hid (fun h => { h with hsk := none, pk := none, region := none, eraseAt := none })
  { s.onQueue q (fun x => { x with savecnt := 0 }) with
    peats := s.peats.map (fun (p : Nat × Peat) => if p.1 = n && p.2.hid == hid then (p.1, { p.2 with pk := none }) else p) }
/-- The keys that go in the cycle that follows by 4,096 the one in which a TDI left RUN (R358, R405). -/
def State.eraseDue (s : State) (hid : Nat) : State :=
  match (s.household hid).eraseAt with
  | some g => if g ≤ s.gts then s.eraseKeys hid else s
  | none => s
/-- A group that holds no cluster at the stop ends with STATUS 4 (R394). -/
def State.endWaiting (s : State) (q : Nat) : State :=
  let x := s.queue q
  (x.groups.filter (fun g => g.st == .waiting || g.st == .ready)).foldl (fun s g =>
    ((s.dropGroup q g.ticket).finish q g.ticket 4).record q 0 (groupRecord 4 x.killReason g.ticket 0 0 0 0 0) none) s
/-- `KILL_STOP` (R393, R394): at the start of cycle K. A household that a switch has stopped is not stopped again; a restore in
progress makes the kill wait. -/
def execKillStop (hid : Nat) (s : State) : Host.Outcome State Fault Refusal :=
  let s := s.eraseDue hid
  let q := (s.household hid).queue
  let x := s.queue q
  if x.killed || !x.killStop.now s || !(s.household hid).alive then .next s
  else
    if x.swState = 3 then .next s
    else
      let s := if x.swState = 0 then s.sleep hid else s
      let equal : Bool := x.stop.now s
      let s := s.onQueue q (fun x =>
        { x with killed := true, killStop := .none, killRel := none, peatState := 2, revives := [], swArm := false, stop := .none,
                 swResult := if x.swArm && !equal then 4 else x.swResult })
      .next (((s.endWaiting q).stepAt (s.gts + 64) (.sluiceClose hid)).stepAt (s.gts + 128) (.peatAllocate hid))

/-! ### Labels (R396 to R400) -/

/-- A label entry (R404): section, item, label, cause, sequence number, detail. -/
abbrev LabelEntry := Nat × Nat × Nat × Nat × Nat × Nat
/-- An entry put in its place by INDEX and ITEM; of two on one item the higher label stands. -/
def insertLabel (e : LabelEntry) (l : List LabelEntry) : List LabelEntry :=
  match l with
  | [] => [e]
  | x :: rest =>
    if e.1 < x.1 || (e.1 == x.1 && decide (e.2.1 < x.2.1)) then e :: x :: rest
    else if e.1 == x.1 && e.2.1 == x.2.1 then (if x.2.2.1 < e.2.2.1 then e :: rest else x :: rest)
    else x :: insertLabel e rest
/-- INDEX of a section in the peat: its place in the frame behind the two sections of R403. -/
def secIndex (l : List Section) (kind sub holder : Nat) : Option Nat :=
  (l.findIdx? (fun x => x.kind == kind && x.sub == sub && x.holder == holder)).map (fun i => i + 2)
/-- A label on an item of a section, when the section exists. -/
def labelAt (l : List Section) (kind sub holder item label cause seq detail : Nat) : List LabelEntry :=
  match secIndex l kind sub holder with
  | some i => [(i, item, label, cause, seq, detail)]
  | none => []
/-- A line of a local store. -/
def labelLine (l : List Section) (core a label cause seq detail : Nat) : List LabelEntry :=
  labelAt l 3 (a / 4096) core (a % 4096 / 128) label cause seq detail
/-- CAUSE 1: the line of a region part applied; DETAIL marks the 4-byte words written (R395, R404). -/
def Frozen.regionLabels (f : Frozen) (l : List Section) : List LabelEntry :=
  f.cores.flatMap (fun c => c.2.regions.flatMap (fun r =>
    match tfind f.bag r.2.1 with
    | none => []
    | some m =>
      match m.body with
      | .region _ accs =>
        if r.2.2 < accs.length then
          let words := ((accs.take r.2.2).filter (fun a => a.store)).flatMap (fun a =>
            (List.range ((a.z + 3) / 4)).map (fun j => homeOff a.addr % 128 / 4 + j))
          labelLine l c.1 r.1 1 1 m.seq (words.foldl (fun acc w => acc ||| 2 ^ w) 0)
        else []
      | _ => []))
/-- Elements of a row that are done, or whose write the section holds (R339). -/
def SOp.rowDone (op : SOp) (r : Nat) : Nat :=
  ((List.range op.rowSteps).filter (fun j => op.isDone (r * op.rowSteps + j) || op.hasRead (r * op.rowSteps + j))).length
/-- CAUSE 2: the lines that a streamer row part applied is aimed at; DETAIL is the count of its elements done. -/
def SOp.rowLabels (op : SOp) (l : List Section) : List LabelEntry :=
  if op.blk.dk != 1 && (op.kind == .get || op.kind == .gat) then
    (List.range (min 8 (op.blk.rows - op.wm))).flatMap (fun k =>
      let r := op.wm + k
      let n := op.rowDone r
      if 0 < n ∧ n < op.rowSteps then
        (List.range op.rowSteps).flatMap (fun j =>
          match op.localAt (r * op.rowSteps + j) with
          | .ls core a => labelLine l core a 1 2 op.seq n
          | _ => [])
      else [])
  else []
/-- The row of a collective's result that is being written. -/
def Frozen.collLabels (f : Frozen) (l : List Section) : List LabelEntry :=
  f.colls.flatMap (fun c =>
    let q := c.pos - c.nIn
    let e := q % c.nOut
    let n := e % c.rowW
    if c.nIn ≤ c.pos ∧ 0 < n then
      match (tfind c.ops (q / c.nOut)).bind (fun k => tfind f.ops k) with
      | some op =>
        (List.range c.rowW).flatMap (fun j =>
          match op.blk.localPlace op.src.core (e / c.rowW) (8 * j) with
          | .ls core a => labelLine l core a 1 2 op.seq n
          | _ => [])
      | none => []
    else [])
/-- The context that a request belongs to is still there. -/
def Frozen.srcThere (f : Frozen) (x : Src) : Bool :=
  let c := (tget f.cores CoreSt.reset x.core).ctx x.ctx
  c.live && c.born == x.born
/-- CAUSE 3 at the context: its token, and ORC while it counts the request. -/
def Frozen.awaits (f : Frozen) (l : List Section) (x : Src) (seq : Nat) (tok : Option TokRef) (detail : Nat) : List LabelEntry :=
  if f.srcThere x then
    (match tok with
     | some (.k n) => labelAt l 1 x.ctx x.core (41 + n) 2 3 seq detail
     | some (.t n) => labelAt l 1 x.ctx x.core (57 + n) 2 3 seq detail
     | none => []) ++
    (if ((tget f.cores CoreSt.reset x.core).ctx x.ctx).out.contains seq then labelAt l 1 x.ctx x.core 66 2 3 seq detail else [])
  else []
/-- The acknowledged bytes of an operation that writes outside the module: its watermark (R398). -/
def SOp.ackedBytes (op : SOp) : Nat := op.wm * op.blk.rowb
/-- The operations in the order of their sections. -/
def Frozen.opsOrder (f : Frozen) : List (Nat × SOp) := f.ops.foldl (fun l o => insertOp o l) []
/-- INDEX of the n-th streamer operation. -/
def opIndex (l : List Section) (n : Nat) : Option Nat := (l.findIdx? (fun x => x.kind == 7)).map (fun i => i + n + 2)
/-- The command of a message that no streamer has accepted asks for writes that leave the module (R398). -/
def State.commandLeaves (s : State) (hid : Nat) (m : Msg) : Bool :=
  m.st == .going && (match m.body with
    | .command k b idx => s.blockLeaves hid (s.ownerOf hid (b.rowVa 0 idx k)) k b idx
    | .spill _ va _ => s.leavesModule hid va
    | _ => false)
/-- CAUSE 3: writes that leave the module and are not wholly acknowledged, wherever their command stood; DETAIL is the count of
acknowledged bytes (R398, R404). -/
def Frozen.leaveLabels (f : Frozen) (s : State) (l : List Section) (caught : List (Nat × List Msg)) : List LabelEntry :=
  let ops := f.opsOrder
  ((ops.zip (List.range ops.length)).flatMap (fun p =>
    let op := p.1.2
    if s.opLeaves op && op.wm != op.blk.rows then
      (match opIndex l p.2 with
       | some i => [(i, 0, 2, 3, op.seq, op.ackedBytes)]
       | none => []) ++ f.awaits l op.src op.seq op.tok op.ackedBytes
    else [])) ++
  (f.bag.flatMap (fun m =>
    if (tfind f.ops m.1).isNone && s.commandLeaves f.hid m.2 then f.awaits l m.2.src m.2.seq m.2.tok 0 else [])) ++
  (caught.flatMap (fun r =>
    (r.2.zip (List.range r.2.length)).flatMap (fun p => if s.commandLeaves f.hid p.1 then labelAt l 9 0 r.1 p.2 2 3 p.1.seq 0 else [])))
/-- CAUSE 6: the items that a message in no holder and no router aims at (R399): its lines at its home, and, with an answer
lost, its token and ORC. -/
def Frozen.lostLabels (f : Frozen) (l : List Section) : List LabelEntry :=
  f.bag.flatMap (fun m =>
    let x := m.2
    if x.caught || x.delivered then []
    else
      (match x.dst, x.st with
       | .core home, .going => x.body.addrs.flatMap (fun a => labelLine l home (homeOff a) 2 6 x.seq x.body.rkind)
       | _, _ => []) ++
      (if f.srcThere x.src then
        (match x.tok with
         | some (.k n) => labelAt l 1 x.src.ctx x.src.core (41 + n) 2 6 x.seq x.body.rkind
         | some (.t n) => labelAt l 1 x.src.ctx x.src.core (57 + n) 2 6 x.seq x.body.rkind
         | none => []) ++ labelAt l 1 x.src.ctx x.src.core 66 2 6 x.seq x.body.rkind
      else []))
/-- CAUSE 8: a group that a `cfill` has written in part; DETAIL is the count of elements written (R397, R404). -/
def Frozen.fillLabels (f : Frozen) (l : List Section) : List LabelEntry :=
  f.clusters.flatMap (fun k => k.2.groups.flatMap (fun g =>
    if g.2.st == .frozen 4 && decide (0 < g.2.wrote ∧ g.2.wrote < 16384 * g.2.per) then
      let seq := (g.2.holder.bind (fun q => (tfind f.bag q.msg).map (fun m => m.seq))).getD 0
      labelAt l 6 g.1 k.1 0 1 8 seq g.2.wrote
    else []))
/-- CAUSE 4 and 5: the culprit's PC and state; every item of another context with a fatal fault (R399). -/
def Frozen.faultLabels (f : Frozen) (l : List Section) (culprit : Option (Nat × Nat)) : List LabelEntry :=
  f.cores.flatMap (fun c => (List.range 11).flatMap (fun i =>
    match (c.2.ctx i).fatalCause with
    | none => []
    | some cause =>
      if culprit == some (c.1, i) then labelAt l 1 i c.1 0 2 4 0 cause
      else (List.range (88 + (c.2.ctx i).quota)).flatMap (fun n => labelAt l 1 i c.1 n 2 5 0 cause) ++
        (List.range (c.2.ctx i).lateQ.length).flatMap (fun n => labelAt l 1 i c.1 (152 + n) 2 5 0 cause)))
/-- CAUSE 7: the items that hold a failed granule (R419): local store, B store, cistern, lineage, inbox, tile; behind them the
buffers of a router, which no event of R429 names. -/
def failLabels (l : List Section) (failed : List (Nat × Nat × Nat × Nat)) : List LabelEntry :=
  failed.flatMap (fun g =>
    let h := g.2.1
    let a := g.2.2.1
    match g.1 with
    | 0 => labelLine l h a 2 7 0 0
    | 1 => labelAt l 4 (a / 65536) h (a % 65536 / 64) 2 7 0 0
    | 2 =>
      match ((l.filter (fun x => x.kind == 6 && x.holder == h && decide (x.sub ≤ a / 16384))).map (fun x => x.sub)).getLast? with
      | some row => labelAt l 6 row h 0 2 7 0 0
      | none => []
    | 3 => labelAt l 5 0 h (272 + a) 2 7 0 0
    | 4 => labelAt l 2 0 h (9 + a) 2 7 0 0
    | 5 => labelAt l 2 0 h (1 + a / 64) 2 7 0 0
    | _ => labelAt l 9 0 h a 2 7 0 0)
/-- Some context but the culprit raised a fatal fault (R399, FLAGS.MERGED). -/
def Frozen.merged (f : Frozen) (culprit : Option (Nat × Nat)) : Bool :=
  f.cores.any (fun c => (List.range 11).any (fun i => (c.2.ctx i).fatalCause.isSome && culprit != some (c.1, i)))
/-- Every label entry, in the order of R404. -/
def Frozen.labels (f : Frozen) (s : State) (l : List Section) (caught : List (Nat × List Msg)) : List LabelEntry :=
  let culprit := (s.household f.hid).culprit
  (f.regionLabels l ++ (f.ops.flatMap (fun o => o.2.rowLabels l)) ++ f.collLabels l ++ f.leaveLabels s l caught ++
    f.lostLabels l ++ f.fillLabels l ++ f.faultLabels l culprit ++
      failLabels l (s.failed.filter (fun g => g.2.2.2 == f.hid))).foldl (fun acc e => insertLabel e acc) []
/-- The messages that the sluice sections hold, by router (R332). -/
def Frozen.caught (f : Frozen) : List (Nat × List Msg) :=
  let busy := regionIds f.cores
  let ms := (f.bag.filter (fun m => m.2.inRouter (busy.contains m.1))).map (fun m => m.2)
  (sortNat (ms.map (fun m => m.at_)).eraseDups).map (fun c => (c, ms.filter (fun m => m.at_ == c)))
/-- The source or the destination of a message is a context of a core's task. -/
def Msg.touches (m : Msg) (core : Nat) : Bool := m.src.core == core || m.dst == .core core
/-- The label of a core's task: the highest code among its items; a dropped section counts as unknown (R400). -/
def Frozen.taskLabel (f : Frozen) (l : List Section) (labels : List LabelEntry) (caught : List (Nat × List Msg)) (nwrit core : Nat) : Nat :=
  let ops := f.opsOrder
  let whole := (l.zip (List.range l.length)).filter (fun p =>
    (p.1.kind ≤ 4 && p.1.holder == core) || ((p.1.kind == 5 || p.1.kind == 6) && p.1.holder == clusterOf core))
  let mine := whole.map (fun p => p.2 + 2) ++
    ((ops.zip (List.range ops.length)).filter (fun p => p.1.2.src.core == core)).filterMap (fun p => opIndex l p.2)
  let recs := caught.flatMap (fun r => ((r.2.zip (List.range r.2.length)).filter (fun p => p.1.touches core)).filterMap (fun p =>
    (secIndex l 9 0 r.1).map (fun i => (i, p.2))))
  let hit (e : LabelEntry) : Bool := mine.contains e.1 || recs.contains (e.1, e.2.1)
  if mine.any (fun i => decide (nwrit ≤ i)) || recs.any (fun p => decide (nwrit ≤ p.1)) then 2
  else ((labels.filter hit).map (fun e => e.2.2.1)).foldl max 0

/-! ### The image (R403 to R405) -/

/-- A task-table entry. -/
def PeatTask.bytes (t : PeatTask) : List Byte :=
  fieldBytes [(4, t.task % 2 ^ 20), (2, t.core), (1, t.label), (1, ofBool t.ended + ofBool t.culprit * 4), (8, 0)]
/-- A label entry. -/
def labelBytes (e : LabelEntry) : List Byte :=
  fieldBytes [(4, e.1), (4, e.2.1), (1, e.2.2.1), (1, e.2.2.2.1), (2, e.2.2.2.2.1), (4, e.2.2.2.2.2)]
/-- The header of R403. -/
def peatHeader (hid n k bytes nsec nwrit reason nlab nt stop flags : Nat) : List Byte :=
  fit 128 (fieldBytes [(2, 0x0020), (1, 1), (1, flags), (4, hid), (8, n), (8, k), (8, bytes), (4, nsec), (4, nwrit), (2, reason), (2, nlab),
    (4, nt), (8, stop)])
/-- A section as a mount reads it: its tag in place, its payload in clear (R409). -/
def Section.clearBytes (x : Section) (index : Nat) (header : List Byte) (key : Option (BitVec 256)) (n : Nat) : List Byte :=
  let d := x.descriptor index true
  let tag := match key with
    | none => zeros 16
    | some k => bytesOf 16 (Config.gcmTag k (ivOf n index) (header ++ d) x.payload).toNat
  fit x.padded (d ++ x.payload ++ tag)
/-- The whole image in clear. -/
def clearImage (l : List Section) (index : Nat) (header : List Byte) (key : Option (BitVec 256)) (n : Nat) : List Byte :=
  match l with
  | [] => []
  | x :: rest => x.clearBytes index header key n ++ clearImage rest (index + 1) header key n
/-- The leading sections that fit into a number of bytes, behind the header. -/
def fitting (l : List Section) (room : Nat) : List Section :=
  match l with
  | [] => []
  | x :: rest => if x.padded ≤ room then x :: fitting rest (room - x.padded) else []

/-! ### The well (R401, R402) -/

/-- The well in 64 KiB units. -/
def Porch.wellUnits (p : Porch) : Nat := p.pwbSize * 16384
/-- First units at which a free range can begin. -/
def State.wellStarts (s : State) : List Nat :=
  sortNat ((0 :: s.peats.map (fun p => (p.2.base - s.porch.pwbBase * 2 ^ 30) / 65536 + p.2.units)).eraseDups)
/-- Free units from a start on. -/
def State.wellGap (s : State) (u : Nat) : Nat :=
  let taken := s.peats.map (fun p => ((p.2.base - s.porch.pwbBase * 2 ^ 30) / 65536, p.2.units))
  if taken.any (fun t => decide (t.1 ≤ u ∧ u < t.1 + t.2)) then 0
  else ((taken.filter (fun t => decide (u < t.1))).map (fun t => t.1)).foldl min s.porch.wellUnits - u
/-- First fit for n units, else the largest free range; start and length. -/
def State.wellPlace (s : State) (n : Nat) : Nat × Nat :=
  match s.wellStarts.find? (fun u => decide (n ≤ s.wellGap u)) with
  | some u => (u, n)
  | none => s.wellStarts.foldl (fun b u => if b.2 < s.wellGap u then (u, s.wellGap u) else b) (0, 0)
/-- Bytes put into device memory. -/
def State.storePa (s : State) (pa : Nat) (bs : List Byte) : State := { s with pa := s.pa.writeBytes pa bs }
/-- A frame's section as it was read. -/
def RawSection.plain (x : RawSection) : Section := Section.plain x.kind x.sub x.holder x.body
/-- What a household's peat is made from: the state its holders hold, or the frame of a saved household; none when that fails
a check (R393). -/
def State.peatSource (s : State) (hid : Nat) : Option Frozen :=
  let h := s.household hid
  let x := s.queue h.queue
  if x.swState = 2 then
    match h.frozen with
    | none => none
    | some f =>
      match s.frameCheck hid x.swva f with
      | .error _ => none
      | .ok l => some (if h.secured then f else { l.foldl Frozen.overlay f with sections := l.map RawSection.plain })
  else some { s.capture hid with sections := s.sectionsOf hid }
/-- The placed tasks of a household, saved or not. -/
def Household.placed (h : Household) : Table (Nat × Nat) := (h.frozen.map (fun f => f.place)).getD h.place
/-- The household ends without a peat (R401, R402, R447). -/
def State.noPeat (s : State) (hid result : Nat) : State :=
  (s.onQueue (s.household hid).queue (fun x => { x with peatState := 4, peatResult := result })).next (.peatFormed hid)
/-- A peat with its sections is put into the well, under the number of NEXT. -/
def State.putPeat (s : State) (hid flags : Nat) (f : Option Frozen) (tasks : List PeatTask) (labels : List LabelEntry)
    (secs : List Section) : State :=
  let h := s.household hid
  let q := h.queue
  let x := s.queue q
  let n := s.porch.pwNext
  let place := s.wellPlace ((frameLength secs + 65535) / 65536)
  let whole : Bool := decide (frameLength secs ≤ 65536 * place.2)
  let out := if whole then secs else fitting secs (65536 * place.2 - 128)
  let first := if f.isSome then 2 else 1
  if out.length < first then s.noPeat hid 5
  else
    let flags := flags + ofBool (!whole) * 2
    let key := if h.secured then h.pk else none
    let base := s.porch.pwbBase * 2 ^ 30 + 65536 * place.1
    let bytes := frameLength out
    let stop := (f.map (fun f => f.stop)).getD ((h.frozen.map (fun f => f.stop)).getD x.klast)
    let hd := peatHeader hid n x.klast bytes secs.length out.length x.killReason labels.length tasks.length stop flags
    let p : Peat :=
      { hid := hid, forming := true, formed := false, k := x.klast, stop := stop, reason := x.killReason, flags := flags, base := base,
        units := place.2, bytes := bytes, sealed_ := h.secured, pk := h.pk, root := h.root, revived := [], tasks := tasks, labels := labels,
        frozen := f, sections := out, header := hd, nsec := secs.length,
        clear := if h.secured then hd ++ clearImage out 0 hd key n else [] }
    let s := s.storePa base (hd ++ sectionsBytes out 0 true hd key n)
    let s := s.onPorch (fun y => { y with pwNext := if n = 65535 then 1 else n + 1 })
    (({ s with peats := tput s.peats n p }).onQueue q (fun x => { x with peat := n, peatResult := 0 })).soon (.peatFormed hid)
/-- A section with its LABEL: the highest code among its items. -/
def Section.labelled (x : Section) (labels : List LabelEntry) (index : Nat) : Section :=
  { x with label := ((labels.filter (fun e => e.1 == index)).map (fun e => e.2.2.1)).foldl max 0 }
/-- `PEAT_ALLOCATE` (R402): number and space in the well, K ascending, then HID. -/
def execPeatAllocate (hid : Nat) (s : State) : Host.Outcome State Fault Refusal :=
  let h := s.household hid
  let q := h.queue
  let x := s.queue q
  let ahead : Bool := s.agenda.any (fun e => match e with
    | .peatAllocate h' => decide (h' < hid)
    | _ => false)
  if x.peatState != 2 || !x.killed || x.peat != 0 then .next s
  else if ahead then .next (s.next (.peatAllocate hid))
  else if s.porch.pwbSize = 0 || (h.secured && h.pk.isNone) then .next (s.noPeat hid 0)
  else
    let fromFrame := ofBool (x.swState == 2) * 8 + ofBool h.secured
    let names := h.placed
    match s.peatSource hid with
    | none =>
      let tasks : List PeatTask := names.map (fun p => { task := p.1, core := p.2.2, label := 2, ended := false, culprit := false })
      .next (s.putPeat hid fromFrame none tasks [] [Section.plain 11 0 0 (tasks.flatMap PeatTask.bytes)])
    | some f =>
      let l := f.sections
      let caught := f.caught
      let labels := f.labels s l caught
      let body := (l.zip (List.range l.length)).map (fun p => p.1.labelled labels (p.2 + 2))
      let lab := Section.plain 10 0 0 (labels.flatMap labelBytes)
      let table (ts : List PeatTask) : Section := Section.plain 11 0 0 (ts.flatMap PeatTask.bytes)
      let blank := Section.plain 11 0 0 (zeros (16 * names.length))
      let secs := blank :: lab :: body
      let place := s.wellPlace ((frameLength secs + 65535) / 65536)
      let nwrit := if frameLength secs ≤ 65536 * place.2 then secs.length else (fitting secs (65536 * place.2 - 128)).length
      let task (p : Nat × (Nat × Nat)) : PeatTask :=
        let c := p.2.2
        { task := p.1, core := c, label := f.taskLabel l labels caught nwrit c,
          ended := ((tfind f.cores c).map (fun x => x.ended)).getD true, culprit := (h.culprit.map (fun k => k.1 == c)).getD false }
      let tasks := names.map task
      .next (s.putPeat hid (fromFrame + ofBool (f.merged h.culprit) * 4) (some f) tasks labels (table tasks :: lab :: body))
/-- Held records of a ring, written as far as they go. -/
def State.flushRecords (s : State) (q ring fuel : Nat) : State :=
  match fuel with
  | 0 => s
  | k + 1 => if ((s.queue q).ring ring).held.isEmpty then s else (s.tryRecord q ring).flushRecords q ring k
/-- `PEAT_FORMED` (R392, R394): the household ends; its key PK and its retained memory outlive it (R405, R406). -/
def execPeatFormed (hid : Nat) (s : State) : Host.Outcome State Fault Refusal :=
  let h := s.household hid
  let q := h.queue
  let x := s.queue q
  if !h.alive || !x.killed then .next s
  else
    let s := if x.peat = 0 then s
      else { s with peats := tput s.peats x.peat { tget s.peats Peat.reset x.peat with forming := false, formed := true } }
    let stop := (h.frozen.map (fun f => f.stop)).getD h.stopped
    let run := x.groups.filter (fun g => g.st == .running) ++
      ((h.frozen.map (fun f => f.groups)).getD []).filter (fun g => g.st == .running)
    let s := run.foldl (fun s g =>
      (s.finish q g.ticket 4).record q 0 (groupRecord 4 x.killReason g.ticket (if stop ≤ g.start then 0 else g.start) 0 g.ox g.oy g.freed) none) s
    let s := { s with failed := s.failed.filter (fun n => n.2.2.2 != hid) }
    let s := (s.clearHolders hid).flushRecords q 0 4097
    let s := s.onQueue q (fun x =>
      { x with en := false, savecnt := 0, groups := [], commits := [], cancels := [], peatState := if x.peat = 0 then 4 else 3 })
    let s := { s with mounts := s.mounts.filter (fun m => m.hid != hid), tlb := s.tlb.filter (fun t => t.hid != hid) }
    .next (s.onHousehold hid (fun h =>
      { h with alive := false, hsk := none, asleep := false, slept := [], frozen := none, fens := [], place := [] }))
/-- A peat named by a queue's revive group that has not reached Running. -/
def State.reviving (s : State) (n : Nat) : Bool :=
  let of (g : Group) : Bool := (g.revive.map (fun r => r.1)) == some n
  s.queues.any (fun q => q.2.revives.any (fun r => of r.1) ||
    q.2.groups.any (fun g => of g && (g.st == .waiting || g.st == .ready || g.st == .loading)))
/-- `PWREL` (R401): the peat's space, retained memory and key are freed; a mount of the same cycle comes first. -/
def execPwrel (val : BitVec 64) (s : State) : Host.Outcome State Fault Refusal :=
  let n := val.toNat
  let answers : Bool := s.agenda.any (fun e => match e with
    | .porchAnswer _ => true
    | _ => false)
  match tfind s.peats n with
  | none => .next s
  | some p =>
    if answers then .next (s.next (.pwrel val))
    else if 65536 ≤ n || p.forming || s.mounts.any (fun m => m.peat == n) || s.reviving n then .next s
    else .next { s with peats := tdel s.peats n }

/-! ### The instructions (R408 to R412, R414) -/

/-- A request to the Porch of a peat instruction. -/
def State.askPorch (s : State) (op d arg : Nat) (blk : List Nat) (t : Option TokRef) : State :=
  s.request .porch t (.porch op d arg blk)
/-- `pmount` (R409). -/
def execPmount (hd : CHead) (d a : BitVec 5) (k : BitVec 4) (s : State) : Host.Outcome State Fault Refusal :=
  let v := (s.me.sReg a.toNat).toNat
  issueC (.pmount hd d a k) hd
    { srcs := [.s a.toNat], kfields := [k], tok := some (s.me.tokRef k.toNat), reqs := 1, mol := 1, conds := condIf (bits v 52 12 != 0) 6 0 v }
    (fun s =>
      let t := s.me.tokRef k.toNat
      (s.longStart (.s d.toNat) t).askPorch 0 d.toNat v [] (some t)) s
/-- `punmount` (R410). -/
def execPunmount (hd : CHead) (a : BitVec 5) (s : State) : Host.Outcome State Fault Refusal :=
  let v := (s.me.sReg a.toNat).toNat
  issueC (.punmount hd a) hd { srcs := [.s a.toNat], reqs := 1, mol := 1, conds := condIf (bits v 52 12 != 0) 6 0 v }
    (fun s => s.askPorch 1 0 v [] none) s
/-- `pinfo` (R411). -/
def execPinfo (hd : CHead) (d a : BitVec 5) (s : State) : Host.Outcome State Fault Refusal :=
  let v := (s.me.sReg a.toNat).toNat
  let bad : Bool := bits v 24 8 != 0 || bits v 52 12 != 0 || decide (7 ≤ bits v 16 8)
  issueC (.pinfo hd d a) hd { srcs := [.s a.toNat], tok := some s.me.ltkRef, reqs := 1, mol := 1, conds := condIf bad 6 0 v }
    (fun s =>
      let t := s.me.ltkRef
      (s.longStart (.s d.toNat) t).askPorch 2 d.toNat v [] (some t)) s
/-- A nonzero reserved field of a revive block (R412, R414). -/
def reviveBad (n : Nat) : Bool :=
  bits n 25 3 != 0 || bit n 31 || bits n 52 12 != 0 || (!bit n 24 && bits n 160 16 != 0) || bits n 180 4 != 0 || bits n 184 328 != 0
/-- `previve` (R412): the block is read in the issue cycle. -/
def execPrevive (hd : CHead) (d a : BitVec 5) (k : BitVec 4) (s : State) : Host.Outcome State Fault Refusal :=
  let x := (s.me.sReg a.toNat).toNat
  let blk := s.here.ls.readN x 64
  issueC (.previve hd d a k) hd
    { srcs := [.s a.toNat], kfields := [k], tok := some (s.me.tokRef k.toNat), reqs := 1, mol := 1, waits := s.lineHeld x 64,
      conds := misaligned x 64 ++ ownOnly x ++ belowOwn s x ++ condIf (reviveBad blk) 6 0 x }
    (fun s =>
      let t := s.me.tokRef k.toNat
      (s.longStart (.s d.toNat) t).askPorch 3 d.toNat x [blk] (some t)) s

/-! ### The Porch's answers -/

/-- Every tag of a sealed peat verifies: in the model, when its bytes are those that sealing what is retained gives (log 6). -/
def State.peatVerifies (s : State) (n : Nat) (p : Peat) : Bool :=
  !p.sealed_ || s.pa.readBytes p.base p.bytes == p.header ++ sectionsBytes p.sections 0 true p.header p.pk n
/-- 64 KiB pages of a mount. -/
def Peat.pages (p : Peat) : Nat := (p.bytes + 65535) / 65536
/-- The mounts of a household. -/
def State.mountsOf (s : State) (hid : Nat) : List Mount := s.mounts.filter (fun m => m.hid == hid)
/-- PGRANT names the peat for a household: a sealed one is granted only to a household whose own would be sealed (R407). -/
def State.peatGranted (s : State) (hid n : Nat) (p : Peat) : Bool :=
  (s.queue (s.household hid).queue).pgrant == n && (!p.sealed_ || (s.household hid).secured)
/-- The result of a `pmount` and the state after it (R409). -/
def State.mountPeat (s : State) (hid v : Nat) : Nat × State :=
  let n := bits v 0 16
  let va := bits v 16 36 * 65536
  match tfind s.peats n with
  | none => (1, s)
  | some p =>
    if p.pk.isNone then (5, s)
    else if !s.peatGranted hid n p then (1, s)
    else if p.forming then (2, s)
    else if !s.peatVerifies n p then (7, s.tagFail hid)
    else
      let len := 65536 * p.pages
      let mine := s.mountsOf hid
      if 2 ^ 52 < va + len || mine.any (fun m => decide (m.va < va + len ∧ va < m.va + 65536 * m.pages)) then (3, s)
      else
        match (List.range 4).find? (fun i => !mine.any (fun m => m.slot == i)) with
        | none => (4, s)
        | some i => (p.pages * 65536, { s with mounts := s.mounts ++ [{ hid := hid, slot := i, peat := n, va := va, pages := p.pages }] })
/-- `punmount` at the Porch: the mount goes, then every TLB entry of its range (R410). -/
def State.unmountPeat (s : State) (hid v : Nat) : State :=
  match (s.mountsOf hid).find? (fun m => m.peat == bits v 0 16 && m.va == bits v 16 36 * 65536) with
  | none => s
  | some m =>
    (List.range m.pages).foldl (fun s i => s.dropTlb hid (m.va + 65536 * i) 0) { s with mounts := s.mounts.erase m }
/-- A task that `previve` may take (R400). -/
def Peat.revivable (p : Peat) (j : Nat) : Bool :=
  match p.tasks[j]? with
  | some t => t.label == 0 && !t.ended && !p.revived.contains j
  | none => false
/-- What `pinfo` reads (R411). -/
def State.peatInfo (s : State) (hid v : Nat) : Nat :=
  let n := bits v 0 16
  match tfind s.peats n with
  | none => 0
  | some p =>
    let sel := bits v 16 8
    if !s.peatGranted hid n p || (p.forming && sel != 0) then 0
    else
      match sel with
      | 0 => (if p.forming then 1 else 2) + p.flags % 16 * 2 ^ 8 + ofBool ((s.mountsOf hid).any (fun m => m.peat == n)) * 2 ^ 16
      | 1 => p.k
      | 2 => p.bytes
      | 3 => p.hid % 256 + p.reason % 65536 * 2 ^ 16
      | 4 => p.tasks.length % 2 ^ 32 + p.labels.length % 2 ^ 32 * 2 ^ 32
      | 5 =>
        let j := bits v 32 20
        match p.tasks[j]? with
        | some t =>
          t.task % 2 ^ 20 + t.label % 4 * 2 ^ 20 + ofBool t.ended * 2 ^ 22 + ofBool (p.revived.contains j) * 2 ^ 23 +
            ofBool t.culprit * 2 ^ 24 + t.core % 2 ^ 13 * 2 ^ 32
        | none => 0
      | _ => ((List.range p.tasks.length).filter p.revivable).length
/-- The Fen-relative cluster of a task of a peat. -/
def Peat.relative (p : Peat) (t : PeatTask) : Nat × Nat :=
  let cl := clusterOf t.core
  match p.frozen with
  | none => (0, 0)
  | some f =>
    match (tfind f.place t.task).bind (fun pl => tfind f.fens pl.1) with
    | some fen => (clX cl - fen.cx, clY cl - fen.cy)
    | none => (0, 0)
/-- The highest DOM.LEVEL among the control contexts of tasks (R312, R412). -/
def Peat.levelOf (p : Peat) (ts : List PeatTask) : Nat :=
  match p.frozen with
  | none => 0
  | some f => (ts.map (fun t => ((tget f.cores CoreSt.reset t.core).ctx 0).level)).foldl max 0
/-- The group of a revive block for the selected tasks (R412). It has no ESLOT: 256 names no entry of the
energy table, so none is used and none updated (log 33). -/
def reviveGroup (hid ticket n : Nat) (p : Peat) (b : Nat) (js : List Nat) : Group :=
  let first := bits b 128 32
  let sel := js.filterMap (fun j => (p.tasks[j]?).map (fun t => (j, t)))
  let at_ := sel.map (fun x => p.relative x.2)
  let x0 := (at_.map (fun a => a.1)).foldl min 1000
  let y0 := (at_.map (fun a => a.2)).foldl min 1000
  let w := (at_.map (fun a => a.1)).foldl max 0 + 1 - x0
  let h := (at_.map (fun a => a.2)).foldl max 0 + 1 - y0
  let d : Desc :=
    { raw := [], pri := bits b 28 3, pin := bit b 24, level := p.levelOf (sel.map (fun x => x.2)), ecls := bits b 176 4, fidx := bits b 16 8,
      eslot := 256, w := w, h := h, ox := bits b 160 8, oy := bits b 168 8, cmask := 0, tbase := bits b 32 20, deps := [] }
  let task (x : Nat × PeatTask) : ReviveTask :=
    { idx := x.1, task := bits b 32 20 + (x.1 - first), x := (p.relative x.2).1 - x0, y := (p.relative x.2).2 - y0, member := memberOf x.2.core }
  { Group.ofDesc ticket hid d 0 false with revive := some (n, sel.map task) }
/-- A rectangle that exceeds its Fen, or that PIN places outside it (R412); a Fen index without a Fen is the same. -/
def State.exceedsFen (s : State) (hid : Nat) (g : Group) : Bool :=
  match tfind (s.household hid).fens g.desc.fidx with
  | none => true
  | some f => f.w < g.desc.w || f.h < g.desc.h || (g.desc.pin && (f.w < g.desc.ox + g.desc.w || f.h < g.desc.oy + g.desc.h))
/-- The result of a `previve`, its answer and the state after it (R412). -/
def State.revivePeat (s : State) (id hid b : Nat) : Nat × State :=
  let n := bits b 0 16
  let q := (s.household hid).queue
  let x := s.queue q
  let tbase := bits b 32 20
  match tfind s.peats n with
  | none => (1, s)
  | some p =>
    if p.pk.isNone then (5, s)
    else if !(s.mountsOf hid).any (fun m => m.peat == n) then (1, s)
    else
      let js := ((List.range 64).filter (fun j => bit (bits b 64 64) j)).map (fun j => bits b 128 32 + j)
      let js := js.filter p.revivable
      let g := reviveGroup hid x.next n p b js
      if js.isEmpty then (2, s)
      else if s.exceedsFen hid g then (3, s)
      else if 2 ^ 20 < tbase + 64 || (s.household hid).place.any (fun t => decide (tbase ≤ t.1 ∧ t.1 < tbase + 64)) then (4, s)
      else
        let s := { s with peats := tput s.peats n { p with revived := p.revived ++ js } }
        let s := s.onQueue q (fun x =>
          { x with next := (x.next + 1) % 2 ^ 32, commits := x.commits ++ [x.next], revives := x.revives ++ [(g, id)] })
        (js.length * 2 ^ 8 + x.next * 2 ^ 32, s)
/-- `PORCH_ANSWER` (R408): sD is written, the token lowered and ORC acknowledged; an accepted `previve` keeps its token until
its group has been taken in. -/
def execPorchAnswer (id : Nat) (s : State) : Host.Outcome State Fault Refusal :=
  match tfind s.bag id with
  | none => .next s
  | some m =>
    match m.body with
    | .porch op d arg blk =>
      if m.app.isSome || m.st != .going then .next s
      else
        let hid := m.src.hid
        let r : Nat × State := match op with
          | 0 => s.mountPeat hid arg
          | 1 => (0, s.unmountPeat hid arg)
          | 2 => (s.peatInfo hid arg, s)
          | _ => s.revivePeat id hid (blk.headD 0)
        let keep : Bool := op == 3 && r.1 % 256 == 0
        let s := (r.2.onMsg id (fun m => { m with app := some (0, 0, s.gts), delivered := true })).logAck { m with app := some (0, 0, s.gts) }
        let wr := if op = 1 then [] else [Act.write (.s d) r.1, .unpend (.s d)]
        let s := s.complete m.src.core m.src.ctx (wr ++ (if keep then [] else m.lowerActs) ++ m.orcActs)
        .next (if keep then s else s.dropMsg id)
    | _ => .next s

/-! ### Revival (R413) -/

/-- What the revived tasks know starts anew with their locations (R162, log 31). -/
def Entry.fresh (e : Entry) : Entry := { e with know := [] }
/-- How the state of a peat's tasks changes as they are revived: clusters moved, the new household and Fen, old cores with
their new cores and task numbers, the new numbers of old tasks. -/
structure Rehome where
  m : Move
  hid : Nat
  fen : Nat
  cores : Table (Nat × Nat)
  tasks : Table Nat
deriving DecidableEq, Repr
/-- The core number that stands for the context of a task that was not taken: no core has it. -/
def noCore : Nat := 5120
def Rehome.taken (r : Rehome) (core : Nat) : Bool := (tfind r.cores core).isSome
def Rehome.core (r : Rehome) (core : Nat) : Nat := ((tfind r.cores core).map (fun p => p.1)).getD noCore
def Rehome.src (r : Rehome) (x : Src) : Src :=
  match tfind r.cores x.core with
  | some (n, t) => { x with core := n, task := t, fen := r.fen, hid := r.hid }
  | none => { x with core := noCore, fen := r.fen, hid := r.hid }
/-- The key of a domain instance in the new household. -/
def Rehome.key (r : Rehome) (k : Nat) : Nat :=
  let k' := r.m.key k
  let l := k / 65536 % 16
  (16 * r.hid + l) * 65536 + (if l = 6 then r.fen else k' % 65536)
def Rehome.dst (r : Rehome) (d : Dst) : Dst :=
  match d with
  | .core n => .core (r.core n)
  | d => d.move r.m
def Rehome.body (r : Rehome) (cl : Nat) (b : Body) : Body :=
  match b with
  | .amo op z u a x y d inst => .amo op z u a x y d (inst.map (fun i => (r.key i.1, i.2)))
  | .red op z u a x inst => .red op z u a x (inst.map (fun i => (r.key i.1, i.2)))
  | .send e t => .send (e.move r.m).fresh (tget r.tasks (2 ^ 20 + t) t)
  | .hsend e t h => .hsend (e.move r.m).fresh (tget r.tasks (2 ^ 20 + t) t) (h.move r.m)
  | b => b.move r.m cl
/-- A message that is kept: of a taken task, or addressed to one, or of a `cspill` or `cfill` that holds a group. -/
def Rehome.keeps (r : Rehome) (f : Frozen) (id : Nat) (m : Msg) : Bool :=
  r.taken m.src.core || (match m.dst with
    | .core n => r.taken n
    | _ => false) ||
  f.clusters.any (fun k => (r.m.any (fun p => p.1 == k.1)) && k.2.groups.any (fun g => (g.2.holder.map (fun q => q.msg)) == some id &&
    g.2.st != .frozen 2))
/-- A request of a taken task to a task that was not taken: it is refused with reason 12. -/
def Rehome.cut (r : Rehome) (m : Msg) : Bool :=
  r.taken m.src.core && m.st == .going && (match m.dst with
    | .core n => !r.taken n
    | _ => false)
/-- A kept message in the new household; PREV names only a request that is still to be delivered. -/
def Rehome.msg (r : Rehome) (f : Frozen) (x : Msg) : Msg :=
  let ahead : Bool := match x.prev with
    | none => false
    | some q => f.bag.any (fun o => o.2.src == x.src && o.2.dst == x.dst && o.2.seq == q && !o.2.delivered && o.2.st == .going)
  let dst := r.dst x.dst
  let home := match dst with
    | .core n => n
    | _ => r.core x.src.core
  { x with src := r.src x.src, dst := dst, at_ := if r.m.any (fun p => p.1 == clusterOf x.at_) then r.m.core x.at_ else home,
           goal := x.goal.map r.core, know := [], stubs := [], prev := if ahead then x.prev else none,
           body := r.body (clusterOf x.src.core) x.body, caught := false,
           app := x.app.map (fun a => (r.core a.1, a.2)) }
def Rehome.event (r : Rehome) (e : Event) : Event :=
  match e.move r.m with
  | .phaseComplete _ l u => .phaseComplete r.hid l (if l = 6 then r.fen else u)
  | .collectiveRun _ c => .collectiveRun r.hid c
  | e => e
/-- An owed event that goes on in the new household. -/
def Rehome.owes (r : Rehome) (ids ops : List Nat) (d : DueEv) : Bool :=
  match d with
  | .done c _ _ => r.taken c
  | .step e =>
    match e.owner with
    | .core c => r.taken c
    | .msg id => ids.contains id
    | .op n => ops.contains n
    | .cluster cl => r.m.any (fun p => p.1 == cl)
    | .hid _ => true
    | .group _ _ => false
    | .none => true
def Rehome.due (r : Rehome) (d : Due) : Due :=
  match (d.move r.m).ev with
  | .step _ => match d.ev with
    | .step e => { d with ev := .step (r.event e) }
    | _ => d
  | .done c x acts => { d with ev := .done c x (acts.filter (fun a => match a with
      | .learn _ => false
      | _ => true)) }
/-- A taken task's core (R413): TID.FEN and TID.TASK are new, the debug and trace registers are those of the new core. -/
def Rehome.coreSt (r : Rehome) (x old : CoreSt) (q ticket det task : Nat) : CoreSt :=
  let x := (x.move r.m r.m).restored det
  { x with molTail := 0, molHead := 0, molQ := [], molRes := x.molRes - x.molQ.length, appIdx := 0,
           mrun := x.mrun.map (fun r => { r with know := [] }), seen := [], boxKnow := [], stagePub := [], inbox := x.inbox.map Entry.fresh,
           input := x.input.map (fun i => (i.1.fresh, i.2)), hid := some r.hid, queue := q, ticket := ticket,
           ctxs := x.ctxs.map (fun c => { c with fen := r.fen, task := task }),
           heldAmos := x.heldAmos.map (fun a => { a with key := r.key a.key }), dbg := old.dbg, trace := old.trace, lastPair := old.lastPair }
/-- A cluster that holds a taken task: requests of tasks that were not taken are gone, and so is what its directory held. -/
def Rehome.cluster (r : Rehome) (k : Cluster) : Cluster :=
  let mine (q : CReq) : Bool := r.taken q.core
  let k := { k with addQ := k.addQ.filter mine, tapQ := k.tapQ.filter mine, dir := [], stubs := [] }
  let k := k.move r.m r.m
  let k := { k with groups := k.groups.map (fun (g : Nat × CGroup) => (g.1, { g.2 with know := [] })) }
  { k with lineage := k.lineage.map (fun (e : Nat × LEntry) =>
      (e.1, { e.2 with know := [], hid := r.hid, ownTask := tget r.tasks e.2.ownTask e.2.ownTask })) }
/-- The domain instances of the taken tasks; members that were not taken have left (R45). -/
def Rehome.doms (r : Rehome) (f : Frozen) : Table DomInst :=
  (f.doms.filter (fun d => r.cores.any (fun c => (List.range 11).any (fun i =>
    let x := (tget f.cores CoreSt.reset c.1).ctx i
    x.live && x.level == d.1 / 65536 % 16 && unitOf x.level c.1 x.fen == d.1 % 65536)))).map (fun d =>
      (r.key d.1, { d.2 with members := (d.2.members.filter (fun m => r.taken m.1)).map (fun m => (r.core m.1, m.2)) }))
/-- The move of the taken tasks' clusters, their cores and their numbers. Keys 2^20 + t of `tasks` are the numbers by which
messages name tasks, keys t those of lineage owners. -/
def State.rehome (s : State) (p : Peat) (g : Group) (ts : List ReviveTask) : Rehome :=
  let sel := ts.filterMap (fun t => (p.tasks[t.idx]?).map (fun o => (o, t)))
  let fen := ((tfind (s.household g.hid).fens g.desc.fidx).map (fun f => f.ident)).getD 0
  { m := sel.foldl (fun m x => tput m (clusterOf x.1.core) (clusterOf (s.reviveCore g x.2))) [], hid := g.hid, fen := fen,
    cores := sel.foldl (fun t x => tput t x.1.core (s.reviveCore g x.2, x.2.task)) [],
    tasks := sel.foldl (fun t x => tput (tput t x.1.task x.2.task) (2 ^ 20 + x.1.task) x.2.task) [] }
/-- The taken tasks' state put into their new holders (R346, R413); what is due goes by the resume GTS R'. -/
def State.install (s : State) (q : Nat) (g : Group) (f : Frozen) (r : Rehome) : State :=
  let det := g.det
  let d := g.start + 1 - f.stop
  let s := r.cores.foldl (fun s c =>
    let x := r.coreSt (tget f.cores CoreSt.reset c.1) (s.coreOf c.2.1) q g.ticket det c.2.2
    (((s.freshCore c.2.1).freshLoft c.2.1).setCore c.2.1 (x.shift d)).launchBox c.2.1) s
  let s := r.m.foldl (fun s p =>
    { (s.freshCounters p.2).freshRows p.2 with clusters := tput s.clusters p.2 ((r.cluster (tget f.clusters Cluster.reset p.1)).thaw.shift d) }) s
  let kept := f.bag.filter (fun x => r.keeps f x.1 x.2)
  let cut := (kept.filter (fun x => r.cut x.2)).map (fun x => x.1)
  let ops := f.ops.filter (fun o => r.taken o.2.src.core)
  let opNos := ops.map (fun o => o.1)
  let bag := kept.map (fun x => (x.1, r.msg f x.2))
  let newOps := ops.map (fun o => (o.1, { o.2.move r.m with src := r.src o.2.src, know := [] }))
  let colls := (f.colls.filter (fun c => c.ops.any (fun o => opNos.contains o.2))).map (fun c =>
    { c with hid := r.hid, ops := c.ops.filter (fun o => opNos.contains o.2) })
  let s : State := { s with doms := tputAll s.doms ((r.doms f).map (fun x => (x.1, x.2.shift d))), bag := tputAll s.bag bag,
                            colls := s.colls ++ colls }
  let s := newOps.foldl (fun s o => s.setOp o.1 { o.2 with owner := s.ownerOf r.hid (o.2.blk.rowVa o.2.lead o.2.idx o.2.kind) }) s
  let ids := (kept.map (fun x => x.1)).filter (fun i => !cut.contains i)
  let held := ((r.cores.flatMap (fun c => (tget f.cores CoreSt.reset c.1).held)).filter ids.contains).map (fun i => Due.mk 0 (.step (.routerReceive i)))
  let due := ((held ++ f.due).filter (fun e => r.owes ids opNos e.ev)).map (fun e => s.owedAt g.start (r.due e))
  let s := { s with due := s.due ++ due }
  cut.foldl (fun s id => s.refuseMsg id 12 (((tfind s.bag id).map (fun m => m.body.addrs.headD 0)).getD 0)) s
/-- With the last acknowledgement of a revive group its tasks stand in their holders, and wait for the resume (R413). -/
def State.reviveLoad (s : State) (q t : Nat) : State :=
  match s.taskGroup q t with
  | some g =>
    match g.revive, (tget s.peats Peat.reset ((g.revive.map (fun r => r.1)).getD 0)).frozen with
    | some (n, ts), some f =>
      if g.st == .running then
        (s.install q g f (s.rehome (tget s.peats Peat.reset n) g ts)).onTaskGroup q t (fun g => { g with held := true })
      else s
    | _, _ => s
  | none => s
/-- `CORE_LOAD_ACK` (R308, R317): its reads open their rows and wait for their banks (R364, R430). -/
def execCoreLoadAck (q t core : Nat) (s : State) : Host.Outcome State Fault Refusal :=
  match s.taskGroup q t with
  | none => .next s
  | some g =>
    if g.st != .loading || !g.loads.contains core then .next s
    else if g.revive.isSome then .next ((s.acknowledged q g core).reviveLoad q t)
    else
      match (s.tableReasons g.hid g.desc).filter (fun r => r != 1) with
      | r :: _ => .next (s.refuseLoading q g r)
      | [] =>
        let j := s.taskOn g core - g.desc.tbase
        match s.loadImages g.hid g.desc j with
        | .error _ => .next (s.refuseLoading q g 10)
        | .ok parts =>
          let rs := s.loadRanges g.hid g.desc j
          if rs.any (fun r => s.endBusy g.hid r.1 r.2) then .next (s.stepAt (s.gts + 1) (.coreLoadAck q t core))
          else .next (((rs.foldl (fun s r => s.touchVa g.hid r.1 r.2) s).loadCore q g core parts).acknowledged q g core)

/-- `REVIVE_RESUME` (R413): at R' = A + 96 the tasks that stand in their holders go on: each from R' + 1. -/
def execReviveResume (q t : Nat) (s : State) : Host.Outcome State Fault Refusal :=
  match s.taskGroup q t with
  | none => .next s
  | some g =>
    if g.st != .running || !g.held || s.gts < g.start then .next s
    else .next (s.onTaskGroup q t (fun g => { g with held := false }))

end Sys2Proof.Machine
end

