-- ==== Sys2Proof/Machine/Faults.lean ====
section
/-! DEFINITION. Failed granules (R419), the patrol scrub (R420), links (R423 to R427, R438) and temperature (R437). -/
namespace Sys2Proof.Machine

/-! ### Arrays (R415, R419, R420) -/

/-- The household that holds a granule: units 2 and 3 belong to a cluster, the others to a core. -/
def State.granuleHid (s : State) (kind holder : Nat) : Option Nat :=
  if kind = 2 ∨ kind = 3 then ((clusterCores holder).find? (fun c => (s.coreOf c).hid.isSome)).bind (fun c => (s.coreOf c).hid)
  else (s.coreOf holder).hid
/-- The context that read a failed granule of a core issues nothing further; which one read it, or that a unit did, is not
fixed. -/
def State.stopReader (s : State) (kind holder : Nat) : State :=
  if kind = 2 ∨ kind = 3 then s
  else
    let live := (List.range 11).filter (fun i => (s.ctxOf holder i).live)
    let c := s.choose (live.length + 1)
    match live[c.1]? with
    | some i => c.2.onCtx holder i (fun x => { x with fatal := true })
    | none => c.2
/-- A granule of SRAM with one bit in error is corrected as it is met, and counted (R415, R422). -/
def State.correctGranule (s : State) (die : Nat) (g : Nat × Nat × Nat) : State :=
  { s.onDie die (fun d => { d with sce := min 65535 (d.sce + 1) }) with sramErrors := s.sramErrors.filter (fun x => x != g) }
/-- `SRAM_UE` (R415, R419): a unit meets an error in a granule. One bit is corrected; two bits are not: units are 0 local store, 1 B
store, 2 cistern, 3 lineage, 4 inbox, 5 tile (R429). -/
def execSramUe (kind holder addr : Nat) (s : State) : Host.Outcome State Fault Refusal :=
  if 5 < kind then .next s
  else
    let die := if kind = 2 ∨ kind = 3 then holder / 80 else dieOf holder
    if s.sramErrors.contains (kind, holder, addr) then .next (s.correctGranule die (kind, holder, addr))
    else
      let s := s.onDie die (fun d => { d with sue := min 255 (d.sue + 1) })
      match s.granuleHid kind holder with
      | none => .next (s.moduleEvent 9 die kind 0 0)
      | some hid =>
        let s := (s.moduleEvent 9 die kind 0 hid).stopReader kind holder
        .next ({ s with failed := s.failed ++ [(kind, holder, addr, hid)] }.killNow hid)
/-- A burst may still write in this cycle. -/
def State.burstsLeft (s : State) : Bool :=
  s.agenda.any (fun e => match e with
    | .streamerStep _ => true
    | .collectiveRun _ _ => true
    | .hostCxlMemAccess _ _ _ => true
    | .boardwalkPeerAccess .. => true
    | _ => false)
/-- `PATROL_SCRUB` (R420): one atom of HBM, or of a Cellar in its quiet phase; a stack under takeover is not scrubbed (R433). It comes
after the bursts of its cycle (R417), and waits for a busy bank of a Cellar (R364). -/
def execPatrolScrub (pa : Nat) (s : State) : Host.Outcome State Fault Refusal :=
  if !deviceMapped pa then .fault (.noSuchAddress pa)
  else if isAnnex pa || (isCellar pa && !s.quiet (cellarDie pa)) || (isHbm pa && (s.stack (stackOf pa)).takeover.isSome) then .next s
  else if s.burstsLeft then .next (s.next (.patrolScrub pa))
  else if isCellar pa && s.cellarBusy pa then .next (s.stepAt (s.gts + 1) (.patrolScrub pa))
  else
    let found : Bool := s.poison.contains (pa / 32)
    let r := s.checkAtom pa
    .next (if r.2 || found then r.1 else r.1.moduleEvent 0x0B (unitOfPa pa) 0 (pa / 32 * 32) 0)

/-! ### Links (R424 to R426, R438) -/

/-- The 12-bit number after another. -/
def nextSeq (n : Nat) : Nat := (n + 1) % 4096
/-- Flits of the replay buffer from a number on. -/
def Link.from_ (l : Link) (seq : Nat) : List Nat := l.buf.filter (fun n => decide ((n + 4096 - seq) % 4096 < 2048))
/-- `FLIT_RECEIVE` (R424, R426): the flit passes, or is dropped with a NAK for the expected one; the sender keeps one that has not
passed, and one that it may not send while the link retrains. A Boardwalk flit that holds may have
been repaired by its FEC, which is counted. -/
def execFlitReceive (link : Nat) (seq : BitVec 12) (good : Bool) (s : State) : Host.Outcome State Fault Refusal :=
  let l := s.link link
  let n := seq.toNat
  if 31 ≤ link || l.st = 2 then .next s
  else
    let buf := if l.buf.contains n || 512 ≤ l.buf.length then l.buf else l.buf ++ [n]
    if l.st = 1 then .next (s.onLink link (fun l => { l with buf := buf }))
    else if !good then .next ((s.onLink link (fun l => { l with buf := buf })).soon (.nakReplay link (BitVec.ofNat 12 l.expect)))
    else if n != l.expect then .next (s.onLink link (fun l => { l with buf := buf }))
    else
      let c := if 8 ≤ link then s.choose 2 else (0, s)
      .next (c.2.onLink link (fun l =>
        { l with expect := nextSeq n, buf := buf.filter (fun k => k != n), fecc := min 65535 (l.fecc + c.1),
                 naks := if l.nakSeq = n then 0 else l.naks }))
/-- The mesh crossings of a Causeway link (R423, R438): rows between D0 and D1, D2 and D3, columns between D0 and D2, D1 and
D3. -/
def crossings (link : Nat) : List (Nat × Nat) :=
  match link with
  | 0 => (List.range 32).map (fun y => (coreAt 39 y, coreAt 40 y))
  | 1 => (List.range 32).map (fun y => (coreAt 39 (32 + y), coreAt 40 (32 + y)))
  | 2 => (List.range 40).map (fun x => (coreAt x 31, coreAt x 32))
  | 3 => (List.range 40).map (fun x => (coreAt (40 + x) 31, coreAt (40 + x) 32))
  | _ => []
/-- STATE of a Causeway link: 0 while any crossing is up, 2 when all are down (R438). -/
def State.causewaySt (s : State) (link : Nat) (xtrain : List ((Nat × Nat) × Nat)) : Nat :=
  let left := (crossings link).filter (fun p => !s.removed.contains p)
  if left.isEmpty then 2 else if left.all (fun p => xtrain.any (fun x => x.1 == p)) then 1 else 0
/-- A retraining begins (R426): it lasts at most 19,000 cycles; how it ends is not fixed. Of a Causeway link one crossing retrains,
with the retrainings in a row that it has failed. -/
def State.retrainOf (s : State) (link : Nat) (x : Option ((Nat × Nat) × Nat)) : State :=
  let c := s.choose 2
  let at_ := s.gts + 1 + Config.latency c.2.ctr % 19000
  ({ c.2 with ctr := c.2.ctr + 1 }.onLink link (fun l =>
    match x with
    | some p =>
      { l with st := s.causewaySt link (l.xtrain ++ [p]), retrain := min 65535 (l.retrain + 1), xtrain := l.xtrain ++ [p], naks := 0 }
    | none => { l with st := 1, retrain := min 65535 (l.retrain + 1), retraining := true, naks := 0 })).stepAt at_ (.retrainEnd link (c.1 == 1))
/-- The retraining after eight NAKs: of a Causeway link between compute dies, that of one crossing that is up; which one it is, the
number of the link does not fix. -/
def State.retrain (s : State) (link : Nat) : State :=
  let up := (crossings link).filter (fun p => !s.removed.contains p && !(s.link link).xtrain.any (fun x => x.1 == p))
  let c := s.choose up.length
  match up[c.1]? with
  | some p => c.2.retrainOf link (some (p, 0))
  | none => s.retrainOf link none
/-- `NAK_REPLAY` (R424, R426): everything from the named flit on is sent again; the eighth NAK of one flit retrains the link. -/
def execNakReplay (link : Nat) (seq : BitVec 12) (s : State) : Host.Outcome State Fault Refusal :=
  let l := s.link link
  let n := seq.toNat
  if 31 ≤ link || l.st != 0 then .next s
  else
    let naks := if l.naks != 0 && l.nakSeq == n then l.naks + 1 else 1
    let s := s.onLink link (fun l =>
      { l with replay := min 65535 (l.replay + (l.from_ n).length), naks := naks, nakSeq := n })
    .next (if 8 ≤ naks then s.retrain link else s)
/-- A crossing that has failed three retrainings is removed alone; the flits of its buffer are taken back as messages (R438, R439). A
link without crossings left is down. -/
def State.removeCrossing (s : State) (link : Nat) (p : Nat × Nat) : State :=
  let s := { s with removed := s.removed ++ [p] }
  let st := s.causewaySt link (s.link link).xtrain
  let s := s.onLink link (fun l => { l with st := st, buf := if st = 2 then [] else l.buf })
  if st = 2 then s.moduleEvent 4 link 0 0 0 else s
/-- `RETRAIN_END` (R426): the link, or the crossing that has retrained longest, comes up and replays its buffer, retrains again, or goes
down after three failures. -/
def execRetrainEnd (link : Nat) (up : Bool) (s : State) : Host.Outcome State Fault Refusal :=
  let l := s.link link
  match l.xtrain with
  | (p, fails) :: rest =>
    let s := s.onLink link (fun l => { l with xtrain := rest, st := s.causewaySt link rest })
    if up then
      .next ((s.onLink link (fun l => { l with replay := min 65535 (l.replay + l.buf.length) })).moduleEvent 3 link (fails + 1) 0 0)
    else .next (if fails + 1 < 3 then s.retrainOf link (some (p, fails + 1)) else s.removeCrossing link p)
  | [] =>
    if l.st != 1 then .next s
    else if up then
      .next ((s.onLink link (fun l =>
        { l with st := 0, retraining := false, fails := 0, replay := min 65535 (l.replay + l.buf.length) })).moduleEvent 3 link (l.fails + 1) 0 0)
    else
      let s := s.onLink link (fun l => { l with fails := l.fails + 1 })
      .next (if l.fails + 1 < 3 then s.retrainOf link none
        else (s.onLink link (fun l => { l with st := 2, retraining := false, buf := [] })).moduleEvent 4 link 0 0 0)

/-! ### Temperature (R316, R437) -/

/-- The households that hold a cluster of a die. -/
def State.onDieHids (s : State) (die : Nat) : List Nat :=
  ((s.holders.filter (fun g => (s.groupClusters g).any (fun cl => cl / 80 == die))).map (fun g => g.hid)).eraseDups
/-- `SENSOR_READ` (R437): the hottest reading of a die in 0.1 °C. At 105 °C the rank is 3 and the households of the die are
killed; the die takes no dispatch until it reads below 95 °C. -/
def execSensorRead (die temp : Nat) (s : State) : Host.Outcome State Fault Refusal :=
  if 4 ≤ die then .next s
  else if s.tickPending then .next (s.next (.sensorRead die temp))
  else
    let rank (n : Nat) (s : State) : State := s.onPorch (fun p =>
      { p with thr := p.thr % 2 ^ (2 * die) + n % 4 * 2 ^ (2 * die) + p.thr / 2 ^ (2 * die + 2) * 2 ^ (2 * die + 2) })
    let hot := (s.dieAt die).overheat
    if 1050 ≤ temp then
      if hot then .next (rank 3 s)
      else
        let s := ((rank 3 s).onDie die (fun d => { d with overheat := true })).moduleEvent 0x0A die temp 0 0
        .next ((s.onDieHids die).foldl State.killNow s)
    else if hot && 950 ≤ temp then .next s
    else .next (rank (Config.thermalRank temp) (s.onDie die (fun d => { d with overheat := false })))

end Sys2Proof.Machine
end

