-- ==== Sys2Proof/Machine/Security.lean ====
section
/-! DEFINITION. Security alarms (R446, R447), signed blocks (R451) and the debug credential (R452). -/
namespace Sys2Proof.Machine

/-! ### Alarms -/

/-- The policy of an alarm class. -/
def State.policy (s : State) (cls : Nat) : Nat := bits s.porch.almpol (2 * cls) 2
/-- A household that an alarm of a policy kills. -/
def Household.killedBy (h : Household) (p : Nat) : Bool := h.alive && (p == 3 || ((p == 1 || p == 2) && h.secured))
/-- `SECURITY_ALARM` (R446, R447): ALMSTAT records the class, AER the alarm; the kill falls 4,096 cycles later (R390), and the rest of the action
in the same cycle. -/
def execSecurityAlarm (cls : Nat) (s : State) : Host.Outcome State Fault Refusal :=
  if 5 ≤ cls then .next s
  else
    let p := s.policy cls
    let s := s.onPorch (fun y => { y with almstat := y.almstat ||| 2 ^ cls, aer := y.aer + 1 })
    let s := (s.households.filter (fun h => h.2.killedBy p)).foldl (fun s h => s.armKill h.1 (s.gts + 4096) 258) s
    .next (s.stepAt (s.gts + 4096) (.alarmAction cls))
/-- The keys of some households and of their peats are erased, and their SAVECNT with them (R343, R447). -/
def State.wipe (s : State) (f : Household → Bool) : State :=
  (s.households.filter (fun h => f h.2)).foldl (fun s h => s.eraseKeys h.1) s
/-- `ALARM_ACTION` (R446, R447): a household that the policy kills by now is stopped in this cycle, if its kill has not been fixed yet;
policy 2 erases the keys of protected and TDISP-bound households and of their peats, policy 3 every key, and stops dispatch until cold
reset. -/
def execAlarmAction (cls : Nat) (s : State) : Host.Outcome State Fault Refusal :=
  let p := s.policy cls
  let s := (s.households.filter (fun h => h.2.killedBy p && !(s.queue h.2.queue).killStop.now s)).foldl (fun s h =>
    (s.armKill h.1 s.gts 258).next (.killStop h.1)) s
  match p with
  | 2 =>
    let s := s.wipe Household.secured
    .next { s with peats := s.peats.map (fun (p : Nat × Peat) => (p.1, if p.2.sealed_ then { p.2 with pk := none } else p.2)) }
  | 3 =>
    let s := s.wipe (fun _ => true)
    .next ({ s with peats := s.peats.map (fun (p : Nat × Peat) => (p.1, { p.2 with pk := none })) }.onPorch (fun y =>
      { y with dispatchOff := true }))
  | _ => .next s

/-! ### Signed blocks (R451) -/

/-- One bit of the CRC-64: polynomial 0x42F0_E1EB_A9EA_3693, the highest bit first. -/
def crcBit (crc : BitVec 64) : BitVec 64 := if crc.getLsbD 63 then (crc <<< 1) ^^^ 0x42F0E1EBA9EA3693#64 else crc <<< 1
/-- One byte of the CRC-64. -/
def crcByte (crc : BitVec 64) (b : Byte) : BitVec 64 :=
  (List.range 8).foldl (fun c _ => crcBit c) (crc ^^^ (b.setWidth 64 <<< 56))
/-- The CRC-64 of bytes in ascending address; initial value and final xor are zero. -/
def crc64 (bs : List Byte) : BitVec 64 := bs.foldl crcByte 0
/-- `SIGNATURE_CHECK` (R448, R451): entry idx of a queue's table; the leader checks it while the household runs. An entry that
cannot be read is skipped. -/
def execSignatureCheck (q idx : Nat) (s : State) : Host.Outcome State Fault Refusal :=
  let x := s.queue q
  match x.hid with
  | none => .next s
  | some hid =>
    if !s.leaderActs || !(s.household hid).alive || (s.household hid).asleep || x.swState != 0 || x.sigbCount ≤ idx then .next s
    else if s.vaBusy hid (4096 * x.sigbBase + 32 * idx) then .next (s.stepAt (s.gts + 1) (.signatureCheck q idx))
    else
      let s := (s.checkBytes hid (4096 * x.sigbBase + 32 * idx) 32).1
      match s.getBytes hid (4096 * x.sigbBase + 32 * idx) 32 with
      | .error _ => .next s
      | .ok e =>
        let v := natOfBytes e
        let s := (s.checkBytes hid (bits v 0 64) (bits v 64 32)).1
        match s.getBytes hid (bits v 0 64) (bits v 64 32) with
        | .error _ => .next s
        | .ok bs =>
          if (crc64 bs).toNat = bits v 128 64 then .next s
          else
            .next (s.record q 2
              (packRecord [(1, 4), (1, 3), (2, 0), (4, 0), (8, bits v 0 64), (8, s.gts), (8, idx)]) none)

/-! ### The debug credential (R452) -/

/-- `DBGUNLK`: a matching credential unlocks the household until it ends; another one is an alarm of class 4. An unprotected
household is unlocked as it is. -/
def execDbgunlk (q : Nat) (val : BitVec 64) (s : State) : Host.Outcome State Fault Refusal :=
  match (s.queue q).hid with
  | none => .next s
  | some hid =>
    if val = (s.household hid).cred then .next (s.onHousehold hid (fun h => { h with unlocked := true }))
    else .next (s.next (.securityAlarm 4))

end Sys2Proof.Machine
end

