-- ==== Sys2Proof/Machine/Debug.lean ====
section
/-! DEFINITION. The debug module of a core (R453 to R457), GTS triggers (R461), droop capture (R465) and rereading HEAD of the
memory-order log (R469). -/
namespace Sys2Proof.Machine

/-- The core runs a task of a protected household that is not unlocked (R452). -/
def State.debugLocked (s : State) (core : Nat) : Bool :=
  match (s.coreOf core).hid with
  | none => false
  | some h => (s.household h).prot && !(s.household h).unlocked
/-- The cores that a debug command treats in the same way: the members of a gang (R49, R454). -/
def State.debugGroup (s : State) (core : Nat) : List Nat :=
  match (s.coreOf core).gang with
  | some g => g.members
  | none => [core]
def State.onDebug (s : State) (core : Nat) (f : Debug → Debug) : State := s.onCore core (fun x => { x with dbg := f x.dbg })
/-- `DEBUG_STOP` (R454): arms a stop at max(DBGGTS, W + 64). -/
def execDebugStop (core : Nat) (s : State) : Host.Outcome State Fault Refusal :=
  let d := (s.coreOf core).dbg
  if s.debugLocked core || d.armed || d.stopped then .next s
  else
    let g := max d.gts (s.gts + 64)
    .next ((s.debugGroup core).foldl (fun s c =>
      (s.onDebug c (fun d => { d with armed := true, stopAt := g })).stepAt g (.debugStopTake c)) s)
/-- `DEBUG_STOP_TAKE` (R454): from the start of this cycle the core issues nothing. -/
def execDebugStopTake (core : Nat) (s : State) : Host.Outcome State Fault Refusal :=
  let d := (s.coreOf core).dbg
  if d.armed && s.isAt d.stopAt then
    .next ((s.debugGroup core).foldl (fun s c =>
      s.onDebug c (fun d => { d with armed := false, stopped := true, steps := 0, gts := s.gts, stepReq := none })) s)
  else .next s
/-- `DEBUG_RUN` (R454): the core issues again from the next cycle. -/
def execDebugRun (core : Nat) (s : State) : Host.Outcome State Fault Refusal :=
  if s.debugLocked core then .next s
  else
    .next ((s.debugGroup core).foldl (fun s c =>
      s.onDebug c (fun d => { d with armed := false, stopped := false, stepReq := none, resume := d.stopped && s.turn.contains c })) s)
/-- `DEBUG_STEP` (R456): one step of a live context, taken as soon as the context is ready. -/
def execDebugStep (core ctx : Nat) (s : State) : Host.Outcome State Fault Refusal :=
  let x := s.coreOf core
  if s.debugLocked core || !x.dbg.stopped || 10 < ctx || !(x.ctx ctx).live then .next s
  else .next ((s.debugGroup core).foldl (fun s c => s.onDebug c (fun d => { d with stepReq := some ctx })) s)
/-- The bytes of a snapshot (R457): the core section and one section for each live context, plain, the tags zero. -/
def State.snapshotBytes (s : State) (core : Nat) : List Byte :=
  let x := s.coreOf core
  let secs := Section.plain 2 0 core (s.corePayload core) ::
    ((List.range 11).filter (fun i => (x.ctx i).live)).map (fun i => Section.plain 1 i core (s.ctxPayload core i))
  sectionsBytes secs 0 false [] none 0
/-- `DEBUG_SNAPSHOT` (R452, R457). -/
def execDebugSnapshot (core : Nat) (s : State) : Host.Outcome State Fault Refusal :=
  let d := (s.coreOf core).dbg
  if s.debugLocked core || !d.stopped || d.snapBusy then .next s
  else
    let s := s.matrixAdvance core (s.gts - 1)
    let s := { s with host := s.host.writeBytes (pfHost + s.porch.dbgva) (s.snapshotBytes core) }
    .next ((s.onDebug core (fun d => { d with snapBusy := true })).soon (.snapshotDone core))
/-- `SNAPSHOT_DONE` (R457). -/
def execSnapshotDone (core : Nat) (s : State) : Host.Outcome State Fault Refusal :=
  .next (s.onDebug core (fun d => { d with snapBusy := false }))
/-- `TRACE_GTS_TRIGGER` (R461, R462): the window state of a core in a cycle in which it issues no pair. -/
def execTraceGtsTrigger (core : Nat) (s : State) : Host.Outcome State Fault Refusal := .next (s.traceWindow core none none)
/-- One sample of a droop capture: the last pair that the core issued by cycle D (R465). -/
def State.droopSample (s : State) (core d : Nat) : Nat :=
  if s.debugLocked core then 0
  else
    match (s.coreOf core).lastPair with
    | none => 0
    | some (g, ctx, pc) => pc % 2 ^ 19 + ctx % 16 * 2 ^ 19 + ofBool (g == d) * 2 ^ 23
/-- `DROOP_DETECT` (R465): D is the cycle that has just ended. The count advances; an image is captured unless one was made in
the preceding 19,000 cycles. -/
def execDroopDetect (die : Nat) (below mv : BitVec 32) (s : State) : Host.Outcome State Fault Refusal :=
  if 4 ≤ die then .next s
  else
    let at_ := s.gts - 1
    let d := s.dieAt die
    let j := d.droops % 16
    let s := s.onDie die (fun d => { d with droops := min 65535 (d.droops + 1) })
    let recent : Bool := match d.captured with
      | some g => decide (at_ ≤ g + 19000)
      | none => false
    if !s.porch.drpEn || recent then .next s
    else
      let head := fieldBytes [(2, 1), (1, die), (1, 0), (4, below.toNat), (4, mv.toNat), (4, 0), (8, at_ % 2 ^ 64), (40, 0)]
      let body := (List.range 1280).flatMap (fun i => bytesOf 4 (s.droopSample (1280 * die + i) at_))
      let s := { s with host := s.host.writeBytes (pfHost + 4096 * s.porch.drpb + 8192 * (16 * die + j)) (head ++ body) }
      .next (s.onDie die (fun d => { d with captured := some at_ }))
/-- `MOL_HEAD_REREAD` (R469): a context that waits for room in its log examines its pair again with HEAD as it stands. -/
def execMolHeadReread (core ctx : Nat) (s : State) : Host.Outcome State Fault Refusal :=
  .next (s.onCtx core ctx (fun c => if c.wait == .molRoom then { c with wait := .none } else c))

end Sys2Proof.Machine
end

