-- ==== Sys2Proof/Machine/Words.lean ====
section
/-! DEFINITION. What pairs need of their words: destinations (R378), vector fields (R120), and the meaning of every encoded
word, for the repetition buffer (R51). -/
namespace Sys2Proof.Machine

/-- The registers that a word names as destinations (R378). -/
def destsOf (i : Instr) : List RegId :=
  match i with
  | .syncT _ d _ => [.s d.toNat]
  | .ktst _ d _ => [.s d.toNat]
  | .spawn _ d _ _ _ => [.s d.toNat]
  | .call _ _ => [.s 31]
  | .jal _ d _ => [.s d.toNat]
  | .getc _ d _ => [.s d.toNat]
  | .gts _ r => [.s r.toNat]
  | .ewait _ d _ => [.s d.toNat]
  | .ldb _ d _ _ => [.s d.toNat]
  | .ldbN _ d _ _ => [.s d.toNat]
  | .ldh _ d _ _ => [.s d.toNat]
  | .ldhN _ d _ _ => [.s d.toNat]
  | .ldw _ d _ _ => [.s d.toNat]
  | .ldwN _ d _ _ => [.s d.toNat]
  | .ldd _ d _ _ => [.s d.toNat]
  | .take _ d _ _ => [.s d.toNat]
  | .ldbX _ d _ _ => [.s d.toNat]
  | .ldbNX _ d _ _ => [.s d.toNat]
  | .ldhX _ d _ _ => [.s d.toNat]
  | .ldhNX _ d _ _ => [.s d.toNat]
  | .ldwX _ d _ _ => [.s d.toNat]
  | .ldwNX _ d _ _ => [.s d.toNat]
  | .lddX _ d _ _ => [.s d.toNat]
  | .ldv _ v _ _ => [.v v.toNat]
  | .ldvs _ v _ _ => [.v v.toNat]
  | .ldvx _ v _ _ => [.v v.toNat]
  | .inbx _ v => [.v v.toNat]
  | .inbxT _ v d _ => [.v v.toNat, .s d.toNat]
  | .amoAdd _ d _ _ _ _ => [.s d.toNat]
  | .amoMin _ d _ _ _ _ => [.s d.toNat]
  | .amoMax _ d _ _ _ _ => [.s d.toNat]
  | .amoAnd _ d _ _ _ _ => [.s d.toNat]
  | .amoOr _ d _ _ _ _ => [.s d.toNat]
  | .amoXor _ d _ _ _ _ => [.s d.toNat]
  | .amoSwp _ d _ _ _ _ => [.s d.toNat]
  | .amoCas _ d _ _ _ _ => [.s d.toNat]
  | .mrd _ v _ _ _ => [.v v.toNat]
  | .pmount _ d _ _ => [.s d.toNat]
  | .pinfo _ d _ => [.s d.toNat]
  | .ctap _ v _ _ _ => [.v v.toNat]
  | .cinfo _ d _ => [.s d.toNat]
  | .previve _ d _ _ => [.s d.toNat]
  | .hinfo _ d _ _ => [.s d.toNat]
  | .hldv _ v _ _ => [.v v.toNat]
  | .pres _ d _ => [.s d.toNat]
  | .pacq _ d _ => [.s d.toNat]
  | .add d _ _ _ => [.s d.toNat]
  | .sub d _ _ _ => [.s d.toNat]
  | .mul d _ _ _ => [.s d.toNat]
  | .mulh d _ _ _ => [.s d.toNat]
  | .div d _ _ _ => [.s d.toNat]
  | .rem d _ _ _ => [.s d.toNat]
  | .and d _ _ _ => [.s d.toNat]
  | .or d _ _ _ => [.s d.toNat]
  | .xor d _ _ _ => [.s d.toNat]
  | .shl d _ _ _ => [.s d.toNat]
  | .shr d _ _ _ => [.s d.toNat]
  | .sra d _ _ _ => [.s d.toNat]
  | .min d _ _ _ => [.s d.toNat]
  | .max d _ _ _ => [.s d.toNat]
  | .cmp p _ _ _ _ => [.p p.toNat]
  | .sel d _ _ _ => [.s d.toNat]
  | .clz d _ _ => [.s d.toNat]
  | .popc d _ _ => [.s d.toNat]
  | .lih d _ => [.s d.toNat]
  | .adr d _ _ => [.s d.toNat]
  | .andI d _ _ => [.s d.toNat]
  | .orI d _ _ => [.s d.toNat]
  | .xorI d _ _ => [.s d.toNat]
  | .shlI d _ _ => [.s d.toNat]
  | .shrI d _ _ => [.s d.toNat]
  | .sraI d _ _ => [.s d.toNat]
  | .minI d _ _ => [.s d.toNat]
  | .maxI d _ _ => [.s d.toNat]
  | .cmpI p _ _ _ _ => [.p p.toNat]
  | .faddF32 d _ _ => [.s d.toNat]
  | .fmulF32 d _ _ => [.s d.toNat]
  | .ffmaF32 d _ _ _ => [.s d.toNat]
  | .fcvt d _ _ _ => [.s d.toNat]
  | .pset d _ => [.p d.toNat]
  | .pand d _ _ => [.p d.toNat]
  | .por d _ _ => [.p d.toNat]
  | .pnot d _ => [.p d.toNat]
  | .vadd d _ _ _ _ => [.v d.toNat]
  | .vsub d _ _ _ _ => [.v d.toNat]
  | .vmul d _ _ _ _ => [.v d.toNat]
  | .vfma d _ _ _ _ => [.v d.toNat]
  | .vfms d _ _ _ _ => [.v d.toNat]
  | .vmin d _ _ _ _ => [.v d.toNat]
  | .vmax d _ _ _ _ => [.v d.toNat]
  | .vand d _ _ _ _ => [.v d.toNat]
  | .vor d _ _ _ _ => [.v d.toNat]
  | .vxor d _ _ _ _ => [.v d.toNat]
  | .vshl d _ _ _ _ => [.v d.toNat]
  | .vshr d _ _ _ _ => [.v d.toNat]
  | .vclamp d _ _ _ _ => [.v d.toNat]
  | .vperm d _ _ _ _ => [.v d.toNat]
  | .vdotI8 d _ _ _ => [.v d.toNat]
  | .vsel d _ _ _ _ => [.v d.toNat]
  | .vcmp d _ _ _ _ _ => [.p d.toNat]
  | .vabs d _ _ _ => [.v d.toNat]
  | .vneg d _ _ _ => [.v d.toNat]
  | .vrcp d _ _ _ => [.v d.toNat]
  | .vrsqrt d _ _ _ => [.v d.toNat]
  | .vexp2 d _ _ _ => [.v d.toNat]
  | .vlog2 d _ _ _ => [.v d.toNat]
  | .vcvt d _ _ _ _ => [.v d.toNat]
  | .vred d _ _ _ _ => [.v d.toNat]
  | .vbcast d _ _ _ => [.v d.toNat]
  | .vsplat d _ _ _ => [.v d.toNat]
  | .vext d _ _ => [.s d.toNat]
  | .vins d _ _ => [.v d.toNat]
  | .vaddS d _ _ _ _ => [.v d.toNat]
  | .vsubS d _ _ _ _ => [.v d.toNat]
  | .vmulS d _ _ _ _ => [.v d.toNat]
  | .vfmaS d _ _ _ _ => [.v d.toNat]
  | .vfmsS d _ _ _ _ => [.v d.toNat]
  | .vminS d _ _ _ _ => [.v d.toNat]
  | .vmaxS d _ _ _ _ => [.v d.toNat]
  | .vandS d _ _ _ _ => [.v d.toNat]
  | .vorS d _ _ _ _ => [.v d.toNat]
  | .vxorS d _ _ _ _ => [.v d.toNat]
  | .vshlS d _ _ _ _ => [.v d.toNat]
  | .vshrS d _ _ _ _ => [.v d.toNat]
  | .vcmpS d _ _ _ _ _ => [.p d.toNat]
  | _ => []
/-- Both words name one destination; s0 and p0 do not count (R378). -/
def sameDest (c a : Instr) : Bool := (destsOf c).any (fun r => !r.fixed && (destsOf a).contains r)

/-- A recorded word with its 6-bit vector fields renamed (R120). -/
def mapVectors (f : BitVec 6 → BitVec 6) (i : Instr) : Instr :=
  match i with
  | .vadd d a b t p => .vadd (f d) (f a) (f b) t p
  | .vsub d a b t p => .vsub (f d) (f a) (f b) t p
  | .vmul d a b t p => .vmul (f d) (f a) (f b) t p
  | .vfma d a b t p => .vfma (f d) (f a) (f b) t p
  | .vfms d a b t p => .vfms (f d) (f a) (f b) t p
  | .vmin d a b t p => .vmin (f d) (f a) (f b) t p
  | .vmax d a b t p => .vmax (f d) (f a) (f b) t p
  | .vand d a b t p => .vand (f d) (f a) (f b) t p
  | .vor d a b t p => .vor (f d) (f a) (f b) t p
  | .vxor d a b t p => .vxor (f d) (f a) (f b) t p
  | .vshl d a b t p => .vshl (f d) (f a) (f b) t p
  | .vshr d a b t p => .vshr (f d) (f a) (f b) t p
  | .vclamp d a b t p => .vclamp (f d) (f a) (f b) t p
  | .vperm d a b t p => .vperm (f d) (f a) (f b) t p
  | .vdotI8 d a b p => .vdotI8 (f d) (f a) (f b) p
  | .vsel d a b t p => .vsel (f d) (f a) (f b) t p
  | .vcmp d c a b t p => .vcmp d c (f a) (f b) t p
  | .vabs d a t p => .vabs (f d) (f a) t p
  | .vneg d a t p => .vneg (f d) (f a) t p
  | .vrcp d a t p => .vrcp (f d) (f a) t p
  | .vrsqrt d a t p => .vrsqrt (f d) (f a) t p
  | .vexp2 d a t p => .vexp2 (f d) (f a) t p
  | .vlog2 d a t p => .vlog2 (f d) (f a) t p
  | .vcvt d a x y p => .vcvt (f d) (f a) x y p
  | .vred d a o t p => .vred (f d) (f a) o t p
  | .vbcast d a e p => .vbcast (f d) (f a) e p
  | .vsplat d sl t p => .vsplat (f d) sl t p
  | .vext d a e => .vext d (f a) e
  | .vins d sl e => .vins (f d) sl e
  | .vaddS d a sl t p => .vaddS (f d) (f a) sl t p
  | .vsubS d a sl t p => .vsubS (f d) (f a) sl t p
  | .vmulS d a sl t p => .vmulS (f d) (f a) sl t p
  | .vfmaS d a sl t p => .vfmaS (f d) (f a) sl t p
  | .vfmsS d a sl t p => .vfmsS (f d) (f a) sl t p
  | .vminS d a sl t p => .vminS (f d) (f a) sl t p
  | .vmaxS d a sl t p => .vmaxS (f d) (f a) sl t p
  | .vandS d a sl t p => .vandS (f d) (f a) sl t p
  | .vorS d a sl t p => .vorS (f d) (f a) sl t p
  | .vxorS d a sl t p => .vxorS (f d) (f a) sl t p
  | .vshlS d a sl t p => .vshlS (f d) (f a) sl t p
  | .vshrS d a sl t p => .vshrS (f d) (f a) sl t p
  | .vcmpS d c a sl t p => .vcmpS d c (f a) sl t p
  | i => i

/-- The meaning of an encoded word or of one with an illegal opcode; the arms of `exec` for these words. -/
def runWord (i : Instr) (s : State) : Host.Outcome State Fault Refusal :=
  match i with
  | .nop hd => execNop hd s
  | .dly hd c => execDly hd c s
  | .yield hd => execYield hd s
  | .halt hd => execHalt hd s
  | .ret hd => execRet hd s
  | .eret hd => execEret hd s
  | .gsplit hd => execGsplit hd s
  | .sync hd => execSync hd s
  | .syncT hd d sl => execSyncT hd d sl s
  | .gang hd hh x y => execGang hd hh x y s
  | .kwait hd k b => execKwait hd k b s
  | .ktst hd d k => execKtst hd d k s
  | .spawn hd d a b q => execSpawn hd d a b q s
  | .rbRec hd c => execRbRec hd c s
  | .rbRun hd a b => execRbRun hd a b s
  | .brT hd p o => execBrT hd p o s
  | .brF hd p o => execBrF hd p o s
  | .brAny hd p o => execBrAny hd p o s
  | .brNone hd p o => execBrNone hd p o s
  | .jmp hd o => execJmp hd o s
  | .call hd o => execCall hd o s
  | .jal hd d o => execJal hd d o s
  | .jr hd r => execJr hd r s
  | .trap hd c => execTrap hd c s
  | .sig hd a imm => execSig hd a imm s
  | .getc hd d c => execGetc hd d c s
  | .setc hd a c => execSetc hd a c s
  | .gts hd r => execGts hd r s
  | .tmark hd a imm => execTmark hd a imm s
  | .ewait hd d a => execEwait hd d a s
  | .esig hd a b => execEsig hd a b s
  | .ldb hd d a o => execLdb hd d a o s
  | .ldbN hd d a o => execLdbN hd d a o s
  | .ldh hd d a o => execLdh hd d a o s
  | .ldhN hd d a o => execLdhN hd d a o s
  | .ldw hd d a o => execLdw hd d a o s
  | .ldwN hd d a o => execLdwN hd d a o s
  | .ldd hd d a o => execLdd hd d a o s
  | .stb hd v a o => execStb hd v a o s
  | .sth hd v a o => execSth hd v a o s
  | .stw hd v a o => execStw hd v a o s
  | .std hd v a o => execStd hd v a o s
  | .take hd d a o => execTake hd d a o s
  | .give hd v a o => execGive hd v a o s
  | .feSet hd f a o => execFeSet hd f a o s
  | .ldbX hd d a b => execLdbX hd d a b s
  | .ldbNX hd d a b => execLdbNX hd d a b s
  | .ldhX hd d a b => execLdhX hd d a b s
  | .ldhNX hd d a b => execLdhNX hd d a b s
  | .ldwX hd d a b => execLdwX hd d a b s
  | .ldwNX hd d a b => execLdwNX hd d a b s
  | .lddX hd d a b => execLddX hd d a b s
  | .stbX hd v a b => execStbX hd v a b s
  | .sthX hd v a b => execSthX hd v a b s
  | .stwX hd v a b => execStwX hd v a b s
  | .stdX hd v a b => execStdX hd v a b s
  | .ldv hd v a o => execLdv hd v a o s
  | .stv hd v a o => execStv hd v a o s
  | .ldvs hd v a b => execLdvs hd v a b s
  | .ldvx hd v a imm => execLdvx hd v a imm s
  | .stvx hd v a imm => execStvx hd v a imm s
  | .alb hd a => execAlb hd a s
  | .ale hd => execAle hd s
  | .fenceAcq hd sl => execFenceAcq hd sl s
  | .fenceRel hd sl => execFenceRel hd sl s
  | .fenceAr hd sl => execFenceAr hd sl s
  | .inbx hd v => execInbx hd v s
  | .inbxT hd v d sl => execInbxT hd v d sl s
  | .amoAdd hd d a b z u => execAmoAdd hd d a b z u s
  | .amoMin hd d a b z u => execAmoMin hd d a b z u s
  | .amoMax hd d a b z u => execAmoMax hd d a b z u s
  | .amoAnd hd d a b z u => execAmoAnd hd d a b z u s
  | .amoOr hd d a b z u => execAmoOr hd d a b z u s
  | .amoXor hd d a b z u => execAmoXor hd d a b z u s
  | .amoSwp hd d a b z u => execAmoSwp hd d a b z u s
  | .amoCas hd d a b z u => execAmoCas hd d a b z u s
  | .redAdd hd a b z u => execRedAdd hd a b z u s
  | .redMin hd a b z u => execRedMin hd a b z u s
  | .redMax hd a b z u => execRedMax hd a b z u s
  | .redAnd hd a b z u => execRedAnd hd a b z u s
  | .redOr hd a b z u => execRedOr hd a b z u s
  | .redXor hd a b z u => execRedXor hd a b z u s
  | .msend hd e v k => execMsend hd e v k s
  | .mxq hd a k => execMxq hd a k s
  | .mma hd m a b k => execMma hd m a b k s
  | .mzero hd m => execMzero hd m s
  | .mrd hd v t sl k => execMrd hd v t sl k s
  | .mldB hd a b k c => execMldB hd a b k c s
  | .pmount hd d a k => execPmount hd d a k s
  | .punmount hd a => execPunmount hd a s
  | .pinfo hd d a => execPinfo hd d a s
  | .cadd hd c v k => execCadd hd c v k s
  | .caddTile hd c t k => execCaddTile hd c t k s
  | .ctap hd v c k f => execCtap hd v c k f s
  | .cscrub hd c k => execCscrub hd c k s
  | .cspill hd c a k f => execCspill hd c a k f s
  | .cfill hd c a k f => execCfill hd c a k f s
  | .cinfo hd d c => execCinfo hd d c s
  | .previve hd d a k => execPrevive hd d a k s
  | .hnew hd hh a b => execHnew hd hh a b s
  | .hmov hd hh g => execHmov hd hh g s
  | .hsplit hd x a b c imm => execHsplit hd x a b c imm s
  | .hjoin hd hh a b k => execHjoin hd hh a b k s
  | .hsend hd a e => execHsend hd a e s
  | .hrecv hd hh => execHrecv hd hh s
  | .hinfo hd d a f => execHinfo hd d a f s
  | .hfree hd hh => execHfree hd hh s
  | .hldv hd v a imm => execHldv hd v a imm s
  | .hstv hd v a imm => execHstv hd v a imm s
  | .sget hd a k => execSget hd a k s
  | .sput hd a k => execSput hd a k s
  | .sgat hd a k => execSgat hd a k s
  | .sred hd a k => execSred hd a k s
  | .scol hd a k => execScol hd a k s
  | .pinit hd a => execPinit hd a s
  | .pres hd d a => execPres hd d a s
  | .pcmt hd a => execPcmt hd a s
  | .pacq hd d a => execPacq hd d a s
  | .prel hd a => execPrel hd a s
  | .aNop => execANop s
  | .add d a b t => execAdd d a b t s
  | .sub d a b t => execSub d a b t s
  | .mul d a b t => execMul d a b t s
  | .mulh d a b t => execMulh d a b t s
  | .div d a b t => execDiv d a b t s
  | .rem d a b t => execRem d a b t s
  | .and d a b t => execAnd d a b t s
  | .or d a b t => execOr d a b t s
  | .xor d a b t => execXor d a b t s
  | .shl d a b t => execShl d a b t s
  | .shr d a b t => execShr d a b t s
  | .sra d a b t => execSra d a b t s
  | .min d a b t => execMin d a b t s
  | .max d a b t => execMax d a b t s
  | .cmp p c a b t => execCmp p c a b t s
  | .sel d a b p => execSel d a b p s
  | .clz d a t => execClz d a t s
  | .popc d a t => execPopc d a t s
  | .lih d imm => execLih d imm s
  | .adr d a imm => execAdr d a imm s
  | .andI d a imm => execAndI d a imm s
  | .orI d a imm => execOrI d a imm s
  | .xorI d a imm => execXorI d a imm s
  | .shlI d a imm => execShlI d a imm s
  | .shrI d a imm => execShrI d a imm s
  | .sraI d a imm => execSraI d a imm s
  | .minI d a imm => execMinI d a imm s
  | .maxI d a imm => execMaxI d a imm s
  | .cmpI p c a t imm => execCmpI p c a t imm s
  | .faddF32 d a b => execFaddF32 d a b s
  | .fmulF32 d a b => execFmulF32 d a b s
  | .ffmaF32 d a b c => execFfmaF32 d a b c s
  | .fcvt d a x y => execFcvt d a x y s
  | .pset d a => execPset d a s
  | .pand d a b => execPand d a b s
  | .por d a b => execPor d a b s
  | .pnot d a => execPnot d a s
  | .vadd d a b t p => execVadd d a b t p s
  | .vsub d a b t p => execVsub d a b t p s
  | .vmul d a b t p => execVmul d a b t p s
  | .vfma d a b t p => execVfma d a b t p s
  | .vfms d a b t p => execVfms d a b t p s
  | .vmin d a b t p => execVmin d a b t p s
  | .vmax d a b t p => execVmax d a b t p s
  | .vand d a b t p => execVand d a b t p s
  | .vor d a b t p => execVor d a b t p s
  | .vxor d a b t p => execVxor d a b t p s
  | .vshl d a b t p => execVshl d a b t p s
  | .vshr d a b t p => execVshr d a b t p s
  | .vclamp d a b t p => execVclamp d a b t p s
  | .vperm d a b t p => execVperm d a b t p s
  | .vdotI8 d a b p => execVdotI8 d a b p s
  | .vsel d a b t p => execVsel d a b t p s
  | .vcmp d c a b t p => execVcmp d c a b t p s
  | .vabs d a t p => execVabs d a t p s
  | .vneg d a t p => execVneg d a t p s
  | .vrcp d a t p => execVrcp d a t p s
  | .vrsqrt d a t p => execVrsqrt d a t p s
  | .vexp2 d a t p => execVexp2 d a t p s
  | .vlog2 d a t p => execVlog2 d a t p s
  | .vcvt d a x y p => execVcvt d a x y p s
  | .vred d a o t p => execVred d a o t p s
  | .vbcast d a e p => execVbcast d a e p s
  | .vsplat d sl t p => execVsplat d sl t p s
  | .vext d a e => execVext d a e s
  | .vins d sl e => execVins d sl e s
  | .vaddS d a sl t p => execVaddS d a sl t p s
  | .vsubS d a sl t p => execVsubS d a sl t p s
  | .vmulS d a sl t p => execVmulS d a sl t p s
  | .vfmaS d a sl t p => execVfmaS d a sl t p s
  | .vfmsS d a sl t p => execVfmsS d a sl t p s
  | .vminS d a sl t p => execVminS d a sl t p s
  | .vmaxS d a sl t p => execVmaxS d a sl t p s
  | .vandS d a sl t p => execVandS d a sl t p s
  | .vorS d a sl t p => execVorS d a sl t p s
  | .vxorS d a sl t p => execVxorS d a sl t p s
  | .vshlS d a sl t p => execVshlS d a sl t p s
  | .vshrS d a sl t p => execVshrS d a sl t p s
  | .vcmpS d c a sl t p => execVcmpS d c a sl t p s
  | .cReservedNop hd op rest => execCReservedNop hd op rest s
  | .aReservedNop op rest => execAReservedNop op rest s
  | .illegalOpcode slot word => execIllegalOpcode slot word s
  | _ => .next s

end Sys2Proof.Machine
end

