-- ==== Sys2Proof/Machine/Replay.lean ====
section
/-! DEFINITION. Fetching a pair (R71), issuing it whole or not at all (R76, R93, R378), and the repetition buffer's sequencer
(R51, R120). -/
namespace Sys2Proof.Machine

/-! ### The words of a pair -/

/-- What a C-slot word stands for: its instruction, or the illegal opcode or field (R89, R91). -/
def cInstr (w : BitVec 32) : Instr :=
  match decodeC w with
  | .ok i => i
  | .error _ => .illegalOpcode 1 w
/-- What an A-slot word stands for. -/
def aInstr (w : BitVec 32) : Instr :=
  match decodeA w with
  | .ok i => i
  | .error _ => .illegalOpcode 2 w
/-- A word that is no instruction. -/
def illegalWord (i : Instr) : Bool :=
  match i with
  | .illegalOpcode _ _ => true
  | _ => false
/-- The pair at a C-slot position: its words, and the next C-slot position (R71). A lone word has the A-slot `nop`. -/
def State.pairAt (s : State) (pc : Word) : Instr × Instr × Word :=
  let w := s.wordAt pc.toNat
  if w.getLsbD 31 then (cInstr w, .aNop, pc + 4) else (cInstr w, aInstr (s.wordAt (pc.toNat + 4)), pc + 8)
/-- The A-slot word that stands at a position, for a recording (R119): a lone word has the A-slot `nop`. -/
def State.aWordAt (s : State) (pc : Word) : BitVec 32 :=
  if (s.wordAt pc.toNat).getLsbD 31 then 0x02000000 else s.wordAt (pc.toNat + 4)

/-! ### Issuing a pair -/

/-- A pair of the running context begins: its pending fixed writes count down (R42, R61). -/
def State.startPair (s : State) : State := { s.onMe Ctx.countDown with latch := .issued }
/-- Where the context goes unless a word of the pair sends it elsewhere. -/
def State.setNext (s : State) (npc : Word) : State := s.onMe (fun c => { c with npc := npc, jumped := false })
/-- The outcome of both words, in the order of R93 and R377: the C-slot word's wait, an illegal C-slot word, an illegal A-slot
word, one destination named twice (R378), the C-slot word's own wait, then of two precise conditions the lower cause; else
both words act, every operand read as it stood before the pair. The C-slot word acts
on the state after the A-slot word, so a `getc` or `setc` of CSTAT meets the UW bit that the A-slot word of its pair sets (log 33). -/
def runPair (run : Instr → State → Host.Outcome State Fault Refusal) (c a : Instr) (s : State) : Host.Outcome State Fault Refusal :=
  match run c s with
  | .next sc =>
    if sc.latch == .waits true || sc.latch == .trapped 1 then .next sc
    else
      match run a s with
      | .next sa =>
        if illegalWord a then .next sa
        else if sameDest c a then .next (s.enterTrap 1 1 3 false (wordOf c) s.me.pc)
        else
          match sc.latch, sa.latch with
          | .waits _, _ => .next sc
          | .trapped j, .trapped k => .next (if k < j then sa else sc)
          | .trapped _, _ => .next sc
          | .issued, .issued => run c sa
          | .issued, _ => .next sa
      | .fault r => .fault r
      | .refused r => .refused r
  | .fault r => .fault r
  | .refused r => .refused r

/-! ### The sequencer -/

/-- A vector field in a pass (R120). -/
def stagger (pass : Nat) (stag : Word) (v : BitVec 6) : BitVec 6 :=
  match (staggers stag).find? (fun e => e.1 == v.toNat) with
  | some e => BitVec.ofNat 6 (e.1 + pass * e.2)
  | none => v
/-- The next recorded word, or the pass after the last word, or the end with the switching events held back (R51). -/
def CoreSt.replayNext (x : CoreSt) : CoreSt :=
  match x.rbSt with
  | .replaying o pass passes idx stag sw =>
    if idx + 1 < x.rb.length then { x with rbSt := .replaying o pass passes (idx + 1) stag sw }
    else if pass + 1 < passes then { x with rbSt := .replaying o (pass + 1) passes 0 stag sw }
    else { x with rbSt := .idle, pass := x.pass || sw }
  | _ => x
/-- The sequencer goes on when its pair has issued. -/
def replayDone (r : Host.Outcome State Fault Refusal) : Host.Outcome State Fault Refusal :=
  match r with
  | .next t => if t.latch == .issued then .next (t.onHere CoreSt.replayNext) else .next t
  | r => r
/-- The recorded word as a pair with the context's next C-slot word, or with a C-slot `nop`; a `dly` in progress fills the C
slot (R51, R103). The context's own A-slot word is taken as the `nop` it must be. -/
def State.replayPair (s : State) (own : Bool) : Host.Outcome State Fault Refusal :=
  let c := s.me
  let nop : Instr := .nop (CHead.mk true 0 3)
  match s.here.rbSt with
  | .replaying o pass _ idx stag _ =>
    let a := mapVectors (stagger pass stag) (aInstr (s.here.rb.getD idx 0x02000000))
    if o ≠ s.here.run then .next s
    else if c.dlyRem ≠ 0 then replayDone (runPair runWord nop a ((s.setNext c.pc).onMe (fun c => { c with dlyRem := c.dlyRem - 1 })))
    else if !own then replayDone (runPair runWord nop a (s.setNext c.pc))
    else if c.aboveBound || s.badPosition then execFetchTrap s
    else replayDone (runPair runWord (s.pairAt c.pc).1 a (s.setNext (s.pairAt c.pc).2.2))
  | _ => .next s
/-- `REPLAYED_PAIR` (R51): with the context's next C-slot word if that can issue now, with a C-slot `nop` otherwise. -/
def execReplayedPair (s : State) : Host.Outcome State Fault Refusal :=
  match s.replayPair true with
  | .next t =>
    match t.latch with
    | .waits _ => s.replayPair false
    | _ => .next t
  | r => r

end Sys2Proof.Machine
end

