-- ==== Sys2Proof/Machine/Dispatch.lean ====
section
/-! DEFINITION. The meaning of every instruction and of every step of another unit, one arm per constructor. -/
namespace Sys2Proof.Machine

def exec (i : Instr) (s : State) : Host.Outcome State Fault Refusal :=
  match i with
  | .nop hd => Sys2Proof.Machine.execNop hd s
  | .dly hd c => Sys2Proof.Machine.execDly hd c s
  | .yield hd => Sys2Proof.Machine.execYield hd s
  | .halt hd => Sys2Proof.Machine.execHalt hd s
  | .ret hd => Sys2Proof.Machine.execRet hd s
  | .eret hd => Sys2Proof.Machine.execEret hd s
  | .gsplit hd => Sys2Proof.Machine.execGsplit hd s
  | .sync hd => Sys2Proof.Machine.execSync hd s
  | .syncT hd d sl => Sys2Proof.Machine.execSyncT hd d sl s
  | .gang hd hh x y => Sys2Proof.Machine.execGang hd hh x y s
  | .kwait hd k b => Sys2Proof.Machine.execKwait hd k b s
  | .ktst hd d k => Sys2Proof.Machine.execKtst hd d k s
  | .spawn hd d a b q => Sys2Proof.Machine.execSpawn hd d a b q s
  | .rbRec hd c => Sys2Proof.Machine.execRbRec hd c s
  | .rbRun hd a b => Sys2Proof.Machine.execRbRun hd a b s
  | .brT hd p o => Sys2Proof.Machine.execBrT hd p o s
  | .brF hd p o => Sys2Proof.Machine.execBrF hd p o s
  | .brAny hd p o => Sys2Proof.Machine.execBrAny hd p o s
  | .brNone hd p o => Sys2Proof.Machine.execBrNone hd p o s
  | .jmp hd o => Sys2Proof.Machine.execJmp hd o s
  | .call hd o => Sys2Proof.Machine.execCall hd o s
  | .jal hd d o => Sys2Proof.Machine.execJal hd d o s
  | .jr hd r => Sys2Proof.Machine.execJr hd r s
  | .trap hd c => Sys2Proof.Machine.execTrap hd c s
  | .sig hd a imm => Sys2Proof.Machine.execSig hd a imm s
  | .getc hd d c => Sys2Proof.Machine.execGetc hd d c s
  | .setc hd a c => Sys2Proof.Machine.execSetc hd a c s
  | .gts hd r => Sys2Proof.Machine.execGts hd r s
  | .tmark hd a imm => Sys2Proof.Machine.execTmark hd a imm s
  | .ewait hd d a => Sys2Proof.Machine.execEwait hd d a s
  | .esig hd a b => Sys2Proof.Machine.execEsig hd a b s
  | .ldb hd d a o => Sys2Proof.Machine.execLdb hd d a o s
  | .ldbN hd d a o => Sys2Proof.Machine.execLdbN hd d a o s
  | .ldh hd d a o => Sys2Proof.Machine.execLdh hd d a o s
  | .ldhN hd d a o => Sys2Proof.Machine.execLdhN hd d a o s
  | .ldw hd d a o => Sys2Proof.Machine.execLdw hd d a o s
  | .ldwN hd d a o => Sys2Proof.Machine.execLdwN hd d a o s
  | .ldd hd d a o => Sys2Proof.Machine.execLdd hd d a o s
  | .stb hd v a o => Sys2Proof.Machine.execStb hd v a o s
  | .sth hd v a o => Sys2Proof.Machine.execSth hd v a o s
  | .stw hd v a o => Sys2Proof.Machine.execStw hd v a o s
  | .std hd v a o => Sys2Proof.Machine.execStd hd v a o s
  | .take hd d a o => Sys2Proof.Machine.execTake hd d a o s
  | .give hd v a o => Sys2Proof.Machine.execGive hd v a o s
  | .feSet hd f a o => Sys2Proof.Machine.execFeSet hd f a o s
  | .ldbX hd d a b => Sys2Proof.Machine.execLdbX hd d a b s
  | .ldbNX hd d a b => Sys2Proof.Machine.execLdbNX hd d a b s
  | .ldhX hd d a b => Sys2Proof.Machine.execLdhX hd d a b s
  | .ldhNX hd d a b => Sys2Proof.Machine.execLdhNX hd d a b s
  | .ldwX hd d a b => Sys2Proof.Machine.execLdwX hd d a b s
  | .ldwNX hd d a b => Sys2Proof.Machine.execLdwNX hd d a b s
  | .lddX hd d a b => Sys2Proof.Machine.execLddX hd d a b s
  | .stbX hd v a b => Sys2Proof.Machine.execStbX hd v a b s
  | .sthX hd v a b => Sys2Proof.Machine.execSthX hd v a b s
  | .stwX hd v a b => Sys2Proof.Machine.execStwX hd v a b s
  | .stdX hd v a b => Sys2Proof.Machine.execStdX hd v a b s
  | .ldv hd v a o => Sys2Proof.Machine.execLdv hd v a o s
  | .stv hd v a o => Sys2Proof.Machine.execStv hd v a o s
  | .ldvs hd v a b => Sys2Proof.Machine.execLdvs hd v a b s
  | .ldvx hd v a imm => Sys2Proof.Machine.execLdvx hd v a imm s
  | .stvx hd v a imm => Sys2Proof.Machine.execStvx hd v a imm s
  | .alb hd a => Sys2Proof.Machine.execAlb hd a s
  | .ale hd => Sys2Proof.Machine.execAle hd s
  | .fenceAcq hd sl => Sys2Proof.Machine.execFenceAcq hd sl s
  | .fenceRel hd sl => Sys2Proof.Machine.execFenceRel hd sl s
  | .fenceAr hd sl => Sys2Proof.Machine.execFenceAr hd sl s
  | .inbx hd v => Sys2Proof.Machine.execInbx hd v s
  | .inbxT hd v d sl => Sys2Proof.Machine.execInbxT hd v d sl s
  | .amoAdd hd d a b z u => Sys2Proof.Machine.execAmoAdd hd d a b z u s
  | .amoMin hd d a b z u => Sys2Proof.Machine.execAmoMin hd d a b z u s
  | .amoMax hd d a b z u => Sys2Proof.Machine.execAmoMax hd d a b z u s
  | .amoAnd hd d a b z u => Sys2Proof.Machine.execAmoAnd hd d a b z u s
  | .amoOr hd d a b z u => Sys2Proof.Machine.execAmoOr hd d a b z u s
  | .amoXor hd d a b z u => Sys2Proof.Machine.execAmoXor hd d a b z u s
  | .amoSwp hd d a b z u => Sys2Proof.Machine.execAmoSwp hd d a b z u s
  | .amoCas hd d a b z u => Sys2Proof.Machine.execAmoCas hd d a b z u s
  | .redAdd hd a b z u => Sys2Proof.Machine.execRedAdd hd a b z u s
  | .redMin hd a b z u => Sys2Proof.Machine.execRedMin hd a b z u s
  | .redMax hd a b z u => Sys2Proof.Machine.execRedMax hd a b z u s
  | .redAnd hd a b z u => Sys2Proof.Machine.execRedAnd hd a b z u s
  | .redOr hd a b z u => Sys2Proof.Machine.execRedOr hd a b z u s
  | .redXor hd a b z u => Sys2Proof.Machine.execRedXor hd a b z u s
  | .msend hd e v k => Sys2Proof.Machine.execMsend hd e v k s
  | .mxq hd a k => Sys2Proof.Machine.execMxq hd a k s
  | .mma hd m a b k => Sys2Proof.Machine.execMma hd m a b k s
  | .mzero hd m => Sys2Proof.Machine.execMzero hd m s
  | .mrd hd v t sl k => Sys2Proof.Machine.execMrd hd v t sl k s
  | .mldB hd a b k c => Sys2Proof.Machine.execMldB hd a b k c s
  | .pmount hd d a k => Sys2Proof.Machine.execPmount hd d a k s
  | .punmount hd a => Sys2Proof.Machine.execPunmount hd a s
  | .pinfo hd d a => Sys2Proof.Machine.execPinfo hd d a s
  | .cadd hd c v k => Sys2Proof.Machine.execCadd hd c v k s
  | .caddTile hd c t k => Sys2Proof.Machine.execCaddTile hd c t k s
  | .ctap hd v c k f => Sys2Proof.Machine.execCtap hd v c k f s
  | .cscrub hd c k => Sys2Proof.Machine.execCscrub hd c k s
  | .cspill hd c a k f => Sys2Proof.Machine.execCspill hd c a k f s
  | .cfill hd c a k f => Sys2Proof.Machine.execCfill hd c a k f s
  | .cinfo hd d c => Sys2Proof.Machine.execCinfo hd d c s
  | .previve hd d a k => Sys2Proof.Machine.execPrevive hd d a k s
  | .hnew hd hh a b => Sys2Proof.Machine.execHnew hd hh a b s
  | .hmov hd hh g => Sys2Proof.Machine.execHmov hd hh g s
  | .hsplit hd x a b c imm => Sys2Proof.Machine.execHsplit hd x a b c imm s
  | .hjoin hd hh a b k => Sys2Proof.Machine.execHjoin hd hh a b k s
  | .hsend hd a e => Sys2Proof.Machine.execHsend hd a e s
  | .hrecv hd hh => Sys2Proof.Machine.execHrecv hd hh s
  | .hinfo hd d a f => Sys2Proof.Machine.execHinfo hd d a f s
  | .hfree hd hh => Sys2Proof.Machine.execHfree hd hh s
  | .hldv hd v a imm => Sys2Proof.Machine.execHldv hd v a imm s
  | .hstv hd v a imm => Sys2Proof.Machine.execHstv hd v a imm s
  | .sget hd a k => Sys2Proof.Machine.execSget hd a k s
  | .sput hd a k => Sys2Proof.Machine.execSput hd a k s
  | .sgat hd a k => Sys2Proof.Machine.execSgat hd a k s
  | .sred hd a k => Sys2Proof.Machine.execSred hd a k s
  | .scol hd a k => Sys2Proof.Machine.execScol hd a k s
  | .pinit hd a => Sys2Proof.Machine.execPinit hd a s
  | .pres hd d a => Sys2Proof.Machine.execPres hd d a s
  | .pcmt hd a => Sys2Proof.Machine.execPcmt hd a s
  | .pacq hd d a => Sys2Proof.Machine.execPacq hd d a s
  | .prel hd a => Sys2Proof.Machine.execPrel hd a s
  | .aNop => Sys2Proof.Machine.execANop s
  | .add d a b t => Sys2Proof.Machine.execAdd d a b t s
  | .sub d a b t => Sys2Proof.Machine.execSub d a b t s
  | .mul d a b t => Sys2Proof.Machine.execMul d a b t s
  | .mulh d a b t => Sys2Proof.Machine.execMulh d a b t s
  | .div d a b t => Sys2Proof.Machine.execDiv d a b t s
  | .rem d a b t => Sys2Proof.Machine.execRem d a b t s
  | .and d a b t => Sys2Proof.Machine.execAnd d a b t s
  | .or d a b t => Sys2Proof.Machine.execOr d a b t s
  | .xor d a b t => Sys2Proof.Machine.execXor d a b t s
  | .shl d a b t => Sys2Proof.Machine.execShl d a b t s
  | .shr d a b t => Sys2Proof.Machine.execShr d a b t s
  | .sra d a b t => Sys2Proof.Machine.execSra d a b t s
  | .min d a b t => Sys2Proof.Machine.execMin d a b t s
  | .max d a b t => Sys2Proof.Machine.execMax d a b t s
  | .cmp p c a b t => Sys2Proof.Machine.execCmp p c a b t s
  | .sel d a b p => Sys2Proof.Machine.execSel d a b p s
  | .clz d a t => Sys2Proof.Machine.execClz d a t s
  | .popc d a t => Sys2Proof.Machine.execPopc d a t s
  | .lih d imm => Sys2Proof.Machine.execLih d imm s
  | .adr d a imm => Sys2Proof.Machine.execAdr d a imm s
  | .andI d a imm => Sys2Proof.Machine.execAndI d a imm s
  | .orI d a imm => Sys2Proof.Machine.execOrI d a imm s
  | .xorI d a imm => Sys2Proof.Machine.execXorI d a imm s
  | .shlI d a imm => Sys2Proof.Machine.execShlI d a imm s
  | .shrI d a imm => Sys2Proof.Machine.execShrI d a imm s
  | .sraI d a imm => Sys2Proof.Machine.execSraI d a imm s
  | .minI d a imm => Sys2Proof.Machine.execMinI d a imm s
  | .maxI d a imm => Sys2Proof.Machine.execMaxI d a imm s
  | .cmpI p c a t imm => Sys2Proof.Machine.execCmpI p c a t imm s
  | .faddF32 d a b => Sys2Proof.Machine.execFaddF32 d a b s
  | .fmulF32 d a b => Sys2Proof.Machine.execFmulF32 d a b s
  | .ffmaF32 d a b c => Sys2Proof.Machine.execFfmaF32 d a b c s
  | .fcvt d a x y => Sys2Proof.Machine.execFcvt d a x y s
  | .pset d a => Sys2Proof.Machine.execPset d a s
  | .pand d a b => Sys2Proof.Machine.execPand d a b s
  | .por d a b => Sys2Proof.Machine.execPor d a b s
  | .pnot d a => Sys2Proof.Machine.execPnot d a s
  | .vadd d a b t p => Sys2Proof.Machine.execVadd d a b t p s
  | .vsub d a b t p => Sys2Proof.Machine.execVsub d a b t p s
  | .vmul d a b t p => Sys2Proof.Machine.execVmul d a b t p s
  | .vfma d a b t p => Sys2Proof.Machine.execVfma d a b t p s
  | .vfms d a b t p => Sys2Proof.Machine.execVfms d a b t p s
  | .vmin d a b t p => Sys2Proof.Machine.execVmin d a b t p s
  | .vmax d a b t p => Sys2Proof.Machine.execVmax d a b t p s
  | .vand d a b t p => Sys2Proof.Machine.execVand d a b t p s
  | .vor d a b t p => Sys2Proof.Machine.execVor d a b t p s
  | .vxor d a b t p => Sys2Proof.Machine.execVxor d a b t p s
  | .vshl d a b t p => Sys2Proof.Machine.execVshl d a b t p s
  | .vshr d a b t p => Sys2Proof.Machine.execVshr d a b t p s
  | .vclamp d a b t p => Sys2Proof.Machine.execVclamp d a b t p s
  | .vperm d a b t p => Sys2Proof.Machine.execVperm d a b t p s
  | .vdotI8 d a b p => Sys2Proof.Machine.execVdotI8 d a b p s
  | .vsel d a b t p => Sys2Proof.Machine.execVsel d a b t p s
  | .vcmp d c a b t p => Sys2Proof.Machine.execVcmp d c a b t p s
  | .vabs d a t p => Sys2Proof.Machine.execVabs d a t p s
  | .vneg d a t p => Sys2Proof.Machine.execVneg d a t p s
  | .vrcp d a t p => Sys2Proof.Machine.execVrcp d a t p s
  | .vrsqrt d a t p => Sys2Proof.Machine.execVrsqrt d a t p s
  | .vexp2 d a t p => Sys2Proof.Machine.execVexp2 d a t p s
  | .vlog2 d a t p => Sys2Proof.Machine.execVlog2 d a t p s
  | .vcvt d a x y p => Sys2Proof.Machine.execVcvt d a x y p s
  | .vred d a o t p => Sys2Proof.Machine.execVred d a o t p s
  | .vbcast d a e p => Sys2Proof.Machine.execVbcast d a e p s
  | .vsplat d sl t p => Sys2Proof.Machine.execVsplat d sl t p s
  | .vext d a e => Sys2Proof.Machine.execVext d a e s
  | .vins d sl e => Sys2Proof.Machine.execVins d sl e s
  | .vaddS d a sl t p => Sys2Proof.Machine.execVaddS d a sl t p s
  | .vsubS d a sl t p => Sys2Proof.Machine.execVsubS d a sl t p s
  | .vmulS d a sl t p => Sys2Proof.Machine.execVmulS d a sl t p s
  | .vfmaS d a sl t p => Sys2Proof.Machine.execVfmaS d a sl t p s
  | .vfmsS d a sl t p => Sys2Proof.Machine.execVfmsS d a sl t p s
  | .vminS d a sl t p => Sys2Proof.Machine.execVminS d a sl t p s
  | .vmaxS d a sl t p => Sys2Proof.Machine.execVmaxS d a sl t p s
  | .vandS d a sl t p => Sys2Proof.Machine.execVandS d a sl t p s
  | .vorS d a sl t p => Sys2Proof.Machine.execVorS d a sl t p s
  | .vxorS d a sl t p => Sys2Proof.Machine.execVxorS d a sl t p s
  | .vshlS d a sl t p => Sys2Proof.Machine.execVshlS d a sl t p s
  | .vshrS d a sl t p => Sys2Proof.Machine.execVshrS d a sl t p s
  | .vcmpS d c a sl t p => Sys2Proof.Machine.execVcmpS d c a sl t p s
  | .cReservedNop hd op rest => Sys2Proof.Machine.execCReservedNop hd op rest s
  | .aReservedNop op rest => Sys2Proof.Machine.execAReservedNop op rest s
  | .illegalOpcode slot word => Sys2Proof.Machine.execIllegalOpcode slot word s
  | .replayedPair => Sys2Proof.Machine.execReplayedPair s
  | .lateTrap => Sys2Proof.Machine.execLateTrap s
  | .upcall => Sys2Proof.Machine.execUpcall s
  | .helperRetire core ctx => Sys2Proof.Machine.execHelperRetire core ctx s
  | .taskEnd core => Sys2Proof.Machine.execTaskEnd core s
  | .phaseComplete hid level unit => Sys2Proof.Machine.execPhaseComplete hid level unit s
  | .syncTLimit core ctx => Sys2Proof.Machine.execSyncTLimit core ctx s
  | .planEntry core idx => Sys2Proof.Machine.execPlanEntry core idx s
  | .remoteRequestPerform id => Sys2Proof.Machine.execRemoteRequestPerform id s
  | .takeRetry id => Sys2Proof.Machine.execTakeRetry id s
  | .replyReceive id => Sys2Proof.Machine.execReplyReceive id s
  | .requestAck id => Sys2Proof.Machine.execRequestAck id s
  | .refusalReceive id => Sys2Proof.Machine.execRefusalReceive id s
  | .predictorDecay core line => Sys2Proof.Machine.execPredictorDecay core line s
  | .esigAdd id => Sys2Proof.Machine.execEsigAdd id s
  | .ewaitAnswer core ctx => Sys2Proof.Machine.execEwaitAnswer core ctx s
  | .msendDepart id => Sys2Proof.Machine.execMsendDepart id s
  | .entryPlace id => Sys2Proof.Machine.execEntryPlace id s
  | .inbxTLimit core ctx => Sys2Proof.Machine.execInbxTLimit core ctx s
  | .boxWrite core => Sys2Proof.Machine.execBoxWrite core s
  | .boxMoveBack core => Sys2Proof.Machine.execBoxMoveBack core s
  | .stallTimeout core => Sys2Proof.Machine.execStallTimeout core s
  | .matrixCommandStart core => Sys2Proof.Machine.execMatrixCommandStart core s
  | .matrixCommit core => Sys2Proof.Machine.execMatrixCommit core s
  | .mldBStart core => Sys2Proof.Machine.execMldBStart core s
  | .mldBDone core => Sys2Proof.Machine.execMldBDone core s
  | .cisternAddPath cl => Sys2Proof.Machine.execCisternAddPath cl s
  | .cisternTapPath cl => Sys2Proof.Machine.execCisternTapPath cl s
  | .scrubEnd cl row => Sys2Proof.Machine.execScrubEnd cl row s
  | .spillComplete cl row => Sys2Proof.Machine.execSpillComplete cl row s
  | .fillComplete cl row => Sys2Proof.Machine.execFillComplete cl row s
  | .hsendDepart id => Sys2Proof.Machine.execHsendDepart id s
  | .hjoinComplete core ctx reg => Sys2Proof.Machine.execHjoinComplete core ctx reg s
  | .hfreeComplete cl entry => Sys2Proof.Machine.execHfreeComplete cl entry s
  | .streamerAccept id => Sys2Proof.Machine.execStreamerAccept id s
  | .streamerStep op => Sys2Proof.Machine.execStreamerStep op s
  | .streamerComplete op => Sys2Proof.Machine.execStreamerComplete op s
  | .pantryCommit op => Sys2Proof.Machine.execPantryCommit op s
  | .collectiveRun hid colid => Sys2Proof.Machine.execCollectiveRun hid colid s
  | .registerWrite off val => Sys2Proof.Machine.execRegisterWrite off val s
  | .tkrCas q cmp new => Sys2Proof.Machine.execTkrCas q cmp new s
  | .cmt q val => Sys2Proof.Machine.execCmt q val s
  | .cancel q val => Sys2Proof.Machine.execCancel q val s
  | .schedulerTick => Sys2Proof.Machine.execSchedulerTick s
  | .coreLoadAck q t core => Sys2Proof.Machine.execCoreLoadAck q t core s
  | .groupStart q t => Sys2Proof.Machine.execGroupStart q t s
  | .taskEndReport core => Sys2Proof.Machine.execTaskEndReport core s
  | .groupFree q t => Sys2Proof.Machine.execGroupFree q t s
  | .recordWrite q ring => Sys2Proof.Machine.execRecordWrite q ring s
  | .recordRetry q ring => Sys2Proof.Machine.execRecordRetry q ring s
  | .ringHeadWrite q ring val => Sys2Proof.Machine.execRingHeadWrite q ring val s
  | .swcmdSave q val => Sys2Proof.Machine.execSwcmdSave q val s
  | .swcmdRestore q val => Sys2Proof.Machine.execSwcmdRestore q val s
  | .swcmdDisarm q val => Sys2Proof.Machine.execSwcmdDisarm q val s
  | .switchStop hid => Sys2Proof.Machine.execSwitchStop hid s
  | .sluiceClose hid => Sys2Proof.Machine.execSluiceClose hid s
  | .saveComplete hid => Sys2Proof.Machine.execSaveComplete hid s
  | .restoreResume hid => Sys2Proof.Machine.execRestoreResume hid s
  | .reinject id => Sys2Proof.Machine.execReinject id s
  | .stubForward id => Sys2Proof.Machine.execStubForward id s
  | .stubCorrection id => Sys2Proof.Machine.execStubCorrection id s
  | .pasidTeardown q => Sys2Proof.Machine.execPasidTeardown q s
  | .hostResponseDiscard q => Sys2Proof.Machine.execHostResponseDiscard q s
  | .waitArm q val => Sys2Proof.Machine.execWaitArm q val s
  | .watchRead q => Sys2Proof.Machine.execWatchRead q s
  | .watchYield q => Sys2Proof.Machine.execWatchYield q s
  | .pageResponse q => Sys2Proof.Machine.execPageResponse q s
  | .tdiStateChange q st => Sys2Proof.Machine.execTdiStateChange q st s
  | .tinv q val => Sys2Proof.Machine.execTinv q val s
  | .tinvComplete q => Sys2Proof.Machine.execTinvComplete q s
  | .gtsJoin ref => Sys2Proof.Machine.execGtsJoin ref s
  | .gtsCorrect add => Sys2Proof.Machine.execGtsCorrect add s
  | .leaseCas cmp new => Sys2Proof.Machine.execLeaseCas cmp new s
  | .coldReset => Sys2Proof.Machine.execColdReset s
  | .firstStageBoot die => Sys2Proof.Machine.execFirstStageBoot die s
  | .getMeasurements => Sys2Proof.Machine.execGetMeasurements s
  | .hostPortTrain modes => Sys2Proof.Machine.execHostPortTrain modes s
  | .kill q val => Sys2Proof.Machine.execKill q val s
  | .warmReset => Sys2Proof.Machine.execWarmReset s
  | .killStop hid => Sys2Proof.Machine.execKillStop hid s
  | .peatAllocate hid => Sys2Proof.Machine.execPeatAllocate hid s
  | .peatFormed hid => Sys2Proof.Machine.execPeatFormed hid s
  | .pwrel val => Sys2Proof.Machine.execPwrel val s
  | .reviveResume q t => Sys2Proof.Machine.execReviveResume q t s
  | .sramUe kind holder addr => Sys2Proof.Machine.execSramUe kind holder addr s
  | .patrolScrub pa => Sys2Proof.Machine.execPatrolScrub pa s
  | .flitReceive link seq good => Sys2Proof.Machine.execFlitReceive link seq good s
  | .nakReplay link seq => Sys2Proof.Machine.execNakReplay link seq s
  | .retrainEnd link up => Sys2Proof.Machine.execRetrainEnd link up s
  | .eventRecordWrite => Sys2Proof.Machine.execEventRecordWrite s
  | .rowActivate pa => Sys2Proof.Machine.execRowActivate pa s
  | .backoffEnd bank => Sys2Proof.Machine.execBackoffEnd bank s
  | .rowClose bank => Sys2Proof.Machine.execRowClose bank s
  | .refreshWindow stack => Sys2Proof.Machine.execRefreshWindow stack s
  | .bankRefresh bank => Sys2Proof.Machine.execBankRefresh bank s
  | .heartbeat stack => Sys2Proof.Machine.execHeartbeat stack s
  | .refreshTakeover stack => Sys2Proof.Machine.execRefreshTakeover stack s
  | .sequencerRefresh stack => Sys2Proof.Machine.execSequencerRefresh stack s
  | .refreshHandback stack => Sys2Proof.Machine.execRefreshHandback stack s
  | .pageMigrate page => Sys2Proof.Machine.execPageMigrate page s
  | .sensorRead die temp => Sys2Proof.Machine.execSensorRead die temp s
  | .routerReceive id => Sys2Proof.Machine.execRouterReceive id s
  | .orderRestoreDeliver core => Sys2Proof.Machine.execOrderRestoreDeliver core s
  | .securityAlarm cls => Sys2Proof.Machine.execSecurityAlarm cls s
  | .alarmAction cls => Sys2Proof.Machine.execAlarmAction cls s
  | .signatureCheck q idx => Sys2Proof.Machine.execSignatureCheck q idx s
  | .dbgunlk q val => Sys2Proof.Machine.execDbgunlk q val s
  | .debugStop core => Sys2Proof.Machine.execDebugStop core s
  | .debugStopTake core => Sys2Proof.Machine.execDebugStopTake core s
  | .debugRun core => Sys2Proof.Machine.execDebugRun core s
  | .debugStep core ctx => Sys2Proof.Machine.execDebugStep core ctx s
  | .debugSnapshot core => Sys2Proof.Machine.execDebugSnapshot core s
  | .snapshotDone core => Sys2Proof.Machine.execSnapshotDone core s
  | .traceGtsTrigger core => Sys2Proof.Machine.execTraceGtsTrigger core s
  | .droopDetect die below mv => Sys2Proof.Machine.execDroopDetect die below mv s
  | .molHeadReread core ctx => Sys2Proof.Machine.execMolHeadReread core ctx s
  | .fetchTrap => Sys2Proof.Machine.execFetchTrap s
  | .householdCreate hid q root prot cred => Sys2Proof.Machine.execHouseholdCreate hid q root prot cred s
  | .householdDestroy hid => Sys2Proof.Machine.execHouseholdDestroy hid s
  | .fenCreate hid cx cy w ht => Sys2Proof.Machine.execFenCreate hid cx cy w ht s
  | .fenEnd hid idx => Sys2Proof.Machine.execFenEnd hid idx s
  | .hostCxlMemAccess pa wr val => Sys2Proof.Machine.execHostCxlMemAccess pa wr val s
  | .boardwalkPeerAccess port hid va wr val => Sys2Proof.Machine.execBoardwalkPeerAccess port hid va wr val s
  | .unsupportedAtomicop off val => Sys2Proof.Machine.execUnsupportedAtomicop off val s
  | .porchAnswer id => Sys2Proof.Machine.execPorchAnswer id s
  | .boxFetch core ctx => Sys2Proof.Machine.execBoxFetch core ctx s
  | .allBankRefreshEnd stack => Sys2Proof.Machine.execAllBankRefreshEnd stack s
  | .migrationDone page => Sys2Proof.Machine.execMigrationDone page s

end Sys2Proof.Machine
end

