-- ==== Sys2Proof/Machine/Events.lean ====
section
/-! DEFINITION. The step that an event of the agenda stands for: the meaning of its row of the opcode table (log 1). -/
namespace Sys2Proof.Machine

/-- The meaning of an event: the same as `exec` gives to the row that it names. -/
def runEvent (e : Event) (s : State) : Host.Outcome State Fault Refusal :=
  match e with
  | .illegalOpcode slot word => execIllegalOpcode slot word s
  | .replayedPair => execReplayedPair s
  | .lateTrap => execLateTrap s
  | .upcall => execUpcall s
  | .helperRetire core ctx => execHelperRetire core ctx s
  | .taskEnd core => execTaskEnd core s
  | .phaseComplete hid level unit => execPhaseComplete hid level unit s
  | .syncTLimit core ctx => execSyncTLimit core ctx s
  | .planEntry core idx => execPlanEntry core idx s
  | .remoteRequestPerform id => execRemoteRequestPerform id s
  | .takeRetry id => execTakeRetry id s
  | .replyReceive id => execReplyReceive id s
  | .requestAck id => execRequestAck id s
  | .refusalReceive id => execRefusalReceive id s
  | .predictorDecay core line => execPredictorDecay core line s
  | .esigAdd id => execEsigAdd id s
  | .ewaitAnswer core ctx => execEwaitAnswer core ctx s
  | .msendDepart id => execMsendDepart id s
  | .entryPlace id => execEntryPlace id s
  | .inbxTLimit core ctx => execInbxTLimit core ctx s
  | .boxWrite core => execBoxWrite core s
  | .boxMoveBack core => execBoxMoveBack core s
  | .stallTimeout core => execStallTimeout core s
  | .matrixCommandStart core => execMatrixCommandStart core s
  | .matrixCommit core => execMatrixCommit core s
  | .mldBStart core => execMldBStart core s
  | .mldBDone core => execMldBDone core s
  | .cisternAddPath cl => execCisternAddPath cl s
  | .cisternTapPath cl => execCisternTapPath cl s
  | .scrubEnd cl row => execScrubEnd cl row s
  | .spillComplete cl row => execSpillComplete cl row s
  | .fillComplete cl row => execFillComplete cl row s
  | .hsendDepart id => execHsendDepart id s
  | .hjoinComplete core ctx reg => execHjoinComplete core ctx reg s
  | .hfreeComplete cl entry => execHfreeComplete cl entry s
  | .streamerAccept id => execStreamerAccept id s
  | .streamerStep op => execStreamerStep op s
  | .streamerComplete op => execStreamerComplete op s
  | .pantryCommit op => execPantryCommit op s
  | .collectiveRun hid colid => execCollectiveRun hid colid s
  | .registerWrite off val => execRegisterWrite off val s
  | .tkrCas q cmp new => execTkrCas q cmp new s
  | .cmt q val => execCmt q val s
  | .cancel q val => execCancel q val s
  | .schedulerTick => execSchedulerTick s
  | .coreLoadAck q t core => execCoreLoadAck q t core s
  | .groupStart q t => execGroupStart q t s
  | .taskEndReport core => execTaskEndReport core s
  | .groupFree q t => execGroupFree q t s
  | .recordWrite q ring => execRecordWrite q ring s
  | .recordRetry q ring => execRecordRetry q ring s
  | .ringHeadWrite q ring val => execRingHeadWrite q ring val s
  | .swcmdSave q val => execSwcmdSave q val s
  | .swcmdRestore q val => execSwcmdRestore q val s
  | .swcmdDisarm q val => execSwcmdDisarm q val s
  | .switchStop hid => execSwitchStop hid s
  | .sluiceClose hid => execSluiceClose hid s
  | .saveComplete hid => execSaveComplete hid s
  | .restoreResume hid => execRestoreResume hid s
  | .reinject id => execReinject id s
  | .stubForward id => execStubForward id s
  | .stubCorrection id => execStubCorrection id s
  | .pasidTeardown q => execPasidTeardown q s
  | .hostResponseDiscard q => execHostResponseDiscard q s
  | .waitArm q val => execWaitArm q val s
  | .watchRead q => execWatchRead q s
  | .watchYield q => execWatchYield q s
  | .pageResponse q => execPageResponse q s
  | .tdiStateChange q st => execTdiStateChange q st s
  | .tinv q val => execTinv q val s
  | .tinvComplete q => execTinvComplete q s
  | .gtsJoin ref => execGtsJoin ref s
  | .gtsCorrect add => execGtsCorrect add s
  | .leaseCas cmp new => execLeaseCas cmp new s
  | .coldReset => execColdReset s
  | .firstStageBoot die => execFirstStageBoot die s
  | .getMeasurements => execGetMeasurements s
  | .hostPortTrain modes => execHostPortTrain modes s
  | .kill q val => execKill q val s
  | .warmReset => execWarmReset s
  | .killStop hid => execKillStop hid s
  | .peatAllocate hid => execPeatAllocate hid s
  | .peatFormed hid => execPeatFormed hid s
  | .pwrel val => execPwrel val s
  | .reviveResume q t => execReviveResume q t s
  | .sramUe kind holder addr => execSramUe kind holder addr s
  | .patrolScrub pa => execPatrolScrub pa s
  | .flitReceive link seq good => execFlitReceive link seq good s
  | .nakReplay link seq => execNakReplay link seq s
  | .retrainEnd link up => execRetrainEnd link up s
  | .eventRecordWrite => execEventRecordWrite s
  | .rowActivate pa => execRowActivate pa s
  | .backoffEnd bank => execBackoffEnd bank s
  | .rowClose bank => execRowClose bank s
  | .refreshWindow stack => execRefreshWindow stack s
  | .bankRefresh bank => execBankRefresh bank s
  | .heartbeat stack => execHeartbeat stack s
  | .refreshTakeover stack => execRefreshTakeover stack s
  | .sequencerRefresh stack => execSequencerRefresh stack s
  | .refreshHandback stack => execRefreshHandback stack s
  | .pageMigrate page => execPageMigrate page s
  | .sensorRead die temp => execSensorRead die temp s
  | .routerReceive id => execRouterReceive id s
  | .orderRestoreDeliver core => execOrderRestoreDeliver core s
  | .securityAlarm cls => execSecurityAlarm cls s
  | .alarmAction cls => execAlarmAction cls s
  | .signatureCheck q idx => execSignatureCheck q idx s
  | .dbgunlk q val => execDbgunlk q val s
  | .debugStop core => execDebugStop core s
  | .debugStopTake core => execDebugStopTake core s
  | .debugRun core => execDebugRun core s
  | .debugStep core ctx => execDebugStep core ctx s
  | .debugSnapshot core => execDebugSnapshot core s
  | .snapshotDone core => execSnapshotDone core s
  | .traceGtsTrigger core => execTraceGtsTrigger core s
  | .droopDetect die below mv => execDroopDetect die below mv s
  | .molHeadReread core ctx => execMolHeadReread core ctx s
  | .fetchTrap => execFetchTrap s
  | .householdCreate hid q root prot cred => execHouseholdCreate hid q root prot cred s
  | .householdDestroy hid => execHouseholdDestroy hid s
  | .fenCreate hid cx cy w ht => execFenCreate hid cx cy w ht s
  | .fenEnd hid idx => execFenEnd hid idx s
  | .hostCxlMemAccess pa wr val => execHostCxlMemAccess pa wr val s
  | .boardwalkPeerAccess port hid va wr val => execBoardwalkPeerAccess port hid va wr val s
  | .unsupportedAtomicop off val => execUnsupportedAtomicop off val s
  | .porchAnswer id => execPorchAnswer id s
  | .boxFetch core ctx => execBoxFetch core ctx s
  | .inboxServe core ctx => execInboxServe core ctx s
  | .allBankRefreshEnd stack => execAllBankRefreshEnd stack s
  | .migrationDone page => execMigrationDone page s

end Sys2Proof.Machine
end

