-- ==== Sys2Proof/Machine/Issue.lean ====
section
/-! DEFINITION. A core's turn in a cycle: the choice of R40 and R41, pairs and gangs (R49, R76), traps in place of a pair
(R374, R379, R383, R284), debug steps (R456) and what the trace unit sees (R460 to R462). -/
namespace Sys2Proof.Machine

/-! ### One pair of the running context -/

/-- The pair of the running context, begun: a cycle of a `dly` (R103), a fetch trap, or its two words. -/
def State.pairTurn (s : State) : Host.Outcome State Fault Refusal :=
  let c := s.me
  if c.dlyRem ≠ 0 then .next ((s.setNext c.pc).onMe (fun c => { c with dlyRem := c.dlyRem - 1 }))
  else if c.aboveBound || s.badPosition then execFetchTrap s
  else runPair exec (s.pairAt c.pc).1 (s.pairAt c.pc).2.1 (s.setNext (s.pairAt c.pc).2.2)
/-- The running context replays the repetition buffer. -/
def State.replays (s : State) : Bool :=
  match s.here.rbSt with
  | .replaying o _ _ _ _ _ => o == s.here.run
  | _ => false
/-- What the running context would do in this cycle with its pair. -/
def State.attempt (s : State) : Host.Outcome State Fault Refusal :=
  if s.replays then exec .replayedPair s.startPair else s.startPair.pairTurn
/-- The pair cannot issue in this cycle, and why: a wait field, or a condition of an instruction's own. -/
def State.waitsFor (t : State) : Option Bool :=
  match t.latch with
  | .waits f => some f
  | _ => none
/-- The C-slot word at an address is a `kwait` or a fence, whose wait a trap may take the place of (R284, R379). -/
def softWait (i : Instr) : Bool :=
  match i with
  | .kwait _ _ _ => true
  | .fenceAcq _ _ => true
  | .fenceRel _ _ => true
  | .fenceAr _ _ => true
  | _ => false

/-- The recording takes the A-slot word of a pair that has issued (R119); `before` is the core as the pair began. -/
def CoreSt.recordWord (x before : CoreSt) (w : BitVec 32) : CoreSt :=
  match before.rbSt with
  | .recording o left =>
    if o = before.run then
      match x.rbSt with
      | .recording _ _ => { x with rb := before.rb ++ [w], rbSt := if left ≤ 1 then .idle else .recording o (left - 1) }
      | _ => { x with rb := before.rb ++ [w] }
    else x
  | _ => x
/-- A pair that could not issue counts for no pending write (R92): a context that a fatal condition stops keeps its registers. -/
def Ctx.uncounted (c before : Ctx) : Ctx :=
  if c.fatal && !before.fatal then { c with s := before.s, v := before.v, p := before.p, fixed := before.fixed } else c
/-- The pair's check of the log has read HEAD again, with room then or not (R469). -/
def State.checkRead (t : State) (before : State) : State :=
  if t.here.molHead != before.here.molHead || t.latch == .trapped 29 && t.me.ecause.toNat / 2 ^ 24 == 2 then t.headRead t.focus
  else t
/-- The running context of the focus core has issued the pair at an address, or has entered a trap: it goes on at `npc`. -/
def State.retire (t : State) (before : State) : State :=
  let t := t.checkRead before
  let pc := before.me.pc
  if t.latch == .issued then
    let w := if before.me.dlyRem ≠ 0 then 0x02000000 else before.aWordAt pc
    let lp := if before.me.dlyRem ≠ 0 then before.me.lastPc else pc
    (t.onMe (fun c => { c with pc := c.npc, lastPc := lp })).onHere (fun x =>
      { x.recordWord before.here w with lastPair := some (t.gts, x.run, lp.toNat) })
  else t.onMe (fun c => { c.uncounted before.me with pc := c.npc })
/-- The same of an outcome. -/
def retireAll (before : State) (r : Host.Outcome State Fault Refusal) : Host.Outcome State Fault Refusal :=
  match r with
  | .next t => .next (t.retire before)
  | r => r

/-! ### What a context can do in a cycle -/

/-- What a context does with the issue slot if it is offered it: nothing, with the state that this leaves, or its outcome. -/
inductive Offer where
  | no (s : State)
  | yes (r : Host.Outcome State Fault Refusal)

/-- A late report is taken as a trap before the next pair (R379). -/
def Ctx.lateDue (c : Ctx) : Bool := !c.lateQ.isEmpty && !c.inh && c.dlyRem == 0
/-- An upcall is entered before the next pair (R284). It waits for the end of a `dly` as a
late trap does (log 33). -/
def State.upcallDue (s : State) : Bool :=
  !s.me.inh && s.me.dlyRem == 0 && s.here.gang.isNone && (s.upcallEntry s.focus s.here.run).isSome
/-- The trap of a gang that did not form (R383, SUB 3): EPC is the pair after the `gang`. -/
def State.gangTrap (s : State) (mask : Nat) : State :=
  (s.onMe (fun c => { c with gangFail := none })).enterTrap 13 3 1 false mask s.me.pc
/-- A trap in place of the pair: a late trap before an upcall (R379); none when neither is due. -/
def State.instead (s : State) (late up : Bool) : Option (Host.Outcome State Fault Refusal) :=
  if late then some (retireAll s (exec .lateTrap s)) else if up then some (retireAll s (exec .upcall s)) else none
/-- The offer to context i of the focus core (R40, R41, R284, R374, R379). -/
def State.offer (base : State) (i : Nat) : Offer :=
  let s := base.onHere (fun x => { x with run := i })
  let c := s.me
  let late := c.lateDue
  let up := s.upcallDue
  if !c.live || c.parked || c.fatal || s.gts < c.readyAt then .no base
  else if c.entering then .yes (.next (s.onMe Ctx.entered))
  else
    match c.wait with
    | .none =>
      match c.gangFail with
      | some mask => .yes (retireAll s (.next (s.gangTrap mask)))
      | none =>
        match s.attempt with
        | .next t =>
          match t.waitsFor with
          | none => .yes ((s.instead late up).getD (.next (t.retire s)))
          | some field =>
            if field || softWait (s.pairAt c.pc).1 then
              match s.instead late up with
              | some r => .yes r
              | none => .no base
            else if t.me.wait == .molRoom then
              .no (((base.onCtx s.focus i (fun c => { c with wait := .molRoom })).headRead s.focus).stepAt (s.gts + 1900)
                (.molHeadReread s.focus i))
            else .no base
        | r => .yes r
    | .sync => if late then .yes ((s.instead late false).getD (.next s)) else .no base
    | .syncT _ _ => if late then .yes ((s.instead late false).getD (.next s)) else .no base
    | .halt => if up then .yes ((s.instead false up).getD (.next s)) else .no base
    | _ => .no base
/-- The order in which a core offers its slot: the running context first, or last after a switching event (R41); a `dly` keeps
the slot (R103). -/
def CoreSt.ring (x : CoreSt) : List Nat :=
  let r := x.run
  if (x.ctx r).live && ((x.ctx r).dlyRem ≠ 0 || (x.ctx r).entering) then [r]
  else if x.pass then (List.range 11).map (fun i => (r + 1 + i) % 11)
  else (List.range 11).map (fun i => (r + i) % 11)
/-- The first context of the order that takes the slot. -/
def State.firstOffer (s : State) (order : List Nat) : Offer :=
  match order with
  | [] => .no s
  | i :: rest =>
    match s.offer i with
    | .no s => s.firstOffer rest
    | .yes r => .yes r

/-! ### Delay counts and windows (R460, R462) -/

/-- A live context that did not issue: one more cycle not ready, or ready without the slot (R460). -/
def Ctx.tally (ready : Bool) (c : Ctx) : Ctx :=
  if ready then { c with slotc := min (2 ^ 32 - 1) (c.slotc + 1) } else { c with waitc := min (2 ^ 32 - 1) (c.waitc + 1) }
/-- The marker that the pair at an address carries (R461). -/
def State.markerAt (s : State) (pc : Nat) : Option Nat :=
  match (s.pairAt (BitVec.ofNat 64 pc)).1 with
  | .tmark _ _ imm => some imm.toNat
  | _ => none
/-- What the trace unit sees at the end of a core's turn: the pair that it issued in this cycle, if any (R461, R462). A marker has
issued only if the context has gone past it: in a replay the word may have waited (R51). -/
def State.traceTurn (t before : State) (core : Nat) : State :=
  match (t.coreOf core).lastPair with
  | some (g, i, pc) =>
    if g == t.gts then
      t.traceWindow core (some (i, pc))
        (if (before.ctxOf core i).dlyRem ≠ 0 || (t.ctxOf core i).pc.toNat == pc then none else before.markerAt pc)
    else t.traceWindow core none none
  | none => t.traceWindow core none none

/-! ### Gangs (R49, R50, R383) -/

/-- The gang of some cores dissolves: every member stands at an address, its helpers eligible (R50). -/
def State.dissolve (s : State) (ms : List Nat) (pc : Word) : State :=
  ms.foldl (fun s m => s.onCore m (fun x => (x.leaveGang).setCtx 0 { x.ctx 0 with pc := pc, parked := false })) s
/-- Every member executes the pair on its own registers (R49): the state after it, or the first wait or trap of a member. -/
def State.gangPair (s : State) (pair : State → Host.Outcome State Fault Refusal) (ms : List Nat) : Host.Outcome State Fault Refusal :=
  match ms with
  | [] => .next s
  | m :: rest =>
    let b := { s with focus := m, latch := .issued }
    match pair b with
    | .next t => if t.latch == .issued then (t.retire b).gangPair pair rest else .next t
    | r => r
/-- The members whose pair traps, each asked by itself. -/
def State.gangTraps (s : State) (pair : State → Host.Outcome State Fault Refusal) (ms : List Nat) : List Nat :=
  ms.filter (fun m =>
    match pair { s with focus := m, latch := .issued } with
    | .next t => match t.latch with
      | .trapped _ => true
      | _ => false
    | _ => false)
/-- A member's pair waits, each asked by itself (R49, R377): whether in a wait field, and the member. -/
def State.gangWait (s : State) (pair : State → Host.Outcome State Fault Refusal) (ms : List Nat) : Option (Bool × State) :=
  ms.findSome? (fun m =>
    match pair { s with focus := m, latch := .issued } with
    | .next t => t.waitsFor.map (fun f => (f, t))
    | _ => none)
/-- The gang dissolves at an address; the named members enter a trap each (R383). -/
def State.gangFall (s : State) (trap : State → Host.Outcome State Fault Refusal) (ms fallen : List Nat) (pc : Word) :
    Host.Outcome State Fault Refusal :=
  let s := s.dissolve ms pc
  fallen.foldl (fun r m =>
    match r with
    | .next s =>
      let b := { s with focus := m, latch := .issued }
      retireAll b (trap b)
    | r => r) (.next s)
/-- The pair of one member: the leader's words (R49). -/
def memberPair (c a : Instr) (npc : Word) (pc : Word) (s : State) : Host.Outcome State Fault Refusal :=
  let s := (s.onMe (fun c => { c with pc := pc })).startPair
  if s.me.dlyRem ≠ 0 then .next ((s.setNext pc).onMe (fun c => { c with dlyRem := c.dlyRem - 1 }))
  else runPair exec c a (s.setNext npc)
/-- A member's pair in a replay: with the leader's next C-slot word, or with a `nop` (R51). -/
def memberReplay (own : Bool) (pc : Word) (s : State) : Host.Outcome State Fault Refusal :=
  (s.onMe (fun c => { c with pc := pc })).startPair.replayPair own
/-- Every member stands where the leader stands (R49). -/
def State.follow (s : State) (ms : List Nat) : State :=
  match ms with
  | [] => s
  | l :: rest =>
    if (s.coreOf l).gang.isNone then s
    else rest.foldl (fun s m => s.onCtx m 0 (fun c => { c with pc := (s.ctxOf l 0).pc })) s
/-- A cycle of a gang, taken at its leader's turn. -/
def State.gangStep (s : State) (ms : List Nat) : Offer :=
  let lead := ms.headD s.focus
  let s := ms.foldl (fun s m => s.onCore m (fun x => { x with run := 0 })) s
  let pc := (s.ctxOf lead 0).pc
  let late := ms.filter (fun m => (s.ctxOf m 0).lateDue)
  let waitsSync (m : Nat) : Bool := match (s.ctxOf m 0).wait with
    | .none => true
    | .sync => true
    | .syncT _ _ => true
    | _ => false
  if ms.any (fun m => let c := s.ctxOf m 0; !c.live || c.fatal || s.gts < c.readyAt) then .no s
  else if ms.any (fun m => (s.ctxOf m 0).entering) then
    .yes (.next (ms.foldl (fun s m => s.onCtx m 0 (fun c => if c.entering then c.entered else c)) s))
  else if ms.any (fun m => (s.ctxOf m 0).wait != .none) then
    (if !late.isEmpty && ms.all waitsSync then .yes (s.gangFall execLateTrap ms late pc) else .no s)
  else
    let at_ := { s with focus := lead, latch := .issued }
    let words := at_.pairAt pc
    let pair : State → Host.Outcome State Fault Refusal :=
      if at_.replays then memberReplay true pc
      else if (at_.me.aboveBound || at_.badPosition) && at_.me.dlyRem == 0 then (fun b => if b.focus = lead then execFetchTrap b else .next b)
      else memberPair words.1 words.2.1 words.2.2 pc
    let finish (r : Host.Outcome State Fault Refusal) (pair : State → Host.Outcome State Fault Refusal) : Offer :=
      match r with
      | .next t =>
        match (if t.latch == .issued then none else s.gangWait pair ms), t.latch with
        | some (field, w), _ =>
          if !late.isEmpty && (field || softWait words.1) then .yes (s.gangFall execLateTrap ms late pc)
          else if w.me.wait == .molRoom then
            .no (((s.onCtx w.focus 0 (fun c => { c with wait := .molRoom })).headRead w.focus).stepAt (s.gts + 1900)
              (.molHeadReread w.focus 0))
          else .no s
        | none, .waits _ => .no s
        | none, .issued => if late.isEmpty then .yes (.next (t.follow ms)) else .yes (s.gangFall execLateTrap ms late pc)
        | none, .trapped _ => .yes (if late.isEmpty then s.gangFall pair ms (s.gangTraps pair ms) pc else s.gangFall execLateTrap ms late pc)
      | r => .yes r
    match s.gangPair pair ms with
    | .next t =>
      if at_.replays && t.latch != .issued && (s.gangWait pair ms).isSome then
        finish (s.gangPair (memberReplay false pc) ms) (memberReplay false pc)
      else finish (.next t) pair
    | r => .yes r

/-! ### Delay counts (R460) -/

/-- A context of a core was ready in the cycle (R40): it would have taken the slot. -/
def State.wasReady (before : State) (core i : Nat) : Bool :=
  let b := { before with focus := core, latch := .issued }
  match (before.coreOf core).gang with
  | some g =>
    match b.gangStep g.members with
    | .no _ => false
    | .yes _ => i == 0
  | none =>
    match b.offer i with
    | .no _ => false
    | .yes _ => true
/-- The end of the turns of some cores, each with the context that had its slot, if any. -/
def State.endTurns (t before : State) (cs : List Nat) (took : Nat → Option Nat) : State :=
  cs.foldl (fun t c =>
    let others := (List.range 11).filter (fun i => (before.ctxOf c i).live && took c != some i)
    (others.foldl (fun t i => t.onCtx c i (Ctx.tally (before.wasReady c i))) t).traceTurn { before with focus := c } c) t
/-- A turn in which no context of the cores had the slot. -/
def State.idleTurns (t : State) (cs : List Nat) : Host.Outcome State Fault Refusal := .next (t.endTurns t cs (fun _ => none))

/-! ### A core's turn -/

/-- A step of a stopped core has been taken (R456). -/
def Debug.stepped (d : Debug) (ctx : Nat) : Debug :=
  { d with steps := min (2 ^ 32 - 1) (d.steps + 1), lastCtx := ctx, stepReq := none }
/-- The end of a turn that some cores have had, in a step of a stopped core or not. -/
def finishTurns (before : State) (cs : List Nat) (stepOf : Option Nat) (r : Host.Outcome State Fault Refusal) :
    Host.Outcome State Fault Refusal :=
  match r with
  | .next t =>
    let t := match stepOf with
      | some i => cs.foldl (fun (t : State) c => t.onCore c (fun x => { x with dbg := x.dbg.stepped i })) t
      | none => t
    .next (t.endTurns before cs (fun c => some (t.coreOf c).run))
  | r => r
/-- The turn of a gang: its leader's; the members take none of their own in the cycle. -/
def State.gangTurn (s : State) (g : Gang) : Host.Outcome State Fault Refusal :=
  let ms := g.members
  let s := { s with turn := s.turn.filter (fun c => !ms.contains c) }
  let d := s.here.dbg
  if d.resume then (ms.foldl (fun s m => s.onCore m (fun x => { x with dbg := { x.dbg with resume := false } })) s).idleTurns ms
  else if d.stopped && d.stepReq != some 0 then s.idleTurns ms
  else
    match s.gangStep ms with
    | .no _ => s.idleTurns ms
    | .yes r => finishTurns s ms (if d.stopped then d.stepReq else none) r
/-- The turn of a core that is in no gang. -/
def State.soloTurn (s : State) : Host.Outcome State Fault Refusal :=
  let x := s.here
  let core := s.focus
  if x.dbg.resume then (s.onHere (fun x => { x with dbg := { x.dbg with resume := false } })).idleTurns [core]
  else if x.dbg.stopped then
    match x.dbg.stepReq with
    | none => s.idleTurns [core]
    | some i =>
      match s.offer i with
      | .no t => t.idleTurns [core]
      | .yes r => finishTurns s [core] (some i) r
  else
    let order := x.ring
    let b := if order.length = 1 then s else s.onHere (fun x => { x with pass := false })
    match b.firstOffer order with
    | .no t => t.idleTurns [core]
    | .yes r => finishTurns s [core] none r
/-- The turn of a core in a cycle (R40, R41, R49). -/
def State.coreTurn (s : State) (core : Nat) : Host.Outcome State Fault Refusal :=
  let s := { s with focus := core, latch := .issued }
  match s.here.gang with
  | some g => s.gangTurn g
  | none => s.soloTurn

end Sys2Proof.Machine
end

