-- ==== Sys2Proof/Machine/Cycle.lean ====
section
/-! DEFINITION. A cycle of the module: its end, its start, and the order of what happens in it (log 1, log 9). -/
namespace Sys2Proof.Machine

/-- A stop of a switch or of a kill, with what an alarm does in the same cycle (R447): it is made at the start of its cycle, ahead of
everything else (R330, R394). -/
def Event.stops (e : Event) : Bool :=
  match e with
  | .switchStop _ => true
  | .killStop _ => true
  | .alarmAction _ => true
  | _ => false
/-- An event that is due by a cycle, and whether it is a stop. -/
def Due.stopNow (g : Nat) (d : Due) : Bool :=
  match d.ev with
  | .step e => e.stops && decide (d.at_ ≤ g)
  | .done _ _ _ => false
/-- The steps among events that are due. -/
def dueSteps (ds : List Due) : List Event :=
  match ds with
  | [] => []
  | d :: rest =>
    match d.ev with
    | .step e => e :: dueSteps rest
    | .done _ _ _ => dueSteps rest
/-- Log entries and trace records that wait are written as soon as they can be (R363, R364). -/
def State.flushHeld (s : State) : State :=
  let s := (s.households.filter (fun h => !h.2.molLate.isEmpty && !h.2.asleep && (s.queue h.2.queue).swState == 0)).foldl
    (fun s h => s.molLateFlush h.1) s
  s.cores.foldl (fun s c =>
    let s := if c.2.molQ.isEmpty then s else s.molFlush c.1 c.2.molQ.length
    if c.2.trace.held.isEmpty then s else s.traceFlush c.1 c.2.trace.held.length) s
/-- The lines that `mld.b` writes in this cycle stand at its end (R225). -/
def State.writeLines (s : State) : State :=
  s.cores.foldl (fun s c => if c.2.mlds.isEmpty then s else s.mldAdvance c.1 s.gts) s
/-- The cores whose tasks run: their households are not stopped, and no resume is awaited (R413). -/
def State.awake (s : State) : List Nat :=
  (s.cores.filter (fun x =>
    match x.2.hid with
    | none => false
    | some h => !(s.household h).asleep && !s.groupHeld x.1)).map (fun x => x.1)
/-- GTS triggers hold in every cycle, also in one in which a core has no turn (R461, R462). -/
def State.gtsTriggers (s : State) : State :=
  let on := s.awake
  s.cores.foldl (fun s c => if c.2.trace.en && !on.contains c.1 then s.traceWindow c.1 none none else s) s
/-- The end of a cycle: what waits for memory, the lines of `mld.b`, the domain instances, then the next GTS with the stops that
fall in it (R45, R131, R225, R330). -/
def State.endCycle (s : State) : State :=
  let s := s.flushHeld.writeLines.gtsTriggers.scanBarriers
  let g := s.nextGts
  let now := s.due.filter (Due.stopNow g)
  { s with gts := g, begun := false, agenda := dueSteps now, due := s.due.filter (fun d => !d.stopNow g) }
/-- A completion that is due, or one of a stopped household, put off (R331). -/
def State.completeDue (s : State) (d : Due) : State :=
  match d.ev with
  | .step _ => s
  | .done core ctx acts =>
    match s.dueHid d.ev with
    | none => s
    | some h => if (s.household h).asleep then s.putOff h d.ev else s.complete core ctx acts
/-- The retirements and task ends that a core's halted contexts have reached (R39). -/
def State.ends (s : State) (core : Nat) : List Event :=
  ((List.range 10).filter (fun i => s.mayEnd core (i + 1))).map (fun i => Event.helperRetire core (i + 1)) ++
    (if s.mayEnd core 0 && !(s.coreOf core).ended then [Event.taskEnd core] else [])
/-- The deliveries that an order guard owes come first in their cycle (R439). -/
def guardFirst (l : List Event) : List Event :=
  let guard (e : Event) : Bool := match e with
    | .orderRestoreDeliver _ => true
    | _ => false
  l.filter guard ++ l.filter (fun e => !guard e)
/-- What an event that comes again by itself belongs to: of each there is one to come. That one
is to come, and when, is the model's choice where the spec gives only how often (log 33). -/
def Event.chain (e : Event) : Option (Nat × Nat) :=
  match e with
  | .heartbeat n => some (0, n)
  | .refreshWindow n => some (1, n)
  | .bankRefresh b => some (2, b / 2048)
  | .patrolScrub pa => some (3, if isHbm pa then stackOf pa else 8 + cellarDie pa)
  | .signatureCheck q _ => some (4, q)
  | _ => none
/-- The atom after another of the same stack: 256 KiB of every 2 MiB are a stack's (R360). -/
def nextAtom (pa : Nat) : Nat :=
  let a := pa + 32
  if a % 262144 ≠ 0 then a
  else if a - 262144 + 2097152 < 2 ^ 39 then a - 262144 + 2097152 else (a - 262144) % 2097152
/-- The next one of a chain. A management core's heartbeats come every 950 cycles, or stop and are resumed when its Hearth has
restarted it (R433, R434); every bank is refreshed once in a window (R433); every atom of a stack is scrubbed once in 24 hours, and of a
Cellar in its quiet phases (R420); the entries of a signature table are checked in a pass that is repeated, at most 10^9 bytes in a
second (R451). -/
def State.again (s : State) (e : Event) : State :=
  match e with
  | .heartbeat _ =>
    let c := s.choose 2
    if c.1 = 0 then c.2.stepAt (s.gts + 950) e else c.2.soonAfter (s.gts + 950) e
  | .refreshWindow _ => s.stepAt ((windowOf s.gts + 1) * 60800000) e
  | .bankRefresh b => s.stepAt (s.gts + 29687) (.bankRefresh (b / 2048 * 2048 + (b + 1) % 2048))
  | .patrolScrub pa =>
    if isHbm pa then s.stepAt (s.gts + 76441) (.patrolScrub (nextAtom pa))
    else s.stepAt (s.gts + 4892227) (.patrolScrub (if s.quiet (cellarDie pa) then
      (if (pa + 32) % 2 ^ 30 = 0 then pa + 32 - 2 ^ 30 else pa + 32) else pa))
  | .signatureCheck q idx =>
    let x := s.queue q
    if x.sigbCount = 0 then s
    else
      let n := bits (((s.getBytes (x.hid.getD 0) (4096 * x.sigbBase + 32 * idx) 32).toOption.map natOfBytes).getD 0) 64 32
      s.soonAfter (s.gts + n * 19 / 10 + 61) (.signatureCheck q (if idx + 1 < x.sigbCount then idx + 1 else 0))
  | _ => s
/-- An event that comes again by itself calls for the next of its chain, unless that one is to come already. -/
def State.rearm (s : State) (e : Event) : State :=
  match e.chain with
  | none => s
  | some k =>
    if s.due.any (fun d => match d.ev with
      | .step x => x.chain == some k
      | .done _ _ _ => false) then s else s.again e
/-- The start of a cycle after its stops: the completions due are applied (R76), then come the scheduler's tick every 16
cycles (R313), the steps due, the ends of contexts and the cores' turns. -/
def State.startCycle (s : State) : State :=
  let now := s.due.filter (fun d => decide (d.at_ ≤ s.gts))
  let s : State := { s with due := s.due.filter (fun d => !decide (d.at_ ≤ s.gts)), begun := true }
  let s := (dueSteps now).foldl State.rearm (now.foldl State.completeDue s)
  let tick : List Event := if s.gts % 16 = 0 && !s.queues.isEmpty then [.schedulerTick] else []
  { s with agenda := tick ++ guardFirst (dueSteps now) ++ s.awake.flatMap s.ends, turn := s.awake }
/-- An event of the agenda: it happens, or is put off while its household is stopped (R330). -/
def State.happen (s : State) (e : Event) : Host.Outcome State Fault Refusal :=
  match s.heldBack e with
  | some hid => .next (s.putOff hid (.step e))
  | none => runEvent e s
/-- A core's turn; a core whose household has been stopped in this cycle has none. -/
def State.turnOf (s : State) (core : Nat) : Host.Outcome State Fault Refusal :=
  match (s.coreOf core).hid with
  | none => .next s
  | some h => if (s.household h).asleep then .next s else s.coreTurn core
/-- With nothing left to do in the cycle. -/
def State.tick (s : State) : State := if s.begun then s.endCycle else s.startCycle

end Sys2Proof.Machine
end

