-- ==== Sys2Proof/Machine/Step.lean ====
section
/-! DEFINITION. One step: the next event of the agenda, else the next core's turn, else the clock (log 1, log 9). -/
namespace Sys2Proof.Machine

/-- One step of the module. -/
def step (s : State) : Host.Outcome State Fault Refusal :=
  match s.agenda with
  | e :: rest => State.happen { s with agenda := rest } e
  | [] =>
    match s.turn with
    | core :: rest => State.turnOf { s with turn := rest } core
    | [] => .next s.tick

/-- The words that hold one instruction of the table: a pair of which the other word is a `nop`. -/
def wordsFor (w : Nat) : Nat × Nat :=
  let c := (w % 2 ^ 32, 0x02000000)
  match decodeC (BitVec.ofNat 32 w) with
  | .ok _ => c
  | .error _ =>
    match decodeA (BitVec.ofNat 32 w) with
    | .ok _ => (0x06040000, w % 2 ^ 32)
    | .error _ => c
/-- Core 0 with an instruction at the pc of its control context, which runs and has the slot (log 10). -/
def CoreSt.withWord (x : CoreSt) (w : Nat) : CoreSt :=
  let c := x.ctx 0
  let pc := if c.pc.toNat % 8 = 0 && c.pc.toNat < 0x60000 then c.pc.toNat else 0
  let ws := wordsFor w
  let c := { c with live := true, parked := false, pc := BitVec.ofNat 64 pc, bound := max c.bound (pc / 256 + 1), wait := .none,
                    readyAt := 0, dlyRem := 0, entering := false, gangFail := none, lateQ := [], fatal := false }
  { x with hid := some (x.hid.getD 1), run := 0, pass := false, gang := none, rbSt := .idle, inbox := [],
           dbg := { x.dbg with stopped := false, resume := false },
           ls := (x.ls.writeN pc 4 ws.1).writeN (pc + 4) 4 ws.2,
           ctxs := x.ctxs.setIfInBounds 0 c }
/-- The state whose next step fetches and runs an instruction of the table: it stands in core 0's local store, as a loaded
task's first pair. Nothing else comes before that core's turn. -/
def State.withFetchWord (s : State) (nbits w : Nat) : State :=
  { s.onCore 0 (fun x => x.withWord (w % 2 ^ nbits)) with turn := [0], agenda := [], begun := true }

end Sys2Proof.Machine
end

