-- ==== Sys2Proof/Safety.lean ====
section
/-! DEFINITION. What counts as a safe run, when a word issues with its own effect, and the invariants that claims are stated
with. -/
namespace Sys2Proof.Machine

/-! ### Safe runs -/

/-- A step that goes on: neither a fault nor a refusal. -/
def State.goesOn (s : State) : Prop := ∃ t, step s = .next t
/-- No live context has been stopped by a fatal fault (R384). -/
def State.noFatal (s : State) : Prop := ∀ p ∈ s.cores, ∀ i, i < 11 → (p.2.ctx i).fatal = false
/-- A run of n steps is safe when every step goes on and no context meets a fatal fault. -/
def State.safeFor (s : State) (n : Nat) : Prop :=
  match n with
  | 0 => s.noFatal
  | k + 1 => s.noFatal ∧ ∃ t, step s = .next t ∧ t.safeFor k

/-! ### When a word issues (R93, R377) -/

/-- No condition of the running context stops an A-slot word: the word is legal (R91); where CCTL.UWTRAP is 1, no register
that it reads is pending (R107); every vector register that it names is below the quota (R38); no region is open, unless the
word is one that a region allows (R149). -/
structure AClear (s : State) (i : Instr) (srcs : List RegId) (vecs : List Nat) (inRegion : Bool) : Prop where
  wf : i.wf = true
  reads : s.me.uwtrap = true → ∀ r ∈ srcs, s.me.isPending r = false
  quota : ∀ v ∈ vecs, v < s.me.quota
  region : inRegion = true ∨ s.me.region = none

/-- No condition of the running context stops a C-slot word: its wait field is met (R75) and names a token that a handler
may name (R77), as its token fields do; the word is legal (R91); reads, vector registers and region are as for an A-slot word;
the token that it raises is below 63 (R104); its remote requests fit into ORC.COUNT (R129); the memory-order log has
room for its entries (R469). -/
structure CClear (s : State) (i : Instr) (hd : CHead) (srcs : List RegId) (vecs : List Nat) (ks : List (BitVec 4))
    (tok : Option TokRef) (reqs mol : Nat) (inRegion : Bool) : Prop where
  met : s.me.waitMet hd = true
  head : hd.wn = 3 ∨ s.me.badToken hd.wk = false
  wf : i.wf = true
  fields : ∀ k ∈ ks, s.me.badToken k = false
  reads : s.me.uwtrap = true → ∀ r ∈ srcs, s.me.isPending r = false
  quota : ∀ v ∈ vecs, v < s.me.quota
  region : inRegion = true ∨ s.me.region = none
  raised : ∀ r, tok = some r → s.me.tok r < 63
  room : reqs = 0 ∨ s.me.orcCount + reqs ≤ 1023
  log : s.molShort mol = false

/-- The state in which a word takes its effect: a read of a pending register has set CSTAT.UW (R107), and the entries that
the word owes to the memory-order log are reserved, with the value of HEAD that the check used (R469). -/
def State.readied (s : State) (srcs : List RegId) (mol : Nat) : State := (s.markReads srcs).molReserve mol

/-! ### Operands and results as the rules read them -/

/-- A scalar operand of type code t: its low w bits, signed for codes 0 to 3 (R94). -/
def typedOperand (t : Nat) (x : Word) : Int :=
  if t < 4 then (x.setWidth (8 * typeBytes t)).toInt else (x.setWidth (8 * typeBytes t)).toNat
/-- A scalar result of type code t: the low w bits of a number, extended to 64 bits (R94). -/
def typedResult (t : Nat) (z : Int) : Word :=
  if t < 4 then (BitVec.ofInt (8 * typeBytes t) z).signExtend 64 else (BitVec.ofInt (8 * typeBytes t) z).setWidth 64
/-- The condition cc of R83 on two numbers. -/
def holdsOf (cc : Nat) (a b : Int) : Prop :=
  (cc = 0 ∧ a = b) ∨ (cc = 1 ∧ a ≠ b) ∨ (cc = 2 ∧ a < b) ∨ (cc = 3 ∧ a ≤ b) ∨ (cc = 4 ∧ a > b) ∨ (cc = 5 ∧ a ≥ b)
/-- A queued vector result with the lane f i in every lane i (R199). -/
def lanesAre (r : Nat) (f : Nat → BitVec 32) : Prop := ∀ i, i < 32 → vlane (BitVec.ofNat 1024 r) i = f i
/-- The sources of a governed vector word: its own, its predicate, and vD when the predicate is not p0 or the operation
uses d (R201). -/
def governedReads (own : List RegId) (p : BitVec 3) (d : BitVec 6) (usesD : Bool) : List RegId :=
  own ++ [.p p.toNat] ++ (if usesD || p != 0 then [.v d.toNat] else [])
/-- A scalar load: its size, whether it extends the sign, whether the event window allows it, its sources, its address
(R136, R152). -/
structure LoadForm where
  i : Instr
  z : Nat
  sext : Bool
  event : Bool
  srcs : List RegId
  addr : Nat
/-- The fourteen scalar loads of one set of fields (R81, R136): `ldw` and `ldd` reach the event window (R152). -/
def loadForms (s : State) (hd : CHead) (d a b : BitVec 5) (o : BitVec 8) : List LoadForm :=
  let off (z : Nat) : Nat := offAddr (s.me.sReg a.toNat) o z
  let idx (z : Nat) : Nat := idxAddr (s.me.sReg a.toNat) (s.me.sReg b.toNat) z
  let one : List RegId := [.s a.toNat]
  let two : List RegId := [.s a.toNat, .s b.toNat]
  [⟨.ldb hd d a o, 1, true, false, one, off 1⟩, ⟨.ldbN hd d a o, 1, false, false, one, off 1⟩,
   ⟨.ldh hd d a o, 2, true, false, one, off 2⟩, ⟨.ldhN hd d a o, 2, false, false, one, off 2⟩,
   ⟨.ldw hd d a o, 4, true, true, one, off 4⟩, ⟨.ldwN hd d a o, 4, false, true, one, off 4⟩,
   ⟨.ldd hd d a o, 8, false, true, one, off 8⟩,
   ⟨.ldbX hd d a b, 1, true, false, two, idx 1⟩, ⟨.ldbNX hd d a b, 1, false, false, two, idx 1⟩,
   ⟨.ldhX hd d a b, 2, true, false, two, idx 2⟩, ⟨.ldhNX hd d a b, 2, false, false, two, idx 2⟩,
   ⟨.ldwX hd d a b, 4, true, true, two, idx 4⟩, ⟨.ldwNX hd d a b, 4, false, true, two, idx 4⟩,
   ⟨.lddX hd d a b, 8, false, true, two, idx 8⟩]
/-- The eight scalar stores of one set of fields; the value is v's, read with the address registers (R136). -/
def storeForms (s : State) (hd : CHead) (v a b : BitVec 5) (o : BitVec 8) : List LoadForm :=
  let off (z : Nat) : Nat := offAddr (s.me.sReg a.toNat) o z
  let idx (z : Nat) : Nat := idxAddr (s.me.sReg a.toNat) (s.me.sReg b.toNat) z
  let one : List RegId := [.s v.toNat, .s a.toNat]
  let two : List RegId := [.s v.toNat, .s a.toNat, .s b.toNat]
  [⟨.stb hd v a o, 1, false, false, one, off 1⟩, ⟨.sth hd v a o, 2, false, false, one, off 2⟩,
   ⟨.stw hd v a o, 4, false, false, one, off 4⟩, ⟨.std hd v a o, 8, false, false, one, off 8⟩,
   ⟨.stbX hd v a b, 1, false, false, two, idx 1⟩, ⟨.sthX hd v a b, 2, false, false, two, idx 2⟩,
   ⟨.stwX hd v a b, 4, false, false, two, idx 4⟩, ⟨.stdX hd v a b, 8, false, false, two, idx 8⟩]
/-- The operations of `amo` and `red`, with the constructors that name them (R142, R143). -/
def amoForms (hd : CHead) (d a b : BitVec 5) (w : BitVec 2) (u : BitVec 1) : List (AmoOp × Instr) :=
  [(.add, .amoAdd hd d a b w u), (.min, .amoMin hd d a b w u), (.max, .amoMax hd d a b w u), (.and, .amoAnd hd d a b w u),
   (.or, .amoOr hd d a b w u), (.xor, .amoXor hd d a b w u), (.swp, .amoSwp hd d a b w u), (.cas, .amoCas hd d a b w u)]
def redForms (hd : CHead) (a b : BitVec 5) (w : BitVec 2) (u : BitVec 1) : List (AmoOp × Instr) :=
  [(.add, .redAdd hd a b w u), (.min, .redMin hd a b w u), (.max, .redMax hd a b w u), (.and, .redAnd hd a b w u),
   (.or, .redOr hd a b w u), (.xor, .redXor hd a b w u)]
/-- An access of n bytes at an own address is aligned, at or above the fetch boundary and on no line that a region holds
(R132, R134, R136, R148). -/
def State.ownAccess (s : State) (a n z : Nat) : Prop :=
  a % z = 0 ∧ a < lsBytes ∧ s.here.boundary ≤ a ∧ s.lineHeld a n = false
/-- The sight set that the running core has at a byte of its own local store (R163). -/
def State.ownSight (s : State) (a : Nat) : List Node := s.sightLs s.focus s.focus a
/-- The nodes without a successor at a byte of the running core's local store (R168). -/
def State.ownTop (s : State) (a : Nat) : List Node := s.topAt (Loc.ls s.focus) (s.byteLs s.focus) a
/-- No byte of the bytes from a leaves a reader a choice: one node is in sight, and memory holds its value (R163, R167). -/
def State.readsOne (s : State) (a n : Nat) : Prop :=
  ∀ j, j < n → (s.ownSight (a + j)).map (fun u => u.val) = [s.byteLs s.focus (a + j)]
/-- No byte of the bytes from a leaves an atomic step a choice: one node has no successor, and memory holds its value (R168). -/
def State.topsOne (s : State) (a n : Nat) : Prop :=
  ∀ j, j < n → (s.ownTop (a + j)).map (fun u => u.val) = [s.byteLs s.focus (a + j)]
/-- The core is in no gang and its running context replays nothing: a switching event passes the slot at once (R41). -/
def State.plainSlot (s : State) : Prop := s.here.gang = none ∧ s.replays = false
/-- The core that the slot is passed to the next ready context of, from the following cycle (R41). -/
def State.passed (s : State) : State := s.onHere (fun x => { x with pass := true })

/-- What a word that writes neither a register nor memory leaves alone, beside what its statement names: the s, v and p
registers of its context with their queued results, its exception and control registers, the core's other contexts and both
memories, every other core, and the memories outside the cores. -/
def State.framed (s t : State) : Prop :=
  t.me.s = s.me.s ∧ t.me.v = s.me.v ∧ t.me.p = s.me.p ∧ t.me.fixed = s.me.fixed ∧ t.me.epc = s.me.epc ∧
    t.me.ecause = s.me.ecause ∧ t.me.einfo = s.me.einfo ∧ t.me.inh = s.me.inh ∧ t.me.level = s.me.level ∧
    t.me.ltk = s.me.ltk ∧ t.me.uwtrap = s.me.uwtrap ∧ t.me.bound = s.me.bound ∧ t.me.t = s.me.t ∧
    (∀ j, j ≠ s.here.run → t.here.ctx j = s.here.ctx j) ∧ t.here.ls = s.here.ls ∧ t.here.b = s.here.b ∧
    (∀ n, n ≠ s.focus → t.coreOf n = s.coreOf n) ∧ t.pa = s.pa ∧ t.host = s.host ∧ t.peer = s.peer

/-! ### Invariants -/

/-- Every byte memory of a core is canonical. -/
def CoreSt.memWf (x : CoreSt) : Prop := Memory.wf x.ls = true ∧ Memory.wf x.b = true
/-- Every byte memory of the module, of the host and of the peers is canonical. -/
def State.memWf (s : State) : Prop :=
  Memory.wf s.pa = true ∧ Memory.wf s.host = true ∧ Memory.wf s.peer = true
/-- Every core's memories are canonical, those of saved households and of peats among them. -/
def State.coresMemWf (s : State) : Prop :=
  (∀ x ∈ s.cores, x.2.memWf) ∧ (∀ h ∈ s.households, ∀ f, h.2.frozen = some f → ∀ x ∈ f.cores, x.2.memWf) ∧
    (∀ p ∈ s.peats, ∀ f, p.2.frozen = some f → ∀ x ∈ f.cores, x.2.memWf)
/-- The hard-wired registers of a context hold what they read as (R80). -/
def Ctx.wired (c : Ctx) : Prop := c.sReg 0 = 0 ∧ c.pReg 0 = BitVec.allOnes 32

end Sys2Proof.Machine
end

