-- ==== Sys2Proof/Certificates/Slice0/Obligations.lean ====
section
/-! DEFINITION. The statements for the provers, each with the rules of spec/ that it formalises. -/
open Sys2Proof Sys2Proof.Machine

/-! ### Scalar words of the A slot -/

/-- R94, R101: the register forms queue their typed result for sD with their latency; a type code above 7 is illegal. -/
def Obligations.ScalarArithmeticResults : Prop :=
  ∀ (s : State) (d a b : BitVec 5) (t : BitVec 4),
    let T := t.toNat
    let w := 8 * typeBytes T
    let u := s.me.sReg a.toNat
    let v := s.me.sReg b.toNat
    let x := typedOperand T u
    let y := typedOperand T v
    ∀ q ∈ ([(.add d a b t, x + y, 1), (.sub d a b t, x - y, 1), (.mul d a b t, x * y, 3), (.mulh d a b t, x * y / 2 ^ w, 3),
            (.div d a b t, if y = 0 then -1 else x.tdiv y, 18), (.rem d a b t, if y = 0 then x else x - y * x.tdiv y, 18),
            (.and d a b t, ((u &&& v).toNat : Int), 1), (.or d a b t, ((u ||| v).toNat : Int), 1),
            (.xor d a b t, ((u ^^^ v).toNat : Int), 1), (.shl d a b t, x * 2 ^ (v.toNat % w), 1),
            (.shr d a b t, ((u.setWidth w).toNat : Int) / 2 ^ (v.toNat % w), 1),
            (.sra d a b t, (u.setWidth w).toInt / 2 ^ (v.toNat % w), 1),
            (.min d a b t, min x y, 1), (.max d a b t, max x y, 1)] : List (Instr × Int × Nat)),
      (q.1.wf = true ↔ T < 8) ∧
        (AClear s q.1 [.s a.toNat, .s b.toNat] [] false →
          exec q.1 s = .next ((s.markReads [.s a.toNat, .s b.toNat]).fixedWrite (.s d.toNat) (typedResult T q.2.1).toNat q.2.2))

/-- R95, R96, R101: the immediate forms work on 64 bits; `lih` and `adr` build constants. -/
def Obligations.ScalarImmediateResults : Prop :=
  ∀ (s : State) (d a : BitVec 5) (imm : BitVec 15) (k : BitVec 6) (hi : BitVec 20),
    let x := s.me.sReg a.toNat
    let y := imm.signExtend 64
    (∀ q ∈ ([(.andI d a imm, x &&& y), (.orI d a imm, x ||| y), (.xorI d a imm, x ^^^ y),
             (.minI d a imm, if x.sle y then x else y), (.maxI d a imm, if x.sle y then y else x),
             (.shlI d a k, x <<< k.toNat), (.shrI d a k, x >>> k.toNat), (.sraI d a k, x.sshiftRight k.toNat),
             (.adr d a imm, x + y)] : List (Instr × Word)),
        AClear s q.1 [.s a.toNat] [] false →
        exec q.1 s = .next ((s.markReads [.s a.toNat]).fixedWrite (.s d.toNat) q.2.toNat 1)) ∧
      (AClear s (.lih d hi) [] [] false →
        exec (.lih d hi) s = .next (s.fixedWrite (.s d.toNat) (hi.setWidth 64 <<< 12).toNat 1))

/-- R97, R98, R101: `cmp`, `sel`, `clz` and `popc`, and the type codes that each accepts. -/
def Obligations.ScalarCompareAndSelectResults : Prop :=
  ∀ (s : State) (d a b : BitVec 5) (p c : BitVec 3) (t : BitVec 4) (imm : BitVec 10),
    let T := t.toNat
    let w := 8 * typeBytes T
    let u := s.me.sReg a.toNat
    ((Instr.cmp p c a b t).wf = true ↔ c.toNat < 6 ∧ T < 9) ∧ ((Instr.cmpI p c a t imm).wf = true ↔ c.toNat < 6 ∧ T < 8) ∧
      ((Instr.clz d a t).wf = true ↔ T < 8) ∧ ((Instr.popc d a t).wf = true ↔ T < 8) ∧
      (∀ n, AClear s (.cmp p c a b t) [.s a.toNat, .s b.toNat] [] false → T < 8 →
        (n = 0xFFFFFFFF ∧ holdsOf c.toNat (typedOperand T u) (typedOperand T (s.me.sReg b.toNat)) ∨
         n = 0 ∧ ¬ holdsOf c.toNat (typedOperand T u) (typedOperand T (s.me.sReg b.toNat))) →
        exec (.cmp p c a b t) s = .next ((s.markReads [.s a.toNat, .s b.toNat]).fixedWrite (.p p.toNat) n 1)) ∧
      (AClear s (.cmp p c a b 8) [.s a.toNat, .s b.toNat] [] false →
        exec (.cmp p c a b 8) s = .next ((s.markReads [.s a.toNat, .s b.toNat]).fixedWrite (.p p.toNat)
          (if fCompare .f32 c.toNat ((s.me.sReg a.toNat).toNat % 2 ^ 32) ((s.me.sReg b.toNat).toNat % 2 ^ 32) then 0xFFFFFFFF else 0) 1)) ∧
      (∀ n, AClear s (.cmpI p c a t imm) [.s a.toNat] [] false →
        (n = 0xFFFFFFFF ∧ holdsOf c.toNat (typedOperand T u) (typedOperand T (imm.signExtend 64)) ∨
         n = 0 ∧ ¬ holdsOf c.toNat (typedOperand T u) (typedOperand T (imm.signExtend 64))) →
        exec (.cmpI p c a t imm) s = .next ((s.markReads [.s a.toNat]).fixedWrite (.p p.toNat) n 1)) ∧
      (AClear s (.sel d a b p) [.p p.toNat, .s a.toNat, .s b.toNat] [] false →
        exec (.sel d a b p) s = .next ((s.markReads [.p p.toNat, .s a.toNat, .s b.toNat]).fixedWrite (.s d.toNat)
          (if (s.me.pReg p.toNat).getLsbD 0 then u else s.me.sReg b.toNat).toNat 1)) ∧
      (AClear s (.clz d a t) [.s a.toNat] [] false →
        ∃ n, n ≤ w ∧ (∀ i, i < n → u.getLsbD (w - 1 - i) = false) ∧ (n < w → u.getLsbD (w - 1 - n) = true) ∧
          exec (.clz d a t) s = .next ((s.markReads [.s a.toNat]).fixedWrite (.s d.toNat) n 1)) ∧
      (AClear s (.popc d a t) [.s a.toNat] [] false →
        exec (.popc d a t) s = .next ((s.markReads [.s a.toNat]).fixedWrite (.s d.toNat)
          ((List.range w).countP (fun i => u.getLsbD i)) 1))

/-- R99, R100, R101: FP32 sums and products of the low 32 bits, and `fcvt`, as Numerics rounds them. -/
def Obligations.ScalarFloatResults : Prop :=
  ∀ (s : State) (d a b c : BitVec 5) (td ts : BitVec 4),
    let x := (s.me.sReg a.toNat).toNat % 2 ^ 32
    let y := (s.me.sReg b.toNat).toNat % 2 ^ 32
    let z := (s.me.sReg c.toNat).toNat % 2 ^ 32
    let gen := genNaN s.focus 511
    let f := unpack .f32
    ((Instr.fcvt d a td ts).wf = true ↔ td.toNat < 13 ∧ ts ≠ 14) ∧
      (AClear s (.faddF32 d a b) [.s a.toNat, .s b.toNat] [] false →
        exec (.faddF32 d a b) s = .next ((s.markReads [.s a.toNat, .s b.toNat]).fixedWrite (.s d.toNat)
          (pack .f32 (settle gen [f x, f y] (addExact (f x) (f y)))) 4)) ∧
      (AClear s (.fmulF32 d a b) [.s a.toNat, .s b.toNat] [] false →
        exec (.fmulF32 d a b) s = .next ((s.markReads [.s a.toNat, .s b.toNat]).fixedWrite (.s d.toNat)
          (pack .f32 (settle gen [f x, f y] (mulExact (f x) (f y)))) 4)) ∧
      (AClear s (.ffmaF32 d a b c) [.s a.toNat, .s b.toNat, .s c.toNat] [] false →
        exec (.ffmaF32 d a b c) s = .next ((s.markReads [.s a.toNat, .s b.toNat, .s c.toNat]).fixedWrite (.s d.toNat)
          (pack .f32 (settle gen [f x, f y, f z] ((mulExact (f x) (f y)).bind (fun p => addExact p (f z))))) 4)) ∧
      (AClear s (.fcvt d a td ts) [.s a.toNat] [] false →
        exec (.fcvt d a td ts) s = .next ((s.markReads [.s a.toNat]).fixedWrite (.s d.toNat)
          (let r := convElem td.toNat ts.toNat ((s.me.sReg a.toNat).toNat % 2 ^ (8 * typeBytes ts.toNat))
           if td.toNat < 4 then wrapInt 64 (readInt true (8 * typeBytes td.toNat) r) else r) 2))

/-! ### Vector and predicate words -/

/-- R201 to R204, R210, R101: a governed word with two sources, the second a vector or a scalar, gives each governed lane its
operation and keeps the others. -/
def Obligations.VectorTwoSourceResults : Prop :=
  ∀ (s : State) (d a b : BitVec 6) (c : BitVec 5) (t : BitVec 4) (p : BitVec 3),
    let fp : Bool := t == 8
    let gen := genNaN s.focus 511
    let flt (f : Nat → Nat → Nat → Nat) (x y z : BitVec 32) : BitVec 32 := BitVec.ofNat 32 (f x.toNat y.toNat z.toNat)
    let less (x y : BitVec 32) : Bool := if t == 2 then x.slt y else x.ult y
    let lesser (x y : BitVec 32) : BitVec 32 :=
      if fp then flt (fun x y _ => fMin .f32 gen x y) x y 0 else if less y x then y else x
    let greater (x y : BitVec 32) : BitVec 32 :=
      if fp then flt (fun x y _ => fMax .f32 gen x y) x y 0 else if less x y then y else x
    let rows : List (Instr × Option Instr × (BitVec 32 → BitVec 32 → BitVec 32 → BitVec 32) × Bool × Nat) :=
      [(.vadd d a b t p, some (.vaddS d a c t p), fun x y z => if fp then flt (fun x y _ => fAdd .f32 gen x y) x y z else x + y,
          false, if fp then 4 else 2),
       (.vsub d a b t p, some (.vsubS d a c t p), fun x y z => if fp then flt (fun x y _ => fSub .f32 gen x y) x y z else x - y,
          false, if fp then 4 else 2),
       (.vmul d a b t p, some (.vmulS d a c t p), fun x y z => if fp then flt (fun x y _ => fMul .f32 gen x y) x y z else x * y,
          false, if fp then 4 else 3),
       (.vfma d a b t p, some (.vfmaS d a c t p), flt (fun x y z => fFma .f32 gen x y z), true, 4),
       (.vfms d a b t p, some (.vfmsS d a c t p), flt (fun x y z => fFms .f32 gen x y z), true, 4),
       (.vmin d a b t p, some (.vminS d a c t p), fun x y _ => lesser x y, false, if fp then 4 else 2),
       (.vmax d a b t p, some (.vmaxS d a c t p), fun x y _ => greater x y, false, if fp then 4 else 2),
       (.vand d a b t p, some (.vandS d a c t p), fun x y _ => x &&& y, false, 2),
       (.vor d a b t p, some (.vorS d a c t p), fun x y _ => x ||| y, false, 2),
       (.vxor d a b t p, some (.vxorS d a c t p), fun x y _ => x ^^^ y, false, 2),
       (.vshl d a b t p, some (.vshlS d a c t p), fun x y _ => x <<< (y.toNat % 32), false, 2),
       (.vshr d a b t p, some (.vshrS d a c t p),
          fun x y _ => if t == 2 then x.sshiftRight (y.toNat % 32) else x >>> (y.toNat % 32), false, 2),
       (.vclamp d a b t p, none, fun x y z => lesser (greater z x) y, true, if fp then 4 else 2),
       (.vdotI8 d a b p, none, fun x y z =>
          z + BitVec.ofInt 32 ((List.range 4).map (fun j =>
            (x.extractLsb' (8 * j) 8).toInt * (y.extractLsb' (8 * j) 8).toInt)).sum, true, 4)]
    let va := vlane (s.me.vReg a.toNat)
    let vb := vlane (s.me.vReg b.toNat)
    let vd := vlane (s.me.vReg d.toNat)
    let x := (s.me.sReg c.toNat).setWidth 32
    ∀ q ∈ rows,
      (AClear s q.1 (governedReads [.v a.toNat, .v b.toNat] p d q.2.2.2.1) [d.toNat, a.toNat, b.toNat] false →
        ∃ r, lanesAre r (fun i => if (s.me.pReg p.toNat).getLsbD i then q.2.2.1 (va i) (vb i) (vd i) else vd i) ∧
          exec q.1 s = .next ((s.markReads (governedReads [.v a.toNat, .v b.toNat] p d q.2.2.2.1)).fixedWrite (.v d.toNat) r
            q.2.2.2.2)) ∧
      (∀ i, q.2.1 = some i → AClear s i (governedReads [.v a.toNat, .s c.toNat] p d q.2.2.2.1) [d.toNat, a.toNat] false →
        ∃ r, lanesAre r (fun n => if (s.me.pReg p.toNat).getLsbD n then q.2.2.1 (va n) x (vd n) else vd n) ∧
          exec i s = .next ((s.markReads (governedReads [.v a.toNat, .s c.toNat] p d q.2.2.2.1)).fixedWrite (.v d.toNat) r
            q.2.2.2.2))

/-- R201, R205, R101: `vabs`, `vneg` and the four rounded functions. -/
def Obligations.VectorOneSourceResults : Prop :=
  ∀ (s : State) (d a : BitVec 6) (t : BitVec 4) (p : BitVec 3),
    let fp : Bool := t == 8
    let gen := genNaN s.focus 511
    let flt (f : Nat → Nat) (x : BitVec 32) : BitVec 32 := BitVec.ofNat 32 (f x.toNat)
    ∀ q ∈ ([(.vabs d a t p, fun x => if fp then flt (fAbs .f32) x else if x.slt 0 then -x else x, if fp then 4 else 2),
            (.vneg d a t p, fun x => if fp then flt (fNeg .f32) x else -x, if fp then 4 else 2),
            (.vrcp d a t p, flt (fRcp .f32), 8), (.vrsqrt d a t p, flt (fRsqrt .f32 gen true), 8),
            (.vexp2 d a t p, flt (fExp2 .f32), 8), (.vlog2 d a t p, flt (fLog2 .f32 gen), 8)] :
            List (Instr × (BitVec 32 → BitVec 32) × Nat)),
      AClear s q.1 (governedReads [.v a.toNat] p d false) [d.toNat, a.toNat] false →
      ∃ r, lanesAre r (fun i => if (s.me.pReg p.toNat).getLsbD i then q.2.1 (vlane (s.me.vReg a.toNat) i)
            else vlane (s.me.vReg d.toNat) i) ∧
        exec q.1 s = .next ((s.markReads (governedReads [.v a.toNat] p d false)).fixedWrite (.v d.toNat) r q.2.2)

/-- R207, R211, R101: the words that move lanes. -/
def Obligations.VectorMoveResults : Prop :=
  ∀ (s : State) (d a b : BitVec 6) (c e : BitVec 5) (t : BitVec 4) (p : BitVec 3),
    let gov (f : Nat → BitVec 32) (i : Nat) : BitVec 32 :=
      if (s.me.pReg p.toNat).getLsbD i then f i else vlane (s.me.vReg d.toNat) i
    let va := vlane (s.me.vReg a.toNat)
    let vb := vlane (s.me.vReg b.toNat)
    let x := s.me.sReg c.toNat
    let pattern : BitVec 32 :=
      if typeBytes t.toNat = 4 then x.setWidth 32
      else if typeBytes t.toNat = 2 then x.setWidth 16 ++ x.setWidth 16
      else x.setWidth 8 ++ x.setWidth 8 ++ x.setWidth 8 ++ x.setWidth 8
    (∀ q ∈ ([(.vperm d a b t p, governedReads [.v a.toNat, .v b.toNat] p d false, [d.toNat, a.toNat, b.toNat],
                gov (fun i => va ((vb i).toNat % 32))),
             (.vsel d a b t p, [.v a.toNat, .v b.toNat, .p p.toNat], [d.toNat, a.toNat, b.toNat],
                fun i => if (s.me.pReg p.toNat).getLsbD i then va i else vb i),
             (.vbcast d a e p, governedReads [.v a.toNat] p d false, [d.toNat, a.toNat], gov (fun _ => va e.toNat)),
             (.vsplat d c t p, governedReads [.s c.toNat] p d false, [d.toNat], gov (fun _ => pattern)),
             (.vins d c e, [.s c.toNat, .v d.toNat], [d.toNat],
                fun i => if i = e.toNat then x.setWidth 32 else vlane (s.me.vReg d.toNat) i)] :
             List (Instr × List RegId × List Nat × (Nat → BitVec 32))),
        AClear s q.1 q.2.1 q.2.2.1 false →
        ∃ r, lanesAre r q.2.2.2 ∧ exec q.1 s = .next ((s.markReads q.2.1).fixedWrite (.v d.toNat) r 2)) ∧
      (AClear s (.vext c a e) [.v a.toNat] [a.toNat] false →
        exec (.vext c a e) s = .next ((s.markReads [.v a.toNat]).fixedWrite (.s c.toNat) (va e.toNat).toNat 2))

/-- R206, R212, R101: compares write every lane of pD, and the predicate words all 32 bits. -/
def Obligations.PredicateResults : Prop :=
  ∀ (s : State) (d c p x y : BitVec 3) (a b : BitVec 6) (sb : BitVec 5) (t : BitVec 4),
    let at_ (r : Nat) (f : Nat → Prop) : Prop := ∀ i, i < 32 → ((BitVec.ofNat 32 r).getLsbD i = true ↔ f i)
    let cc (u v : BitVec 32) : Prop :=
      if t = 8 then fCompare .f32 c.toNat u.toNat v.toNat = true
      else if t = 2 then holdsOf c.toNat u.toInt v.toInt else holdsOf c.toNat u.toNat v.toNat
    let va := vlane (s.me.vReg a.toNat)
    let P := s.me.pReg
    (AClear s (.vcmp d c a b t p) [.v a.toNat, .v b.toNat, .p p.toNat] [a.toNat, b.toNat] false →
        ∃ r, at_ r (fun i => (P p.toNat).getLsbD i = true ∧ cc (va i) (vlane (s.me.vReg b.toNat) i)) ∧
          exec (.vcmp d c a b t p) s =
            .next ((s.markReads [.v a.toNat, .v b.toNat, .p p.toNat]).fixedWrite (.p d.toNat) r 2)) ∧
      (AClear s (.vcmpS d c a sb t p) [.v a.toNat, .s sb.toNat, .p p.toNat] [a.toNat] false →
        ∃ r, at_ r (fun i => (P p.toNat).getLsbD i = true ∧ cc (va i) ((s.me.sReg sb.toNat).setWidth 32)) ∧
          exec (.vcmpS d c a sb t p) s =
            .next ((s.markReads [.v a.toNat, .s sb.toNat, .p p.toNat]).fixedWrite (.p d.toNat) r 2)) ∧
      (AClear s (.pset d sb) [.s sb.toNat] [] false →
        exec (.pset d sb) s = .next ((s.markReads [.s sb.toNat]).fixedWrite (.p d.toNat)
          ((s.me.sReg sb.toNat).setWidth 32).toNat 1)) ∧
      (AClear s (.pand d x y) [.p x.toNat, .p y.toNat] [] false →
        exec (.pand d x y) s = .next ((s.markReads [.p x.toNat, .p y.toNat]).fixedWrite (.p d.toNat)
          (P x.toNat &&& P y.toNat).toNat 1)) ∧
      (AClear s (.por d x y) [.p x.toNat, .p y.toNat] [] false →
        exec (.por d x y) s = .next ((s.markReads [.p x.toNat, .p y.toNat]).fixedWrite (.p d.toNat)
          (P x.toNat ||| P y.toNat).toNat 1)) ∧
      (AClear s (.pnot d x) [.p x.toNat] [] false →
        exec (.pnot d x) s = .next ((s.markReads [.p x.toNat]).fixedWrite (.p d.toNat) (~~~ (P x.toNat)).toNat 1))

/-- R208, R209, R195, R101: `vcvt` converts packed elements and clears the rest of a narrow result; `vred` reduces the lanes by
the tree and writes the result to every lane. -/
def Obligations.VectorConvertAndReduceResults : Prop :=
  ∀ (s : State) (d a : BitVec 6) (td ts t : BitVec 4) (o p : BitVec 3),
    let P := s.me.pReg p.toNat
    let va := s.me.vReg a.toNat
    let wd := 8 * typeBytes td.toNat
    let gen := genNaN s.focus 511
    (AClear s (.vcvt d a td ts p) (governedReads [.v a.toNat] p d false) [d.toNat, a.toNat] false →
        ∃ r, (∀ i, i < 32 → r / 2 ^ (wd * i) % 2 ^ wd =
              if P.getLsbD i then
                (if td = ts then packedOf va wd i
                 else convElem td.toNat ts.toNat (packedOf va (8 * typeBytes ts.toNat) i) % 2 ^ wd)
              else packedOf (s.me.vReg d.toNat) wd i) ∧ r < 2 ^ (32 * wd) ∧
          exec (.vcvt d a td ts p) s = .next ((s.markReads (governedReads [.v a.toNat] p d false)).fixedWrite (.v d.toNat) r 3)) ∧
      (AClear s (.vred d a o t p) [.v a.toNat, .p p.toNat] [d.toNat, a.toNat] false →
        ∃ r, lanesAre r (fun _ => BitVec.ofNat 32 (tree (redNode o.toNat t.toNat gen) 5
              ((List.range 32).map (fun i => if P.getLsbD i then (vlane va i).toNat else redIdentity o.toNat t.toNat)))) ∧
          exec (.vred d a o t p) s = .next ((s.markReads [.v a.toNat, .p p.toNat]).fixedWrite (.v d.toNat) r 6))

/-! ### Control, token and system words -/

/-- R76, R87, R90, R103, R105, R106, R116: the words that change no more than the slot, a count of owed pairs or one register.
A `kwait` issues when its token's count is at most its bound, and holds its pair otherwise. -/
def Obligations.PlainWordResults : Prop :=
  ∀ (s : State) (hd : CHead) (d : BitVec 5) (k : BitVec 4) (n : BitVec 6) (op : BitVec 7) (cr : BitVec 18) (ar : BitVec 25),
    let done := s.readied [] 0
    (CClear s (.nop hd) hd [] [] [] none 0 0 true → exec (.nop hd) s = .next done) ∧
      (CClear s (.cReservedNop hd op cr) hd [] [] [] none 0 0 true → exec (.cReservedNop hd op cr) s = .next done) ∧
      (AClear s .aNop [] [] true → exec .aNop s = .next s) ∧
      (AClear s (.aReservedNop op ar) [] [] true → exec (.aReservedNop op ar) s = .next s) ∧
      (CClear s (.dly hd n) hd [] [] [] none 0 0 true →
        exec (.dly hd n) s = .next (done.onMe (fun c => { c with dlyRem := n.toNat - 1 }))) ∧
      (CClear s (.yield hd) hd [] [] [] none 0 0 false → s.plainSlot → exec (.yield hd) s = .next done.passed) ∧
      (CClear s (.kwait hd k n) hd [] [] [k] none 0 0 false →
        (s.me.tok (s.me.tokRef k.toNat) ≤ n.toNat → exec (.kwait hd k n) s = .next done) ∧
          (n.toNat < s.me.tok (s.me.tokRef k.toNat) → exec (.kwait hd k n) s = .next (s.hold false))) ∧
      (CClear s (.ktst hd d k) hd [] [] [k] none 0 0 false →
        exec (.ktst hd d k) s = .next (done.fixedWrite (.s d.toNat) (s.me.tok (s.me.tokRef k.toNat)) 1))

/-- R110, R81, R459: a conditional branch that is taken sends the context to its target; one that is not changes nothing. -/
def Obligations.BranchResults : Prop :=
  ∀ (s : State) (hd : CHead) (p : BitVec 3) (o : BitVec 15),
    let P := s.me.pReg p.toNat
    ∀ q ∈ ([(.brT hd p o, P.getLsbD 0), (.brF hd p o, !P.getLsbD 0), (.brAny hd p o, P != 0), (.brNone hd p o, P == 0)] :
            List (Instr × Bool)),
      CClear s q.1 hd [.p p.toNat] [] [] none 0 0 false → s.traceCond none = [] →
      let target := s.me.pc + 4 * o.signExtend 64
      (q.2 = true → exec q.1 s = .next (((s.readied [.p p.toNat] 0).traceEvent none target.toNat).onMe
        (fun c => { c with npc := target, jumped := true }))) ∧
      (q.2 = false → exec q.1 s = .next (s.readied [.p p.toNat] 0))

/-- R109, R110, R111, R81, R373, R459: the unconditional transfers and their links. Outside a handler a `call` issues while no
count of k0 to k7 is above 0, and otherwise takes the token-ownership trap with the mask of those counts in EINFO. -/
def Obligations.JumpResults : Prop :=
  ∀ (s : State) (hd : CHead) (d a : BitVec 5) (o : BitVec 18) (n : BitVec 13),
    let pc := s.me.pc
    let link := pc + (if hd.ln then 4 else 8)
    let go (t : State) (target : Word) : State :=
      (t.traceEvent none target.toNat).onMe (fun c => { c with npc := target, jumped := true })
    s.traceCond none = [] →
    (CClear s (.jmp hd o) hd [] [] [] none 0 0 false →
        exec (.jmp hd o) s = .next (go (s.readied [] 0) (pc + 4 * o.signExtend 64))) ∧
      (CClear s (.call hd o) hd [] [] [] none 0 0 false → (s.me.inh = true ∨ ∀ j, j < 8 → s.me.tok (.k j) = 0) →
        exec (.call hd o) s = .next (go ((s.readied [] 0).fixedWrite (.s 31) link.toNat 1) (pc + 4 * o.signExtend 64))) ∧
      (∀ owned, CClear s (.call hd o) hd [] [] [] none 0 0 false → s.me.inh = false → owned < 256 → owned ≠ 0 →
        (∀ j, j < 8 → (owned.testBit j = true ↔ s.me.tok (.k j) ≠ 0)) →
        exec (.call hd o) s = .next (s.enterTrap 9 0 1 false owned pc)) ∧
      (CClear s (.jal hd d n) hd [] [] [] none 0 0 false →
        exec (.jal hd d n) s = .next (go ((s.readied [] 0).fixedWrite (.s d.toNat) link.toNat 1) (pc + 4 * n.signExtend 64))) ∧
      (CClear s (.jr hd a) hd [.s a.toNat] [] [] none 0 0 false →
        exec (.jr hd a) s = .next (go (s.readied [.s a.toNat] 0) (s.me.sReg a.toNat))) ∧
      (CClear s (.ret hd) hd [.s 31] [] [] none 0 0 false →
        exec (.ret hd) s = .next (go (s.readied [.s 31] 0) (s.me.sReg 31)))

/-- R112, R114, R375, R89, R93: `trap` after its pair, `eret` once t0 to t3 are zero, and a word with an illegal opcode once its
wait is met. Outside a handler `eret` is illegal. -/
def Obligations.TrapWordResults : Prop :=
  ∀ (s : State) (hd : CHead) (code : BitVec 8) (slot : Nat) (w : BitVec 32),
    (CClear s (.trap hd code) hd [] [] [] none 0 0 false →
        exec (.trap hd code) s = .next ((s.readied [] 0).trapAfter 26 0 code.toNat s.me.npc)) ∧
      (CClear s (.eret hd) hd [] [] [] none 0 0 false → s.me.inh = true → (∀ j, j < 4 → s.me.tok (.t j) = 0) →
        exec (.eret hd) s = .next ((s.readied [] 0).onMe (fun c => { c with inh := false, npc := c.epc, jumped := true }))) ∧
      (CClear s (.eret hd) hd [] [] [] none 0 0 false → s.me.inh = true → (∃ j, j < 4 ∧ s.me.tok (.t j) ≠ 0) →
        exec (.eret hd) s = .next (s.hold false)) ∧
      (s.me.waitMet hd = true → s.me.inh = false →
        exec (.eret hd) s = .next (s.enterTrap 1 0 1 false (wordOf (.eret hd)) s.me.pc)) ∧
      (slot ≠ 1 ∨ s.me.waitMet (decodeHead w) = true →
        exec (.illegalOpcode slot w) s = .next (s.enterTrap 1 0 slot false w.toNat s.me.pc)) ∧
      (slot = 1 → s.me.waitMet (decodeHead w) = false → exec (.illegalOpcode slot w) s = .next (s.hold true))

/-- R53, R71, R72, R379, R284: the traps in place of a pair. A fetch at or above the boundary takes the overlay trap, one at no
C-slot position the misaligned-pair trap; the oldest late report and the oldest upcall entry each enter the handler.
That a late trap
which ends a wait in `sync.t` withdraws the pending bit and the limit of its destination is the model's choice (log 13). -/
def Obligations.TrapsInPlaceOfAPair : Prop :=
  ∀ (s : State),
    (256 * s.me.bound ≤ s.me.pc.toNat →
        exec .fetchTrap s =
          .next (s.enterTrap 3 0 0 false (s.me.pc.toNat % 2 ^ 52 + (if s.me.jumped then 2 ^ 63 else 0)) s.me.pc)) ∧
      (s.me.pc.toNat < 256 * s.me.bound →
        (s.me.pc.toNat % 4 ≠ 0 ∨ s.me.pc.toNat % 8 = 4 ∧ (s.wordAt s.me.pc.toNat).getLsbD 31 = false) →
        exec .fetchTrap s = .next (s.enterTrap 2 0 0 false s.me.pc.toNat s.me.pc)) ∧
      (∀ r rest, s.me.lateQ = r :: rest → s.me.inh = false →
        exec .lateTrap s = .next ((s.onMe (fun c => { c.leaveSync with lateQ := rest, lost := 0 })).enterTrap r.cause r.sub 0 true
          (r.info + s.me.lost * 2 ^ 36) s.me.latePc)) ∧
      (∀ e, s.here.inbox.find? (fun e => e.ctxTo == s.here.run && e.kind == 5) = some e →
        let u := tget s.here.upcs (0, none) (65536 * s.here.run + e.seq)
        let epc := if s.me.wait = .halt then s.me.lastPc else s.me.pc
        ∃ t : State, t.latch = .trapped 27 ∧
          exec .upcall s = .next (t.onMe (fun c =>
            { c.trapEntry 27 0 0 false 0 epc (BitVec.ofNat 64 u.1) with
              upcall := BitVec.ofNat 64 u.1, rqseq := packFields [(32, 16, e.seq), (0, 32, bits e.payload.toNat 0 32)] })))

/-- R38, R39, R50, R115, R116: `spawn` starts the lowest free helper or gives 0; `halt` and `gsplit`. -/
def Obligations.ContextWordResults : Prop :=
  ∀ (s : State) (hd : CHead) (d a b : BitVec 5) (q : BitVec 3),
    let srcs : List RegId := [.s a.toNat, .s b.toNat]
    let done := s.readied [] 0
    let split (x : CoreSt) : CoreSt := { x with gang := none, ctxs := Vector.ofFn (fun i => { x.ctx i.val with parked := false }) }
    (CClear s (.spawn hd d a b q) hd srcs [] [] none 0 0 false → s.me.ctxNo = 0 →
        (192 < s.here.poolHeld + 8 * q.toNat ∨ (∀ i, 1 ≤ i → i ≤ 10 → (s.here.ctx i).live = true) →
          exec (.spawn hd d a b q) s = .next ((s.readied srcs 0).fixedWrite (.s d.toNat) 0 2)) ∧
        (∀ i, s.here.poolHeld + 8 * q.toNat ≤ 192 → 1 ≤ i → i ≤ 10 → (s.here.ctx i).live = false →
          (∀ j, 1 ≤ j → j < i → (s.here.ctx j).live = true) →
          ∃ c t, exec (.spawn hd d a b q) s = .next (t.onHere (fun x => x.setCtx i c)) ∧
            t = (s.readied srcs 0).fixedWrite (.s d.toNat) i 2 ∧ c.live = true ∧ c.parked = s.here.gang.isSome ∧
            c.pc = s.me.sReg a.toNat ∧ c.sReg 1 = s.me.sReg b.toNat ∧ c.ctxNo = i ∧ c.quota = 8 * q.toNat ∧
            c.task = s.me.task ∧ c.fen = s.me.fen ∧ c.bound = s.me.bound ∧ c.ovh = s.me.ovh ∧ c.readyAt = s.gts + 1 ∧
            (∀ n, n ≠ 1 → c.sReg n = 0))) ∧
      (CClear s (.gsplit hd) hd [] [] [] none 0 0 false →
        (s.here.gang = none → exec (.gsplit hd) s = .next (done.onHere (fun x => x))) ∧
        (s.here.gang ≠ none → exec (.gsplit hd) s = .next (done.onHere split))) ∧
      (CClear s (.halt hd) hd [] [] [] none 0 0 false → s.here.run < 11 →
        ∃ t, exec (.halt hd) s = .next t ∧ t.me.wait = .halt ∧ t.here.gang = none ∧ (s.here.gang = none → s.framed t) ∧
          (s.here.gang ≠ none → t = (done.onHere split).onMe (fun c => { c with wait := .halt })))

/-- R46, R47, R48, R116 to R118: arriving at a barrier. The context waits for the phase of its instance; at LEVEL 0 `sync` does
nothing and `sync.t` gives 1; a `gang` records its request.
That a `sync.t` whose limit
had passed at its issue takes 0 in the next cycle is the model's choice (log 32). -/
def Obligations.BarrierWordResults : Prop :=
  ∀ (s : State) (hd : CHead) (d sl : BitVec 5) (h x y : BitVec 2),
    let lim := (s.me.sReg sl.toNat).toNat
    let src : List RegId := [.s sl.toNat]
    let at1 (c : Ctx) : Ctx := if c.arr then c else { c with arr := true, arrOut := c.out }
    let waits (c : Ctx) : Ctx := { ((at1 c).addPending (.s d.toNat)) with wait := .syncT d.toNat lim }
    let cs := gangCores s.myCluster h.toNat x.toNat y.toNat
    (CClear s (.sync hd) hd [] [] [] none 0 0 false →
        exec (.sync hd) s = .next ((s.readied [] 0).onMe (fun c => if c.level = 0 then c else { (at1 c) with wait := .sync }))) ∧
      (CClear s (.syncT hd d sl) hd src [] [] none 0 0 false →
        (s.me.level = 0 → exec (.syncT hd d sl) s = .next ((s.readied src 0).fixedWrite (.s d.toNat) 1 1)) ∧
        (s.me.level ≠ 0 → s.gts < lim →
          exec (.syncT hd d sl) s =
            .next (((s.readied src 0).onMe waits).stepAt lim (.syncTLimit s.focus s.here.run))) ∧
        (s.me.level ≠ 0 → lim < s.gts →
          exec (.syncT hd d sl) s =
            .next (((s.readied src 0).onMe waits).doneAt (s.gts + 1) s.focus s.here.run
              [.write (.s d.toNat) 0, .unpend (.s d.toNat), .ready])) ∧
        (s.me.level ≠ 0 → lim = s.gts →
          exec (.syncT hd d sl) s =
            .next (((s.readied src 0).onMe waits).complete s.focus s.here.run
              [.write (.s d.toNat) 0, .unpend (.s d.toNat), .ready]))) ∧
      (CClear s (.gang hd h x y) hd [] [] [] none 0 0 false → s.me.ctxNo = 0 → s.me.level = 2 → cs.contains s.focus = true →
        exec (.gang hd h x y) s = .next ((s.readied [] 0).onMe (fun c =>
          { (at1 c) with wait := .sync, gangReq := some (h.toNat, x.toNat, y.toNat) })))

/-- R51, R119, R120, R121: recording and replaying the repetition buffer, which serves one context at a time. -/
def Obligations.RepetitionBufferResults : Prop :=
  ∀ (s : State) (hd : CHead) (c : BitVec 4) (a b : BitVec 5),
    let srcs : List RegId := [.s a.toNat, .s b.toNat]
    let n := (s.me.sReg a.toNat).toNat % 65536
    let stag := s.me.sReg b.toNat
    (CClear s (.rbRec hd c) hd [] [] [] none 0 0 false → s.here.rbSt = .idle →
        exec (.rbRec hd c) s =
          .next ((s.readied [] 0).onHere (fun x => { x with rb := [], rbSt := .recording s.here.run (c.toNat + 1) }))) ∧
      (CClear s (.rbRun hd a b) hd srcs [] [] none 0 0 false → s.here.rbSt = .idle →
        (∀ j, j < 4 → stag.getLsbD (16 * j + 14) = false ∧ stag.extractLsb' (16 * j + 6) 2 = 0) →
        (n = 0 → exec (.rbRun hd a b) s = .next (s.readied srcs 0)) ∧
        (n ≠ 0 → s.here.rb ≠ [] →
          exec (.rbRun hd a b) s =
            .next ((s.readied srcs 0).onHere (fun x => { x with rbSt := .replaying s.here.run 0 n 0 stag false })))) ∧
      (∀ pass passes idx stag sw t, s.here.rbSt = .replaying s.here.run pass passes idx stag sw → s.me.dlyRem = 0 →
        s.me.aboveBound = false → s.badPosition = false →
        runPair runWord (s.pairAt s.me.pc).1 (mapVectors (stagger pass stag) (aInstr (s.here.rb.getD idx 0x02000000)))
          (s.setNext (s.pairAt s.me.pc).2.2) = .next t → t.latch = .issued →
        exec .replayedPair s = .next (t.onHere CoreSt.replayNext)) ∧
      (∀ pass passes idx stag sw, s.here.rbSt = .replaying s.here.run pass passes idx stag sw → s.latch = .issued →
        let w := mapVectors (stagger pass stag) (aInstr (s.here.rb.getD idx 0x02000000))
        let next := s.wordAt s.me.pc.toNat
        let head := decodeHead next
        w.isA = true → w.wf = true → illegalWord w = false → (s.me.uwtrap = true → ∀ r, s.me.isPending r = false) →
        64 ≤ s.me.quota → s.me.region = none →
        (s.me.dlyRem ≠ 0 ∨ s.me.aboveBound = false ∧ s.badPosition = false ∧
          ((∃ i, decodeC next = .ok i ∧ s.me.waitMet head = false) ∨
            decodeC next = .ok (.nop head) ∧ s.me.waitMet head = true ∧ (head.wn = 3 ∨ s.me.badToken head.wk = false))) →
        ∃ t, exec .replayedPair s = .next t ∧ t.latch = .issued ∧ t.here.rbSt = s.here.replayNext.rbSt)

/-- R122 to R125, R6, R24, R37, R43, R45, R52, R101, R126 to R131, R364: control registers read and written field by field, the
GTS, signals and markers.
The fields are written out as the maps of R24, R37, R43, R52, R127 to R130 and R364 place them; a number of no register reads 0.
That a Pending handle register sets no bit of CSTAT.PND is the model's choice (log 32). -/
def Obligations.SystemWordResults : Prop :=
  ∀ (s : State) (hd : CHead) (d a : BitVec 5) (c : BitVec 12) (imm : BitVec 13),
    let src : List RegId := [.s a.toNat]
    let w := s.me.sReg a.toNat
    let done := s.readied src 0
    let x := s.here
    let y := s.me
    let n := s.focus
    let leads : Bool := match x.gang with
      | some g => g.members.head? == some n
      | none => false
    let uses : Bool := match x.rbSt with
      | .idle => false
      | .recording o _ => o == x.run
      | .replaying o _ _ _ _ _ => o == x.run
    let phases := if y.level = 0 then 0 else (s.dom (x.hid.getD 0) y.level (unitOf y.level n y.fen)).phases
    let read : List (Nat × Word) :=
      [(0x000, packFields [(32, 8, y.fen), (28, 4, y.ctxNo), (0, 20, y.task)]),
       (0x001, BitVec.ofNat 64 (clusterOf n * 2 ^ 36 + quadOf n * 2 ^ 32 + memberOf n * 2 ^ 28 + dieOf n * 2 ^ 26 + rowOf n * 2 ^ 21 +
          colOf n * 2 ^ 15 + n)),
       (0x002, packFields [(32, 16, phases), (8, 1, ofBool y.arr), (0, 3, y.level)]),
       (0x003, packFields [(32, 16, y.ovh), (8, 11, y.bound)]),
       (0x004, packFields [(4, 15, x.xpl / 16)]),
       (0x005, packFields [(32, 32, y.scnt), (7, 1, ofBool y.inh), (6, 1, ofBool x.gang.isSome), (5, 1, ofBool leads), (4, 1, ofBool uses),
          (3, 1, ofBool (!y.pend.isEmpty)), (2, 1, ofBool y.susp), (0, 1, ofBool y.uw)]),
       (0x006, packFields [(4, 4, y.ltk), (0, 1, ofBool y.uwtrap)]),
       (0x007, packFields [(16, 16, y.nseq), (0, 10, y.orcCount)]),
       (0x008, BitVec.ofNat 64 s.gts), (0x010, y.epc), (0x011, y.ecause), (0x012, y.einfo), (0x018, y.upcall), (0x019, y.rqseq),
       (0x020, BitVec.ofNat 64 x.mfa), (0x021, BitVec.ofNat 64 x.mfb), (0x022, BitVec.ofNat 64 x.msa), (0x023, BitVec.ofNat 64 x.msb),
       (0x030, packFields [(32, 12, (s.dieAt (dieOf n)).cwinOffset), (16, 8, 96), (0, 16, 4096)])]
    (CClear s (.getc hd d c) hd [] [] [] none 0 0 false →
        exec (.getc hd d c) s = .next ((s.readied [] 0).fixedWrite (.s d.toNat) ((s.readied [] 0).readCtl c.toNat).toNat 2)) ∧
      (CClear s (.getc hd d c) hd [] [] [] none 0 0 false →
        (∀ v, (c.toNat, v) ∈ read → exec (.getc hd d c) s = .next ((s.readied [] 0).fixedWrite (.s d.toNat) v.toNat 2)) ∧
        ((∀ v, (c.toNat, v) ∉ read) → exec (.getc hd d c) s = .next ((s.readied [] 0).fixedWrite (.s d.toNat) 0 2))) ∧
      (CClear s (.gts hd d) hd [] [] [] none 0 0 false →
        exec (.gts hd d) s = .next ((s.readied [] 0).fixedWrite (.s d.toNat) (s.gts % 2 ^ 64) 1)) ∧
      (CClear s (.setc hd a c) hd src [] [] none 0 0 false →
        (c = 0x002 → exec (.setc hd a c) s = .next (done.onMe (fun x =>
          if x.arr = true ∨ w.toNat % 8 = 7 then x else { x with level := w.toNat % 8 }))) ∧
        (c = 0x003 → exec (.setc hd a c) s = .next (done.onMe (fun x =>
          if x.inh then { x with bound := min (w.extractLsb' 8 11).toNat 0x600 } else x))) ∧
        (c = 0x005 → exec (.setc hd a c) s = .next (done.onMe (fun x =>
          { x with scnt := (w.extractLsb' 32 32).toNat, susp := x.susp && !w.getLsbD 2, uw := x.uw && !w.getLsbD 0 }))) ∧
        (c = 0x006 → exec (.setc hd a c) s = .next (done.onMe (fun x =>
          { x with ltk := (w.extractLsb' 4 4).toNat, uwtrap := w.getLsbD 0 }))) ∧
        (c = 0x010 → exec (.setc hd a c) s = .next (done.onMe (fun x => { x with epc := w }))) ∧
        (c = 0x020 → exec (.setc hd a c) s = .next (done.onHere (fun x => { x with mfa := w.toNat % 16 }))) ∧
        (c = 0x021 → exec (.setc hd a c) s = .next (done.onHere (fun x => { x with mfb := w.toNat % 16 }))) ∧
        (c = 0x022 → exec (.setc hd a c) s = .next (done.onHere (fun x => { x with msa := w.toNat % 2 ^ 19 }))) ∧
        (c = 0x023 → exec (.setc hd a c) s = .next (done.onHere (fun x => { x with msb := w.toNat % 2 ^ 19 }))) ∧
        (c ∉ ([0x002, 0x003, 0x005, 0x006, 0x010, 0x020, 0x021, 0x022, 0x023] : List (BitVec 12)) →
          exec (.setc hd a c) s = .next done)) ∧
      (CClear s (.sig hd a imm) hd src [] [] none 1 1 false →
        exec (.sig hd a imm) s = .next ((s.readied src 1).request .porch none (.sig imm.toNat w.toNat))) ∧
      (CClear s (.tmark hd a imm) hd src [] [] none 0 0 false → s.traceCond (some imm.toNat) = [] →
        exec (.tmark hd a imm) s = .next (done.traceEvent (some imm.toNat) w.toNat))

/-! ### Memory words -/

/-- R136, R132, R134, R81, R101, R163, R165, R167: a load from the own local store is a read step of its core, and queues what
it finds, extended as the form says, with latency 3. Where no byte leaves the core a choice it finds what memory holds; where one
does, each byte is that of a node of its sight set. -/
def Obligations.OwnLoadResults : Prop :=
  ∀ (s : State) (hd : CHead) (d a b : BitVec 5) (o : BitVec 8), s.me.region = none →
    ∀ q ∈ loadForms s hd d a b o, s.ownAccess q.addr q.z q.z → CClear s q.i hd q.srcs [] [] none 0 0 false →
      let u := s.readied q.srcs 0
      let r := u.readLs s.focus s.focus q.addr q.z
      let n := BitVec.ofNat (8 * q.z) r.1
      exec q.i s = .next (r.2.fixedWrite (.s d.toNat) (if q.sext then n.signExtend 64 else n.setWidth 64).toNat 3) ∧
        (s.readsOne q.addr q.z → r = (s.here.ls.readN q.addr q.z, u)) ∧
        (¬ s.readsOne q.addr q.z → (∀ j, j < q.z → s.ownSight (q.addr + j) ≠ []) →
          ∀ j, j < q.z → ∃ w ∈ s.ownSight (q.addr + j), r.1 / 256 ^ j % 256 = w.val % 256)

/-- R136, R135, R132, R134, R81, R165, R166: a store to the own local store writes the low bytes of its value at its address in
its issue cycle, as one write with one new identity whose node at each byte stands after what its core knew there; it changes no
other byte of any memory, no register, no flag and no other core. -/
def Obligations.OwnStoreResults : Prop :=
  ∀ (s : State) (hd : CHead) (v a b : BitVec 5) (o : BitVec 8), s.me.region = none →
    ∀ q ∈ storeForms s hd v a b o, s.ownAccess q.addr q.z q.z → CClear s q.i hd q.srcs [] [] none 0 0 false →
      let byte (j : Nat) : BitVec 8 := (s.me.sReg v.toNat).extractLsb' (8 * j) 8
      let loc (j : Nat) : Loc := .ls s.focus (q.addr + j)
      let was (j : Nat) : Graph := (lfind s.order (loc j)).getD { init := (s.here.ls.read (q.addr + j)).toNat, nodes := [] }
      let known (j : Nat) : List Nat := ((was j).nodes.map (fun u => u.id)).filter (fun n => s.here.seen.contains (loc j, n))
      ∃ t : State, exec q.i s = .next t ∧
        (Memory.wf s.here.ls = true → Memory.wf t.here.ls = true ∧ ∀ j, j < q.z → t.here.ls.read (q.addr + j) = byte j) ∧
        (∀ x, x < q.addr ∨ q.addr + q.z ≤ x → t.here.ls.read x = s.here.ls.read x) ∧
        (∀ l, (∀ j, j < q.z → loc j ≠ l) → lfind t.order l = lfind s.order l) ∧
        (∀ j, j < q.z → lfind t.order (loc j) = some { init := (was j).init, nodes := (was j).nodes ++
          [{ id := s.ctr + 1, val := (byte j).toNat, base := q.addr, size := q.z, before := known j }] }) ∧
        t = { (s.readied q.srcs 0).onHere (fun x => { x with ls := t.here.ls, pages := t.here.pages, seen := t.here.seen }) with
              order := t.order, ctr := s.ctr + 1 }

/-- R133, R129, R165: a remote request takes the sequence number NSEQ, raises ORC.COUNT, and goes to its first router with its
source, its address and its program counter. -/
def Obligations.RemoteRequestTakesTheNextNumber : Prop :=
  ∀ (s : State) (dst : Dst) (tok : Option TokRef) (body : Body), s.here.run < 11 →
    let t := s.request dst tok body
    t.me = { s.me with nseq := (s.me.nseq + 1) % 65536, out := s.me.out ++ [s.me.nseq] } ∧
      (∃ m, tfind t.bag s.ctr = some m ∧ m.seq = s.me.nseq ∧ m.pc = s.me.pc.toNat ∧ m.dst = dst ∧ m.tok = tok ∧
        m.body = body ∧ m.st = .going ∧ m.at_ = s.focus ∧ m.src = s.srcOf s.focus s.here.run ∧ m.remote = true) ∧
      (∀ k, k ≠ s.ctr → tfind t.bag k = tfind s.bag k) ∧
      (∃ e : Due, e.ev = .step (.routerReceive s.ctr) ∧ s.gts < e.at_ ∧ t.due = s.due ++ [e]) ∧
      t.pa = s.pa ∧ t.host = s.host ∧ t.peer = s.peer ∧ ∀ c, c ≠ s.focus → t.coreOf c = s.coreOf c

/-- R136, R133, R108, R107, R41, R152: a scalar access through the cluster window, or a load of the event window, is a remote
request; the load raises the token of R108, makes its destination pending, and is a switching event. A counter is
zero-extended. -/
def Obligations.RemoteScalarAccessResults : Prop :=
  ∀ (s : State) (hd : CHead) (d a b : BitVec 5) (o : BitVec 8), s.me.region = none →
    let t := s.me.ltkRef
    let loads (q : LoadForm) (sext : Bool) : State := (((s.readied q.srcs 1).onMe (fun c =>
      (c.raise t).startDest (.s d.toNat))).request (s.dstOf q.addr) (some t) (.load q.addr q.z sext d.toNat)).passed
    (∀ q ∈ loadForms s hd d a b o, q.addr % q.z = 0 → CClear s q.i hd q.srcs [] [] (some t) 1 1 false → s.plainSlot →
        ((∃ m off, classify q.addr = .window m off) → exec q.i s = .next (loads q q.sext)) ∧
        (q.event = true → (∃ off, classify q.addr = .event off) → exec q.i s = .next (loads q false))) ∧
      (∀ q ∈ storeForms s hd d a b o, q.addr % q.z = 0 → (∃ m off, classify q.addr = .window m off) →
        CClear s q.i hd q.srcs [] [] none 1 1 false →
        exec q.i s = .next ((s.readied q.srcs 1).request (s.dstOf q.addr) none
          (.store q.addr q.z (s.me.sReg d.toNat).toNat)))

/-- R148, R149, R168: `alb` opens a region on its line; the loads and stores of an open region are held until `ale`, which performs
them in one step: on the own local store at once, through the window by one request. Where the line leaves a choice, the step
starts from one of its nodes without a successor at each byte. -/
def Obligations.RegionResults : Prop :=
  ∀ (s : State) (hd : CHead) (d a b : BitVec 5) (o : BitVec 8),
    let line := (s.me.sReg a.toNat).toNat / 128 * 128
    let reaches (x : Nat) : Prop := s.here.boundary ≤ x ∧ x < lsBytes ∨ ∃ m off, classify x = .window m off
    (CClear s (.alb hd a) hd [.s a.toNat] [] [] none 0 0 false → reaches line →
        exec (.alb hd a) s = .next ((s.readied [.s a.toNat] 0).onMe (fun c =>
          { c with region := some { line := line, pc := c.pc.toNat, accs := [] } }))) ∧
      (∀ r, s.me.region = some r →
        let fits (q : LoadForm) : Prop := r.accs.length < 8 ∧ q.addr % q.z = 0 ∧ r.line ≤ q.addr ∧
          q.addr + q.z ≤ r.line + 128 ∧ reaches q.addr
        (∀ q ∈ loadForms s hd d a b o, fits q → CClear s q.i hd q.srcs [] [] none 0 0 true →
          exec q.i s = .next ((s.readied q.srcs 0).onMe (fun c => (c.regionAdd
            { store := false, addr := q.addr, z := q.z, val := 0, d := d.toNat, sext := q.sext }).startDest (.s d.toNat)))) ∧
        (∀ q ∈ storeForms s hd d a b o, fits q → CClear s q.i hd q.srcs [] [] none 0 0 true →
          exec q.i s = .next ((s.readied q.srcs 0).onMe (fun c => c.regionAdd
            { store := true, addr := q.addr, z := q.z, val := (s.me.sReg d.toNat).toNat, d := 0, sext := false }))) ∧
        (isRemote r.line = false → s.lineHeld r.line 128 = false →
          CClear s (.ale hd) hd [] [] [] (some s.me.ltkRef) 0 0 true →
          ∃ t vals start, exec (.ale hd) s = .next t ∧ (vals, t.here.ls) = applyRegion start id r.accs ∧
            (s.topsOne r.line 128 → start = s.here.ls) ∧ (∃ n, start = s.here.ls ∨ start = s.here.ls.writeN r.line 128 n) ∧
            (s.here.run < 11 → t.me.region = none) ∧
            t.due = s.due ++ [⟨s.gts + 4, .done s.focus s.here.run (regionActs r.accs vals ++ [.lower s.me.ltkRef])⟩]) ∧
        (isRemote r.line = true → s.lineHeld r.line 128 = false →
          CClear s (.ale hd) hd [] [] [] (some s.me.ltkRef) 1 1 true →
          exec (.ale hd) s = .next (((s.readied [] 1).onMe (fun c => { c.raise s.me.ltkRef with region := none })).request
            (s.dstOf r.line) (some s.me.ltkRef) (.region r.line r.accs)))) ∧
      (s.me.region = none → CClear s (.ale hd) hd [] [] [] none 0 0 false →
        exec (.ale hd) s = .next (s.enterTrap 15 0 1 false s.me.pc.toNat s.me.pc))

/-- R137, R101, R165 to R167: vector loads and stores. With every lane in the own local store a load queues the 32 words that its
read steps find and a store writes its lanes in lane order; each window line that lanes touch makes one remote request. Where no
byte leaves a choice, a lane read is what memory holds.
That a load with lanes of both kinds
writes those of the own local store in the next cycle is the model's choice (log 16). -/
def Obligations.VectorMemoryResults : Prop :=
  ∀ (s : State) (hd : CHead) (v x : BitVec 6) (a b : BitVec 5) (o : BitVec 7), s.me.region = none →
    let sa := s.me.sReg a.toNat
    let whole := (sa + o.signExtend 64 * 128).toNat
    let flat (n : Nat) : Nat := (whole + 4 * n) % 2 ^ 64
    let strided (n : Nat) : Nat := (sa + BitVec.ofNat 64 n * s.me.sReg b.toNat).toNat
    let indexed (n : Nat) : Nat := (sa + 4 * (vlane (s.me.vReg x.toNat) n).setWidth 64).toNat
    let as (f : Nat → Nat) : List Nat := (List.range 32).map f
    let t := s.me.ltkRef
    let ok (f : Nat → Nat) : Prop := ∀ n, n < 32 → f n % 4 = 0 ∧ s.lineHeld (f n) 4 = false ∧
      (s.here.boundary ≤ f n ∧ f n < lsBytes ∨ ∃ m off, classify (f n) = .window m off)
    let own (f : Nat → Nat) : Prop := ∀ n, n < 32 → f n < lsBytes
    let lone (f : Nat → Nat) : Prop := ∀ n, n < 32 → f n < lsBytes → s.readsOne (f n) 4
    (∀ q ∈ ([(.ldv hd v a o, [.s a.toNat], [v.toNat], flat, 4), (.ldvs hd v a b, [.s a.toNat, .s b.toNat], [v.toNat], strided, 4),
             (.ldvx hd v a x, [.s a.toNat, .v x.toNat], [v.toNat, x.toNat], indexed, 5)] :
             List (Instr × List RegId × List Nat × (Nat → Nat) × Nat)),
        (q.1 = .ldv hd v a o → whole % 128 = 0) → ok q.2.2.2.1 →
        (own q.2.2.2.1 → CClear s q.1 hd q.2.1 q.2.2.1 [] none 0 0 false →
          let r := (s.readied q.2.1 0).readLsMany s.focus s.focus 4 (as q.2.2.2.1)
          exec q.1 s = .next (r.2.fixedWrite (.v v.toNat) (ofLanes r.1).toNat q.2.2.2.2) ∧
            (lone q.2.2.2.1 → r.2 = s.readied q.2.1 0 ∧
              lanesAre (ofLanes r.1).toNat (fun n => BitVec.ofNat 32 (s.here.ls.readN (q.2.2.2.1 n) 4)))) ∧
        (¬ own q.2.2.2.1 → s.plainSlot →
          let lines := windowLines (as q.2.2.2.1)
          CClear s q.1 hd q.2.1 q.2.2.1 [] (some t) lines.length lines.length false →
          let here := (laneAddrs (as q.2.2.2.1)).filter (fun p => !isRemote p.2)
          let u := lines.foldl (fun u l => u.request (s.dstOf (128 * l)) (some t) (.loadLine (128 * l)
                ((laneAddrs (as q.2.2.2.1)).filter (fun p => isRemote p.2 && p.2 / 128 == l)) v.toNat s.me.nseq))
              ((s.readied q.2.1 lines.length).onMe (fun c =>
                { ((c.raise t).startDest (.v v.toNat)) with vloads := tput c.vloads s.me.nseq lines.length }))
          let r := u.readLsMany s.focus s.focus 4 (here.map (fun p => p.2))
          exec q.1 s = .next ((r.2.doneAt (s.gts + 1) s.focus s.here.run
              ((here.zip r.1).map (fun p => Act.lane v.toNat p.1.1 p.2))).passed) ∧
            (lone q.2.2.2.1 → r = (here.map (fun p => s.here.ls.readN p.2 4), u)))) ∧
      (∀ q ∈ ([(.stv hd v a o, [.v v.toNat, .s a.toNat], [v.toNat], flat),
               (.stvx hd v a x, [.v v.toNat, .s a.toNat, .v x.toNat], [v.toNat, x.toNat], indexed)] :
               List (Instr × List RegId × List Nat × (Nat → Nat))),
        (q.1 = .stv hd v a o → whole % 128 = 0) → ok q.2.2.2 →
        let lines := windowLines (as q.2.2.2)
        let lane (n : Nat) : Nat := (vlane (s.me.vReg v.toNat) n).toNat
        let here := (laneAddrs (as q.2.2.2)).filter (fun p => !isRemote p.2)
        CClear s q.1 hd q.2.1 q.2.2.1 [] none lines.length lines.length false →
        ∃ u : State, exec q.1 s = .next (lines.foldl (fun u l => u.request (s.dstOf (128 * l)) none (.storeLine (128 * l)
              (((laneAddrs (as q.2.2.2)).filter (fun p => isRemote p.2 && p.2 / 128 == l)).map (fun p => (p.2, lane p.1))) none)) u) ∧
          u = here.foldl (fun u p => u.storeLs s.focus s.focus p.2 4 (lane p.1)) (s.readied q.2.1 lines.length) ∧
          u.here.ls = here.foldl (fun m p => m.writeN p.2 4 (lane p.1)) s.here.ls)

/-- R138 to R141, R133, R168: `take`, `give` and `fe.set` on the own local store, where each is an atomic step, and through the
window. A `give` or `fe.set` to a word that no `take` waits for leaves it with its value and its FE bit. -/
def Obligations.FullEmptyResults : Prop :=
  ∀ (s : State) (hd : CHead) (d a : BitVec 5) (o : BitVec 8) (f : BitVec 1),
    let x := (s.me.sReg a.toNat + o.signExtend 64 * 8).toNat
    let t := s.me.ltkRef
    let src : List RegId := [.s a.toNat]
    let two : List RegId := [.s d.toNat, .s a.toNat]
    let val := (s.me.sReg d.toNat).toNat
    let starts (m : Nat) : State := (s.readied src m).onMe (fun c => { ((c.raise t).startDest (.s d.toNat)) with wait := .take x })
    let unwanted : Prop := s.here.deferred.any (fun e => e.op == 0 && e.addr == x) = false
    s.lineHeld x 8 = false → x % 8 = 0 → s.me.region = none →
    (s.here.boundary ≤ x → x < lsBytes →
      (CClear s (.take hd d a o) hd src [] [] (some t) 0 1 false → s.here.takeable x = true →
          let p := (starts 1).takeStep s.focus s.focus x
          ∃ u : State, exec (.take hd d a o) s = .next (u.doneAt (s.gts + 3) s.focus s.here.run
              ([.write (.s d.toNat) p.1] ++ endDest (.s d.toNat) ++ [.lower t, .readyNext])) ∧
            (bit s.here.det 1 = false → u = p.2.countApplied s.focus) ∧ p.2.here.fe (x / 8) = false ∧
            (s.topsOne x 8 → p.1 = s.here.ls.readN x 8)) ∧
        (CClear s (.take hd d a o) hd src [] [] (some t) 0 1 false → s.here.takeable x = false →
          ∃ u id, exec (.take hd d a o) s = .next (State.joinDeferred u s.focus
              { op := 0, addr := x, msg := some id, ctx := s.here.run, d := d.toNat, tok := t } id) ∧
            u = ((starts 1).localMsg t (.take x d.toNat)).2 ∧ id = s.ctr) ∧
        (CClear s (.give hd d a o) hd two [] [] none 0 0 false →
          ∃ u, exec (.give hd d a o) s = .next u ∧ u = (s.readied two 0).giveAt s.focus s.focus x val ∧
            (unwanted → u.here.fe (x / 8) = true ∧ (Memory.wf s.here.ls = true → u.here.ls.readN x 8 = val))) ∧
        (CClear s (.feSet hd f a o) hd src [] [] none 0 0 false →
          ∃ u, exec (.feSet hd f a o) s = .next u ∧ u = (s.readied src 0).feSetAt s.focus s.focus x (f == 1) ∧
            (unwanted → u.here.fe (x / 8) = (f == 1)))) ∧
      ((∃ m off, classify x = .window m off) →
        (CClear s (.take hd d a o) hd src [] [] (some t) 1 2 false →
          exec (.take hd d a o) s = .next ((starts 2).request (s.dstOf x) (some t) (.take x d.toNat))) ∧
        (CClear s (.give hd d a o) hd two [] [] none 1 1 false →
          exec (.give hd d a o) s = .next ((s.readied two 1).request (s.dstOf x) none (.give x val))) ∧
        (CClear s (.feSet hd f a o) hd src [] [] none 1 1 false →
          exec (.feSet hd f a o) s = .next ((s.readied src 1).request (s.dstOf x) none (.feSet x (f == 1)))))

/-- R142, R143, R133, R144, R145, R168: an atomic on the own local store outside deterministic mode is one atomic step, which
replaces its element by the operation of the old value and sB, and an `amo` answers with the old value four cycles later; through
the window either is a remote request, near where the predictor calls the line quiet, and an `amo` a switching event. -/
def Obligations.AtomicResults : Prop :=
  ∀ (s : State) (hd : CHead) (d a b : BitVec 5) (w : BitVec 2) (u : BitVec 1),
    let x := (s.me.sReg a.toNat).toNat
    let z := 2 ^ w.toNat
    let uns : Bool := u == 1
    let bv := (s.me.sReg b.toNat).toNat
    let cv := (s.me.sReg d.toNat).toNat
    let t := s.me.ltkRef
    let two : List RegId := [.s a.toNat, .s b.toNat]
    let srcs (op : AmoOp) : List RegId := if op = .cas then two ++ [.s d.toNat] else two
    let m := 2 ^ (8 * z)
    let less (p q : Nat) : Prop := if uns then p < q else (BitVec.ofNat (8 * z) p).toInt < (BitVec.ofNat (8 * z) q).toInt
    let new (op : AmoOp) (old n : Nat) : Prop :=
      match op with
      | .add => n = (old + bv) % m
      | .min => (less (bv % m) old ∧ n = bv % m) ∨ (¬ less (bv % m) old ∧ n = old)
      | .max => (less old (bv % m) ∧ n = bv % m) ∨ (¬ less old (bv % m) ∧ n = old)
      | .and => n = old &&& bv % m
      | .or => n = old ||| bv % m
      | .xor => n = old ^^^ bv % m
      | .swp => n = bv % m
      | .cas => n = if old = cv % m then bv % m else old
    let did (op : AmoOp) (t : State) (p : Nat × State) : Prop := s.topsOne x z → p.1 = s.here.ls.readN x z ∧
      ∃ n, new op p.1 n ∧ p.2.here.ls = s.here.ls.writeN x z n ∧
        p.2 = { t.onHere (fun y => { y with ls := p.2.here.ls, pages := p.2.here.pages, seen := p.2.here.seen }) with
                order := p.2.order, ctr := s.ctr + 1 }
    let quiet : Bool := s.holdKey.isNone && !(tget s.here.pred { contended := false, since := 0 } (x / 128 % 64)).contended
    x % z = 0 → s.lineHeld x z = false → s.me.region = none →
    (s.here.boundary ≤ x → x < lsBytes → s.holdKey = none →
      (∀ q ∈ amoForms hd d a b w u, CClear s q.2 hd (srcs q.1) [] [] (some t) 0 0 false →
          let r := (s.readied (srcs q.1) 0).onMe (fun c => (c.raise t).startDest (.s d.toNat))
          let p := r.amoStep s.focus s.focus q.1 z uns x bv cv
          exec q.2 s = .next (p.2.doneAt (s.gts + 4) s.focus s.here.run
            ([.write (.s d.toNat) (extendTo64 z (!uns) p.1)] ++ endDest (.s d.toNat) ++ [.lower t])) ∧ did q.1 r p) ∧
        (∀ q ∈ redForms hd a b w u, CClear s q.2 hd two [] [] none 0 0 false →
          let p := (s.readied two 0).amoStep s.focus s.focus q.1 z uns x bv 0
          exec q.2 s = .next p.2 ∧ did q.1 (s.readied two 0) p)) ∧
      (s.here.boundary ≤ x → x < lsBytes → ∀ key step, s.holdKey = some (key, step) →
        (∀ q ∈ amoForms hd d a b w u, CClear s q.2 hd (srcs q.1) [] [] (some t) 0 0 false →
          exec q.2 s = .next (((s.readied (srcs q.1) 0).onMe (fun c => (c.raise t).startDest (.s d.toNat))).holdLocal
            { key := key, step := step, core := s.focus, ctx := s.here.run, seq := s.ctr, msg := none, req := none, op := q.1, z := z,
              uns := uns, addr := x, b := bv, c := cv, d := d.toNat, returning := true, tok := t })) ∧
        (∀ q ∈ redForms hd a b w u, CClear s q.2 hd two [] [] none 0 0 false →
          exec q.2 s = .next ((s.readied two 0).holdLocal
            { key := key, step := step, core := s.focus, ctx := s.here.run, seq := s.ctr, msg := none, req := none, op := q.1, z := z,
              uns := uns, addr := x, b := bv, c := 0, d := 0, returning := false, tok := .k 0 }))) ∧
      ((∃ m off, classify x = .window m off) →
        (∀ q ∈ amoForms hd d a b w u, CClear s q.2 hd (srcs q.1) [] [] (some t) 1 1 false → s.plainSlot →
          exec q.2 s = .next ((((s.readied (srcs q.1) 1).onMe (fun c => (c.raise t).startDest (.s d.toNat))).request
            (s.dstOf x) (some t) (.amo q.1 z uns x bv cv d.toNat s.holdKey) (near := quiet)).passed)) ∧
        (∀ q ∈ redForms hd a b w u, CClear s q.2 hd two [] [] none 1 1 false →
          exec q.2 s = .next ((s.readied two 1).request (s.dstOf x) none (.red q.1 z uns x bv s.holdKey) (near := quiet))))

/-- R150, R165, R169, R170: a fence issues once its conditions hold and holds its pair before that. A release adds what its core
has seen to the published set of every unit that its scope names, and to no other; an acquire adds the published set of its
scope's one unit to what its core has seen; at scope `.ctx` a release leaves a marker instead. -/
def Obligations.FenceResults : Prop :=
  ∀ (s : State) (hd : CHead) (sc : BitVec 3),
    let done := s.readied [] 0
    let marked := done.onMe (fun c => { c with behind := c.out })
    let hid := s.here.hid.getD 0
    let fen := s.me.fen
    let key (level : Nat) : Nat := domKey hid level (unitOf level s.focus fen)
    let units : List Nat := ([[], [1], [1, 2], [1, 2, 3], [1, 2, 3, 4], [1, 2, 3, 4, 5, 6], [1, 2, 6]] : List (List Nat))[sc.toNat]?.getD []
    let released (t : State) : Prop := ∀ k p, p ∈ tget t.pub [] k ↔ p ∈ tget s.pub [] k ∨ (∃ n ∈ units, k = key n) ∧ p ∈ s.here.seen
    (CClear s (.fenceAcq hd sc) hd [] [] [] none 0 0 false →
        (s.me.acq = [] → ∃ t, exec (.fenceAcq hd sc) s = .next t ∧ t.pub = s.pub ∧ (sc = 0 → t = done) ∧
          (sc ≠ 0 → ∀ p, p ∈ t.here.seen ↔ p ∈ s.here.seen ∨ p ∈ tget s.pub [] (key sc.toNat)) ∧
          t = done.onHere (fun x => { x with seen := t.here.seen })) ∧
        (s.me.acq ≠ [] → exec (.fenceAcq hd sc) s = .next (s.hold false))) ∧
      (CClear s (.fenceRel hd sc) hd [] [] [] none 0 0 false →
        (sc = 0 → exec (.fenceRel hd sc) s = .next marked) ∧
        (sc ≠ 0 → s.me.out = [] → ∃ t, exec (.fenceRel hd sc) s = .next t ∧ released t ∧ t = { done with pub := t.pub }) ∧
        (sc ≠ 0 → s.me.out ≠ [] → exec (.fenceRel hd sc) s = .next (s.hold false))) ∧
      (CClear s (.fenceAr hd sc) hd [] [] [] none 0 0 false →
        (sc = 0 → s.me.acq = [] → exec (.fenceAr hd sc) s = .next marked) ∧
        (sc ≠ 0 → s.me.acq = [] → s.me.out = [] → ∃ t, exec (.fenceAr hd sc) s = .next t ∧ released t ∧
          (∀ p, p ∈ t.here.seen ↔ p ∈ s.here.seen ∨ p ∈ tget t.pub [] (key sc.toNat)) ∧
          t = { done.onHere (fun x => { x with seen := t.here.seen }) with pub := t.pub }) ∧
        (s.me.acq ≠ [] ∨ sc ≠ 0 ∧ s.me.out ≠ [] → exec (.fenceAr hd sc) s = .next (s.hold false)))


/-! ### Messages, the matrix unit, the cistern, handles, streamers, pantries and peats -/

/-- R152 to R154, R133, R131, R172: `esig` is a remote request that issues once ORC.COUNT is 0 and carries a snapshot of Seen;
`ewait` waits for the event unit. -/
def Obligations.EventUnitWordResults : Prop :=
  ∀ (s : State) (hd : CHead) (d a b : BitVec 5),
    let two : List RegId := [.s a.toNat, .s b.toNat]
    let one : List RegId := [.s a.toNat]
    let w := (s.me.sReg a.toNat).toNat
    let t := s.me.ltkRef
    (CClear s (.esig hd a b) hd two [] [] none 1 1 false →
        (s.me.out = [] → exec (.esig hd a b) s = .next ((s.readied two 1).request (.event s.myCluster) none
          (.esig (w % 256) ((s.me.sReg b.toNat).toNat % 2 ^ 32)) (know := s.here.seen))) ∧
        (s.me.out ≠ [] → exec (.esig hd a b) s = .next (s.hold false))) ∧
      (CClear s (.ewait hd d a) hd one [] [] (some t) 0 0 false → s.plainSlot →
        exec (.ewait hd d a) s = .next ((((s.readied one 0).onMe (fun c =>
          { (c.raise t).addPending (.s d.toNat) with wait := .ewait d.toNat (w % 256) (w / 2 ^ 32) false })).soon
            (.ewaitAnswer s.focus s.here.run)).passed))

/-- R156, R159, R174, R108, R107, R41: `inbx` and `inbx.t` take the oldest entry of the context in the inbox, whose snapshot joins
Seen of the core, and wait while neither the inbox nor the overflow box holds one; `inbx.t` waits no longer than its limit. -/
def Obligations.InboxWordResults : Prop :=
  ∀ (s : State) (hd : CHead) (v : BitVec 6) (d sl : BitVec 5), s.here.run < 11 →
    let t := s.me.ltkRef
    let lim := (s.me.sReg sl.toNat).toNat
    let src : List RegId := [.s sl.toNat]
    let mine (e : Entry) : Bool := e.ctxTo == s.here.run && e.kind != 2 && e.kind != 3 && e.kind != 5
    let waits : State := (s.readied [] 1).onMe (fun c => { ((c.raise t).startDest (.v v.toNat)) with wait := .inbx v.toNat })
    let waitsT : State := (s.readied src 1).onMe (fun c =>
      { (((c.raise t).startDest (.v v.toNat)).addPending (.s d.toNat)) with wait := .inbxT v.toNat d.toNat lim })
    let taken (u : State) (e : Entry) (acts : List Act) : State :=
      (((((u.onHere (fun x => { x with inbox := x.inbox.erase e })).learn s.focus e.know).molEntry s.focus s.here.run 2 0 0
        s.me.pc.toNat e.src e.seq s.gts).onMe (fun c => { c with wait := c.wait.settle })).doneAt (s.gts + 1) s.focus s.here.run
          acts).refill s.focus
    let word (e : Entry) : Act := .write (.v v.toNat) e.word
    (CClear s (.inbx hd v) hd [] [v.toNat] [] (some t) 0 1 false →
        (∀ e, s.here.inbox.find? mine = some e →
          exec (.inbx hd v) s = .next (taken waits e ([word e] ++ endDest (.v v.toNat) ++ [.lower t, .ready]))) ∧
        (s.here.inbox.find? mine = none → s.boxCount s.focus = 0 → s.plainSlot → exec (.inbx hd v) s = .next waits.passed)) ∧
      (CClear s (.inbxT hd v d sl) hd src [v.toNat] [] (some t) 0 1 false →
        (∀ e, s.here.inbox.find? mine = some e →
          exec (.inbxT hd v d sl) s = .next (taken waitsT e ([word e] ++ endDest (.v v.toNat) ++
            [.write (.s d.toNat) 1, .unpend (.s d.toNat), .lower t, .ready]))) ∧
        (s.here.inbox.find? mine = none → s.boxCount s.focus = 0 → s.gts < lim → s.plainSlot →
          exec (.inbxT hd v d sl) s = .next (waitsT.stepAt lim (.inbxTLimit s.focus s.here.run)).passed) ∧
        (s.here.inbox.find? mine = none → s.boxCount s.focus = 0 → lim ≤ s.gts →
          exec (.inbxT hd v d sl) s = .next (waitsT.next (.inbxTLimit s.focus s.here.run))))

/-- R160, R155, R133, R104: `msend` raises its token, takes a sequence number and leaves an entry of kind 1 with the low 24
bytes of vV for the task and the context of sE. -/
def Obligations.SendResults : Prop :=
  ∀ (s : State) (hd : CHead) (e : BitVec 5) (v : BitVec 6) (k : BitVec 4), s.here.run < 11 →
    let t := s.me.tokRef k.toNat
    let dst := (s.me.sReg e.toNat).toNat
    CClear s (.msend hd e v k) hd [.s e.toNat, .v v.toNat] [v.toNat] [k] (some t) 1 1 false →
    ∃ u m ent, exec (.msend hd e v k) s = .next u ∧ u.bag = tput s.bag s.ctr m ∧
      u.me = { ((s.readied [.s e.toNat, .v v.toNat] 1).me.raise t) with
        nseq := (s.me.nseq + 1) % 65536, out := s.me.out ++ [s.me.nseq] } ∧
      (∃ g, s.gts < g ∧ u.due = s.due ++ [⟨g, .step (.msendDepart s.ctr)⟩]) ∧
      m.body = .send ent (dst % 2 ^ 20) ∧ m.seq = s.me.nseq ∧ m.tok = some t ∧ m.src = s.srcOf s.focus s.here.run ∧
      m.pc = s.me.pc.toNat ∧ ent.kind = 1 ∧ ent.seq = s.me.nseq ∧ ent.ctxTo = dst / 2 ^ 20 % 16 ∧
      ent.payload = (s.me.vReg v.toNat).extractLsb' 0 192 ∧
      ent.src = s.me.task % 2 ^ 20 + s.here.run % 16 * 2 ^ 20 + s.me.fen % 256 * 2 ^ 24 ∧
      u.here.ls = s.here.ls ∧ u.here.b = s.here.b ∧ u.pa = s.pa ∧ u.host = s.host ∧ u.peer = s.peer ∧
      (∀ j, j ≠ s.here.run → u.here.ctx j = s.here.ctx j) ∧ ∀ n, n ≠ s.focus → u.coreOf n = s.coreOf n

/-- R222, R225 to R229, R231, R234, R235, R238: when `mxq`, `mma`, `mzero`, `mrd` and `mld.b` COMPLETE, and with what. The unit is the
running context's or nobody's, and the word claims it. `mxq`, `mma` and `mzero` need a free queue entry and add a command of legal
fields to the queue, which starts at the earliest one cycle later; `mrd` reads a tile row two cycles later; `mld.b` copies lines
that lie inside the local store, at or above the boundary, to lines inside the B store.
That `mxq` takes the newest
bytes of its block is the model's reading (log 31). -/
def Obligations.MatrixWordResults : Prop :=
  ∀ (s : State) (hd : CHead) (m : BitVec 3) (v : BitVec 6) (a b : BitVec 5) (k n : BitVec 4),
    let t := s.me.tokRef k.toNat
    let av := (s.me.sReg a.toNat).toNat
    let bv := (s.me.sReg b.toNat).toNat
    let one : List RegId := [.s a.toNat]
    let two : List RegId := [.s a.toNat, .s b.toNat]
    let f (x lo w : Nat) : Nat := x / 2 ^ lo % 2 ^ w
    let claimed (u : State) : State := u.onHere (fun x => { x with mowner := some x.run })
    let queued (u : State) (c : MCmd) : State :=
      let u := (claimed u).onHere (fun x => { x with mq := x.mq ++ [c] })
      if s.here.mq = [] ∧ s.here.mrun = none then u.stepAt (max (s.gts + 1) (s.here.mlast + 1)) (.matrixCommandStart s.focus)
      else u
    let legal (c : MCmd) : Prop := c.aaddr < 0x60000 ∧ c.aaddr % (16 * 2 ^ c.span) = 0 ∧ 1 ≤ c.m ∧ c.m ≤ 64 ∧ 1 ≤ c.k ∧
      c.k ≤ 8192 ∧ c.boff % 64 = 0 ∧ c.boff < 524288
    let free : Prop := s.here.mowner = none ∨ s.here.mowner = some s.here.run
    let room : Prop := s.here.mq.length + (if s.here.mrun.isSome then 1 else 0) < 16
    let raw := s.here.ls.readN av 64
    let blank : MCmd := { zero := false, acc := 0, clr := false, scl := false, aaddr := 0, m := 0, k := 0, boff := 0, span := 0, rstr := 0,
                          asoff := 0, bsoff := 0, tok := none, pc := s.me.pc.toNat, issued := s.gts }
    let cx : MCmd := { blank with acc := f raw 0 3, clr := f raw 3 1 = 1, scl := f raw 4 1 = 1, aaddr := f raw 32 32, m := f raw 64 16,
                                  k := f raw 80 16, boff := f raw 96 32, span := f raw 128 3, rstr := f raw 132 15,
                                  asoff := f raw 160 19, bsoff := f raw 192 19, tok := some t }
    let cm : MCmd := { blank with acc := m.toNat, clr := f bv 7 1 = 1, scl := f bv 8 1 = 1, aaddr := f av 0 19, m := f bv 0 7,
                                  k := f bv 9 14, boff := 64 * f bv 23 13, span := f bv 36 3, tok := some t }
    free →
    (CClear s (.mxq hd a k) hd one [] [k] (some t) 0 0 false → room → av % 64 = 0 → av < 0x60000 → s.lineHeld av 64 = false →
        legal cx →
        (∀ p ∈ [(5, 27), (51, 13), (131, 1), (147, 13), (179, 13), (211, 13), (224, 288)], f raw p.1 p.2 = 0) →
        exec (.mxq hd a k) s = .next (queued ((s.readied one 0).onMe (fun c => c.raise t)) cx)) ∧
      (CClear s (.mma hd m a b k) hd two [] [k] (some t) 0 0 false → room → av < 2 ^ 19 → bv < 2 ^ 39 → legal cm →
        exec (.mma hd m a b k) s = .next (queued ((s.readied two 0).onMe (fun c => c.raise t)) cm)) ∧
      (CClear s (.mzero hd m) hd [] [] [] none 0 0 false → room →
        exec (.mzero hd m) s = .next (queued (s.readied [] 0) { blank with zero := true, acc := m.toNat })) ∧
      (CClear s (.mrd hd v m a k) hd one [v.toNat] [k] (some t) 0 0 false →
        exec (.mrd hd v m a k) s = .next (((claimed (s.readied one 0)).onMe (fun c => (c.raise t).addPending (.v v.toNat))).doneAt
          (s.gts + 2) s.focus s.here.run [.tileRow v.toNat m.toNat (av % 64), .unpend (.v v.toNat), .lower t])) ∧
      (CClear s (.mldB hd a b k n) hd two [] [k] (some t) 0 0 false → av % 64 = 0 → bv % 64 = 0 → s.here.boundary ≤ av →
        av + 1024 * (n.toNat + 1) ≤ 0x60000 → bv + 1024 * (n.toNat + 1) ≤ 524288 →
        s.lineHeld av (1024 * (n.toNat + 1)) = false →
        let l : MLd := { src := av, dst := bv, lines := 16 * (n.toNat + 1), tok := t, issued := s.gts, started := none, wrote := 0 }
        let u := ((claimed (s.readied two 0)).onMe (fun c => c.raise t)).onHere (fun x => { x with mlds := x.mlds ++ [l] })
        exec (.mldB hd a b k n) s = .next (if s.here.mlds = [] then
          u.stepAt (max (s.gts + 1) (s.here.mldLast + 1)) (.mldBStart s.focus) else u))

/-- R239 to R245, R248, R249, R252, R254: when `cadd` (both forms), `ctap`, `cscrub`, `cspill`, `cfill` and `cinfo` COMPLETE, and with
what. The word names a declared group of the cluster and, in an add or a tap, a segment inside it; the core has a cistern entry
free. The request reaches the cistern three cycles later, in the queue of the add path or of the tap path; `ctap` reads its 64
bytes of γ, which lie in the own local store at or above the boundary, as it issues; `cspill` and `cfill` are remote requests with an
image at an aligned address.
That `ctap` reads γ as
it issues and checks it in this order is the model's reading (log 18). -/
def Obligations.CisternWordResults : Prop :=
  ∀ (s : State) (hd : CHead) (v : BitVec 6) (c a d : BitVec 5) (tl f : BitVec 3) (k : BitVec 4) (b : BitVec 1),
    let w := (s.me.sReg c.toNat).toNat
    let row := w % 64
    let seg := w / 2 ^ 6 % 2 ^ 11
    let sel := w / 2 ^ 17 % 2 ^ 6
    let g := tget (s.clusterAt s.myCluster).groups CGroup.reset row
    let t := s.me.tokRef k.toNat
    let l := s.me.ltkRef
    let one : List RegId := [.s c.toNat]
    let vec : List RegId := [.s c.toNat, .v v.toNat]
    let img : List RegId := [.s c.toNat, .s a.toNat]
    let va := (s.me.sReg a.toNat).toNat
    let gamma := g.gaddr + 64 * seg
    let q (op : Nat) (t : TokRef) : CReq :=
      { arrive := s.gts + 3, core := s.focus, ctx := s.here.run, op := op, row := row, seg := seg, lanes := [], tile := none,
        form := 0, d := 0, sel := sel, msg := 0, tok := some t, pc := s.me.pc.toNat, no := s.ctr }
    let out (u : State) : State := { u.onHere (fun x => { x with cisOut := x.cisOut + 1 }) with ctr := u.ctr + 1 }
    let adds (u : State) (q : CReq) : State :=
      ((out u).onCluster s.myCluster (fun y => { y with addQ := insertReq q y.addQ })).stepAt (s.gts + 3) (.cisternAddPath s.myCluster)
    let taps (u : State) (q : CReq) : State :=
      ((out u).onCluster s.myCluster (fun y => { y with tapQ := insertReq q y.tapQ })).stepAt (s.gts + 3) (.cisternTapPath s.myCluster)
    let up (u : State) : State := u.onMe (fun c => c.raise t)
    w < 2 ^ 23 → g.st ≠ .undeclared → s.here.cisOut < 32 →
    (seg < 512 * g.per →
      (CClear s (.cadd hd c v k) hd vec [v.toNat] [k] (some t) 0 1 false →
          exec (.cadd hd c v k) s = .next (adds (up (s.readied vec 1))
            { q 0 t with lanes := (List.range 32).map (fun i => (vlane (s.me.vReg v.toNat) i).toNat) })) ∧
        (CClear s (.caddTile hd c tl k) hd one [] [k] (some t) 0 1 false →
          s.here.mowner = none ∨ s.here.mowner = some s.here.run →
          exec (.caddTile hd c tl k) s = .next ((adds (up ((s.readied one 1).onHere (fun x => { x with mowner := some x.run })))
            { q 0 t with tile := some (64 * tl.toNat + sel), form := 1 }).doneAt (s.gts + 2) s.focus s.here.run
              [.addTile s.myCluster s.ctr])) ∧
        (CClear s (.ctap hd v c k f) hd one [v.toNat] [k] (some t) 0 0 false → s.here.boundary ≤ gamma → gamma + 64 ≤ 0x60000 →
          s.lineHeld gamma 64 = false →
          let r := (s.readied one 0).readLsMany s.focus s.focus 2 ((List.range 32).map (fun i => gamma + 2 * i))
          exec (.ctap hd v c k f) s = .next (taps (r.2.onMe (fun c => (c.raise t).addPending (.v v.toNat)))
              { q 4 t with lanes := r.1, form := f.toNat, d := v.toNat, no := r.2.ctr }) ∧
            (s.readsOne gamma 64 →
              r = ((List.range 32).map (fun i => s.here.ls.readN (gamma + 2 * i) 2), s.readied one 0)))) ∧
      (CClear s (.cscrub hd c k) hd one [] [k] (some t) 0 0 false →
        exec (.cscrub hd c k) s = .next (adds (up (s.readied one 0)) (q 1 t))) ∧
      (CClear s (.cinfo hd d c) hd one [] [] (some l) 0 0 false → sel ≤ 6 →
        exec (.cinfo hd d c) s = .next (taps ((s.readied one 0).onMe (fun x => (x.raise l).addPending (.s d.toNat)))
          { q 5 l with d := d.toNat })) ∧
      (∀ p ∈ ([(.cspill hd c a k b, 2, .spill row va (b == 1)), (.cfill hd c a k b, 3, .fill row va (b == 1))] :
               List (Instr × Nat × Body)),
        CClear s p.1 hd img [] [k] (some t) 1 1 false → va % 128 = 0 →
        ∃ m, exec p.1 s = .next (adds { (up (s.readied img 1)).onMe (fun x =>
              { x with nseq := (x.nseq + 1) % 65536, out := x.out ++ [x.nseq] }) with bag := tput s.bag s.ctr m, ctr := s.ctr + 1 }
            { q p.2.1 t with msg := s.ctr }) ∧
          m.body = p.2.2 ∧ m.seq = s.me.nseq ∧ m.tok = some t ∧ m.know = s.here.seen)

/-- R257, R260, R263 to R266, R131, R177: `hnew`, `hmov`, `hsplit` and `hsend` on handle registers. The lineage table takes their
changes three cycles later; the entries that `hnew` and `hsplit` take for new handles hold their K at once.
That `hnew` takes the
newest bytes of its descriptor is the model's reading (log 31), and so is that the entries hold their K at once (log 19). -/
def Obligations.HandleWordResults : Prop :=
  ∀ (s : State) (hd : CHead) (h g b2 : BitVec 4) (a b : BitVec 5) (x : BitVec 2) (sl : BitVec 4), s.here.run < 11 →
    let cl := s.myCluster
    let k := s.clusterAt cl
    let frees := ((List.range 64).map (fun i => 64 * memberOf s.focus + i)).filter (fun e =>
      (tget k.lineage LEntry.reset e).st == .free && !k.taken.contains e)
    let av := (s.me.sReg a.toNat).toNat
    let bv := (s.me.sReg b.toNat).toNat
    let desc := s.here.ls.readN bv 16
    let v := (View.ofDesc desc).1
    let st (n : BitVec 4) : HState := (s.me.hReg n.toNat).st
    let open_ (n : BitVec 4) : Prop := st n = .empty ∨ st n = .vacant
    let rg := s.me.hReg g.toNat
    let i := (s.me.sReg sl.toNat).toNat
    let two : List RegId := [.s a.toNat, .s b.toNat]
    let hid := s.here.hid.getD 0
    let later (u : State) (chs : List Act) : Prop := u.due = s.due ++ [⟨s.gts + 3, .done s.focus s.here.run chs⟩]
    (CClear s (.hnew hd h a b) hd two [] [] none 0 0 false → open_ h → av % 128 = 0 → bv % 16 = 0 → bv < 0x60000 →
        s.lineHeld bv 16 = false → (View.ofDesc desc).2 = true →
        (av < 0x60000 ∧ s.here.boundary ≤ av ∧ av + v.bytes ≤ 0x60000 ∨
          0x1000000 ≤ av ∧ av < 0x1600000 ∧ av + v.bytes ≤ 0x1600000) →
        ∀ e rest, frees = e :: rest →
        let vw : View := if av < 0x60000 then { v with base := av, window := false, home := memberOf s.focus }
          else { v with base := av - 0x1000000, window := true, home := (av - 0x1000000) / 128 % 16 }
        ∃ u, exec (.hnew hd h a b) s = .next u ∧ s.framed u ∧
          later u [.lineage cl e (.make e true false vw s.me.task s.here.run h.toNat hid)] ∧
          (u.clusterAt cl).taken = k.taken ++ [e] ∧
          u.lentry cl e = { LEntry.reset with know := s.here.seen.filter (fun p => vw.holds cl p.1) } ∧
          (∀ e', e' ≠ e → u.lentry cl e' = s.lentry cl e') ∧
          u.me.hReg h.toNat =
            { st := .live, val := { cluster := cl, root := true, side := false, parent := e, entry := e }, view := vw } ∧
          (∀ n, n ≠ h.toNat → u.me.hReg n = s.me.hReg n)) ∧
      (CClear s (.hmov hd h g) hd [] [] [] none 0 0 false → st g = .live → open_ h →
        ∃ u, exec (.hmov hd h g) s = .next u ∧ s.framed u ∧ u.me.hReg h.toNat = rg ∧ (u.me.hReg g.toNat).st = .vacant ∧
          (∀ n, n ≠ h.toNat → n ≠ g.toNat → u.me.hReg n = s.me.hReg n) ∧
          later u [.lineage rg.val.cluster rg.val.entry (.reg h.toNat)] ∧ u.clusters = s.clusters) ∧
      (CClear s (.hsplit hd x g h b2 sl) hd [.s sl.toNat] [] [] none 0 0 false → st g = .live → h ≠ b2 →
        (open_ h ∨ h = g) → (open_ b2 ∨ b2 = g) → x.toNat < rg.view.nax → 0 < i → i < (rg.view.ext[x.toNat]?.getD 0) →
        (x.toNat + 1 = rg.view.nax → i * typeBytes rg.view.typ % 128 = 0) →
        ∀ e0 e1 rest, frees = e0 :: e1 :: rest →
        let child (up : Bool) : View :=
          if up then { rg.view with org := rg.view.org.set x.toNat ((rg.view.org[x.toNat]?.getD 0) + i),
                                    ext := rg.view.ext.set x.toNat ((rg.view.ext[x.toNat]?.getD 0) - i) }
          else { rg.view with ext := rg.view.ext.set x.toNat i }
        let val (side : Bool) (e : Nat) : HVal :=
          { cluster := cl, root := false, side := side, parent := rg.val.entry, entry := e }
        let make (side : Bool) (r : BitVec 4) : LChange :=
          .make rg.val.entry false side (child side) s.me.task s.here.run r.toNat hid
        ∃ u, exec (.hsplit hd x g h b2 sl) s = .next u ∧ s.framed u ∧
          u.me.hReg h.toNat = { st := .live, val := val false e0, view := child false } ∧
          u.me.hReg b2.toNat = { st := .live, val := val true e1, view := child true } ∧
          (g ≠ h → g ≠ b2 → (u.me.hReg g.toNat).st = .vacant) ∧
          later u [.lineage cl e0 (make false h), .lineage cl e1 (make true b2), .lineage cl rg.val.entry (.split e0 e1)] ∧
          (u.clusterAt cl).taken = k.taken ++ [e0] ++ [e1] ∧
          (u.lentry cl e0).know = (s.lentry cl rg.val.entry).know ∧ (u.lentry cl e1).know = (s.lentry cl rg.val.entry).know) ∧
      (CClear s (.hsend hd h a) hd [.s a.toNat] [] [] none 1 1 false → st h = .live →
        let r := s.me.hReg h.toNat
        ∃ u m ent g, exec (.hsend hd h a) s = .next u ∧ s.framed u ∧ (u.me.hReg h.toNat).st = .vacant ∧
          u.bag = tput s.bag s.ctr m ∧ m.body = .hsend ent (av % 2 ^ 20) r.val ∧ m.seq = s.me.nseq ∧ ent.kind = 2 ∧
          ent.ctxTo = av / 2 ^ 20 % 16 ∧ ent.payload = BitVec.ofNat 192 r.val.pack ∧
          u.me.out = s.me.out ++ [s.me.nseq] ∧ s.gts + 3 ≤ g ∧
          u.due = s.due ++ [⟨s.gts + 3, .done s.focus s.here.run [.lineage r.val.cluster r.val.entry .send]⟩] ++
            [⟨g, .step (.hsendDepart s.ctr)⟩])

/-- R267 to R271, R108, R177, R260: `hrecv`, `hjoin`, `hfree` and `hinfo`; `hldv` and `hstv` on one cell of a view, after K of the handle
has joined Seen of the core. -/
def Obligations.HandleWaitAndCellResults : Prop :=
  ∀ (s : State) (hd : CHead) (h a b k : BitVec 4) (d sl : BitVec 5) (v : BitVec 6) (f : BitVec 3), s.here.run < 11 →
    let st (n : BitVec 4) : HState := (s.me.hReg n.toNat).st
    let open_ (n : BitVec 4) : Prop := st n = .empty ∨ st n = .vacant
    let l := s.me.ltkRef
    let t := s.me.tokRef k.toNat
    let ra := s.me.hReg a.toNat
    let rb := s.me.hReg b.toNat
    let i := (s.me.sReg sl.toNat).toNat
    let cell := ra.view.cellAddr (memberOf s.focus) i
    let later (u : State) (chs : List Act) : State := u.doneAt (s.gts + 3) s.focus s.here.run chs
    let learned (u : State) : State := u.learn s.focus (s.lentry ra.val.cluster ra.val.entry).know
    (CClear s (.hrecv hd h) hd [] [] [] (some l) 0 1 false → open_ h →
        s.here.inbox.find? (fun e => e.ctxTo == s.here.run && (e.kind == 2 || e.kind == 3)) = none → s.boxCount s.focus = 0 →
        s.plainSlot →
        exec (.hrecv hd h) s = .next ((s.readied [] 1).onMe (fun c =>
          { ((c.raise l).setHandle h.toNat { HReg.reset with st := .pending }) with wait := .hrecv h.toNat s.gts })).passed) ∧
      (CClear s (.hjoin hd h a b k) hd [] [] [k] (some t) 0 0 false → st a = .live → st b = .live → (open_ h ∨ h = a ∨ h = b) →
        ra.val.root = false → rb.val.root = false → ra.val.parent = rb.val.parent → ra.val.side ≠ rb.val.side →
        let cl := ra.val.cluster
        let pv : HVal := { cluster := cl, root := false, side := false, parent := 0, entry := ra.val.parent }
        exec (.hjoin hd h a b k) s = .next ((((later (s.readied [] 0) [.lineage cl ra.val.entry .joining,
          .lineage cl rb.val.entry .joining]).onLentry cl ra.val.parent (fun e =>
            { e with waiter := some (s.focus, s.here.run, t) })).onMe (fun c =>
            (((c.raise t).setHandle a.toNat HReg.vacant).setHandle b.toNat HReg.vacant).setHandle h.toNat
              { st := .pending, val := pv, view := View.none })).stepAt (s.gts + 3) (.hjoinComplete s.focus s.here.run h.toNat))) ∧
      (CClear s (.hfree hd a) hd [] [] [] (some l) 0 0 false → st a = .live → ra.val.root = true →
        exec (.hfree hd a) s = .next ((later (((s.readied [] 0).onMe (fun c => (c.raise l).setHandle a.toNat HReg.reset)).onLentry
          ra.val.cluster ra.val.entry (fun e => { e with waiter := some (s.focus, s.here.run, l) }))
            [.lineage ra.val.cluster ra.val.entry .freeing]).stepAt (s.gts + 3) (.hfreeComplete ra.val.cluster ra.val.entry))) ∧
      (CClear s (.hinfo hd d a f) hd [] [] [] (some l) 0 0 false → (f = 6 ∨ st a = .live) →
        exec (.hinfo hd d a f) s = .next (((s.readied [] 0).onMe (fun c => (c.raise l).addPending (.s d.toNat))).doneAt (s.gts + 2)
          s.focus s.here.run [.write (.s d.toNat) ((s.readied [] 0).handleInfo a.toNat f.toNat), .unpend (.s d.toNat), .lower l])) ∧
      (st a = .live → i < ra.view.cells → cell < 0x60000 → s.here.boundary ≤ cell → s.lineHeld cell 128 = false →
        let lanes := (List.range 32).map (fun n => cell + 4 * n)
        (CClear s (.hldv hd v a sl) hd [.s sl.toNat] [v.toNat] [] (some l) 0 0 false →
          let u := learned ((s.readied [.s sl.toNat] 0).onMe (fun c => (c.raise l).startDest (.v v.toNat)))
          let r := u.readLsMany s.focus s.focus 4 lanes
          exec (.hldv hd v a sl) s = .next (r.2.doneAt (s.gts + 4) s.focus s.here.run
              ([.write (.v v.toNat) (ofLanes r.1).toNat] ++ endDest (.v v.toNat) ++ [.lower l])) ∧
            (u.readsOne cell 128 → r = (lanes.map (fun x => s.here.ls.readN x 4), u))) ∧
        (CClear s (.hstv hd v a sl) hd [.v v.toNat, .s sl.toNat] [v.toNat] [] none 0 0 false →
          let u := learned (s.readied [.v v.toNat, .s sl.toNat] 0)
          let lane (n : Nat) : Nat := (vlane (s.me.vReg v.toNat) n).toNat
          ∃ w, exec (.hstv hd v a sl) s = .next (w.onLentry ra.val.cluster ra.val.entry (fun e =>
              { e with know := joinSeen e.know (w.nodesAfter u.ctr ((List.range 128).map (fun j => .ls s.focus (cell + j)))) })) ∧
            w = (List.range 32).foldl (fun y n => y.storeLs s.focus s.focus (cell + 4 * n) 4 (lane n)) u ∧
            w.here.ls = (List.range 32).foldl (fun m n => m.writeN (cell + 4 * n) 4 (lane n)) s.here.ls)) ∧
      (st a = .live → i < ra.view.cells → (∃ m off, classify cell = .window m off) →
        let lanes := (List.range 32).map (fun n => (n, cell + 4 * n))
        (CClear s (.hldv hd v a sl) hd [.s sl.toNat] [v.toNat] [] (some l) 1 1 false → s.plainSlot →
          exec (.hldv hd v a sl) s = .next (((learned ((s.readied [.s sl.toNat] 1).onMe (fun c =>
              (c.raise l).startDest (.v v.toNat)))).onMe (fun c => { c with vloads := tput c.vloads s.me.nseq 1 })).request
                (s.dstOf cell) (some l) (.loadLine cell lanes v.toNat s.me.nseq) (handle := some ra.val.entry)).passed) ∧
        (CClear s (.hstv hd v a sl) hd [.v v.toNat, .s sl.toNat] [v.toNat] [] none 1 1 false →
          exec (.hstv hd v a sl) s = .next (((learned (s.readied [.v v.toNat, .s sl.toNat] 1)).onLentry ra.val.cluster ra.val.entry
            (fun e => { e with wout := e.wout + 1 })).request (s.dstOf cell) none
              (.storeLine cell (lanes.map (fun p => (p.2, (vlane (s.me.vReg v.toNat) p.1).toNat))) (some ra.val.entry))
                (handle := some ra.val.entry))))

/-- R279, R280, R281, R284, R288 to R292, R300, R175: when `sget`, `sput`, `sgat`, `sred` and `scol` COMPLETE, and with what. The block is
well placed (an own address, a multiple of 64, at or above the boundary) and its fields and its extents pass the checks of R300. The word
reads the block as it issues, raises its token and sends one command with a snapshot of Seen; in MODE 1 without DET the upcall's
token stays owed until the upcall. For a block of DK 0 in the own local store, MODE 0, the checks are written out.
That the word takes the
newest bytes of its block is the model's reading (log 31), and so is that `sgat` reads the first row of its table at issue (log 20). -/
def Obligations.StreamerWordResults : Prop :=
  ∀ (s : State) (hd : CHead) (a : BitVec 5) (k : BitVec 4),
    let t := s.me.tokRef k.toNat
    let x := (s.me.sReg a.toNat).toNat
    let src : List RegId := [.s a.toNat]
    let raw := s.here.ls.readN x 64
    let b := Block.ofNat raw
    let w := s.readied src 2
    let first (kind : SKind) : Table Nat × Seen × State :=
      if kind = .gat then
        let r := w.tableEntry s.here.seen s.focus b 0
        ([(0, r.1)], r.2)
      else ([], s.here.seen, w)
    let up (kind : SKind) : State := (first kind).2.2.onMe (fun c => c.raise t)
    let zero (lo w : Nat) : Prop := raw / 2 ^ lo % 2 ^ w = 0
    let plain (kind : SKind) : Prop := b.mode = 0 ∧ b.dk = 0 ∧ b.geom = 0 ∧ b.upc = 0 ∧ zero 3 5 ∧ zero 19 5 ∧ zero 480 32 ∧
      b.va % 8 = 0 ∧ b.va < 2 ^ 52 ∧ b.vstr % 8 = 0 ∧ b.loc % (2 ^ b.span * 16) = 0 ∧ b.lstr % 8 = 0 ∧ b.lstr ≤ 393216 ∧
      1 ≤ b.rows ∧ b.rows ≤ 65536 ∧ 8 ≤ b.rowb ∧ b.rowb ≤ 65536 ∧ b.rowb % 8 = 0 ∧
      b.loc < 0x60000 ∧ b.loc + (b.rows - 1) * b.lstr + b.rowb ≤ 0x60000 ∧
      (match kind with
       | .get => b.opx = 0 ∧ b.aux = 0
       | .put => b.opx = 0 ∧ b.aux = 0
       | .gat => b.opx = 0 ∧ b.aux % 4 = 0 ∧ s.here.boundary ≤ b.aux ∧ b.aux + 4 * b.rows ≤ 0x60000
       | .red => b.aux = 0 ∧ b.opx % 4 ≠ 3 ∧ b.opx / 64 = 0 ∧ (b.opx / 4 = 2 ∨ b.opx / 4 = 6 ∨ b.opx / 4 = 8 ∨ b.opx / 4 = 9)
       | _ => b.opx % 4 ≠ 3 ∧ b.opx % 4 ≠ 1 ∧ b.opx / 4 = 0 ∧ b.aux / 2 ^ 28 = 0 ∧ 1 ≤ b.aux / 2 ^ 16 % 64 ∧
           b.aux / 2 ^ 22 % 64 ≤ b.aux / 2 ^ 16 % 64)
    s.lineHeld x 64 = false → x % 64 = 0 → s.here.boundary ≤ x → x < 0x60000 →
    ∀ p ∈ ([(.sget hd a k, .get), (.sput hd a k, .put), (.sgat hd a k, .gat), (.sred hd a k, .red), (.scol hd a k, .col)] :
             List (Instr × SKind)),
      CClear s p.1 hd src [] [k] (some t) 1 2 false →
      (plain p.2 → exec p.1 s = .next ((up p.2).request .streamer (some t) (.command p.2 b (first p.2).1) (know := (first p.2).2.1))) ∧
      (s.blockConds x p.2 = [] → b.mode ≠ 1 →
        exec p.1 s = .next ((up p.2).request .streamer (some t) (.command p.2 b (first p.2).1) (know := (first p.2).2.1))) ∧
      (s.blockConds x p.2 = [] → b.mode = 1 → exec p.1 s = .next (((up p.2).onHere (fun y =>
          { y with upcs := tput y.upcs (65536 * s.here.run + s.me.nseq) (b.upc, if b.det then none else some t) })).request .streamer
        (if b.det then some t else none) (.command p.2 b (first p.2).1) (know := (first p.2).2.1)))

/-- R293 to R299: when `pinit`, `pres`, `pcmt`, `pacq` and `prel` COMPLETE, and with what. On a descriptor of the own local store that
keeps the limits of R293, in a state of the stage that the word asks for, the word changes the descriptor in one atomic step; `pcmt`
and `prel` first publish what the core has seen for their stage, and `pres` and `pacq` acquire what was published and have the
stage's address three cycles later. A `pres` or `pacq` whose stage is not so yet joins the deferred list. Through the window each is
a remote request.
That the word takes the newest
bytes of its descriptor is the model's reading (log 31). -/
def Obligations.PantryWordResults : Prop :=
  ∀ (s : State) (hd : CHead) (d a : BitVec 5),
    let x := (s.me.sReg a.toNat).toNat
    let src : List RegId := [.s a.toNat]
    let t := s.me.ltkRef
    let p := Pan.ofNat (s.here.ls.readN x 32)
    let low := s.here.boundary
    let stateOf (j : Nat) : Nat := p.states / 4 ^ j % 4
    let shape : Prop := p.base < 2 ^ 19 ∧ p.base % 128 = 0 ∧ 128 ≤ p.ssize ∧ p.ssize ≤ 65536 ∧ p.ssize % 128 = 0 ∧ 1 ≤ p.count ∧
      p.count ≤ 64 ∧ p.base + p.count * p.ssize ≤ 0x60000 ∧ low ≤ p.base ∧ p.zero = 0
    let whole : Prop := shape ∧ p.head < p.count ∧ p.tail < p.count ∧ p.relc < p.count ∧ p.cmtc < p.count ∧
      p.states / 4 ^ p.count = 0
    let put (u : State) (q : Pan) : State := (u.atomicLs s.focus s.focus x 32 (fun _ => q.toNat)).2
    let granting (u : State) : State := u.grantStages s.focus x (s.here.deferred.length + 1)
    let told (u : State) (j : Nat) : State := u.publishStage s.focus x j s.here.seen
    let waits (m : Nat) : State := (s.readied src m).onMe (fun c => { (c.raise t).addPending (.s d.toNat) with wait := .pantry x })
    let granted (q : Pan) (j : Nat) : Host.Outcome State Fault Refusal :=
      .next ((((((put (waits 1) q).acquireStage s.focus s.focus x j).countApplied s.focus).molEntry s.focus s.here.run 5 12 0
        s.me.pc.toNat s.focus s.here.appIdx s.gts).doneAt (s.gts + 3) s.focus s.here.run
          [.write (.s d.toNat) (p.base + j * p.ssize), .unpend (.s d.toNat), .lower t, .readyNext]))
    x % 32 = 0 → s.lineHeld x 32 = false →
    (low ≤ x → x < 0x60000 →
      (CClear s (.pinit hd a) hd src [] [] none 0 0 false → shape →
          exec (.pinit hd a) s =
            .next (granting (put (s.readied src 0) { p with head := 0, tail := 0, relc := 0, cmtc := 0, states := 0 }))) ∧
        (CClear s (.pcmt hd a) hd src [] [] none 0 0 false → whole → stateOf p.cmtc = 1 → s.me.out = [] →
          exec (.pcmt hd a) s = .next (granting (put (told (s.readied src 0) p.cmtc)
            { p.setState p.cmtc 2 with cmtc := (p.cmtc + 1) % p.count }))) ∧
        (CClear s (.prel hd a) hd src [] [] none 0 0 false → whole → stateOf p.relc = 3 → s.me.out = [] →
          s.me.acq = [] →
          exec (.prel hd a) s = .next (granting (put (told (s.readied src 0) p.relc)
            { p.setState p.relc 0 with relc := (p.relc + 1) % p.count }))) ∧
        (CClear s (.pres hd d a) hd src [] [] (some t) 0 1 false → whole → stateOf p.head = 0 → s.here.run < 11 →
          exec (.pres hd d a) s = granted { p.setState p.head 1 with head := (p.head + 1) % p.count } p.head) ∧
        (CClear s (.pacq hd d a) hd src [] [] (some t) 0 1 false → whole → stateOf p.tail = 2 → s.here.run < 11 →
          exec (.pacq hd d a) s = granted { p.setState p.tail 3 with tail := (p.tail + 1) % p.count } p.tail) ∧
        (∀ q, s.topsOne x 32 → (put s q).here.ls = s.here.ls.writeN x 32 q.toNat) ∧
        (∀ q ∈ ([(.pres hd d a, 1, 1, stateOf p.head ≠ 0), (.pacq hd d a, 2, 3, stateOf p.tail ≠ 2)] :
                 List (Instr × Nat × Nat × Prop)), q.2.2.2 →
          whole → CClear s q.1 hd src [] [] (some t) 0 1 false → s.plainSlot →
          ∃ u, exec q.1 s = .next (State.joinDeferred u s.focus
              { op := q.2.1, addr := x, msg := some s.ctr, ctx := s.here.run, d := d.toNat, tok := t } s.ctr).passed ∧
            u = ((waits 1).localMsg t (.pantry q.2.2.1 x d.toNat)).2)) ∧
      ((∃ m off, classify x = .window m off) →
        (∀ q ∈ ([(.pinit hd a, 0), (.pcmt hd a, 2), (.prel hd a, 4)] : List (Instr × Nat)),
          CClear s q.1 hd src [] [] none 1 1 false → (q.2 ≠ 0 → s.me.out = []) → (q.2 = 4 → s.me.acq = []) →
          exec q.1 s = .next ((s.readied src 1).request (s.dstOf x) none (.pantry q.2 x 0) (know := s.here.seen))) ∧
        (∀ q ∈ ([(.pres hd d a, 1), (.pacq hd d a, 3)] : List (Instr × Nat)),
          CClear s q.1 hd src [] [] (some t) 1 2 false → s.plainSlot →
          exec q.1 s = .next ((waits 2).request (s.dstOf x) (some t) (.pantry q.2 x d.toNat)).passed))

/-- R409 to R412: the peat words are remote requests to the Porch; all but `punmount` have sD as a long-latency destination.
That `previve` takes the newest
bytes of its block is the model's reading (log 31). -/
def Obligations.PeatWordResults : Prop :=
  ∀ (s : State) (hd : CHead) (d a : BitVec 5) (k : BitVec 4),
    let x := (s.me.sReg a.toNat).toNat
    let src : List RegId := [.s a.toNat]
    let t := s.me.tokRef k.toNat
    let l := s.me.ltkRef
    let asks (t : TokRef) (op : Nat) (arg : Nat) (blk : List Nat) : State :=
      ((s.readied src 1).onMe (fun c => (c.raise t).addPending (.s d.toNat))).request .porch (some t) (.porch op d.toNat arg blk)
    let blk := s.here.ls.readN x 64
    (CClear s (.pmount hd d a k) hd src [] [k] (some t) 1 1 false → x < 2 ^ 52 →
        exec (.pmount hd d a k) s = .next (asks t 0 x [])) ∧
      (CClear s (.punmount hd a) hd src [] [] none 1 1 false → x < 2 ^ 52 →
        exec (.punmount hd a) s = .next ((s.readied src 1).request .porch none (.porch 1 0 x []))) ∧
      (CClear s (.pinfo hd d a) hd src [] [] (some l) 1 1 false → x < 2 ^ 52 → x / 2 ^ 24 % 2 ^ 8 = 0 → x / 2 ^ 16 % 2 ^ 8 < 7 →
        exec (.pinfo hd d a) s = .next (asks l 2 x [])) ∧
      (CClear s (.previve hd d a k) hd src [] [k] (some t) 1 1 false → x % 64 = 0 → s.here.boundary ≤ x → x < 0x60000 →
        s.lineHeld x 64 = false →
        (∀ f ∈ [(25, 3), (31, 1), (52, 12), (180, 4), (184, 328)], blk / 2 ^ f.1 % 2 ^ f.2 = 0) →
        (blk / 2 ^ 24 % 2 = 0 → blk / 2 ^ 160 % 2 ^ 16 = 0) →
        exec (.previve hd d a k) s = .next (asks t 3 x [blk]))

/-! ### Events: contexts, phases, requests and messages -/

/-- R39, R46, R47, R35, R36, R34, R217: a helper retires and a task ends once halted and quiet; a phase completes in its cycle; the
limit of a `sync.t`, unless the phase that counts the arrival completes in this cycle; an entry of an exchange plan.
That a plan entry is read as the
newest value is the model's reading (log 31); when the events come is the model's form (log 1). -/
def Obligations.TaskAndPhaseEvents : Prop :=
  ∀ (s : State) (core ctx idx hid level unit : Nat),
    let x := s.coreOf core
    let quiet (i : Nat) : Prop := (x.ctx i).live = true ∧ (x.ctx i).wait = .halt ∧ (x.ctx i).fatal = false ∧
      (∀ j, j < 16 → (x.ctx i).tok (.k j) = 0) ∧ (∀ j, j < 4 → (x.ctx i).tok (.t j) = 0) ∧ (x.ctx i).out = [] ∧
      s.upcallEntry core i = none ∧ x.mowner ≠ some i
    (0 < ctx → ctx < 11 → quiet ctx →
        ∃ t, exec (.helperRetire core ctx) s = .next t ∧ ((t.coreOf core).ctx ctx).live = false) ∧
      (x.ended = false → quiet 0 → (∀ i, 1 ≤ i → i ≤ 10 → (x.ctx i).live = false) →
        ∃ t, exec (.taskEnd core) s = .next t ∧ (t.coreOf core).ended = true ∧ ((t.coreOf core).ctx 0).live = false) ∧
      (let d := tget s.doms DomInst.reset (domKey hid level unit)
       d.exchange = true → d.release = some s.gts →
        ∃ t, exec (.phaseComplete hid level unit) s = .next t ∧
          tget t.doms DomInst.reset (domKey hid level unit) =
            { phases := d.phases + 1, exchange := false, members := [], release := none } ∧
          (0 < ctx → ctx < 11 → d.members = [(core, ctx)] → (x.ctx ctx).live = true → (x.ctx ctx).level = level →
            (x.ctx ctx).wait = .sync →
            t.ctxOf core ctx = { x.ctx ctx with arr := false, arrOut := [], wait := .none, readyAt := s.gts + 1 })) ∧
      (∀ d lim, (x.ctx ctx).wait = .syncT d lim → lim ≤ s.gts →
        ((∀ g, (tget s.doms DomInst.reset (s.keyOf core ctx)).release = some g → s.isAt g = false) ∨
          (core, ctx) ∉ (tget s.doms DomInst.reset (s.keyOf core ctx)).members) →
        exec (.syncTLimit core ctx) s = .next (s.complete core ctx [.write (.s d) 0, .unpend (.s d), .ready])) ∧
      (idx ∈ x.planTodo →
        let a := x.planAt idx
        let task := x.ls.readN (a + 4) 4 % 2 ^ 20
        let loft : Prop := x.ls.readN (a + 2) 1 = 1
        let source := x.ls.readN (a + 8) 4
        let target := x.ls.readN (a + 12) 4
        let n := x.ls.readN (a + 16) 4
        let ended (u : State) : State := u.onCore core (fun y => { y with planTodo := y.planTodo.erase idx, planDone := tdel y.planDone idx })
        let at_ := tget x.planDone 0 idx
        let part := min (64 - (target + at_) % 64) (n - at_)
        ∀ c, s.taskCore (x.hid.getD 0) (x.ctx 0).fen task = some c → s.runs c (x.hid.getD 0) task = true →
          (¬ loft → (s.coreOf c).boundary ≤ target → x.anyBusy source n = false → (s.coreOf c).anyBusy target n = false →
            exec (.planEntry core idx) s = .next ((ended s).copyLs core c source target (n / 8))) ∧
          (loft → x.anyBusy source n = false → (s.coreOf c).loftFree s.gts = true →
            let r := s.readLsMany core core 8 ((List.range (part / 8)).map (fun i => source + at_ + 8 * i))
            let w := r.2.loftWrite (r.2.coreOf core).seen c (target + at_) (r.1.flatMap (bytesOf 8))
            let u := w.2.onCore core (fun y => { y with seen := w.1 })
            (at_ + part < n → exec (.planEntry core idx) s = .next ((u.onCore core (fun y =>
              { y with planDone := tput y.planDone idx (at_ + part) })).stepAt (s.gts + 1) (.planEntry core idx))) ∧
            (n ≤ at_ + part → exec (.planEntry core idx) s = .next (ended u))) ∧
          (¬ loft → target < (s.coreOf c).boundary →
            exec (.planEntry core idx) s = .next ((ended s).lateReport core 0
              { cause := 25, sub := 0, seq := 0, reason := 1, rkind := 14, addr := a, tag := 0, gts := s.gts })))

/-- R133 to R136, R141, R144, R148, R153, R154, R165 to R167, R172, R380, R381, R382: what a request does at its home, and its answer,
acknowledgement or refusal at the issuing core; the event unit; the predictor. -/
def Obligations.RequestEvents : Prop :=
  ∀ (s : State) (id core ctx line : Nat),
    (∀ m home, tfind s.bag id = some m → m.dst = .core home → m.st = .going → m.app = none → m.delivered = true →
        m.behind = [] → m.near = false → (∀ p ∈ s.bag, p.1 < id → p.2.precedes m = false) →
        let x := s.coreOf home
        let free (a : Nat) : Prop := x.lineBusy (homeOff a) (some id) = false ∧
          x.regions.find? (fun r => r.2.1 == id) = none
        let whole (a : Nat) : Prop := s.granuleFailed 0 home (homeOff a) 1 = false
        let unlocked : State := s.onCore home (fun y => { y with locks := y.locks.filter (fun l => l.2 != id) })
        let here : Prop := x.hid = some m.src.hid ∧ x.ended = false ∧ (x.ctx 0).live = true
        (∀ a z sext d, m.body = .load a z sext d →
          free a →
          (here → x.boundary ≤ homeOff a → whole a →
            let r := s.readLs m.src.core home (homeOff a) z
            exec (.remoteRequestPerform id) s = .next ((r.2.applied home id).answer id [r.1]) ∧
              (settled (s.sightLs m.src.core home) (s.byteLs home) (homeOff a) z = true → r = (x.ls.readN (homeOff a) z, s))) ∧
          (here → homeOff a < x.boundary → exec (.remoteRequestPerform id) s = .next (unlocked.refuseMsg id 1 a)) ∧
          (¬ here → exec (.remoteRequestPerform id) s = .next (unlocked.refuseMsg id 2 a))) ∧
        (∀ a z v, m.body = .store a z v → free a → here → x.boundary ≤ homeOff a → z = 8 ∨ whole a →
          exec (.remoteRequestPerform id) s = .next (((s.storeLs m.src.core home (homeOff a) z v).applied home id).acknowledge id))) ∧
      (∀ m, tfind s.bag id = some m →
        let back := s.onMsg id (fun m => { m with at_ := m.src.core, delivered := true })
        let lower : List Act := match m.tok with
          | some t => [.lower t]
          | none => []
        (m.remote = true → exec (.takeRetry id) s = .next (back.soon (.routerReceive id))) ∧
        (m.remote = false → exec (.takeRetry id) s = .next (back.next (.remoteRequestPerform id))) ∧
        (∀ v a z sext d, m.st = .answered [v] → m.body = .load a z sext d → m.remote = true →
          exec (.replyReceive id) s = .next (((s.logAck m).complete m.src.core m.src.ctx
            ([.write (.s d) (extendTo64 z sext v), .unpend (.s d), .acqDone (.s d)] ++ lower ++ [.ack m.seq])).dropMsg id)) ∧
        (∀ a z v, m.body = .store a z v → m.tok = none → m.remote = true →
          exec (.requestAck id) s = .next (((s.logAck m).complete m.src.core m.src.ctx [.ack m.seq]).dropMsg id)) ∧
        (∀ reason addr a z sext d h i g, m.st = .refused reason addr → reason ≠ 28 → m.body = .load a z sext d → m.remote = true →
          m.delivered = true → m.app = some (h, i, g) →
          let u := ((s.logAck m).complete m.src.core m.src.ctx
            ([.unpend (.s d), .acqDone (.s d)] ++ lower ++ [.ack m.seq])).dropMsg id
          let r : LateReport := { cause := 25, sub := 0, seq := m.seq, reason := reason, rkind := 0, addr := addr, tag := 0, gts := g }
          exec (.refusalReceive id) s = .next (if u.stillThere m.src then u.lateReport m.src.core m.src.ctx r
            else u.record (u.household m.src.hid).queue 2 (lateRecord 1 m.src.field r) none)) ∧
        (∀ e val cl, m.body = .esig e val → m.dst = .event cl →
          ∃ t, exec (.esigAdd id) s = .next t ∧
            tget (t.clusterAt cl).counters 0 e = (tget (s.clusterAt cl).counters 0 e + val) % 2 ^ 32 ∧
            ∃ g, (⟨g, .step (.requestAck id)⟩ : Due) ∈ t.due)) ∧
      (∀ p, tfind (s.coreOf core).pred line = some p → p.since + 4096 ≤ s.gts →
        exec (.predictorDecay core line) s = .next (s.onCore core (fun x => { x with pred := tdel x.pred line }))) ∧
      (∀ d e target b, (s.ctxOf core ctx).wait = .ewait d e target b → s.agenda.any Event.adds = false →
        let v := tget (s.clusterAt (clusterOf core)).counters 0 e
        ((v + 2 ^ 32 - target) % 2 ^ 32 < 2 ^ 31 →
          exec (.ewaitAnswer core ctx) s = .next ((s.acquire core (s.ctxOf core ctx).fen 2).complete core ctx
            [.write (.s d) v, .unpend (.s d), .lower (s.ctxOf core ctx).ltkRef, .ready])) ∧
        (2 ^ 31 ≤ (v + 2 ^ 32 - target) % 2 ^ 32 →
          exec (.ewaitAnswer core ctx) s = .next (s.onCtx core ctx (fun c => { c with wait := .ewait d e target true }))))

/-- R160, R159, R266, R346, R349, R439, R441 to R444, R32, R438: the way of an entry from its core through the routers to its inbox
or its box. -/
def Obligations.EntryAndRouterEvents : Prop :=
  ∀ (s : State) (id core ctx : Nat),
    let x := s.coreOf core
    let dirOf (m : Msg) (task : Nat) : Option Nat := tfind (s.clusterAt (clusterOf m.src.core)).dir (m.src.hid * 2 ^ 20 + task)
    (∀ m e task, tfind s.bag id = some m → m.body = .send e task →
        (∀ c, (s.ctxOf m.src.core m.src.ctx).out.head? = some m.seq → dirOf m task = some c → e.ctxTo ≤ 10 →
          ∃ t, exec (.msendDepart id) s = .next t ∧ (tfind t.bag id).map (fun m => m.dst) = some (.core c) ∧
            ∃ g, (⟨g, .step (.routerReceive id)⟩ : Due) ∈ t.due) ∧
        ((s.ctxOf m.src.core m.src.ctx).out.head? ≠ some m.seq →
          exec (.msendDepart id) s = .next (s.soon (.msendDepart id))) ∧
        (m.dst = .core core → m.behind = [] → s.entryAhead core id m = false → s.runs core m.src.hid task = true → e.ctxTo ≤ 10 → (x.ctx e.ctxTo).live = true →
          x.inbox.length < 64 → x.input = [] → s.boxCount core = 0 →
          ∃ t, exec (.entryPlace id) s = .next t ∧ (t.coreOf core).inbox = (x.inboxAdd { e with placed := s.gts }).inbox ∧
            Event.inboxServe core e.ctxTo ∈ t.agenda) ∧
        (∀ c, m.dst = .core core → tfind (s.clusterAt (clusterOf core)).stubs (m.src.hid * 2 ^ 20 + task) = some c →
          m.stubs.length < 3 →
          exec (.stubForward id) s = .next ((s.onMsg id (fun m =>
            { m with stubs := m.stubs ++ [clusterOf core], dst := .core c, at_ := core, prev := none, delivered := false })).soon
              (.routerReceive id)))) ∧
      (∀ m e task h c, tfind s.bag id = some m → m.body = .hsend e task h → s.drained h.cluster 1024 h.entry = true →
        (∀ p ∈ s.bag, p.1 < id → p.2.src ≠ m.src) → dirOf m task = some c → e.ctxTo ≤ 10 →
        clusterOf (s.stubEnd m.src.hid task c 4) = clusterOf m.src.core →
        ∃ t, exec (.hsendDepart id) s = .next t ∧ (tfind t.bag id).map (fun m => m.dst) = some (.core c)) ∧
      (∀ m task c cl, tfind s.bag id = some m → m.dst = .cluster cl → m.body = .correct task c →
        exec (.stubCorrection id) s = .next ((s.onCluster cl (fun k =>
          { k with dir := tput k.dir (m.src.hid * 2 ^ 20 + task) c })).dropMsg id)) ∧
      (∀ m, tfind s.bag id = some m →
        ((∀ o ∈ s.bag, o.1 ≠ id → o.2.src ≠ m.src) →
          exec (.reinject id) s = .next ((s.onMsg id (fun m => { m with caught := false })).soon (.routerReceive id))) ∧
        (m.st = .going → s.fenHolds m.src.hid m.src.fen (clusterOf m.at_) = true → ∀ n, m.dst = .core n →
          (m.at_ = n → exec (.routerReceive id) s = .next (s.atInterface n id m)) ∧
          (∀ c y, m.at_ ≠ n → s.nextHop m n = some (c, y) → s.crossingBusy m.at_ c = false →
            exec (.routerReceive id) s = .next ((s.onMsg id (fun m => { m with at_ := c, detour := y })).soon (.routerReceive id))) ∧
          (m.at_ ≠ n → s.nextHop m n = none →
            exec (.routerReceive id) s = .next (s.armKill m.src.hid (s.gts + 4096) 256))) ∧
        (m.st = .going → s.fenHolds m.src.hid m.src.fen (clusterOf m.at_) = false → ∀ a z v, m.body = .store a z v →
          exec (.routerReceive id) s = .next ((s.onDie (dieOf m.at_) (fun d => { d with fenx := min 65535 (d.fenx + 1) })).refuseMsg
            id 6 a)) ∧
        (x.held = [id] → s.inOrder core m = true →
          ∃ t, exec (.orderRestoreDeliver core) s = .next t ∧ (t.coreOf core).held = [] ∧
            (tfind t.bag id).map (fun m => m.delivered) = some true)) ∧
      (∀ v d lim, (x.ctx ctx).wait = .inbxT v d lim → lim ≤ s.gts → s.agenda.any Event.places = false →
        exec (.inbxTLimit core ctx) s = .next (((s.onCtx core ctx (fun c => { c with wait := c.wait.settle })).onCore core (fun x =>
          { x with molRes := x.molRes - 1 })).doneAt (s.gts + 1) core ctx
            ([.write (.s d) 0, .unpend (.s d), .unpend (.v v), .acqDone (.v v), .lower (x.ctx ctx).ltkRef, .ready]))) ∧
      (∀ e g msg rest, x.input = (e, g, msg) :: rest →
        (∀ u, (64 ≤ x.inbox.length ∨ s.boxCount core ≠ 0) → s.boxCount core < 2047 → s.boxBusy core = false →
          s.boxPut core (32 * s.boxSlot core (s.boxCount core)) 32 e.boxWord = some u →
          ∃ t, exec (.boxWrite core) s = .next t ∧ (t.coreOf core).input = rest) ∧
        (s.boxCount core = 0 → x.inbox.length < 64 →
          ∃ t, exec (.boxMoveBack core) s = .next t ∧ (t.coreOf core).input = rest)) ∧
      (s.boxCount core ≠ 0 → x.inbox.length < 64 → s.boxBusy core = false →
        let e := s.boxEntry core 0
        exec (.boxMoveBack core) s = .next ((((s.boxRemove core 0).onCore core (fun x =>
          { x with inbox := x.inbox ++ [e] })).next (.inboxServe core e.ctxTo)).refill core)) ∧
      (∀ j, x.inbox.find? (fun e => e.ctxTo == ctx && (x.ctx ctx).wait.takes e) = none →
        s.boxFind core ctx (x.ctx ctx).wait = some j → s.boxBusy core = false →
        exec (.boxFetch core ctx) s = .next (((s.boxRemove core j).dequeued core ctx (x.ctx ctx).lastPc (s.boxEntry core j)).refill core)) ∧
      ((s.queue (s.queueOfCore core)).stallt ≠ 0 →
        let cyc := (s.queue (s.queueOfCore core)).stallt
        ∃ t, exec (.stallTimeout core) s = .next t ∧
          (t.coreOf core).input = x.input.filter (fun p => !(p.1.kind == 1 && (s.stallable p && decide (p.2.1 + cyc ≤ s.gts)))))

/-- R176, R177, R224 to R230, R243, R245, R247 to R251, R268, R269: the matrix unit's starts and completions, the two paths of the
cistern with its scrubs and images, and the end of a join and of a free, which bring the core what the handle's entries know.
That a
fill reads its elements in ascending order is the model's choice (log 18), and so is what its reads teach (log 33). -/
def Obligations.UnitEvents : Prop :=
  ∀ (s : State) (core ctx reg cl row entry : Nat),
    let x := s.coreOf core
    let g := s.cgroup cl row
    (∀ c rest, x.mrun = none → x.mq = c :: rest → c.issued < s.gts → x.mlast < s.gts →
        let u := s.onCore core (fun x => { x with mq := rest })
        (c.zero = true → ∃ t, exec (.matrixCommandStart core) s = .next t ∧ (t.coreOf core).mlast = s.gts ∧
          (t.coreOf core).mq = rest) ∧
        (c.zero = false → x.startCheck c = 0 →
          ∃ t r, exec (.matrixCommandStart core) s = .next t ∧ (t.coreOf core).mrun = some r ∧ r.cmd = c ∧ r.start = s.gts ∧
            r.mfa = x.mfa ∧ r.mfb = x.mfb ∧ r.msa = x.msa ∧ r.msb = x.msb ∧ r.steps = 0 ∧
            (⟨s.gts + 11 + r.total, .step (.matrixCommit core)⟩ : Due) ∈ t.due) ∧
        (c.zero = false → x.startCheck c ≠ 0 →
          exec (.matrixCommandStart core) s = .next (u.matrixRefuse core c (x.startCheck c)))) ∧
      (∀ r, x.mrun = some r → s.gts = r.start + 11 + r.total → s.matrixFailed core r = false →
        ∃ t, exec (.matrixCommit core) s = .next t ∧ (t.coreOf core).mrun = none ∧ (t.coreOf core).mlast = s.gts) ∧
      (∀ l rest, x.mlds = l :: rest →
        (l.started = none → l.issued < s.gts →
          exec (.mldBStart core) s = .next ((s.onCore core (fun x =>
            { x with mlds := { l with started := some s.gts } :: rest })).stepAt (s.gts + 3 + l.lines) (.mldBDone core))) ∧
        (∀ st, l.started = some st → st + 3 + l.lines ≤ s.gts →
          ∃ t, exec (.mldBDone core) s = .next t ∧ (t.coreOf core).mlds = rest ∧ (t.coreOf core).mldLast = s.gts)) ∧
      (∀ q, (s.clusterAt cl).addQ = [q] → q.op = 0 → q.row = row → q.arrive ≤ s.gts → q.tile = none → g.st = .idle →
        g.until_ ≠ s.gts → g.ascrub = 0 → (s.clusterAt cl).addNext ≤ s.gts →
        ∃ t, exec (.cisternAddPath cl) s = .next t ∧ (t.cgroup cl row).adds = (g.adds + 1) % 2 ^ 64 ∧ (t.clusterAt cl).addQ = []) ∧
      (∀ q, (s.clusterAt cl).tapQ = [q] → q.row = row → q.arrive ≤ s.gts → (g.st = .idle ∨ g.st = .scrub ∨ g.st = .spill) →
        (s.clusterAt cl).tapNext ≤ s.gts → s.agenda.any (Event.changesRows cl) = false →
        let u := s.onCluster cl (fun k => { k with tapQ := [], tapNext := s.gts + 1 })
        let ends : List Act := match q.tok with
          | some t => [.lower t, .cisDone]
          | none => []
        (q.op = 4 → exec (.cisternTapPath cl) s = .next ((u.learn q.core (s.tapNodes cl row)).doneAt (s.gts + 8) q.core q.ctx
          ([.write (.v q.d) (ofLanes (s.tapLanes cl q)).toNat, .unpend (.v q.d)] ++ ends))) ∧
        (q.op = 5 → exec (.cisternTapPath cl) s = .next (u.doneAt (s.gts + 2) q.core q.ctx
          ([.write (.s q.d) (g.info row q.sel), .unpend (.s q.d)] ++ ends)))) ∧
      (∀ q, g.holder = some q →
        (g.st = .scrub → g.until_ = s.gts →
          ∃ t, exec (.scrubEnd cl row) s = .next t ∧ (t.cgroup cl row).st = .idle ∧
            (t.cgroup cl row).sum = (s.clusterAt cl).sumSquares q.core row g.per ∧
            (t.cgroup cl row).scrubs = (g.scrubs + 1) % 2 ^ 32) ∧
        (∀ op, g.st = .spill → tfind s.ops q.msg = some op →
          let u : State := { s.freeGroup cl row with ops := tdel s.ops q.msg }
          (op.status ≠ 0 → exec (.spillComplete cl row) s = .next (u.refuseMsg q.msg op.status op.badVa)) ∧
          (op.status = 0 → op.blk.rows ≤ op.wm →
            exec (.spillComplete cl row) s = .next (((u.learn q.core (joinSeen op.know [(.row cl row, q.no)])).onMsg q.msg (fun m =>
              { m with app := some (0, 0, s.gts) })).ackNow q.msg))) ∧
        (∀ m r va compact, g.st = .fill → tfind s.bag q.msg = some m → m.body = .fill r va compact → m.behind = [] →
          let size := 64 + (if compact then 2 else 5) * 16384 * g.per
          let again (u : State) : State := u.soon (.fillComplete cl row)
          let atom (n : Nat) : List Nat := (List.range 4).map (fun i => (va + n) % 2 ^ 64 + 8 * i)
          let die := ownerDie (s.ownerOf m.src.hid va)
          (∀ u v know, g.got.length < size → (g.got.length ≠ 32 ∨ headerOk g compact (g.got ++ bytesOf 32 v) = true) →
            s.readBurst g.know die m.src.hid (atom g.got.length) = .ok u v know →
            exec (.fillComplete cl row) s = .next (again (u.onGroup cl row (fun g =>
              { g with got := g.got ++ bytesOf 32 v, know := know })))) ∧
          (∀ u v know, g.got.length = 32 → headerOk g compact (g.got ++ bytesOf 32 v) = false →
            s.readBurst g.know die m.src.hid (atom 32) = .ok u v know →
            exec (.fillComplete cl row) s = .next ((u.freeGroup cl row).refuseMsg q.msg 13 va)) ∧
          (size ≤ g.got.length → g.wrote < 16384 * g.per →
            exec (.fillComplete cl row) s = .next (again (s.fillOne cl row compact))) ∧
          (size ≤ g.got.length → 16384 * g.per ≤ g.wrote →
            exec (.fillComplete cl row) s = .next ((((((s.fillCounts cl row q.core compact).freeGroup cl row)).learn q.core
              [(.row cl row, q.no)]).onMsg q.msg (fun m => { m with app := some (0, 0, s.gts) })).ackNow q.msg)))) ∧
      (let r := (x.ctx ctx).hReg reg
       let cl := r.val.cluster
       let p := s.lentry cl r.val.entry
       ∀ a b t, r.st = .pending → p.st = .split → p.waiter = some (a, b, t) → p.wout = 0 →
        (s.lentry cl p.child0).wout = 0 → (s.lentry cl p.child1).wout = 0 →
        let know := joinSeen p.know (joinSeen (s.lentry cl p.child0).know (s.lentry cl p.child1).know)
        let u := s.onLentry cl r.val.entry (fun e => { e with waiter := none, know := know })
        let val : HVal := { cluster := cl, root := p.root, side := p.side, parent := if p.root then r.val.entry else p.parent,
                            entry := r.val.entry }
        exec (.hjoinComplete core ctx reg) s = .next (u.doneAt (s.gts + 1) core ctx
          [.handle reg { st := .live, val := val, view := p.view }, .freeEntry cl p.child0,
           .freeEntry cl p.child1, .owner cl r.val.entry reg, .learn know, .lower t])) ∧
      (∀ c i t, (s.lentry cl entry).st = .freeing → (s.lentry cl entry).waiter = some (c, i, t) → (s.lentry cl entry).wout = 0 →
        exec (.hfreeComplete cl entry) s = .next ((s.onLentry cl entry (fun e => { e with waiter := none })).doneAt (s.gts + 1) c i
          [.freeEntry cl entry, .learn (s.lentry cl entry).know, .lower t]))

/-- R175, R278, R281 to R283, R287, R291, R292, R297, R299: a streamer command is accepted, read and written step by step and delivered; a
stage is committed; a collective runs.
That a commit
which meets its descriptor otherwise ends with STATUS 8, and the order of a collective's steps, are the model's choices (logs 33, 20). -/
def Obligations.StreamerEvents : Prop :=
  ∀ (s : State) (n hid colid : Nat),
    (∀ m kind b idx, tfind s.bag n = some m → m.body = .command kind b idx → tfind s.ops n = none → b.det = false →
        (s.fenIndex m.src.hid m.src.fen).isSome = true → kind ≠ .col →
        ∃ t op, exec (.streamerAccept n) s = .next t ∧ tfind t.ops n = some op ∧ op.kind = kind ∧ op.blk = b ∧ op.idx = idx ∧
          op.src = m.src ∧ op.seq = m.seq ∧ op.tok = m.tok ∧ op.wm = 0 ∧ op.done = 0 ∧ op.status = 0 ∧
          ∃ g, (⟨g, .step (.streamerStep n)⟩ : Due) ∈ t.due) ∧
      (∀ op, tfind s.ops n = some op →
        (∀ e, op.status = 0 → op.kind ≠ .col → s.opBehind op = false → op.open_[Config.choice s.ctr % op.open_.length]? = some e →
          op.sent.contains e = false →
          let u : State := { s with ctr := s.ctr + 1 }
          let row := e / op.rowSteps
          (op.needsEntry row = true → s.readWaits op.src.core (op.blk.aux + 4 * row) 4 = false →
            let r := u.tableEntry op.know op.src.core op.blk row
            exec (.streamerStep n) s = .next ((r.2.2.setOp n { op with idx := tput op.idx row r.1, know := r.2.1 }).soon
              (.streamerStep n))) ∧
          (∀ x core a, op.kind = .put → op.readsNow e = [x] → op.localAt x = .ls core a → s.localRefuses op (.ls core a) = 0 →
            s.readWaits core a 8 = false →
            let r := u.readStep op.know (Loc.ls core) (s.byteLs core) a 8
            ∃ t, exec (.streamerStep n) s = .next t ∧ tfind t.ops n = some (op.took [x] r.1 r.2.1)) ∧
          (∀ core a v, op.kind = .get → op.localAt e = .ls core a → s.localRefuses op (.ls core a) = 0 →
            (s.coreOf core).lineBusy a none = false → tfind op.read e = some v →
            ∃ t, exec (.streamerStep n) s = .next t ∧ (t.coreOf core).ls = (s.coreOf core).ls.writeN a 8 v)) ∧
        (let u : State := { s with ops := tdel s.ops n }
         let logged := if (s.coreOf op.src.core).hid = some op.src.hid ∧ ((s.coreOf op.src.core).ctx 0).task = op.src.task then
             u.molEntry op.src.core op.src.ctx 4 10 op.seq op.pc op.owner op.bytes s.gts
           else u
         let rep : LateReport :=
          { cause := 25, sub := 0, seq := op.seq, reason := op.status, rkind := 10, addr := op.badVa, tag := op.blk.tag, gts := op.badAt }
         (s.stillThere op.src = true → op.status = 0 →
            (op.blk.mode ≤ 1 → exec (.streamerComplete n) s =
              .next (logged.arriveEntry op.src.core (op.entry logged.gts) (some n))) ∧
            (op.blk.mode = 2 → exec (.streamerComplete n) s = .next (logged.ackNow n))) ∧
          (s.stillThere op.src = false →
            (op.status = 0 → exec (.streamerComplete n) s =
              .next (logged.record (s.household op.src.hid).queue 1 (op.notice logged.gts) none)) ∧
            (op.status ≠ 0 → exec (.streamerComplete n) s =
              .next (logged.record (s.household op.src.hid).queue 2 (lateRecord 1 op.src.field rep) none)))) ∧
        (∀ home a u, panHome op.src.core op.blk.aux = some (home, a) → s.hasTask home op.src.hid = true → op.blk.loc < 0x60000 →
          (s.coreOf home).lineBusy a none = false → s.commitStage op.know home a op.blk.loc = (u, true) →
          exec (.pantryCommit n) s = .next ((u.setOp n op).next (.streamerComplete n)))) ∧
      (∀ c, s.findColl hid colid = some c → c.count ≤ c.ops.length →
        c.ops.any (fun p => ((tfind s.ops p.2).map s.opBehind).getD false) = false →
        (∀ i op u v know, c.pos < c.nIn → s.collOp c (c.pos / c.part) = some (i, op) →
          let qs := c.burst (c.pos / c.part) (c.pos % c.part)
          s.collIn c (c.pos / c.part) qs op = .ok u v know →
          exec (.collectiveRun hid colid) s = .next (((u.setOp i { op with know := know }).putColl
            { c with pos := c.pos + qs.length, data := c.data ++ (List.range qs.length).map (eightOf v) }).soon
            (.collectiveRun hid colid))) ∧
        (c.nIn + c.count * c.nOut ≤ c.pos → exec (.collectiveRun hid colid) s = .next (s.endColl c 0 0)))

/-! ### Events: the host, the scheduler, switches and peats -/

/-- R6, R7, R301, R303, R304, R311, R319, R322, R353 to R357, R361, R428, R443, R449, R352, R445: what the host reads and writes
and what the Porch does about it; ring records, watched words, TINV and the teardown of a PASID. -/
def Obligations.HostRegisterEvents : Prop :=
  ∀ (s : State) (q ring off : Nat) (val new : BitVec 64),
    let x := s.queue q
    let v := val.toNat
    (s.tickPending = false → exec (.registerWrite 0x10 val) s = .next { s with porch := { s.porch with age := v % 2 ^ 16 } }) ∧
      (exec (.registerWrite 0x60 val) s = .next { s with porch := { s.porch with dbgva := v / 128 % 2 ^ 45 * 128 } }) ∧
      (q < 16 →
        exec (.registerWrite (0x10000 + 0x400 * q + 0x28) val) s =
          .next (s.onQueue q (fun x => { x with swva := v / 128 % 2 ^ 45 * 128 })) ∧
        exec (.registerWrite (0x10000 + 0x400 * q + 0xE0) val) s =
          .next (((s.cores.filter (fun c => c.2.queue == q && !c.2.input.isEmpty)).map (fun c => c.1)).foldl State.armStalls
            (s.onQueue q (fun x => { x with stallt := v % 2 ^ 32 })))) ∧
      (q < 16 →
        s.readRegister (0x10000 + 0x400 * q + 0x10) = 0 ∧ s.readRegister (0x10000 + 0x400 * q + 0x38) = 0 ∧
        s.readRegister (0x10000 + 0x400 * q + 0x98) = 0 ∧
        s.readRegister (0x10000 + 0x400 * q + 0x20) = BitVec.ofNat 64 x.qstat ∧
        (s.readRegister (0x10000 + 0x400 * q + 0x90)).toNat = x.waitState % 4) ∧
      exec (.unsupportedAtomicop off val) s = .next s ∧
      (let n := new.toNat % 2 ^ 32
       (v = x.next → 1 ≤ sub32 n x.next → sub32 n x.next ≤ 64 → sub32 n x.intk ≤ 4096 →
          exec (.tkrCas q val new) s = .next (s.onQueue q (fun x => { x with next := n }))) ∧
       (v ≠ x.next → exec (.tkrCas q val new) s = .next s)) ∧
      (s.tickPending = false → sub32 (v % 2 ^ 32) x.intk < sub32 x.next x.intk →
        (v % 2 ^ 32 ∉ x.commits →
          exec (.cmt q val) s = .next (s.onQueue q (fun x => { x with commits := x.commits ++ [v % 2 ^ 32] }))) ∧
        ∃ t, exec (.cancel q val) s = .next t ∧ v % 2 ^ 32 ∈ (t.queue q).cancels) ∧
      (ring < 3 → ∃ t, exec (.ringHeadWrite q ring val) s = .next t ∧ ((t.queue q).ring ring).head = v % 2 ^ 32) ∧
      (∀ rec_ hid u, ring < 3 → (x.ring ring).held = [(rec_, none)] → x.hid = some hid → s.linkDown 26 = false →
        x.ringsTorn = false → x.hasRoom ring = true → s.vaBusy hid (x.ringBase ring + 32 * ((x.ring ring).tail % x.slots ring)) = false →
        s.writeVa hid (x.ringBase ring + 32 * ((x.ring ring).tail % x.slots ring)) 32 (recordAt ring rec_ s.gts) = .ok u →
        let done := u.onQueue q (fun y => y.setRing ring
          { y.ring ring with held := [], tail := ((x.ring ring).tail + 1) % 2 ^ 32, refused := false, retryAt := none })
        exec (.recordWrite q ring) s = .next done ∧
          ((x.ring ring).retryAt = some s.gts → exec (.recordRetry q ring) s = .next done)) ∧
      (∀ rec_, s.porch.mev.held = [(rec_, none)] → s.linkDown 26 = false → s.porch.mev.moduleRoom = true →
        let r := s.porch.mev
        exec .eventRecordWrite s = .next { s with
          host := s.host.writeN (pfHost + 4096 * r.base + 32 * (r.tail % (16 * 2 ^ min r.log2n 11))) 32 rec_.toNat,
          porch := { s.porch with mev := { r with held := [], tail := (r.tail + 1) % 65536 },
                                  aer := s.porch.aer + ofBool (uncorrectable rec_) } }) ∧
      (∀ n, x.waitState = 0 → ticketBefore (v / 2 ^ 32 % 2 ^ 32) x.intk = false →
        (s.onQueue q (fun x => { x with waitTicket := v / 2 ^ 32 % 2 ^ 32 })).freeSlot = some n →
        ∃ t, exec (.waitArm q val) s = .next t ∧ (t.queue q).waitState = 1 ∧ (t.queue q).waitSlot = some n ∧
          (t.queue q).waitTicket = v / 2 ^ 32 % 2 ^ 32 ∧ (∃ g, (⟨g, .step (.watchRead q)⟩ : Due) ∈ t.due)) ∧
      (∀ w, x.waitState = 1 → x.waitFault = none → x.pvalid = true → s.absentPage x = none →
        s.vaBusy (x.hid.getD 0) x.waitVa = false → s.readVa (x.hid.getD 0) x.waitVa 8 = .ok w → x.waitVal ≤ w →
        let u := (s.touchVa (x.hid.getD 0) x.waitVa 8).onQueue q (fun x =>
          { x with waitSlot := none, waitState := 0, waitFault := none })
        u.queues.find? (fun y => y.2.waitState == 3) = none → exec (.watchRead q) s = .next u) ∧
      (∀ f, Event.pageResponse q ∉ s.agenda → x.waitState = 1 → x.waitFault = some f → s.gts = f + 38000 →
        let u := s.onQueue q (fun x => { x with waitSlot := none, waitState := 2, waitFault := none })
        u.queues.find? (fun y => y.2.waitState == 3) = none → exec (.watchYield q) s = .next u) ∧
      (x.waitState = 1 → x.waitFault.isSome = true →
        let u := { s with hostAbsent := s.hostAbsent.filter (fun p => some p != s.absentPage x) }
        exec (.pageResponse q) s =
          .next ((u.onQueue q (fun x => { x with waitFault := none })).stepAt (s.gts + 1) (.watchRead q))) ∧
      (x.tinvBusy = false → ∃ t, exec (.tinv q val) s = .next t ∧ (t.queue q).tinvBusy = true ∧
        (t.queue q).tinvVa = v / 65536 % 2 ^ 36 * 65536 ∧ (t.queue q).tinvSize = v / 4 % 4 ∧
        (∀ e ∈ t.tlb, e.hit (x.hid.getD 256) (t.queue q).tinvVa (t.queue q).tinvSize = false)) ∧
      (x.tinvBusy = true → ∃ t, exec (.tinvComplete q) s = .next t ∧ (t.queue q).tinvBusy = false ∧
        (∀ e ∈ t.tlb, e.hit (x.hid.getD 256) x.tinvVa x.tinvSize = false)) ∧
      (x.pvalid = true → ∃ t, exec (.pasidTeardown q) s = .next t ∧ (t.queue q).pvalid = false) ∧
      (x.discards = 1 → ∃ t, exec (.hostResponseDiscard q) s = .next t ∧ (t.queue q).discards = 0 ∧ (t.queue q).ptorn = true ∧
        (t.queue q).ringsTorn = true)

/-- R309, R313, R317, R318: the decision of a tick, the load and the start of a group, its end and its release. -/
def Obligations.SchedulerEvents : Prop :=
  ∀ (s : State) (q t core : Nat) (g : Group),
    (let u := (s.queues.map (fun p => p.1)).foldl (fun s q => s.intake q 4096) s
     u.agenda.any Event.reports = false → (u.porch.slogSync = true → 66 ≤ u.slogFree) → u.porch.dispatchOff = false →
        u.porch.started = true →
        let r := u.scan (u.holders.flatMap u.groupClusters) [] u.readyGroups
        (∀ q g o, r.2 = .dispatch q g o → exec .schedulerTick s = .next ((u.dispatch q g o).logTick r.1 r.2)) ∧
        ((∀ q g o, r.2 ≠ .dispatch q g o) → exec .schedulerTick s = .next (u.logTick r.1 r.2))) ∧
      (s.taskGroup q t = some g →
        (∀ parts, g.st = .loading → core ∈ g.loads → g.revive = none →
          (s.tableReasons g.hid g.desc).filter (fun r => r != 1) = [] →
          s.loadImages g.hid g.desc (s.taskOn g core - g.desc.tbase) = .ok parts →
          let rs := s.loadRanges g.hid g.desc (s.taskOn g core - g.desc.tbase)
          rs.any (fun r => s.endBusy g.hid r.1 r.2) = false →
          exec (.coreLoadAck q t core) s =
            .next (((rs.foldl (fun s r => s.touchVa g.hid r.1 r.2) s).loadCore q g core parts).acknowledged q g core)) ∧
        (g.st = .loading → core ∈ g.loads → g.revive.isSome = true →
          exec (.coreLoadAck q t core) s = .next ((s.acknowledged q g core).reviveLoad q t)) ∧
        (g.st = .running → g.start = s.gts → ∃ u, exec (.groupStart q t) s = .next u ∧ ∀ c ∈ s.groupCores g,
          (u.ctxOf c 0).live = true ∧ (u.ctxOf c 0).readyAt = s.gts + 1 ∧ (u.ctxOf c 0).born = s.gts) ∧
        (g.st = .draining → s.agenda.any (fun e => !e.settles) = false →
          let u := (s.groupClusters g).foldl (fun s cl => s.undeclare cl g.hid) s
          exec (.groupFree q t) s = .next (if u.drained_ q g then u.releaseGroup q g else u.stepAt (s.gts + 1) (.groupFree q t)))) ∧
      (let x := s.coreOf core
       s.taskGroup x.queue x.ticket = some g → g.st = .running → core ∈ g.runs →
        let left := g.runs.filter (fun c => c != core)
        let h : Group := { g with runs := left, freed := g.freed + x.freed }
        let u := s.onTaskGroup x.queue x.ticket (fun _ => h)
        exec (.taskEndReport core) s = .next (if left.isEmpty then u.drainGroup x.queue h else u))

/-- R325, R327, R330, R332, R333, R346, R390, R391, R393, R394, R401, R402, R408, R411, R413: a switch and a kill from their
command to their end, the well, and the answers of the Porch.
PEATSTAT.STATE 1 after a `KILL` with REL = 1 is the model's
reading (log 23), and so is the answer of a `pinfo` (log 23). -/
def Obligations.SwitchAndPeatEvents : Prop :=
  ∀ (s : State) (q hid id : Nat) (val : BitVec 64),
    let x := s.queue q
    let h := s.household hid
    let y := s.queue h.queue
    (x.hid = some hid → x.killed = false →
        (x.swState = 0 → x.swArm = false → val = 1 →
          ∃ t, exec (.swcmdSave q val) s = .next t ∧ (t.queue q).swArm = true ∧ (t.queue q).swlast = max x.swgts (s.gts + 4096) ∧
            (t.queue q).stop = .at_ (max x.swgts (s.gts + 4096))) ∧
        (x.swState = 0 → x.swArm = false → val = 5 →
          exec (.swcmdSave q val) s = .next (s.onQueue q (fun x => { x with swArm := true, stop := .rel x.swgts }))) ∧
        (∀ f l fens, x.swState = 2 → h.frozen = some f → s.frameCheck hid x.swva f = .ok l → val = 2 →
          s.vaBusy hid x.swva = false →
          placeFens s.allFens (if h.secured then f else l.foldl Frozen.overlay f).fens = some fens →
          ∃ t, exec (.swcmdRestore q val) s = .next t ∧ (t.queue q).swState = 3 ∧ (t.queue q).frameVa = x.swva)) ∧
      (x.swArm = true → val.toNat < 16 → val.toNat % 4 = 3 →
        exec (.swcmdDisarm q val) s = .next (s.onQueue q (fun x => { x with swArm := false, stop := .none, swResult := 0 }))) ∧
      (y.swArm = true → y.stop = .at_ s.gts → y.swState = 0 → y.killed = false → y.killStop = .none →
        let u := s.sleep hid
        (u.household hid).asleep = true ∧ exec (.switchStop hid) s = .next ((u.onQueue h.queue (fun x =>
          { x with swState := 1, swArm := false, stop := .none, frameVa := x.swva })).stepAt (u.gts + 64) (.sluiceClose hid))) ∧
      (h.asleep = true →
        let u := s.catchMsgs hid true
        exec (.sluiceClose hid) s =
          .next (if (u.queue (u.household hid).queue).swState = 1 then u.soon (.saveComplete hid) else u)) ∧
      (y.swState = 1 → y.killed = false →
        let secs := s.sectionsOf hid
        let bytes := frameBytes (if h.secured then h.hsk else none) hid (y.savecnt + 1) h.stopped secs
        let r := s.putBytes hid y.frameVa bytes
        s.endBusy hid y.frameVa bytes.length = false →
        (r.2 = none → ∃ t, exec (.saveComplete hid) s = .next t ∧ (t.household hid).frozen = some { r.1.capture hid with sections := secs } ∧
          (t.queue h.queue).swState = 2) ∧
        (∀ e, r.2 = some e → exec (.saveComplete hid) s =
          .next (r.1.onQueue h.queue (fun x => { x with swState := 4, swResult := 6 })))) ∧
      (y.swState = 3 → h.resumeAt = none → s.allPlaced hid = true →
        exec (.restoreResume hid) s = .next ((s.onHousehold hid (fun h =>
          { h with resumeAt := some (s.gts + 96) })).stepAt (s.gts + 96) (.restoreResume hid))) ∧
      (x.hid = some hid → x.peatState = 0 → h.alive = true →
        (val.toNat < 2 ^ 62 → exec (.kill q val) s = .next (s.armKill hid (max val.toNat (s.gts + 4096)) 256)) ∧
        (val.toNat / 2 ^ 62 = 2 → exec (.kill q val) s =
          .next (s.onQueue q (fun x => { x with killRel := some (val.toNat % 2 ^ 62, none), peatState := 1 })))) ∧
      exec .warmReset s =
        .next ((s.households.filter (fun h => h.2.alive)).foldl (fun s h => s.armKill h.1 (s.gts + 4096) 259) s) ∧
      (y.killed = false → y.killStop = .at_ s.gts → h.alive = true → y.swState ≠ 3 →
        ∃ t, exec (.killStop hid) s = .next t ∧ (t.queue h.queue).killed = true ∧ (t.queue h.queue).peatState = 2 ∧
          (⟨s.gts + 128, .step (.peatAllocate hid)⟩ : Due) ∈ t.due) ∧
      (y.peatState = 2 → y.killed = true → y.peat = 0 → (∀ j, Event.peatAllocate j ∈ s.agenda → hid ≤ j) →
        (s.porch.pwbSize = 0 ∨ h.secured = true ∧ h.pk = none →
          exec (.peatAllocate hid) s = .next ((s.onQueue h.queue (fun x => { x with peatState := 4, peatResult := 0 })).next (.peatFormed hid))) ∧
        (s.porch.pwbSize ≠ 0 → h.secured = false ∨ h.pk ≠ none →
          ∃ t, exec (.peatAllocate hid) s = .next t ∧
            ((t.queue h.queue).peat = s.porch.pwNext ∨ (t.queue h.queue).peatState = 4 ∧ (t.queue h.queue).peatResult = 5))) ∧
      (h.alive = true → y.killed = true → ∃ t, exec (.peatFormed hid) s = .next t ∧ (t.household hid).alive = false ∧
        (t.household hid).fens = [] ∧ (t.household hid).hsk = none) ∧
      (∀ p, val.toNat < 65536 → tfind s.peats val.toNat = some p → (∀ i, Event.porchAnswer i ∉ s.agenda) → p.forming = false →
        (∀ m ∈ s.mounts, m.peat ≠ val.toNat) → s.reviving val.toNat = false →
        exec (.pwrel val) s = .next { s with peats := tdel s.peats val.toNat }) ∧
      (∀ t g, s.taskGroup q t = some g → g.st = .running → g.held = true → g.start ≤ s.gts →
        exec (.reviveResume q t) s = .next (s.onTaskGroup q t (fun g => { g with held := false }))) ∧
      (∀ m d arg blk, tfind s.bag id = some m → m.body = .porch 2 d arg blk → m.app = none → m.st = .going →
        let a : Option (Nat × Nat × Nat) := some (0, 0, s.gts)
        exec (.porchAnswer id) s = .next ((((s.onMsg id (fun m => { m with app := a, delivered := true })).logAck { m with app := a }).complete
          m.src.core m.src.ctx ([.write (.s d) (s.peatInfo m.src.hid arg), .unpend (.s d)] ++ m.lowerActs ++ m.orcActs)).dropMsg id))

/-! ### Events: boot, households, faults, memories and debug -/

/-- R7, R30, R341, R343, R350, R358, R363, R365, R367 to R370: resets and boot, time and the lease, TDISP states, households and
Fens, accesses from outside.
The stop at an unmapped address is the model's (log 29), that a cold reset keeps what the memories hold is its reading
(log 24), and that `identify` gives the module identifier with the lease (log 24). -/
def Obligations.BootAndHouseholdEvents : Prop :=
  ∀ (s : State) (hid q die idx pa port va n m : Nat) (val new : BitVec 64) (prot : Bool) (modes : BitVec 4),
    let h := s.household hid
    let p := s.porch
    (∃ t, exec .coldReset s = .next t ∧ t.gts = 0 ∧ t.porch = Porch.reset ∧ t.households = [] ∧ t.queues = [] ∧ t.peats = [] ∧
        t.cores = [] ∧ t.pa = s.pa ∧ t.host = s.host ∧ ∀ d, d < 5 → Event.firstStageBoot d ∈ t.agenda) ∧
      ((s.dieAt die).booted = false → (s.dieAt die).outOfService = false →
        (∀ hdr d, (flashDigest die 0 = some (hdr, d) ∨ flashDigest die 0 = none ∧ flashDigest die 1 = some (hdr, d)) →
          ∃ t, exec (.firstStageBoot die) s = .next t ∧ (t.dieAt die).booted = true ∧
            (t.dieAt die).meas0 = Config.shake256 ((s.dieAt die).meas0 ++ d) 64 ∧
            (t.dieAt die).hearth = Memory.writeBytes (s.dieAt die).hearth (Config.hdrLoad hdr) (flashImage die hdr) ∧
            (t.dieAt die).hearthPc = Config.hdrEntry hdr) ∧
        (flashDigest die 0 = none → flashDigest die 1 = none →
          ∃ t, exec (.firstStageBoot die) s = .next t ∧ (t.dieAt die).outOfService = true)) ∧
      (p.leaseHolder ≠ 7 → s.gts + 16384 < p.leaseExpiry →
        exec .getMeasurements s = .next { s with porch := { p with answer :=
          (s.dieAt 4).meas0 ++ (s.dieAt 0).meas0 ++ (s.dieAt 1).meas0 ++ (s.dieAt 2).meas0 ++ (s.dieAt 3).meas0 } }) ∧
      ((∀ k, k < m → modes.getLsbD k = false) → m < 4 → modes.getLsbD m = true →
        exec (.hostPortTrain modes) s = .next { s with porch := { p with mode := some m } }) ∧
      (p.follows = true → p.gtsJoined = false → (∀ x ∈ s.households, x.2.alive = false) →
        exec (.gtsJoin n) s = .next { s with gts := max s.gts n, porch := { p with gtsJoined := true } }) ∧
      (p.gtsJoined = true → (∀ c, p.corrected = some c → c + 65536 ≤ s.gts) →
        let u := { s with porch := { p with corrected := some s.gts, skipped := some (s.gts + 1) } }
        exec (.gtsCorrect true) s = .next u ∧ u.nextGts = s.gts + 2) ∧
      (val.toNat = p.lease → (p.leaseHolder = 7 ∨ p.leaseExpiry ≤ s.gts) → new.toNat / 2 ^ 61 ≤ 4 →
        new.toNat % 2 ^ 61 ≤ s.gts + 2097152 →
        exec (.leaseCas val new) s = .next (({ s with porch :=
          { p with leaseHolder := new.toNat / 2 ^ 61, leaseExpiry := new.toNat % 2 ^ 61, leaseFrom := s.gts } } : State).identify)) ∧
      ((s.queue q).hid = some hid → h.alive = true →
        (h.tdi < 3 → h.region = none → ∃ t k1 k2, exec (.tdiStateChange q 1) s = .next t ∧ (t.household hid).tdi = 2 ∧
          (t.household hid).region = some k1 ∧ (t.household hid).hsk = some k2) ∧
        (h.tdi < 3 → h.region ≠ none → exec (.tdiStateChange q 2) s = .next (s.onHousehold hid (fun h => { h with tdi := 3 }))) ∧
        (h.tdi = 3 → n ≠ 2 → ∃ t, exec (.tdiStateChange q n) s = .next t ∧ (t.household hid).tdi = 4 ∧
          (t.household hid).eraseAt = some (s.gts + 4096))) ∧
      (tfind s.households hid = none → (s.queue q).hid = none → hid < 256 → q < 16 →
        ∃ t k, exec (.householdCreate hid q val prot new) s = .next t ∧ (t.queue q).hid = some hid ∧ (t.queue q).savecnt = 0 ∧
          (t.household hid).alive = true ∧ (t.household hid).queue = q ∧ (t.household hid).root = val.toNat ∧
          (t.household hid).prot = prot ∧ (t.household hid).cred = new ∧ (t.household hid).fens = [] ∧
          ((t.household hid).hsk = if prot then some k else none)) ∧
      (tfind s.households hid = some h → h.asleep = false → (∀ g ∈ (s.queue h.queue).groups, g.holds = false) →
        ((s.queue h.queue).killStop = .none ∨ h.alive = false) →
        exec (.householdDestroy hid) s = .next (s.endHousehold hid)) ∧
      (∀ cx cy w ht, (List.range 64).find? (fun i => (tfind h.fens i).isNone) = some idx → h.alive = true → h.asleep = false →
        h.frozen = none → 0 < w → 0 < ht → cx + w ≤ 20 → cy + ht ≤ 16 → (∀ f ∈ s.allFens, f.meets cx cy w ht = false) →
        (∃ i, 1 ≤ i ∧ i < 256 ∧ i ∉ s.fenIdents) →
        ∃ t f, exec (.fenCreate hid cx cy w ht) s = .next t ∧ tfind (t.household hid).fens idx = some f ∧ f.cx = cx ∧ f.cy = cy ∧
          f.w = w ∧ f.h = ht ∧ 1 ≤ f.ident ∧ f.ident < 256 ∧ f.ident ∉ s.fenIdents) ∧
      (h.asleep = false → h.frozen = none → (∀ g ∈ (s.queue h.queue).groups, g.desc.fidx = idx → g.holds = false) →
        exec (.fenEnd hid idx) s = .next (s.onHousehold hid (fun h => { h with fens := tdel h.fens idx }))) ∧
      (deviceMapped pa = true → deviceMapped (pa + 7) = true → p.mode = some m → m < 2 → s.cxlReaches pa = true →
        s.cxlReaches (pa + 7) = true → s.bankWait pa = none →
        exec (.hostCxlMemAccess pa true val) s = .next ((s.touch pa).cxlWrite pa val.toNat) ∧
        exec (.hostCxlMemAccess pa false val) s = .next ((s.touch pa).cxlRead pa)) ∧
      (deviceMapped pa = false → exec (.hostCxlMemAccess pa true val) s = .fault (.noSuchAddress pa)) ∧
      (s.linkDown (8 + port) = false → h.asleep = false →
        (s.peerReaches hid va = false ∨ (s.queue h.queue).swState = 2 → ∀ wr,
          exec (.boardwalkPeerAccess port hid va wr val) s = .next (s.answerPeer 11 0)) ∧
        (s.peerReaches hid va = true → (s.queue h.queue).swState ≠ 2 →
          (∀ u w k, s.writeElement [] ioDie hid (va / 8 * 8) val.toNat = .ok u w k →
            exec (.boardwalkPeerAccess port hid va true val) s = .next (u.answerPeer 0 w)) ∧
          (∀ u w k, s.readElement [] ioDie hid (va / 8 * 8) = .ok u w k →
            exec (.boardwalkPeerAccess port hid va false val) s = .next (u.answerPeer 0 w)))) ∧
      (∀ wr, s.linkDown (8 + port) = false → h.asleep = true → s.gts ≤ h.stopped + 64 →
        exec (.boardwalkPeerAccess port hid va wr val) s = .next (s.putOff hid (.step (.boardwalkPeerAccess port hid va wr val))))

/-- R415, R416, R419, R420, R424, R426, R437, R446, R447, R448, R451: failed granules, the patrol scrub, links, temperature,
alarms and signed blocks.
The stop at an unmapped address is the model's (log 29); the correction of a granule with one wrong bit (log 25) and
what falls in the cycle of an alarm's action beside its kill (log 26) are its readings. -/
def Obligations.FaultAndAlarmEvents : Prop :=
  ∀ (s : State) (kind holder addr pa link die temp cls q idx : Nat) (seq : BitVec 12),
    let l := s.link link
    let n := seq.toNat
    let unit := if kind = 2 ∨ kind = 3 then holder / 80 else dieOf holder
    (kind ≤ 5 → s.sramErrors.contains (kind, holder, addr) = true → exec (.sramUe kind holder addr) s =
        .next { s.onDie unit (fun d => { d with sce := min 65535 (d.sce + 1) }) with
          sramErrors := s.sramErrors.filter (fun x => x != (kind, holder, addr)) }) ∧
      (kind ≤ 5 → s.sramErrors.contains (kind, holder, addr) = false → ∃ t, exec (.sramUe kind holder addr) s = .next t ∧ (t.dieAt unit).sue = min 255 ((s.dieAt unit).sue + 1) ∧
        (∀ g, s.granuleHid kind holder = some g → (kind, holder, addr, g) ∈ t.failed)) ∧
      (deviceMapped pa = false → exec (.patrolScrub pa) s = .fault (.noSuchAddress pa)) ∧
      (isHbm pa = true → isAnnex pa = false → isCellar pa = false → deviceMapped pa = true →
        (s.stack (stackOf pa)).takeover = none → s.poison.contains (pa / 32) = false → s.burstsLeft = false →
        let u := s.onDie_ pa
        (tget u.errors 0 (pa / 32) = 0 → exec (.patrolScrub pa) s = .next u) ∧
        (tget u.errors 0 (pa / 32) = 1 →
          exec (.patrolScrub pa) s = .next (({ u with errors := tdel u.errors (pa / 32) }).countCe pa)) ∧
        (2 ≤ tget u.errors 0 (pa / 32) → ∃ t, exec (.patrolScrub pa) s = .next t ∧ pa / 32 ∈ t.poison)) ∧
      (link < 31 → l.st = 0 →
        (n = l.expect → ∃ t, exec (.flitReceive link seq true) s = .next t ∧ (t.link link).expect = (n + 1) % 4096 ∧
          n ∉ (t.link link).buf) ∧
        (n ≠ l.expect → exec (.flitReceive link seq true) s = .next (s.onLink link (fun l =>
          { l with buf := if l.buf.contains n || 512 ≤ l.buf.length then l.buf else l.buf ++ [n] }))) ∧
        (∃ t g, exec (.flitReceive link seq false) s = .next t ∧ (t.link link).expect = l.expect ∧
          (⟨g, .step (.nakReplay link (BitVec.ofNat 12 l.expect))⟩ : Due) ∈ t.due) ∧
        (l.nakSeq ≠ n → exec (.nakReplay link seq) s = .next (s.onLink link (fun l =>
          { l with replay := min 65535 (l.replay + (l.from_ n).length), naks := 1, nakSeq := n })))) ∧
      (l.xtrain = [] → l.st = 1 → exec (.retrainEnd link true) s = .next ((s.onLink link (fun l =>
        { l with st := 0, retraining := false, fails := 0, replay := min 65535 (l.replay + l.buf.length) })).moduleEvent 3 link (l.fails + 1) 0 0)) ∧
      (∀ p fails rest, l.xtrain = (p, fails) :: rest →
        let u := s.onLink link (fun l => { l with xtrain := rest, st := s.causewaySt link rest })
        exec (.retrainEnd link true) s = .next ((u.onLink link (fun l =>
          { l with replay := min 65535 (l.replay + l.buf.length) })).moduleEvent 3 link (fails + 1) 0 0)) ∧
      (die < 4 → s.tickPending = false →
        (1050 ≤ temp → (s.dieAt die).overheat = false → ∃ t, exec (.sensorRead die temp) s = .next t ∧ (t.dieAt die).overheat = true ∧
          t.porch.thr / 2 ^ (2 * die) % 4 = 3) ∧
        (temp < 950 → ∃ t, exec (.sensorRead die temp) s = .next t ∧ (t.dieAt die).overheat = false)) ∧
      (cls < 5 → ∃ t, exec (.securityAlarm cls) s = .next t ∧ t.porch.almstat = s.porch.almstat ||| 2 ^ cls ∧
        t.porch.aer = s.porch.aer + 1 ∧
        (⟨s.gts + 4096, .step (.alarmAction cls)⟩ : Due) ∈ t.due) ∧
      (let struck := (s.households.filter (fun h => h.2.killedBy (s.policy cls) && !(s.queue h.2.queue).killStop.now s)).foldl
          (fun s h => (s.armKill h.1 s.gts 258).next (.killStop h.1)) s
       let keyless := struck.wipe (fun _ => true)
       let act : State :=
        { keyless with peats := keyless.peats.map (fun (p : Nat × Peat) => (p.1, { p.2 with pk := none })),
                       porch := { keyless.porch with dispatchOff := true } }
       (s.policy cls = 3 → exec (.alarmAction cls) s = .next act) ∧
       (s.policy cls ≤ 1 → exec (.alarmAction cls) s = .next struck)) ∧
      (∀ hid e bs, (s.queue q).hid = some hid → s.porch.leaseHolder ≠ 7 → s.gts + 16384 < s.porch.leaseExpiry →
        (s.household hid).alive = true → (s.household hid).asleep = false → (s.queue q).swState = 0 → idx < (s.queue q).sigbCount →
        s.vaBusy hid (4096 * (s.queue q).sigbBase + 32 * idx) = false →
        let u := (s.checkBytes hid (4096 * (s.queue q).sigbBase + 32 * idx) 32).1
        u.getBytes hid (4096 * (s.queue q).sigbBase + 32 * idx) 32 = .ok e →
        let w := (u.checkBytes hid (natOfBytes e % 2 ^ 64) (natOfBytes e / 2 ^ 64 % 2 ^ 32)).1
        w.getBytes hid (natOfBytes e % 2 ^ 64) (natOfBytes e / 2 ^ 64 % 2 ^ 32) = .ok bs →
        ((crc64 bs).toNat = natOfBytes e / 2 ^ 128 % 2 ^ 64 → exec (.signatureCheck q idx) s = .next w) ∧
        ((crc64 bs).toNat ≠ natOfBytes e / 2 ^ 128 % 2 ^ 64 → exec (.signatureCheck q idx) s = .next (w.record q 2
          (packRecord [(1, 4), (1, 3), (2, 0), (4, 0), (8, natOfBytes e % 2 ^ 64), (8, w.gts), (8, idx)]) none)))

/-- R430, R431, R433 to R435: rows, back-off, refresh and its takeover, and the migration of a hot page. -/
def Obligations.DramEvents : Prop :=
  ∀ (s : State) (pa bank stack page : Nat),
    let k := s.stack stack
    let w := s.gts / 60800000
    (isHbm pa = true → s.bankWait pa = none → s.rowOpen pa = false →
        s.act (bankKey pa) (s.rowAt pa) + 1 ≠ (s.stack (stackOf pa)).th →
        ∃ t, exec (.rowActivate pa) s = .next t ∧ (t.bank (bankKey pa)).openRow = some (s.rowAt pa) ∧
          (t.bank (bankKey pa)).lastAccess = s.gts ∧
          t.act (bankKey pa) (s.rowAt pa) = s.act (bankKey pa) (s.rowAt pa) + 1) ∧
      ((s.bank bank).backoff ≤ s.gts → exec (.backoffEnd bank) s = .next (s.onBank bank (fun b => { b with backoff := 0 }))) ∧
      ((s.bank bank).lastAccess + 128 ≤ s.gts → exec (.rowClose bank) s = .next (s.onBank bank (fun b => { b with openRow := none }))) ∧
      (s.gts % 60800000 = 0 → exec (.refreshWindow stack) s =
        .next ((s.clearActs stack).onStack stack (fun k => { k with hot := [], window := w }))) ∧
      ((s.stack (bank / 512 / 4)).takeover = none → exec (.bankRefresh bank) s =
        .next (s.onBank bank (fun b => { b with refreshed := s.gts }))) ∧
      (∃ t, exec (.heartbeat stack) s = .next t ∧ (t.stack stack).heartbeat = s.gts ∧
        (⟨s.gts + 3800, .step (.refreshTakeover stack)⟩ : Due) ∈ t.due) ∧
      (k.takeover = none → k.heartbeat + 3800 ≤ s.gts → Event.heartbeat stack ∉ s.agenda →
        ∃ t, exec (.refreshTakeover stack) s = .next t ∧ (t.stack stack).takeover = some s.gts ∧
          (⟨s.gts + 64, .step (.sequencerRefresh stack)⟩ : Due) ∈ t.due) ∧
      (k.takeover.isSome = true → ∃ t, exec (.sequencerRefresh stack) s = .next t ∧ (t.stack stack).busyUntil = s.gts + 665 ∧
        (t.stack stack).sequenced = k.sequenced + 1 ∧ (⟨s.gts + 665, .step (.allBankRefreshEnd stack)⟩ : Due) ∈ t.due ∧
        (k.handsBack s.gts = false → (⟨s.gts + 3705, .step (.sequencerRefresh stack)⟩ : Due) ∈ t.due) ∧
        (k.handsBack s.gts = true → Event.refreshHandback stack ∈ t.agenda)) ∧
      (k.takeover.isSome = true → k.handsBack s.gts = true →
        ∃ t, exec (.refreshHandback stack) s = .next t ∧ (t.stack stack).takeover = none) ∧
      (k.busyUntil ≤ s.gts → ∃ t, exec (.allBankRefreshEnd stack) s = .next t ∧ (t.stack stack).busyUntil = 0 ∧
        ∀ b, b < 16384 → b / 2048 = stack → (t.bank b).held = false) ∧
      (let n := page % 32 / 4
       tfind s.copying page = none →
        (s.skipReason page ≠ 0 → exec (.pageMigrate page) s =
          .next (s.moduleEvent 8 n (s.skipReason page) (page * 65536) (s.mapper (page * 65536)))) ∧
        ((s.stack n).spares < 64 → (s.stack n).takeover = none → s.peerMapped (page * 65536) = false →
        ∃ t g, exec (.pageMigrate page) s = .next t ∧ tfind t.copying page = some (s.stack n).spares ∧
          (t.stack n).spares = (s.stack n).spares + 1 ∧ g ≤ s.gts + 8192 ∧ (⟨g, .step (.migrationDone page)⟩ : Due) ∈ t.due)) ∧
      (∀ r, tfind s.copying page = some r → ∃ t, exec (.migrationDone page) s = .next t ∧ tfind t.copying page = none ∧
        tfind t.remap page = some r)

/-- R452 to R457, R461, R462, R465, R469: the debug credential, the stop, the run, the step and the snapshot of a core, the GTS
trigger, droop capture and the rereading of HEAD.
That D of a droop capture is the cycle before the event is the model's reading (log 25). -/
def Obligations.DebugEvents : Prop :=
  ∀ (s : State) (q hid core ctx die : Nat) (val : BitVec 64) (below mv : BitVec 32),
    let x := s.coreOf core
    let d := x.dbg
    let free := s.debugLocked core = false
    let set (c : Nat) (f : Debug → Debug) (s : State) : State := s.onCore c (fun x => { x with dbg := f x.dbg })
    ((s.queue q).hid = some hid →
        (val = (s.household hid).cred → exec (.dbgunlk q val) s = .next (s.onHousehold hid (fun h => { h with unlocked := true }))) ∧
        (val ≠ (s.household hid).cred → exec (.dbgunlk q val) s = .next { s with agenda := s.agenda ++ [.securityAlarm 4] })) ∧
      (x.gang = none → free →
        (d.armed = false → d.stopped = false →
          exec (.debugStop core) s = .next ((set core (fun d =>
            { d with armed := true, stopAt := max d.gts (s.gts + 64) }) s).stepAt (max d.gts (s.gts + 64)) (.debugStopTake core))) ∧
        exec (.debugRun core) s = .next (set core (fun d =>
          { d with armed := false, stopped := false, stepReq := none, resume := d.stopped && s.turn.contains core }) s) ∧
        (d.stopped = true → ctx ≤ 10 → (x.ctx ctx).live = true →
          exec (.debugStep core ctx) s = .next (set core (fun d => { d with stepReq := some ctx }) s))) ∧
      (x.gang = none → d.armed = true → d.stopAt = s.gts → exec (.debugStopTake core) s = .next (set core (fun d =>
          { d with armed := false, stopped := true, steps := 0, gts := s.gts, stepReq := none }) s)) ∧
      (free → d.stopped = true → d.snapBusy = false →
        let u := s.matrixAdvance core (s.gts - 1)
        exec (.debugSnapshot core) s = .next ((set core (fun d => { d with snapBusy := true })
          { u with host := u.host.writeBytes (pfHost + u.porch.dbgva) (u.snapshotBytes core) }).soon (.snapshotDone core))) ∧
      exec (.snapshotDone core) s = .next (set core (fun d => { d with snapBusy := false }) s) ∧
      exec (.traceGtsTrigger core) s = .next (s.traceWindow core none none) ∧
      (die < 4 → ∃ t, exec (.droopDetect die below mv) s = .next t ∧ (t.dieAt die).droops = min 65535 ((s.dieAt die).droops + 1) ∧
        (s.porch.drpEn = false → t.host = s.host) ∧
        (s.porch.drpEn = true → (s.dieAt die).captured = none → (t.dieAt die).captured = some (s.gts - 1))) ∧
      ((x.ctx ctx).wait = .molRoom → exec (.molHeadReread core ctx) s = .next (s.onCtx core ctx (fun c => { c with wait := .none })))

/-! ### Encoding -/

/-- R75, R78, R84 to R87: the word of every well-formed instruction decodes, in its slot, to that instruction. -/
def Obligations.EncodedInstructionsDecode : Prop :=
  ∀ (i : Instr) (w : BitVec 32), i.wf = true → encode i = some w →
    (i.isC = true → decodeC w = .ok i) ∧ (i.isA = true → decodeA w = .ok i)

/-- R75, R78, R84 to R87, R91: a word that decodes in either slot gives a well-formed instruction whose word it is, so two words
never stand for one instruction. -/
def Obligations.DecodedWordsEncode : Prop :=
  ∀ (w : BitVec 32) (i : Instr),
    (decodeC w = .ok i → i.wf = true ∧ i.isC = true ∧ encode i = some w) ∧
      (decodeA w = .ok i → i.wf = true ∧ i.isA = true ∧ encode i = some w)

/-- R84 to R89, the worked encodings: words written out from the layout tables decode to what they stand for, and the illegal
opcodes of R89 to nothing. -/
def Obligations.DecodingWords : Prop :=
  let none_ : CHead := { ln := false, wk := 0, wn := 3 }
  (decodeC 0x06040000 = .ok (.nop none_) ∧ decodeA 0x2AA02000 = .ok (.adr 10 0 0x2000)) ∧
    (decodeC 0x0961C400 = .ok (.mxq { ln := false, wk := 1, wn := 0 } 14 2) ∧ decodeA 0x2B002A80 = .ok (.adr 16 0 0x2A80)) ∧
    (decodeC 0x116C2143 = .ok (.mrd { ln := false, wk := 2, wn := 0 } 2 0 20 3) ∧ decodeA 0x02000000 = .ok .aNop) ∧
    (decodeC 0x86080002 = .ok (.dly { ln := true, wk := 0, wn := 3 } 2)) ∧
    (decodeC 0x862CC000 = .ok (.kwait { ln := true, wk := 0, wn := 3 } 3 0)) ∧
    (decodeC 0x0640FFF2 = .ok (.brT none_ 1 0x7FF2) ∧ decodeA 0x2B4A0001 = .ok (.adr 20 20 1)) ∧
    (∀ w : BitVec 32,
      ((w.extractLsb' 18 7).toNat ∈ [0x00, 0x27, 0x2F, 0x37, 0x57, 0x67, 0x7F] → decodeC w = .error .illegalOpcode) ∧
      (((w.extractLsb' 25 7).toNat ∈ [0x00, 0x16, 0x17, 0x25, 0x26, 0x27, 0x2C, 0x2D, 0x2E, 0x2F, 0x4D, 0x4E, 0x4F, 0x7F] ∨
        0x5D ≤ (w.extractLsb' 25 7).toNat ∧ (w.extractLsb' 25 7).toNat ≤ 0x7B) → decodeA w = .error .illegalOpcode))

/-! ### The step -/

/-- R40, R71, R76, R92: when the next turn is a core's whose running context is ready, with a pair that decodes at its pc, the step
runs exactly those two words, the A-slot word first and the C-slot word on the state after it with the operands as they stood;
then the context goes on at `npc` and the turn's counts and trace are kept.
That the A-slot word acts first is the model's reading (log 12). -/
def Obligations.StepRunsThePair : Prop :=
  ∀ (s t u v : State) (core h : Nat) (rest : List Nat) (c a : Instr),
    let s0 : State := { s with turn := rest, focus := core, latch := .issued }
    let r := s0.here.run
    let b := (s0.onHere (fun x => { x with pass := false })).onHere (fun x => { x with run := r })
    let me := b.me
    let pc := me.pc
    let w := b.wordAt pc.toNat
    let p := b.startPair.setNext (if w.getLsbD 31 then pc + 4 else pc + 8)
    let done := t.retire b
    s.agenda = [] → s.turn = core :: rest → s0.here.hid = some h → (s.household h).asleep = false → s0.here.gang = none →
    s0.here.dbg.stopped = false → s0.here.dbg.resume = false → s0.here.pass = false → me.live = true → me.parked = false → me.fatal = false → me.readyAt ≤ s.gts →
    me.entering = false → me.wait = .none → me.gangFail = none → me.lateDue = false → b.upcallDue = false → b.replays = false →
    me.dlyRem = 0 → pc.toNat < 256 * me.bound → pc.toNat % 4 = 0 → (pc.toNat % 8 = 4 → w.getLsbD 31 = true) →
    decodeC w = .ok c →
    (if w.getLsbD 31 then a = .aNop else decodeA (b.wordAt (pc.toNat + 4)) = .ok a) →
    sameDest c a = false →
    exec c p = .next v → v.latch = .issued → exec a p = .next u → u.latch = .issued → exec c u = .next t → t.latch = .issued →
    step s = .next (done.endTurns s0 [core] (fun _ => some (done.coreOf core).run)) ∧
      (t.focus = core → t.here.run = r → done.me.pc = t.me.npc)

/-- R75, R76: a C-slot word whose wait field is not met has no effect of its own: whatever it is, it leaves the context at its
pair, waiting. -/
def Obligations.UnmetWaitHoldsThePair : Prop :=
  ∀ (s : State) (w : BitVec 32) (i : Instr), decodeC w = .ok i → s.me.waitMet (decodeHead w) = false →
    exec i s = .next (s.hold true) ∧
      (decodeHead w).wn ≠ 3 ∧
      (decodeHead w).wn.toNat < s.me.tok (s.me.tokRef (decodeHead w).wk.toNat)

/-! ### Reset, registers and traps -/

/-- R7, R131, R218, R311, R315, R367, R401, R432, R443, R450: what reset leaves. The pc of a context, and every other register
that reads zero here with no value in the spec, is the model's choice (log 4). -/
def Obligations.ResetState : Prop :=
  let s := State.reset
  s.gts = 0 ∧ s.porch.age = 32 ∧ s.porch.mbudLimit = 3400000 ∧ s.porch.mbudBase = 0 ∧ s.porch.leaseHolder = 7 ∧ s.porch.pwNext = 1 ∧
    (∀ n, (s.queue n).stallt = 1900000 ∧ (s.queue n).dsh = 24 ∧ (s.queue n).en = false ∧ (s.queue n).hid = none) ∧
    (∀ n, (s.stack n).hotth = 8 ∧ (s.stack n).th = 2048) ∧
    (∀ n, (s.coreOf n).mfa = 9 ∧ (s.coreOf n).mfb = 9 ∧ (s.coreOf n).hid = none ∧ ∀ i, ((s.coreOf n).ctx i).live = false) ∧
    (∀ n, (s.household n).alive = false) ∧ s.memWf ∧ s.coresMemWf ∧ (∀ a, s.pa.read a = 0 ∧ s.host.read a = 0 ∧ s.peer.read a = 0)

/-- R80, R42, R61, R101, R102: s0 and p0 are fixed; a write changes its register alone; a queued result becomes readable once as many
pairs as its latency have begun, and not before. -/
def Obligations.RegistersAndResults : Prop :=
  ∀ (c : Ctx) (n m x lat : Nat),
    (c.sReg 0 = 0 ∧ c.pReg 0 = BitVec.allOnes 32 ∧ c.writeReg (.s 0) x = c ∧ c.writeReg (.p 0) x = c) ∧
      (0 < n → n < 32 → (c.writeReg (.s n) x).sReg m = if m = n then BitVec.ofNat 64 x else c.sReg m) ∧
      (0 < n → n < 8 → (c.writeReg (.p n) x).pReg m = if m = n then BitVec.ofNat 32 x else c.pReg m) ∧
      (n < 64 → (c.writeReg (.v n) x).vReg m = if m = n then BitVec.ofNat 1024 x else c.vReg m) ∧
      (c.fixed = [] → 0 < n → n < 32 → 0 < lat →
        let q := c.queueFixed (.s n) x lat
        (∀ k, k < lat → (Nat.iterate Ctx.countDown k q).sReg n = c.sReg n) ∧
          (Nat.iterate Ctx.countDown lat q).sReg n = BitVec.ofNat 64 x ∧
          (∀ k, m ≠ n → (Nat.iterate Ctx.countDown k q).sReg m = c.sReg m))

/-- R374, R376, R384, R386, R390: taking a trap outside a handler saves EPC, ECAUSE and EINFO, clears the trap tokens, sets INH
and goes to the handler, whatever the cause; in a handler it is fatal and the context stops. -/
def Obligations.TrapEntry : Prop :=
  ∀ (s : State) (cause sub slot info : Nat) (late : Bool) (epc : Word),
    s.here.run < 11 →
    let t := s.enterTrap cause sub slot late info epc
    let c := s.me
    (c.inh = false → c.region = none →
        t.me.epc = epc ∧ t.me.einfo = BitVec.ofNat 64 info ∧ t.me.inh = true ∧ t.me.npc = BitVec.ofNat 64 (8 * c.ovh) ∧
          t.me.ecause = ecauseOf cause sub slot late c.out.isEmpty ∧ (∀ j, j < 4 → t.me.tok (.t j) = 0) ∧
          (∀ j, j < 16 → t.me.tok (.k j) = c.tok (.k j)) ∧ t.me.fixed = [] ∧ t.me.dlyRem = 0 ∧ t.me.wait = .none ∧
          t.me.upcall = c.upcall ∧ t.me.out = c.out ∧ t.gts = s.gts ∧ t.pa = s.pa ∧ t.host = s.host ∧
          t.here.ls = s.here.ls ∧ (c.fixed = [] → t.me.s = c.s ∧ t.me.p = c.p ∧ t.me.v = c.v)) ∧
      (c.inh = true →
        t.me.fatal = true ∧ t.me.fatalCause = some cause ∧ t.me.epc = c.epc ∧ t.me.ecause = c.ecause ∧ t.me.npc = c.pc ∧
          t.here.ls = s.here.ls ∧ t.pa = s.pa)

/-! ### Frames and invariants -/

/-- R76, R92, R101, R107: an A-slot word that issues writes no memory, no register at once and no other context: it may queue one
result and set CSTAT.UW. Its destination's value follows by `RegistersAndResults`. -/
def Obligations.FrameOfASlotWords : Prop :=
  ∀ (s t : State) (i : Instr), i.isA = true → exec i s = .next t → t.latch = .issued → s.latch = .issued →
    (∃ f, t.me = { s.me with fixed := s.me.fixed ++ f, uw := t.me.uw } ∧ f.length ≤ 1 ∧ (s.me.uw = true → t.me.uw = true)) ∧
      (∀ n, n ≠ s.focus → t.coreOf n = s.coreOf n) ∧ (∀ j, j ≠ s.here.run → t.here.ctx j = s.here.ctx j) ∧
      t = { s with cores := t.cores } ∧ t.here = { s.here with ctxs := t.here.ctxs }

/-- Log 5: the module's, the host's and the peers' memories keep their canonical form in every step, so that equal memories are
equal data. -/
def Obligations.StepKeepsMemoryCanonical : Prop := ∀ (s t : State), s.memWf → step s = .next t → t.memWf

/-- Log 5: the local stores and the B stores of the cores keep their canonical form in every step, in the saved state of a
switched or killed household too. -/
def Obligations.StepKeepsCoreMemoriesCanonical : Prop := ∀ (s t : State), s.coresMemWf → step s = .next t → t.coresMemWf
end

