-- ==== Sys2Proof/Laws/State.lean ====
section
/-! SUPPORT. The named updates of State: what each leaves alone, field by field, and what it sets; tables and contexts. -/
set_option Elab.async false
namespace Sys2Proof.Machine

/-! ### Tables -/

@[simp] theorem tfind_tput_same {α : Type} (t : Table α) (k : Nat) (v : α) : tfind (tput t k v) k = some v := by
  induction t with
  | nil => simp [tput, tfind]
  | cons p t ih =>
    obtain ⟨k', v'⟩ := p
    unfold tput
    split
    · simp [tfind]
    · split
      · simp [tfind]
      · simp [tfind, *]
theorem tfind_tput_ne {α : Type} (t : Table α) {k n : Nat} (v : α) (h : n ≠ k) : tfind (tput t k v) n = tfind t n := by
  induction t with
  | nil => simp [tput, tfind, Ne.symm h]
  | cons p t ih =>
    obtain ⟨k', v'⟩ := p
    unfold tput
    split
    · subst k'
      simp [tfind, Ne.symm h]
    · split
      · simp [tfind, Ne.symm h]
      · simp only [tfind]
        split
        · rfl
        · exact ih
@[simp] theorem tget_tput_same {α : Type} (t : Table α) (d : α) (k : Nat) (v : α) : tget (tput t k v) d k = v := by simp [tget]
theorem tget_tput_ne {α : Type} (t : Table α) (d : α) {k n : Nat} (v : α) (h : n ≠ k) : tget (tput t k v) d n = tget t d n := by
  simp [tget, tfind_tput_ne t v h]

/-! ### What each update sets -/

@[simp] theorem State.coreOf_setCore (s : State) (c : Nat) (x : CoreSt) : (s.setCore c x).coreOf c = x := tget_tput_same _ _ _ _
theorem State.coreOf_setCore_ne (s : State) {c n : Nat} (x : CoreSt) (h : n ≠ c) : (s.setCore c x).coreOf n = s.coreOf n :=
  tget_tput_ne _ _ _ h
@[simp] theorem State.coreOf_onCore (s : State) (c : Nat) (f : CoreSt → CoreSt) : (s.onCore c f).coreOf c = f (s.coreOf c) :=
  tget_tput_same _ _ _ _
theorem State.coreOf_onCore_ne (s : State) {c n : Nat} (f : CoreSt → CoreSt) (h : n ≠ c) : (s.onCore c f).coreOf n = s.coreOf n :=
  tget_tput_ne _ _ _ h
@[simp] theorem State.here_onHere (s : State) (f : CoreSt → CoreSt) : (s.onHere f).here = f s.here := tget_tput_same _ _ _ _
@[simp] theorem CoreSt.ctx_setCtx (x : CoreSt) {i : Nat} (c : Ctx) (h : i < 11) : (x.setCtx i c).ctx i = c := by
  simp [CoreSt.ctx, CoreSt.setCtx, h]
theorem CoreSt.ctx_setCtx_ne (x : CoreSt) {i n : Nat} (c : Ctx) (h : n ≠ i) : (x.setCtx i c).ctx n = x.ctx n := by
  simp [CoreSt.ctx, CoreSt.setCtx, Vector.getElem?_setIfInBounds, Ne.symm h]
@[simp] theorem CoreSt.setCtx_run (x : CoreSt) (i : Nat) (c : Ctx) : (x.setCtx i c).run = x.run := rfl
@[simp] theorem State.here_onMe (s : State) (f : Ctx → Ctx) : (s.onMe f).here = s.here.setCtx s.here.run (f s.me) := tget_tput_same _ _ _ _
theorem State.me_onMe (s : State) (f : Ctx → Ctx) (h : s.here.run < 11) : (s.onMe f).me = f s.me := by
  change (s.onMe f).here.ctx (s.onMe f).here.run = _
  rw [State.here_onMe, CoreSt.setCtx_run, CoreSt.ctx_setCtx _ _ h]
@[simp] theorem State.clusterAt_onCluster (s : State) (c : Nat) (f : Cluster → Cluster) :
    (s.onCluster c f).clusterAt c = f (s.clusterAt c) := tget_tput_same _ _ _ _
@[simp] theorem State.household_onHousehold (s : State) (h : Nat) (f : Household → Household) :
    (s.onHousehold h f).household h = f (s.household h) := tget_tput_same _ _ _ _
@[simp] theorem State.queue_onQueue (s : State) (q : Nat) (f : QueueSt → QueueSt) : (s.onQueue q f).queue q = f (s.queue q) :=
  tget_tput_same _ _ _ _
@[simp] theorem State.dieAt_onDie (s : State) (d : Nat) (f : Die → Die) : (s.onDie d f).dieAt d = f (s.dieAt d) :=
  tget_tput_same _ _ _ _
@[simp] theorem State.later_due (s : State) (g : Nat) (e : DueEv) : (s.later g e).due = s.due ++ [Due.mk g e] := rfl
@[simp] theorem State.next_agenda (s : State) (e : Event) : (s.next e).agenda = s.agenda ++ [e] := rfl

/-! ### What each update leaves alone -/

@[simp] theorem State.setCore_gts (s : State) (c : Nat) (x : CoreSt) : (s.setCore c x).gts = s.gts := rfl
@[simp] theorem State.setCore_begun (s : State) (c : Nat) (x : CoreSt) : (s.setCore c x).begun = s.begun := rfl
@[simp] theorem State.setCore_focus (s : State) (c : Nat) (x : CoreSt) : (s.setCore c x).focus = s.focus := rfl
@[simp] theorem State.setCore_turn (s : State) (c : Nat) (x : CoreSt) : (s.setCore c x).turn = s.turn := rfl
@[simp] theorem State.setCore_agenda (s : State) (c : Nat) (x : CoreSt) : (s.setCore c x).agenda = s.agenda := rfl
@[simp] theorem State.setCore_due (s : State) (c : Nat) (x : CoreSt) : (s.setCore c x).due = s.due := rfl
@[simp] theorem State.setCore_bag (s : State) (c : Nat) (x : CoreSt) : (s.setCore c x).bag = s.bag := rfl
@[simp] theorem State.setCore_ctr (s : State) (c : Nat) (x : CoreSt) : (s.setCore c x).ctr = s.ctr := rfl
@[simp] theorem State.setCore_latch (s : State) (c : Nat) (x : CoreSt) : (s.setCore c x).latch = s.latch := rfl
@[simp] theorem State.setCore_pa (s : State) (c : Nat) (x : CoreSt) : (s.setCore c x).pa = s.pa := rfl
@[simp] theorem State.setCore_host (s : State) (c : Nat) (x : CoreSt) : (s.setCore c x).host = s.host := rfl
@[simp] theorem State.setCore_peer (s : State) (c : Nat) (x : CoreSt) : (s.setCore c x).peer = s.peer := rfl
@[simp] theorem State.setCore_order (s : State) (c : Nat) (x : CoreSt) : (s.setCore c x).order = s.order := rfl
@[simp] theorem State.setCore_pub (s : State) (c : Nat) (x : CoreSt) : (s.setCore c x).pub = s.pub := rfl
@[simp] theorem State.setCore_clusters (s : State) (c : Nat) (x : CoreSt) : (s.setCore c x).clusters = s.clusters := rfl
@[simp] theorem State.setCore_doms (s : State) (c : Nat) (x : CoreSt) : (s.setCore c x).doms = s.doms := rfl
@[simp] theorem State.setCore_households (s : State) (c : Nat) (x : CoreSt) : (s.setCore c x).households = s.households := rfl
@[simp] theorem State.setCore_ops (s : State) (c : Nat) (x : CoreSt) : (s.setCore c x).ops = s.ops := rfl
@[simp] theorem State.setCore_colls (s : State) (c : Nat) (x : CoreSt) : (s.setCore c x).colls = s.colls := rfl
@[simp] theorem State.setCore_queues (s : State) (c : Nat) (x : CoreSt) : (s.setCore c x).queues = s.queues := rfl
@[simp] theorem State.setCore_peats (s : State) (c : Nat) (x : CoreSt) : (s.setCore c x).peats = s.peats := rfl
@[simp] theorem State.setCore_mounts (s : State) (c : Nat) (x : CoreSt) : (s.setCore c x).mounts = s.mounts := rfl
@[simp] theorem State.setCore_tlb (s : State) (c : Nat) (x : CoreSt) : (s.setCore c x).tlb = s.tlb := rfl
@[simp] theorem State.setCore_links (s : State) (c : Nat) (x : CoreSt) : (s.setCore c x).links = s.links := rfl
@[simp] theorem State.setCore_hbmStacks (s : State) (c : Nat) (x : CoreSt) : (s.setCore c x).hbmStacks = s.hbmStacks := rfl
@[simp] theorem State.setCore_banks (s : State) (c : Nat) (x : CoreSt) : (s.setCore c x).banks = s.banks := rfl
@[simp] theorem State.setCore_dies (s : State) (c : Nat) (x : CoreSt) : (s.setCore c x).dies = s.dies := rfl
@[simp] theorem State.setCore_porch (s : State) (c : Nat) (x : CoreSt) : (s.setCore c x).porch = s.porch := rfl
@[simp] theorem State.setCore_removed (s : State) (c : Nat) (x : CoreSt) : (s.setCore c x).removed = s.removed := rfl
@[simp] theorem State.setCore_poison (s : State) (c : Nat) (x : CoreSt) : (s.setCore c x).poison = s.poison := rfl
@[simp] theorem State.setCore_errors (s : State) (c : Nat) (x : CoreSt) : (s.setCore c x).errors = s.errors := rfl
@[simp] theorem State.setCore_dieErrors (s : State) (c : Nat) (x : CoreSt) : (s.setCore c x).dieErrors = s.dieErrors := rfl
@[simp] theorem State.setCore_sramErrors (s : State) (c : Nat) (x : CoreSt) : (s.setCore c x).sramErrors = s.sramErrors := rfl
@[simp] theorem State.setCore_remap (s : State) (c : Nat) (x : CoreSt) : (s.setCore c x).remap = s.remap := rfl
@[simp] theorem State.setCore_copying (s : State) (c : Nat) (x : CoreSt) : (s.setCore c x).copying = s.copying := rfl
@[simp] theorem State.setCore_peerPages (s : State) (c : Nat) (x : CoreSt) : (s.setCore c x).peerPages = s.peerPages := rfl
@[simp] theorem State.setCore_cabling (s : State) (c : Nat) (x : CoreSt) : (s.setCore c x).cabling = s.cabling := rfl
@[simp] theorem State.setCore_peerDenied (s : State) (c : Nat) (x : CoreSt) : (s.setCore c x).peerDenied = s.peerDenied := rfl
@[simp] theorem State.setCore_hostAbsent (s : State) (c : Nat) (x : CoreSt) : (s.setCore c x).hostAbsent = s.hostAbsent := rfl
@[simp] theorem State.setCore_failed (s : State) (c : Nat) (x : CoreSt) : (s.setCore c x).failed = s.failed := rfl
@[simp] theorem State.onCore_gts (s : State) (c : Nat) (f : CoreSt → CoreSt) : (s.onCore c f).gts = s.gts := rfl
@[simp] theorem State.onCore_begun (s : State) (c : Nat) (f : CoreSt → CoreSt) : (s.onCore c f).begun = s.begun := rfl
@[simp] theorem State.onCore_focus (s : State) (c : Nat) (f : CoreSt → CoreSt) : (s.onCore c f).focus = s.focus := rfl
@[simp] theorem State.onCore_turn (s : State) (c : Nat) (f : CoreSt → CoreSt) : (s.onCore c f).turn = s.turn := rfl
@[simp] theorem State.onCore_agenda (s : State) (c : Nat) (f : CoreSt → CoreSt) : (s.onCore c f).agenda = s.agenda := rfl
@[simp] theorem State.onCore_due (s : State) (c : Nat) (f : CoreSt → CoreSt) : (s.onCore c f).due = s.due := rfl
@[simp] theorem State.onCore_bag (s : State) (c : Nat) (f : CoreSt → CoreSt) : (s.onCore c f).bag = s.bag := rfl
@[simp] theorem State.onCore_ctr (s : State) (c : Nat) (f : CoreSt → CoreSt) : (s.onCore c f).ctr = s.ctr := rfl
@[simp] theorem State.onCore_latch (s : State) (c : Nat) (f : CoreSt → CoreSt) : (s.onCore c f).latch = s.latch := rfl
@[simp] theorem State.onCore_pa (s : State) (c : Nat) (f : CoreSt → CoreSt) : (s.onCore c f).pa = s.pa := rfl
@[simp] theorem State.onCore_host (s : State) (c : Nat) (f : CoreSt → CoreSt) : (s.onCore c f).host = s.host := rfl
@[simp] theorem State.onCore_peer (s : State) (c : Nat) (f : CoreSt → CoreSt) : (s.onCore c f).peer = s.peer := rfl
@[simp] theorem State.onCore_order (s : State) (c : Nat) (f : CoreSt → CoreSt) : (s.onCore c f).order = s.order := rfl
@[simp] theorem State.onCore_pub (s : State) (c : Nat) (f : CoreSt → CoreSt) : (s.onCore c f).pub = s.pub := rfl
@[simp] theorem State.onCore_clusters (s : State) (c : Nat) (f : CoreSt → CoreSt) : (s.onCore c f).clusters = s.clusters := rfl
@[simp] theorem State.onCore_doms (s : State) (c : Nat) (f : CoreSt → CoreSt) : (s.onCore c f).doms = s.doms := rfl
@[simp] theorem State.onCore_households (s : State) (c : Nat) (f : CoreSt → CoreSt) : (s.onCore c f).households = s.households := rfl
@[simp] theorem State.onCore_ops (s : State) (c : Nat) (f : CoreSt → CoreSt) : (s.onCore c f).ops = s.ops := rfl
@[simp] theorem State.onCore_colls (s : State) (c : Nat) (f : CoreSt → CoreSt) : (s.onCore c f).colls = s.colls := rfl
@[simp] theorem State.onCore_queues (s : State) (c : Nat) (f : CoreSt → CoreSt) : (s.onCore c f).queues = s.queues := rfl
@[simp] theorem State.onCore_peats (s : State) (c : Nat) (f : CoreSt → CoreSt) : (s.onCore c f).peats = s.peats := rfl
@[simp] theorem State.onCore_mounts (s : State) (c : Nat) (f : CoreSt → CoreSt) : (s.onCore c f).mounts = s.mounts := rfl
@[simp] theorem State.onCore_tlb (s : State) (c : Nat) (f : CoreSt → CoreSt) : (s.onCore c f).tlb = s.tlb := rfl
@[simp] theorem State.onCore_links (s : State) (c : Nat) (f : CoreSt → CoreSt) : (s.onCore c f).links = s.links := rfl
@[simp] theorem State.onCore_hbmStacks (s : State) (c : Nat) (f : CoreSt → CoreSt) : (s.onCore c f).hbmStacks = s.hbmStacks := rfl
@[simp] theorem State.onCore_banks (s : State) (c : Nat) (f : CoreSt → CoreSt) : (s.onCore c f).banks = s.banks := rfl
@[simp] theorem State.onCore_dies (s : State) (c : Nat) (f : CoreSt → CoreSt) : (s.onCore c f).dies = s.dies := rfl
@[simp] theorem State.onCore_porch (s : State) (c : Nat) (f : CoreSt → CoreSt) : (s.onCore c f).porch = s.porch := rfl
@[simp] theorem State.onCore_removed (s : State) (c : Nat) (f : CoreSt → CoreSt) : (s.onCore c f).removed = s.removed := rfl
@[simp] theorem State.onCore_poison (s : State) (c : Nat) (f : CoreSt → CoreSt) : (s.onCore c f).poison = s.poison := rfl
@[simp] theorem State.onCore_errors (s : State) (c : Nat) (f : CoreSt → CoreSt) : (s.onCore c f).errors = s.errors := rfl
@[simp] theorem State.onCore_dieErrors (s : State) (c : Nat) (f : CoreSt → CoreSt) : (s.onCore c f).dieErrors = s.dieErrors := rfl
@[simp] theorem State.onCore_sramErrors (s : State) (c : Nat) (f : CoreSt → CoreSt) : (s.onCore c f).sramErrors = s.sramErrors := rfl
@[simp] theorem State.onCore_remap (s : State) (c : Nat) (f : CoreSt → CoreSt) : (s.onCore c f).remap = s.remap := rfl
@[simp] theorem State.onCore_copying (s : State) (c : Nat) (f : CoreSt → CoreSt) : (s.onCore c f).copying = s.copying := rfl
@[simp] theorem State.onCore_peerPages (s : State) (c : Nat) (f : CoreSt → CoreSt) : (s.onCore c f).peerPages = s.peerPages := rfl
@[simp] theorem State.onCore_cabling (s : State) (c : Nat) (f : CoreSt → CoreSt) : (s.onCore c f).cabling = s.cabling := rfl
@[simp] theorem State.onCore_peerDenied (s : State) (c : Nat) (f : CoreSt → CoreSt) : (s.onCore c f).peerDenied = s.peerDenied := rfl
@[simp] theorem State.onCore_hostAbsent (s : State) (c : Nat) (f : CoreSt → CoreSt) : (s.onCore c f).hostAbsent = s.hostAbsent := rfl
@[simp] theorem State.onCore_failed (s : State) (c : Nat) (f : CoreSt → CoreSt) : (s.onCore c f).failed = s.failed := rfl
@[simp] theorem State.setCtx_gts (s : State) (c i : Nat) (x : Ctx) : (s.setCtx c i x).gts = s.gts := rfl
@[simp] theorem State.setCtx_begun (s : State) (c i : Nat) (x : Ctx) : (s.setCtx c i x).begun = s.begun := rfl
@[simp] theorem State.setCtx_focus (s : State) (c i : Nat) (x : Ctx) : (s.setCtx c i x).focus = s.focus := rfl
@[simp] theorem State.setCtx_turn (s : State) (c i : Nat) (x : Ctx) : (s.setCtx c i x).turn = s.turn := rfl
@[simp] theorem State.setCtx_agenda (s : State) (c i : Nat) (x : Ctx) : (s.setCtx c i x).agenda = s.agenda := rfl
@[simp] theorem State.setCtx_due (s : State) (c i : Nat) (x : Ctx) : (s.setCtx c i x).due = s.due := rfl
@[simp] theorem State.setCtx_bag (s : State) (c i : Nat) (x : Ctx) : (s.setCtx c i x).bag = s.bag := rfl
@[simp] theorem State.setCtx_ctr (s : State) (c i : Nat) (x : Ctx) : (s.setCtx c i x).ctr = s.ctr := rfl
@[simp] theorem State.setCtx_latch (s : State) (c i : Nat) (x : Ctx) : (s.setCtx c i x).latch = s.latch := rfl
@[simp] theorem State.setCtx_pa (s : State) (c i : Nat) (x : Ctx) : (s.setCtx c i x).pa = s.pa := rfl
@[simp] theorem State.setCtx_host (s : State) (c i : Nat) (x : Ctx) : (s.setCtx c i x).host = s.host := rfl
@[simp] theorem State.setCtx_peer (s : State) (c i : Nat) (x : Ctx) : (s.setCtx c i x).peer = s.peer := rfl
@[simp] theorem State.setCtx_order (s : State) (c i : Nat) (x : Ctx) : (s.setCtx c i x).order = s.order := rfl
@[simp] theorem State.setCtx_pub (s : State) (c i : Nat) (x : Ctx) : (s.setCtx c i x).pub = s.pub := rfl
@[simp] theorem State.setCtx_clusters (s : State) (c i : Nat) (x : Ctx) : (s.setCtx c i x).clusters = s.clusters := rfl
@[simp] theorem State.setCtx_doms (s : State) (c i : Nat) (x : Ctx) : (s.setCtx c i x).doms = s.doms := rfl
@[simp] theorem State.setCtx_households (s : State) (c i : Nat) (x : Ctx) : (s.setCtx c i x).households = s.households := rfl
@[simp] theorem State.setCtx_ops (s : State) (c i : Nat) (x : Ctx) : (s.setCtx c i x).ops = s.ops := rfl
@[simp] theorem State.setCtx_colls (s : State) (c i : Nat) (x : Ctx) : (s.setCtx c i x).colls = s.colls := rfl
@[simp] theorem State.setCtx_queues (s : State) (c i : Nat) (x : Ctx) : (s.setCtx c i x).queues = s.queues := rfl
@[simp] theorem State.setCtx_peats (s : State) (c i : Nat) (x : Ctx) : (s.setCtx c i x).peats = s.peats := rfl
@[simp] theorem State.setCtx_mounts (s : State) (c i : Nat) (x : Ctx) : (s.setCtx c i x).mounts = s.mounts := rfl
@[simp] theorem State.setCtx_tlb (s : State) (c i : Nat) (x : Ctx) : (s.setCtx c i x).tlb = s.tlb := rfl
@[simp] theorem State.setCtx_links (s : State) (c i : Nat) (x : Ctx) : (s.setCtx c i x).links = s.links := rfl
@[simp] theorem State.setCtx_hbmStacks (s : State) (c i : Nat) (x : Ctx) : (s.setCtx c i x).hbmStacks = s.hbmStacks := rfl
@[simp] theorem State.setCtx_banks (s : State) (c i : Nat) (x : Ctx) : (s.setCtx c i x).banks = s.banks := rfl
@[simp] theorem State.setCtx_dies (s : State) (c i : Nat) (x : Ctx) : (s.setCtx c i x).dies = s.dies := rfl
@[simp] theorem State.setCtx_porch (s : State) (c i : Nat) (x : Ctx) : (s.setCtx c i x).porch = s.porch := rfl
@[simp] theorem State.setCtx_removed (s : State) (c i : Nat) (x : Ctx) : (s.setCtx c i x).removed = s.removed := rfl
@[simp] theorem State.setCtx_poison (s : State) (c i : Nat) (x : Ctx) : (s.setCtx c i x).poison = s.poison := rfl
@[simp] theorem State.setCtx_errors (s : State) (c i : Nat) (x : Ctx) : (s.setCtx c i x).errors = s.errors := rfl
@[simp] theorem State.setCtx_dieErrors (s : State) (c i : Nat) (x : Ctx) : (s.setCtx c i x).dieErrors = s.dieErrors := rfl
@[simp] theorem State.setCtx_sramErrors (s : State) (c i : Nat) (x : Ctx) : (s.setCtx c i x).sramErrors = s.sramErrors := rfl
@[simp] theorem State.setCtx_remap (s : State) (c i : Nat) (x : Ctx) : (s.setCtx c i x).remap = s.remap := rfl
@[simp] theorem State.setCtx_copying (s : State) (c i : Nat) (x : Ctx) : (s.setCtx c i x).copying = s.copying := rfl
@[simp] theorem State.setCtx_peerPages (s : State) (c i : Nat) (x : Ctx) : (s.setCtx c i x).peerPages = s.peerPages := rfl
@[simp] theorem State.setCtx_cabling (s : State) (c i : Nat) (x : Ctx) : (s.setCtx c i x).cabling = s.cabling := rfl
@[simp] theorem State.setCtx_peerDenied (s : State) (c i : Nat) (x : Ctx) : (s.setCtx c i x).peerDenied = s.peerDenied := rfl
@[simp] theorem State.setCtx_hostAbsent (s : State) (c i : Nat) (x : Ctx) : (s.setCtx c i x).hostAbsent = s.hostAbsent := rfl
@[simp] theorem State.setCtx_failed (s : State) (c i : Nat) (x : Ctx) : (s.setCtx c i x).failed = s.failed := rfl
@[simp] theorem State.onCtx_gts (s : State) (c i : Nat) (f : Ctx → Ctx) : (s.onCtx c i f).gts = s.gts := rfl
@[simp] theorem State.onCtx_begun (s : State) (c i : Nat) (f : Ctx → Ctx) : (s.onCtx c i f).begun = s.begun := rfl
@[simp] theorem State.onCtx_focus (s : State) (c i : Nat) (f : Ctx → Ctx) : (s.onCtx c i f).focus = s.focus := rfl
@[simp] theorem State.onCtx_turn (s : State) (c i : Nat) (f : Ctx → Ctx) : (s.onCtx c i f).turn = s.turn := rfl
@[simp] theorem State.onCtx_agenda (s : State) (c i : Nat) (f : Ctx → Ctx) : (s.onCtx c i f).agenda = s.agenda := rfl
@[simp] theorem State.onCtx_due (s : State) (c i : Nat) (f : Ctx → Ctx) : (s.onCtx c i f).due = s.due := rfl
@[simp] theorem State.onCtx_bag (s : State) (c i : Nat) (f : Ctx → Ctx) : (s.onCtx c i f).bag = s.bag := rfl
@[simp] theorem State.onCtx_ctr (s : State) (c i : Nat) (f : Ctx → Ctx) : (s.onCtx c i f).ctr = s.ctr := rfl
@[simp] theorem State.onCtx_latch (s : State) (c i : Nat) (f : Ctx → Ctx) : (s.onCtx c i f).latch = s.latch := rfl
@[simp] theorem State.onCtx_pa (s : State) (c i : Nat) (f : Ctx → Ctx) : (s.onCtx c i f).pa = s.pa := rfl
@[simp] theorem State.onCtx_host (s : State) (c i : Nat) (f : Ctx → Ctx) : (s.onCtx c i f).host = s.host := rfl
@[simp] theorem State.onCtx_peer (s : State) (c i : Nat) (f : Ctx → Ctx) : (s.onCtx c i f).peer = s.peer := rfl
@[simp] theorem State.onCtx_order (s : State) (c i : Nat) (f : Ctx → Ctx) : (s.onCtx c i f).order = s.order := rfl
@[simp] theorem State.onCtx_pub (s : State) (c i : Nat) (f : Ctx → Ctx) : (s.onCtx c i f).pub = s.pub := rfl
@[simp] theorem State.onCtx_clusters (s : State) (c i : Nat) (f : Ctx → Ctx) : (s.onCtx c i f).clusters = s.clusters := rfl
@[simp] theorem State.onCtx_doms (s : State) (c i : Nat) (f : Ctx → Ctx) : (s.onCtx c i f).doms = s.doms := rfl
@[simp] theorem State.onCtx_households (s : State) (c i : Nat) (f : Ctx → Ctx) : (s.onCtx c i f).households = s.households := rfl
@[simp] theorem State.onCtx_ops (s : State) (c i : Nat) (f : Ctx → Ctx) : (s.onCtx c i f).ops = s.ops := rfl
@[simp] theorem State.onCtx_colls (s : State) (c i : Nat) (f : Ctx → Ctx) : (s.onCtx c i f).colls = s.colls := rfl
@[simp] theorem State.onCtx_queues (s : State) (c i : Nat) (f : Ctx → Ctx) : (s.onCtx c i f).queues = s.queues := rfl
@[simp] theorem State.onCtx_peats (s : State) (c i : Nat) (f : Ctx → Ctx) : (s.onCtx c i f).peats = s.peats := rfl
@[simp] theorem State.onCtx_mounts (s : State) (c i : Nat) (f : Ctx → Ctx) : (s.onCtx c i f).mounts = s.mounts := rfl
@[simp] theorem State.onCtx_tlb (s : State) (c i : Nat) (f : Ctx → Ctx) : (s.onCtx c i f).tlb = s.tlb := rfl
@[simp] theorem State.onCtx_links (s : State) (c i : Nat) (f : Ctx → Ctx) : (s.onCtx c i f).links = s.links := rfl
@[simp] theorem State.onCtx_hbmStacks (s : State) (c i : Nat) (f : Ctx → Ctx) : (s.onCtx c i f).hbmStacks = s.hbmStacks := rfl
@[simp] theorem State.onCtx_banks (s : State) (c i : Nat) (f : Ctx → Ctx) : (s.onCtx c i f).banks = s.banks := rfl
@[simp] theorem State.onCtx_dies (s : State) (c i : Nat) (f : Ctx → Ctx) : (s.onCtx c i f).dies = s.dies := rfl
@[simp] theorem State.onCtx_porch (s : State) (c i : Nat) (f : Ctx → Ctx) : (s.onCtx c i f).porch = s.porch := rfl
@[simp] theorem State.onCtx_removed (s : State) (c i : Nat) (f : Ctx → Ctx) : (s.onCtx c i f).removed = s.removed := rfl
@[simp] theorem State.onCtx_poison (s : State) (c i : Nat) (f : Ctx → Ctx) : (s.onCtx c i f).poison = s.poison := rfl
@[simp] theorem State.onCtx_errors (s : State) (c i : Nat) (f : Ctx → Ctx) : (s.onCtx c i f).errors = s.errors := rfl
@[simp] theorem State.onCtx_dieErrors (s : State) (c i : Nat) (f : Ctx → Ctx) : (s.onCtx c i f).dieErrors = s.dieErrors := rfl
@[simp] theorem State.onCtx_sramErrors (s : State) (c i : Nat) (f : Ctx → Ctx) : (s.onCtx c i f).sramErrors = s.sramErrors := rfl
@[simp] theorem State.onCtx_remap (s : State) (c i : Nat) (f : Ctx → Ctx) : (s.onCtx c i f).remap = s.remap := rfl
@[simp] theorem State.onCtx_copying (s : State) (c i : Nat) (f : Ctx → Ctx) : (s.onCtx c i f).copying = s.copying := rfl
@[simp] theorem State.onCtx_peerPages (s : State) (c i : Nat) (f : Ctx → Ctx) : (s.onCtx c i f).peerPages = s.peerPages := rfl
@[simp] theorem State.onCtx_cabling (s : State) (c i : Nat) (f : Ctx → Ctx) : (s.onCtx c i f).cabling = s.cabling := rfl
@[simp] theorem State.onCtx_peerDenied (s : State) (c i : Nat) (f : Ctx → Ctx) : (s.onCtx c i f).peerDenied = s.peerDenied := rfl
@[simp] theorem State.onCtx_hostAbsent (s : State) (c i : Nat) (f : Ctx → Ctx) : (s.onCtx c i f).hostAbsent = s.hostAbsent := rfl
@[simp] theorem State.onCtx_failed (s : State) (c i : Nat) (f : Ctx → Ctx) : (s.onCtx c i f).failed = s.failed := rfl
@[simp] theorem State.onHere_gts (s : State) (f : CoreSt → CoreSt) : (s.onHere f).gts = s.gts := rfl
@[simp] theorem State.onHere_begun (s : State) (f : CoreSt → CoreSt) : (s.onHere f).begun = s.begun := rfl
@[simp] theorem State.onHere_focus (s : State) (f : CoreSt → CoreSt) : (s.onHere f).focus = s.focus := rfl
@[simp] theorem State.onHere_turn (s : State) (f : CoreSt → CoreSt) : (s.onHere f).turn = s.turn := rfl
@[simp] theorem State.onHere_agenda (s : State) (f : CoreSt → CoreSt) : (s.onHere f).agenda = s.agenda := rfl
@[simp] theorem State.onHere_due (s : State) (f : CoreSt → CoreSt) : (s.onHere f).due = s.due := rfl
@[simp] theorem State.onHere_bag (s : State) (f : CoreSt → CoreSt) : (s.onHere f).bag = s.bag := rfl
@[simp] theorem State.onHere_ctr (s : State) (f : CoreSt → CoreSt) : (s.onHere f).ctr = s.ctr := rfl
@[simp] theorem State.onHere_latch (s : State) (f : CoreSt → CoreSt) : (s.onHere f).latch = s.latch := rfl
@[simp] theorem State.onHere_pa (s : State) (f : CoreSt → CoreSt) : (s.onHere f).pa = s.pa := rfl
@[simp] theorem State.onHere_host (s : State) (f : CoreSt → CoreSt) : (s.onHere f).host = s.host := rfl
@[simp] theorem State.onHere_peer (s : State) (f : CoreSt → CoreSt) : (s.onHere f).peer = s.peer := rfl
@[simp] theorem State.onHere_order (s : State) (f : CoreSt → CoreSt) : (s.onHere f).order = s.order := rfl
@[simp] theorem State.onHere_pub (s : State) (f : CoreSt → CoreSt) : (s.onHere f).pub = s.pub := rfl
@[simp] theorem State.onHere_clusters (s : State) (f : CoreSt → CoreSt) : (s.onHere f).clusters = s.clusters := rfl
@[simp] theorem State.onHere_doms (s : State) (f : CoreSt → CoreSt) : (s.onHere f).doms = s.doms := rfl
@[simp] theorem State.onHere_households (s : State) (f : CoreSt → CoreSt) : (s.onHere f).households = s.households := rfl
@[simp] theorem State.onHere_ops (s : State) (f : CoreSt → CoreSt) : (s.onHere f).ops = s.ops := rfl
@[simp] theorem State.onHere_colls (s : State) (f : CoreSt → CoreSt) : (s.onHere f).colls = s.colls := rfl
@[simp] theorem State.onHere_queues (s : State) (f : CoreSt → CoreSt) : (s.onHere f).queues = s.queues := rfl
@[simp] theorem State.onHere_peats (s : State) (f : CoreSt → CoreSt) : (s.onHere f).peats = s.peats := rfl
@[simp] theorem State.onHere_mounts (s : State) (f : CoreSt → CoreSt) : (s.onHere f).mounts = s.mounts := rfl
@[simp] theorem State.onHere_tlb (s : State) (f : CoreSt → CoreSt) : (s.onHere f).tlb = s.tlb := rfl
@[simp] theorem State.onHere_links (s : State) (f : CoreSt → CoreSt) : (s.onHere f).links = s.links := rfl
@[simp] theorem State.onHere_hbmStacks (s : State) (f : CoreSt → CoreSt) : (s.onHere f).hbmStacks = s.hbmStacks := rfl
@[simp] theorem State.onHere_banks (s : State) (f : CoreSt → CoreSt) : (s.onHere f).banks = s.banks := rfl
@[simp] theorem State.onHere_dies (s : State) (f : CoreSt → CoreSt) : (s.onHere f).dies = s.dies := rfl
@[simp] theorem State.onHere_porch (s : State) (f : CoreSt → CoreSt) : (s.onHere f).porch = s.porch := rfl
@[simp] theorem State.onHere_removed (s : State) (f : CoreSt → CoreSt) : (s.onHere f).removed = s.removed := rfl
@[simp] theorem State.onHere_poison (s : State) (f : CoreSt → CoreSt) : (s.onHere f).poison = s.poison := rfl
@[simp] theorem State.onHere_errors (s : State) (f : CoreSt → CoreSt) : (s.onHere f).errors = s.errors := rfl
@[simp] theorem State.onHere_dieErrors (s : State) (f : CoreSt → CoreSt) : (s.onHere f).dieErrors = s.dieErrors := rfl
@[simp] theorem State.onHere_sramErrors (s : State) (f : CoreSt → CoreSt) : (s.onHere f).sramErrors = s.sramErrors := rfl
@[simp] theorem State.onHere_remap (s : State) (f : CoreSt → CoreSt) : (s.onHere f).remap = s.remap := rfl
@[simp] theorem State.onHere_copying (s : State) (f : CoreSt → CoreSt) : (s.onHere f).copying = s.copying := rfl
@[simp] theorem State.onHere_peerPages (s : State) (f : CoreSt → CoreSt) : (s.onHere f).peerPages = s.peerPages := rfl
@[simp] theorem State.onHere_cabling (s : State) (f : CoreSt → CoreSt) : (s.onHere f).cabling = s.cabling := rfl
@[simp] theorem State.onHere_peerDenied (s : State) (f : CoreSt → CoreSt) : (s.onHere f).peerDenied = s.peerDenied := rfl
@[simp] theorem State.onHere_hostAbsent (s : State) (f : CoreSt → CoreSt) : (s.onHere f).hostAbsent = s.hostAbsent := rfl
@[simp] theorem State.onHere_failed (s : State) (f : CoreSt → CoreSt) : (s.onHere f).failed = s.failed := rfl
@[simp] theorem State.onMe_gts (s : State) (f : Ctx → Ctx) : (s.onMe f).gts = s.gts := rfl
@[simp] theorem State.onMe_begun (s : State) (f : Ctx → Ctx) : (s.onMe f).begun = s.begun := rfl
@[simp] theorem State.onMe_focus (s : State) (f : Ctx → Ctx) : (s.onMe f).focus = s.focus := rfl
@[simp] theorem State.onMe_turn (s : State) (f : Ctx → Ctx) : (s.onMe f).turn = s.turn := rfl
@[simp] theorem State.onMe_agenda (s : State) (f : Ctx → Ctx) : (s.onMe f).agenda = s.agenda := rfl
@[simp] theorem State.onMe_due (s : State) (f : Ctx → Ctx) : (s.onMe f).due = s.due := rfl
@[simp] theorem State.onMe_bag (s : State) (f : Ctx → Ctx) : (s.onMe f).bag = s.bag := rfl
@[simp] theorem State.onMe_ctr (s : State) (f : Ctx → Ctx) : (s.onMe f).ctr = s.ctr := rfl
@[simp] theorem State.onMe_latch (s : State) (f : Ctx → Ctx) : (s.onMe f).latch = s.latch := rfl
@[simp] theorem State.onMe_pa (s : State) (f : Ctx → Ctx) : (s.onMe f).pa = s.pa := rfl
@[simp] theorem State.onMe_host (s : State) (f : Ctx → Ctx) : (s.onMe f).host = s.host := rfl
@[simp] theorem State.onMe_peer (s : State) (f : Ctx → Ctx) : (s.onMe f).peer = s.peer := rfl
@[simp] theorem State.onMe_order (s : State) (f : Ctx → Ctx) : (s.onMe f).order = s.order := rfl
@[simp] theorem State.onMe_pub (s : State) (f : Ctx → Ctx) : (s.onMe f).pub = s.pub := rfl
@[simp] theorem State.onMe_clusters (s : State) (f : Ctx → Ctx) : (s.onMe f).clusters = s.clusters := rfl
@[simp] theorem State.onMe_doms (s : State) (f : Ctx → Ctx) : (s.onMe f).doms = s.doms := rfl
@[simp] theorem State.onMe_households (s : State) (f : Ctx → Ctx) : (s.onMe f).households = s.households := rfl
@[simp] theorem State.onMe_ops (s : State) (f : Ctx → Ctx) : (s.onMe f).ops = s.ops := rfl
@[simp] theorem State.onMe_colls (s : State) (f : Ctx → Ctx) : (s.onMe f).colls = s.colls := rfl
@[simp] theorem State.onMe_queues (s : State) (f : Ctx → Ctx) : (s.onMe f).queues = s.queues := rfl
@[simp] theorem State.onMe_peats (s : State) (f : Ctx → Ctx) : (s.onMe f).peats = s.peats := rfl
@[simp] theorem State.onMe_mounts (s : State) (f : Ctx → Ctx) : (s.onMe f).mounts = s.mounts := rfl
@[simp] theorem State.onMe_tlb (s : State) (f : Ctx → Ctx) : (s.onMe f).tlb = s.tlb := rfl
@[simp] theorem State.onMe_links (s : State) (f : Ctx → Ctx) : (s.onMe f).links = s.links := rfl
@[simp] theorem State.onMe_hbmStacks (s : State) (f : Ctx → Ctx) : (s.onMe f).hbmStacks = s.hbmStacks := rfl
@[simp] theorem State.onMe_banks (s : State) (f : Ctx → Ctx) : (s.onMe f).banks = s.banks := rfl
@[simp] theorem State.onMe_dies (s : State) (f : Ctx → Ctx) : (s.onMe f).dies = s.dies := rfl
@[simp] theorem State.onMe_porch (s : State) (f : Ctx → Ctx) : (s.onMe f).porch = s.porch := rfl
@[simp] theorem State.onMe_removed (s : State) (f : Ctx → Ctx) : (s.onMe f).removed = s.removed := rfl
@[simp] theorem State.onMe_poison (s : State) (f : Ctx → Ctx) : (s.onMe f).poison = s.poison := rfl
@[simp] theorem State.onMe_errors (s : State) (f : Ctx → Ctx) : (s.onMe f).errors = s.errors := rfl
@[simp] theorem State.onMe_dieErrors (s : State) (f : Ctx → Ctx) : (s.onMe f).dieErrors = s.dieErrors := rfl
@[simp] theorem State.onMe_sramErrors (s : State) (f : Ctx → Ctx) : (s.onMe f).sramErrors = s.sramErrors := rfl
@[simp] theorem State.onMe_remap (s : State) (f : Ctx → Ctx) : (s.onMe f).remap = s.remap := rfl
@[simp] theorem State.onMe_copying (s : State) (f : Ctx → Ctx) : (s.onMe f).copying = s.copying := rfl
@[simp] theorem State.onMe_peerPages (s : State) (f : Ctx → Ctx) : (s.onMe f).peerPages = s.peerPages := rfl
@[simp] theorem State.onMe_cabling (s : State) (f : Ctx → Ctx) : (s.onMe f).cabling = s.cabling := rfl
@[simp] theorem State.onMe_peerDenied (s : State) (f : Ctx → Ctx) : (s.onMe f).peerDenied = s.peerDenied := rfl
@[simp] theorem State.onMe_hostAbsent (s : State) (f : Ctx → Ctx) : (s.onMe f).hostAbsent = s.hostAbsent := rfl
@[simp] theorem State.onMe_failed (s : State) (f : Ctx → Ctx) : (s.onMe f).failed = s.failed := rfl
@[simp] theorem State.onCluster_gts (s : State) (c : Nat) (f : Cluster → Cluster) : (s.onCluster c f).gts = s.gts := rfl
@[simp] theorem State.onCluster_begun (s : State) (c : Nat) (f : Cluster → Cluster) : (s.onCluster c f).begun = s.begun := rfl
@[simp] theorem State.onCluster_focus (s : State) (c : Nat) (f : Cluster → Cluster) : (s.onCluster c f).focus = s.focus := rfl
@[simp] theorem State.onCluster_turn (s : State) (c : Nat) (f : Cluster → Cluster) : (s.onCluster c f).turn = s.turn := rfl
@[simp] theorem State.onCluster_agenda (s : State) (c : Nat) (f : Cluster → Cluster) : (s.onCluster c f).agenda = s.agenda := rfl
@[simp] theorem State.onCluster_due (s : State) (c : Nat) (f : Cluster → Cluster) : (s.onCluster c f).due = s.due := rfl
@[simp] theorem State.onCluster_bag (s : State) (c : Nat) (f : Cluster → Cluster) : (s.onCluster c f).bag = s.bag := rfl
@[simp] theorem State.onCluster_ctr (s : State) (c : Nat) (f : Cluster → Cluster) : (s.onCluster c f).ctr = s.ctr := rfl
@[simp] theorem State.onCluster_latch (s : State) (c : Nat) (f : Cluster → Cluster) : (s.onCluster c f).latch = s.latch := rfl
@[simp] theorem State.onCluster_pa (s : State) (c : Nat) (f : Cluster → Cluster) : (s.onCluster c f).pa = s.pa := rfl
@[simp] theorem State.onCluster_host (s : State) (c : Nat) (f : Cluster → Cluster) : (s.onCluster c f).host = s.host := rfl
@[simp] theorem State.onCluster_peer (s : State) (c : Nat) (f : Cluster → Cluster) : (s.onCluster c f).peer = s.peer := rfl
@[simp] theorem State.onCluster_order (s : State) (c : Nat) (f : Cluster → Cluster) : (s.onCluster c f).order = s.order := rfl
@[simp] theorem State.onCluster_pub (s : State) (c : Nat) (f : Cluster → Cluster) : (s.onCluster c f).pub = s.pub := rfl
@[simp] theorem State.onCluster_cores (s : State) (c : Nat) (f : Cluster → Cluster) : (s.onCluster c f).cores = s.cores := rfl
@[simp] theorem State.onCluster_doms (s : State) (c : Nat) (f : Cluster → Cluster) : (s.onCluster c f).doms = s.doms := rfl
@[simp] theorem State.onCluster_households (s : State) (c : Nat) (f : Cluster → Cluster) : (s.onCluster c f).households = s.households := rfl
@[simp] theorem State.onCluster_ops (s : State) (c : Nat) (f : Cluster → Cluster) : (s.onCluster c f).ops = s.ops := rfl
@[simp] theorem State.onCluster_colls (s : State) (c : Nat) (f : Cluster → Cluster) : (s.onCluster c f).colls = s.colls := rfl
@[simp] theorem State.onCluster_queues (s : State) (c : Nat) (f : Cluster → Cluster) : (s.onCluster c f).queues = s.queues := rfl
@[simp] theorem State.onCluster_peats (s : State) (c : Nat) (f : Cluster → Cluster) : (s.onCluster c f).peats = s.peats := rfl
@[simp] theorem State.onCluster_mounts (s : State) (c : Nat) (f : Cluster → Cluster) : (s.onCluster c f).mounts = s.mounts := rfl
@[simp] theorem State.onCluster_tlb (s : State) (c : Nat) (f : Cluster → Cluster) : (s.onCluster c f).tlb = s.tlb := rfl
@[simp] theorem State.onCluster_links (s : State) (c : Nat) (f : Cluster → Cluster) : (s.onCluster c f).links = s.links := rfl
@[simp] theorem State.onCluster_hbmStacks (s : State) (c : Nat) (f : Cluster → Cluster) : (s.onCluster c f).hbmStacks = s.hbmStacks := rfl
@[simp] theorem State.onCluster_banks (s : State) (c : Nat) (f : Cluster → Cluster) : (s.onCluster c f).banks = s.banks := rfl
@[simp] theorem State.onCluster_dies (s : State) (c : Nat) (f : Cluster → Cluster) : (s.onCluster c f).dies = s.dies := rfl
@[simp] theorem State.onCluster_porch (s : State) (c : Nat) (f : Cluster → Cluster) : (s.onCluster c f).porch = s.porch := rfl
@[simp] theorem State.onCluster_removed (s : State) (c : Nat) (f : Cluster → Cluster) : (s.onCluster c f).removed = s.removed := rfl
@[simp] theorem State.onCluster_poison (s : State) (c : Nat) (f : Cluster → Cluster) : (s.onCluster c f).poison = s.poison := rfl
@[simp] theorem State.onCluster_errors (s : State) (c : Nat) (f : Cluster → Cluster) : (s.onCluster c f).errors = s.errors := rfl
@[simp] theorem State.onCluster_dieErrors (s : State) (c : Nat) (f : Cluster → Cluster) : (s.onCluster c f).dieErrors = s.dieErrors := rfl
@[simp] theorem State.onCluster_sramErrors (s : State) (c : Nat) (f : Cluster → Cluster) : (s.onCluster c f).sramErrors = s.sramErrors := rfl
@[simp] theorem State.onCluster_remap (s : State) (c : Nat) (f : Cluster → Cluster) : (s.onCluster c f).remap = s.remap := rfl
@[simp] theorem State.onCluster_copying (s : State) (c : Nat) (f : Cluster → Cluster) : (s.onCluster c f).copying = s.copying := rfl
@[simp] theorem State.onCluster_peerPages (s : State) (c : Nat) (f : Cluster → Cluster) : (s.onCluster c f).peerPages = s.peerPages := rfl
@[simp] theorem State.onCluster_cabling (s : State) (c : Nat) (f : Cluster → Cluster) : (s.onCluster c f).cabling = s.cabling := rfl
@[simp] theorem State.onCluster_peerDenied (s : State) (c : Nat) (f : Cluster → Cluster) : (s.onCluster c f).peerDenied = s.peerDenied := rfl
@[simp] theorem State.onCluster_hostAbsent (s : State) (c : Nat) (f : Cluster → Cluster) : (s.onCluster c f).hostAbsent = s.hostAbsent := rfl
@[simp] theorem State.onCluster_failed (s : State) (c : Nat) (f : Cluster → Cluster) : (s.onCluster c f).failed = s.failed := rfl
@[simp] theorem State.onHousehold_gts (s : State) (h : Nat) (f : Household → Household) : (s.onHousehold h f).gts = s.gts := rfl
@[simp] theorem State.onHousehold_begun (s : State) (h : Nat) (f : Household → Household) : (s.onHousehold h f).begun = s.begun := rfl
@[simp] theorem State.onHousehold_focus (s : State) (h : Nat) (f : Household → Household) : (s.onHousehold h f).focus = s.focus := rfl
@[simp] theorem State.onHousehold_turn (s : State) (h : Nat) (f : Household → Household) : (s.onHousehold h f).turn = s.turn := rfl
@[simp] theorem State.onHousehold_agenda (s : State) (h : Nat) (f : Household → Household) : (s.onHousehold h f).agenda = s.agenda := rfl
@[simp] theorem State.onHousehold_due (s : State) (h : Nat) (f : Household → Household) : (s.onHousehold h f).due = s.due := rfl
@[simp] theorem State.onHousehold_bag (s : State) (h : Nat) (f : Household → Household) : (s.onHousehold h f).bag = s.bag := rfl
@[simp] theorem State.onHousehold_ctr (s : State) (h : Nat) (f : Household → Household) : (s.onHousehold h f).ctr = s.ctr := rfl
@[simp] theorem State.onHousehold_latch (s : State) (h : Nat) (f : Household → Household) : (s.onHousehold h f).latch = s.latch := rfl
@[simp] theorem State.onHousehold_pa (s : State) (h : Nat) (f : Household → Household) : (s.onHousehold h f).pa = s.pa := rfl
@[simp] theorem State.onHousehold_host (s : State) (h : Nat) (f : Household → Household) : (s.onHousehold h f).host = s.host := rfl
@[simp] theorem State.onHousehold_peer (s : State) (h : Nat) (f : Household → Household) : (s.onHousehold h f).peer = s.peer := rfl
@[simp] theorem State.onHousehold_order (s : State) (h : Nat) (f : Household → Household) : (s.onHousehold h f).order = s.order := rfl
@[simp] theorem State.onHousehold_pub (s : State) (h : Nat) (f : Household → Household) : (s.onHousehold h f).pub = s.pub := rfl
@[simp] theorem State.onHousehold_cores (s : State) (h : Nat) (f : Household → Household) : (s.onHousehold h f).cores = s.cores := rfl
@[simp] theorem State.onHousehold_clusters (s : State) (h : Nat) (f : Household → Household) : (s.onHousehold h f).clusters = s.clusters := rfl
@[simp] theorem State.onHousehold_doms (s : State) (h : Nat) (f : Household → Household) : (s.onHousehold h f).doms = s.doms := rfl
@[simp] theorem State.onHousehold_ops (s : State) (h : Nat) (f : Household → Household) : (s.onHousehold h f).ops = s.ops := rfl
@[simp] theorem State.onHousehold_colls (s : State) (h : Nat) (f : Household → Household) : (s.onHousehold h f).colls = s.colls := rfl
@[simp] theorem State.onHousehold_queues (s : State) (h : Nat) (f : Household → Household) : (s.onHousehold h f).queues = s.queues := rfl
@[simp] theorem State.onHousehold_peats (s : State) (h : Nat) (f : Household → Household) : (s.onHousehold h f).peats = s.peats := rfl
@[simp] theorem State.onHousehold_mounts (s : State) (h : Nat) (f : Household → Household) : (s.onHousehold h f).mounts = s.mounts := rfl
@[simp] theorem State.onHousehold_tlb (s : State) (h : Nat) (f : Household → Household) : (s.onHousehold h f).tlb = s.tlb := rfl
@[simp] theorem State.onHousehold_links (s : State) (h : Nat) (f : Household → Household) : (s.onHousehold h f).links = s.links := rfl
@[simp] theorem State.onHousehold_hbmStacks (s : State) (h : Nat) (f : Household → Household) : (s.onHousehold h f).hbmStacks = s.hbmStacks := rfl
@[simp] theorem State.onHousehold_banks (s : State) (h : Nat) (f : Household → Household) : (s.onHousehold h f).banks = s.banks := rfl
@[simp] theorem State.onHousehold_dies (s : State) (h : Nat) (f : Household → Household) : (s.onHousehold h f).dies = s.dies := rfl
@[simp] theorem State.onHousehold_porch (s : State) (h : Nat) (f : Household → Household) : (s.onHousehold h f).porch = s.porch := rfl
@[simp] theorem State.onHousehold_removed (s : State) (h : Nat) (f : Household → Household) : (s.onHousehold h f).removed = s.removed := rfl
@[simp] theorem State.onHousehold_poison (s : State) (h : Nat) (f : Household → Household) : (s.onHousehold h f).poison = s.poison := rfl
@[simp] theorem State.onHousehold_errors (s : State) (h : Nat) (f : Household → Household) : (s.onHousehold h f).errors = s.errors := rfl
@[simp] theorem State.onHousehold_dieErrors (s : State) (h : Nat) (f : Household → Household) : (s.onHousehold h f).dieErrors = s.dieErrors := rfl
@[simp] theorem State.onHousehold_sramErrors (s : State) (h : Nat) (f : Household → Household) : (s.onHousehold h f).sramErrors = s.sramErrors := rfl
@[simp] theorem State.onHousehold_remap (s : State) (h : Nat) (f : Household → Household) : (s.onHousehold h f).remap = s.remap := rfl
@[simp] theorem State.onHousehold_copying (s : State) (h : Nat) (f : Household → Household) : (s.onHousehold h f).copying = s.copying := rfl
@[simp] theorem State.onHousehold_peerPages (s : State) (h : Nat) (f : Household → Household) : (s.onHousehold h f).peerPages = s.peerPages := rfl
@[simp] theorem State.onHousehold_cabling (s : State) (h : Nat) (f : Household → Household) : (s.onHousehold h f).cabling = s.cabling := rfl
@[simp] theorem State.onHousehold_peerDenied (s : State) (h : Nat) (f : Household → Household) : (s.onHousehold h f).peerDenied = s.peerDenied := rfl
@[simp] theorem State.onHousehold_hostAbsent (s : State) (h : Nat) (f : Household → Household) : (s.onHousehold h f).hostAbsent = s.hostAbsent := rfl
@[simp] theorem State.onHousehold_failed (s : State) (h : Nat) (f : Household → Household) : (s.onHousehold h f).failed = s.failed := rfl
@[simp] theorem State.onQueue_gts (s : State) (q : Nat) (f : QueueSt → QueueSt) : (s.onQueue q f).gts = s.gts := rfl
@[simp] theorem State.onQueue_begun (s : State) (q : Nat) (f : QueueSt → QueueSt) : (s.onQueue q f).begun = s.begun := rfl
@[simp] theorem State.onQueue_focus (s : State) (q : Nat) (f : QueueSt → QueueSt) : (s.onQueue q f).focus = s.focus := rfl
@[simp] theorem State.onQueue_turn (s : State) (q : Nat) (f : QueueSt → QueueSt) : (s.onQueue q f).turn = s.turn := rfl
@[simp] theorem State.onQueue_agenda (s : State) (q : Nat) (f : QueueSt → QueueSt) : (s.onQueue q f).agenda = s.agenda := rfl
@[simp] theorem State.onQueue_due (s : State) (q : Nat) (f : QueueSt → QueueSt) : (s.onQueue q f).due = s.due := rfl
@[simp] theorem State.onQueue_bag (s : State) (q : Nat) (f : QueueSt → QueueSt) : (s.onQueue q f).bag = s.bag := rfl
@[simp] theorem State.onQueue_ctr (s : State) (q : Nat) (f : QueueSt → QueueSt) : (s.onQueue q f).ctr = s.ctr := rfl
@[simp] theorem State.onQueue_latch (s : State) (q : Nat) (f : QueueSt → QueueSt) : (s.onQueue q f).latch = s.latch := rfl
@[simp] theorem State.onQueue_pa (s : State) (q : Nat) (f : QueueSt → QueueSt) : (s.onQueue q f).pa = s.pa := rfl
@[simp] theorem State.onQueue_host (s : State) (q : Nat) (f : QueueSt → QueueSt) : (s.onQueue q f).host = s.host := rfl
@[simp] theorem State.onQueue_peer (s : State) (q : Nat) (f : QueueSt → QueueSt) : (s.onQueue q f).peer = s.peer := rfl
@[simp] theorem State.onQueue_order (s : State) (q : Nat) (f : QueueSt → QueueSt) : (s.onQueue q f).order = s.order := rfl
@[simp] theorem State.onQueue_pub (s : State) (q : Nat) (f : QueueSt → QueueSt) : (s.onQueue q f).pub = s.pub := rfl
@[simp] theorem State.onQueue_cores (s : State) (q : Nat) (f : QueueSt → QueueSt) : (s.onQueue q f).cores = s.cores := rfl
@[simp] theorem State.onQueue_clusters (s : State) (q : Nat) (f : QueueSt → QueueSt) : (s.onQueue q f).clusters = s.clusters := rfl
@[simp] theorem State.onQueue_doms (s : State) (q : Nat) (f : QueueSt → QueueSt) : (s.onQueue q f).doms = s.doms := rfl
@[simp] theorem State.onQueue_households (s : State) (q : Nat) (f : QueueSt → QueueSt) : (s.onQueue q f).households = s.households := rfl
@[simp] theorem State.onQueue_ops (s : State) (q : Nat) (f : QueueSt → QueueSt) : (s.onQueue q f).ops = s.ops := rfl
@[simp] theorem State.onQueue_colls (s : State) (q : Nat) (f : QueueSt → QueueSt) : (s.onQueue q f).colls = s.colls := rfl
@[simp] theorem State.onQueue_peats (s : State) (q : Nat) (f : QueueSt → QueueSt) : (s.onQueue q f).peats = s.peats := rfl
@[simp] theorem State.onQueue_mounts (s : State) (q : Nat) (f : QueueSt → QueueSt) : (s.onQueue q f).mounts = s.mounts := rfl
@[simp] theorem State.onQueue_tlb (s : State) (q : Nat) (f : QueueSt → QueueSt) : (s.onQueue q f).tlb = s.tlb := rfl
@[simp] theorem State.onQueue_links (s : State) (q : Nat) (f : QueueSt → QueueSt) : (s.onQueue q f).links = s.links := rfl
@[simp] theorem State.onQueue_hbmStacks (s : State) (q : Nat) (f : QueueSt → QueueSt) : (s.onQueue q f).hbmStacks = s.hbmStacks := rfl
@[simp] theorem State.onQueue_banks (s : State) (q : Nat) (f : QueueSt → QueueSt) : (s.onQueue q f).banks = s.banks := rfl
@[simp] theorem State.onQueue_dies (s : State) (q : Nat) (f : QueueSt → QueueSt) : (s.onQueue q f).dies = s.dies := rfl
@[simp] theorem State.onQueue_porch (s : State) (q : Nat) (f : QueueSt → QueueSt) : (s.onQueue q f).porch = s.porch := rfl
@[simp] theorem State.onQueue_removed (s : State) (q : Nat) (f : QueueSt → QueueSt) : (s.onQueue q f).removed = s.removed := rfl
@[simp] theorem State.onQueue_poison (s : State) (q : Nat) (f : QueueSt → QueueSt) : (s.onQueue q f).poison = s.poison := rfl
@[simp] theorem State.onQueue_errors (s : State) (q : Nat) (f : QueueSt → QueueSt) : (s.onQueue q f).errors = s.errors := rfl
@[simp] theorem State.onQueue_dieErrors (s : State) (q : Nat) (f : QueueSt → QueueSt) : (s.onQueue q f).dieErrors = s.dieErrors := rfl
@[simp] theorem State.onQueue_sramErrors (s : State) (q : Nat) (f : QueueSt → QueueSt) : (s.onQueue q f).sramErrors = s.sramErrors := rfl
@[simp] theorem State.onQueue_remap (s : State) (q : Nat) (f : QueueSt → QueueSt) : (s.onQueue q f).remap = s.remap := rfl
@[simp] theorem State.onQueue_copying (s : State) (q : Nat) (f : QueueSt → QueueSt) : (s.onQueue q f).copying = s.copying := rfl
@[simp] theorem State.onQueue_peerPages (s : State) (q : Nat) (f : QueueSt → QueueSt) : (s.onQueue q f).peerPages = s.peerPages := rfl
@[simp] theorem State.onQueue_cabling (s : State) (q : Nat) (f : QueueSt → QueueSt) : (s.onQueue q f).cabling = s.cabling := rfl
@[simp] theorem State.onQueue_peerDenied (s : State) (q : Nat) (f : QueueSt → QueueSt) : (s.onQueue q f).peerDenied = s.peerDenied := rfl
@[simp] theorem State.onQueue_hostAbsent (s : State) (q : Nat) (f : QueueSt → QueueSt) : (s.onQueue q f).hostAbsent = s.hostAbsent := rfl
@[simp] theorem State.onQueue_failed (s : State) (q : Nat) (f : QueueSt → QueueSt) : (s.onQueue q f).failed = s.failed := rfl
@[simp] theorem State.onDie_gts (s : State) (d : Nat) (f : Die → Die) : (s.onDie d f).gts = s.gts := rfl
@[simp] theorem State.onDie_begun (s : State) (d : Nat) (f : Die → Die) : (s.onDie d f).begun = s.begun := rfl
@[simp] theorem State.onDie_focus (s : State) (d : Nat) (f : Die → Die) : (s.onDie d f).focus = s.focus := rfl
@[simp] theorem State.onDie_turn (s : State) (d : Nat) (f : Die → Die) : (s.onDie d f).turn = s.turn := rfl
@[simp] theorem State.onDie_agenda (s : State) (d : Nat) (f : Die → Die) : (s.onDie d f).agenda = s.agenda := rfl
@[simp] theorem State.onDie_due (s : State) (d : Nat) (f : Die → Die) : (s.onDie d f).due = s.due := rfl
@[simp] theorem State.onDie_bag (s : State) (d : Nat) (f : Die → Die) : (s.onDie d f).bag = s.bag := rfl
@[simp] theorem State.onDie_ctr (s : State) (d : Nat) (f : Die → Die) : (s.onDie d f).ctr = s.ctr := rfl
@[simp] theorem State.onDie_latch (s : State) (d : Nat) (f : Die → Die) : (s.onDie d f).latch = s.latch := rfl
@[simp] theorem State.onDie_pa (s : State) (d : Nat) (f : Die → Die) : (s.onDie d f).pa = s.pa := rfl
@[simp] theorem State.onDie_host (s : State) (d : Nat) (f : Die → Die) : (s.onDie d f).host = s.host := rfl
@[simp] theorem State.onDie_peer (s : State) (d : Nat) (f : Die → Die) : (s.onDie d f).peer = s.peer := rfl
@[simp] theorem State.onDie_order (s : State) (d : Nat) (f : Die → Die) : (s.onDie d f).order = s.order := rfl
@[simp] theorem State.onDie_pub (s : State) (d : Nat) (f : Die → Die) : (s.onDie d f).pub = s.pub := rfl
@[simp] theorem State.onDie_cores (s : State) (d : Nat) (f : Die → Die) : (s.onDie d f).cores = s.cores := rfl
@[simp] theorem State.onDie_clusters (s : State) (d : Nat) (f : Die → Die) : (s.onDie d f).clusters = s.clusters := rfl
@[simp] theorem State.onDie_doms (s : State) (d : Nat) (f : Die → Die) : (s.onDie d f).doms = s.doms := rfl
@[simp] theorem State.onDie_households (s : State) (d : Nat) (f : Die → Die) : (s.onDie d f).households = s.households := rfl
@[simp] theorem State.onDie_ops (s : State) (d : Nat) (f : Die → Die) : (s.onDie d f).ops = s.ops := rfl
@[simp] theorem State.onDie_colls (s : State) (d : Nat) (f : Die → Die) : (s.onDie d f).colls = s.colls := rfl
@[simp] theorem State.onDie_queues (s : State) (d : Nat) (f : Die → Die) : (s.onDie d f).queues = s.queues := rfl
@[simp] theorem State.onDie_peats (s : State) (d : Nat) (f : Die → Die) : (s.onDie d f).peats = s.peats := rfl
@[simp] theorem State.onDie_mounts (s : State) (d : Nat) (f : Die → Die) : (s.onDie d f).mounts = s.mounts := rfl
@[simp] theorem State.onDie_tlb (s : State) (d : Nat) (f : Die → Die) : (s.onDie d f).tlb = s.tlb := rfl
@[simp] theorem State.onDie_links (s : State) (d : Nat) (f : Die → Die) : (s.onDie d f).links = s.links := rfl
@[simp] theorem State.onDie_hbmStacks (s : State) (d : Nat) (f : Die → Die) : (s.onDie d f).hbmStacks = s.hbmStacks := rfl
@[simp] theorem State.onDie_banks (s : State) (d : Nat) (f : Die → Die) : (s.onDie d f).banks = s.banks := rfl
@[simp] theorem State.onDie_porch (s : State) (d : Nat) (f : Die → Die) : (s.onDie d f).porch = s.porch := rfl
@[simp] theorem State.onDie_removed (s : State) (d : Nat) (f : Die → Die) : (s.onDie d f).removed = s.removed := rfl
@[simp] theorem State.onDie_poison (s : State) (d : Nat) (f : Die → Die) : (s.onDie d f).poison = s.poison := rfl
@[simp] theorem State.onDie_errors (s : State) (d : Nat) (f : Die → Die) : (s.onDie d f).errors = s.errors := rfl
@[simp] theorem State.onDie_dieErrors (s : State) (d : Nat) (f : Die → Die) : (s.onDie d f).dieErrors = s.dieErrors := rfl
@[simp] theorem State.onDie_sramErrors (s : State) (d : Nat) (f : Die → Die) : (s.onDie d f).sramErrors = s.sramErrors := rfl
@[simp] theorem State.onDie_remap (s : State) (d : Nat) (f : Die → Die) : (s.onDie d f).remap = s.remap := rfl
@[simp] theorem State.onDie_copying (s : State) (d : Nat) (f : Die → Die) : (s.onDie d f).copying = s.copying := rfl
@[simp] theorem State.onDie_peerPages (s : State) (d : Nat) (f : Die → Die) : (s.onDie d f).peerPages = s.peerPages := rfl
@[simp] theorem State.onDie_cabling (s : State) (d : Nat) (f : Die → Die) : (s.onDie d f).cabling = s.cabling := rfl
@[simp] theorem State.onDie_peerDenied (s : State) (d : Nat) (f : Die → Die) : (s.onDie d f).peerDenied = s.peerDenied := rfl
@[simp] theorem State.onDie_hostAbsent (s : State) (d : Nat) (f : Die → Die) : (s.onDie d f).hostAbsent = s.hostAbsent := rfl
@[simp] theorem State.onDie_failed (s : State) (d : Nat) (f : Die → Die) : (s.onDie d f).failed = s.failed := rfl
@[simp] theorem State.later_gts (s : State) (g : Nat) (e : DueEv) : (s.later g e).gts = s.gts := rfl
@[simp] theorem State.later_begun (s : State) (g : Nat) (e : DueEv) : (s.later g e).begun = s.begun := rfl
@[simp] theorem State.later_focus (s : State) (g : Nat) (e : DueEv) : (s.later g e).focus = s.focus := rfl
@[simp] theorem State.later_turn (s : State) (g : Nat) (e : DueEv) : (s.later g e).turn = s.turn := rfl
@[simp] theorem State.later_agenda (s : State) (g : Nat) (e : DueEv) : (s.later g e).agenda = s.agenda := rfl
@[simp] theorem State.later_bag (s : State) (g : Nat) (e : DueEv) : (s.later g e).bag = s.bag := rfl
@[simp] theorem State.later_ctr (s : State) (g : Nat) (e : DueEv) : (s.later g e).ctr = s.ctr := rfl
@[simp] theorem State.later_latch (s : State) (g : Nat) (e : DueEv) : (s.later g e).latch = s.latch := rfl
@[simp] theorem State.later_pa (s : State) (g : Nat) (e : DueEv) : (s.later g e).pa = s.pa := rfl
@[simp] theorem State.later_host (s : State) (g : Nat) (e : DueEv) : (s.later g e).host = s.host := rfl
@[simp] theorem State.later_peer (s : State) (g : Nat) (e : DueEv) : (s.later g e).peer = s.peer := rfl
@[simp] theorem State.later_order (s : State) (g : Nat) (e : DueEv) : (s.later g e).order = s.order := rfl
@[simp] theorem State.later_pub (s : State) (g : Nat) (e : DueEv) : (s.later g e).pub = s.pub := rfl
@[simp] theorem State.later_cores (s : State) (g : Nat) (e : DueEv) : (s.later g e).cores = s.cores := rfl
@[simp] theorem State.later_clusters (s : State) (g : Nat) (e : DueEv) : (s.later g e).clusters = s.clusters := rfl
@[simp] theorem State.later_doms (s : State) (g : Nat) (e : DueEv) : (s.later g e).doms = s.doms := rfl
@[simp] theorem State.later_households (s : State) (g : Nat) (e : DueEv) : (s.later g e).households = s.households := rfl
@[simp] theorem State.later_ops (s : State) (g : Nat) (e : DueEv) : (s.later g e).ops = s.ops := rfl
@[simp] theorem State.later_colls (s : State) (g : Nat) (e : DueEv) : (s.later g e).colls = s.colls := rfl
@[simp] theorem State.later_queues (s : State) (g : Nat) (e : DueEv) : (s.later g e).queues = s.queues := rfl
@[simp] theorem State.later_peats (s : State) (g : Nat) (e : DueEv) : (s.later g e).peats = s.peats := rfl
@[simp] theorem State.later_mounts (s : State) (g : Nat) (e : DueEv) : (s.later g e).mounts = s.mounts := rfl
@[simp] theorem State.later_tlb (s : State) (g : Nat) (e : DueEv) : (s.later g e).tlb = s.tlb := rfl
@[simp] theorem State.later_links (s : State) (g : Nat) (e : DueEv) : (s.later g e).links = s.links := rfl
@[simp] theorem State.later_hbmStacks (s : State) (g : Nat) (e : DueEv) : (s.later g e).hbmStacks = s.hbmStacks := rfl
@[simp] theorem State.later_banks (s : State) (g : Nat) (e : DueEv) : (s.later g e).banks = s.banks := rfl
@[simp] theorem State.later_dies (s : State) (g : Nat) (e : DueEv) : (s.later g e).dies = s.dies := rfl
@[simp] theorem State.later_porch (s : State) (g : Nat) (e : DueEv) : (s.later g e).porch = s.porch := rfl
@[simp] theorem State.later_removed (s : State) (g : Nat) (e : DueEv) : (s.later g e).removed = s.removed := rfl
@[simp] theorem State.later_poison (s : State) (g : Nat) (e : DueEv) : (s.later g e).poison = s.poison := rfl
@[simp] theorem State.later_errors (s : State) (g : Nat) (e : DueEv) : (s.later g e).errors = s.errors := rfl
@[simp] theorem State.later_dieErrors (s : State) (g : Nat) (e : DueEv) : (s.later g e).dieErrors = s.dieErrors := rfl
@[simp] theorem State.later_sramErrors (s : State) (g : Nat) (e : DueEv) : (s.later g e).sramErrors = s.sramErrors := rfl
@[simp] theorem State.later_remap (s : State) (g : Nat) (e : DueEv) : (s.later g e).remap = s.remap := rfl
@[simp] theorem State.later_copying (s : State) (g : Nat) (e : DueEv) : (s.later g e).copying = s.copying := rfl
@[simp] theorem State.later_peerPages (s : State) (g : Nat) (e : DueEv) : (s.later g e).peerPages = s.peerPages := rfl
@[simp] theorem State.later_cabling (s : State) (g : Nat) (e : DueEv) : (s.later g e).cabling = s.cabling := rfl
@[simp] theorem State.later_peerDenied (s : State) (g : Nat) (e : DueEv) : (s.later g e).peerDenied = s.peerDenied := rfl
@[simp] theorem State.later_hostAbsent (s : State) (g : Nat) (e : DueEv) : (s.later g e).hostAbsent = s.hostAbsent := rfl
@[simp] theorem State.later_failed (s : State) (g : Nat) (e : DueEv) : (s.later g e).failed = s.failed := rfl
@[simp] theorem State.doneAt_gts (s : State) (g c i : Nat) (a : List Act) : (s.doneAt g c i a).gts = s.gts := rfl
@[simp] theorem State.doneAt_begun (s : State) (g c i : Nat) (a : List Act) : (s.doneAt g c i a).begun = s.begun := rfl
@[simp] theorem State.doneAt_focus (s : State) (g c i : Nat) (a : List Act) : (s.doneAt g c i a).focus = s.focus := rfl
@[simp] theorem State.doneAt_turn (s : State) (g c i : Nat) (a : List Act) : (s.doneAt g c i a).turn = s.turn := rfl
@[simp] theorem State.doneAt_agenda (s : State) (g c i : Nat) (a : List Act) : (s.doneAt g c i a).agenda = s.agenda := rfl
@[simp] theorem State.doneAt_bag (s : State) (g c i : Nat) (a : List Act) : (s.doneAt g c i a).bag = s.bag := rfl
@[simp] theorem State.doneAt_ctr (s : State) (g c i : Nat) (a : List Act) : (s.doneAt g c i a).ctr = s.ctr := rfl
@[simp] theorem State.doneAt_latch (s : State) (g c i : Nat) (a : List Act) : (s.doneAt g c i a).latch = s.latch := rfl
@[simp] theorem State.doneAt_pa (s : State) (g c i : Nat) (a : List Act) : (s.doneAt g c i a).pa = s.pa := rfl
@[simp] theorem State.doneAt_host (s : State) (g c i : Nat) (a : List Act) : (s.doneAt g c i a).host = s.host := rfl
@[simp] theorem State.doneAt_peer (s : State) (g c i : Nat) (a : List Act) : (s.doneAt g c i a).peer = s.peer := rfl
@[simp] theorem State.doneAt_order (s : State) (g c i : Nat) (a : List Act) : (s.doneAt g c i a).order = s.order := rfl
@[simp] theorem State.doneAt_pub (s : State) (g c i : Nat) (a : List Act) : (s.doneAt g c i a).pub = s.pub := rfl
@[simp] theorem State.doneAt_cores (s : State) (g c i : Nat) (a : List Act) : (s.doneAt g c i a).cores = s.cores := rfl
@[simp] theorem State.doneAt_clusters (s : State) (g c i : Nat) (a : List Act) : (s.doneAt g c i a).clusters = s.clusters := rfl
@[simp] theorem State.doneAt_doms (s : State) (g c i : Nat) (a : List Act) : (s.doneAt g c i a).doms = s.doms := rfl
@[simp] theorem State.doneAt_households (s : State) (g c i : Nat) (a : List Act) : (s.doneAt g c i a).households = s.households := rfl
@[simp] theorem State.doneAt_ops (s : State) (g c i : Nat) (a : List Act) : (s.doneAt g c i a).ops = s.ops := rfl
@[simp] theorem State.doneAt_colls (s : State) (g c i : Nat) (a : List Act) : (s.doneAt g c i a).colls = s.colls := rfl
@[simp] theorem State.doneAt_queues (s : State) (g c i : Nat) (a : List Act) : (s.doneAt g c i a).queues = s.queues := rfl
@[simp] theorem State.doneAt_peats (s : State) (g c i : Nat) (a : List Act) : (s.doneAt g c i a).peats = s.peats := rfl
@[simp] theorem State.doneAt_mounts (s : State) (g c i : Nat) (a : List Act) : (s.doneAt g c i a).mounts = s.mounts := rfl
@[simp] theorem State.doneAt_tlb (s : State) (g c i : Nat) (a : List Act) : (s.doneAt g c i a).tlb = s.tlb := rfl
@[simp] theorem State.doneAt_links (s : State) (g c i : Nat) (a : List Act) : (s.doneAt g c i a).links = s.links := rfl
@[simp] theorem State.doneAt_hbmStacks (s : State) (g c i : Nat) (a : List Act) : (s.doneAt g c i a).hbmStacks = s.hbmStacks := rfl
@[simp] theorem State.doneAt_banks (s : State) (g c i : Nat) (a : List Act) : (s.doneAt g c i a).banks = s.banks := rfl
@[simp] theorem State.doneAt_dies (s : State) (g c i : Nat) (a : List Act) : (s.doneAt g c i a).dies = s.dies := rfl
@[simp] theorem State.doneAt_porch (s : State) (g c i : Nat) (a : List Act) : (s.doneAt g c i a).porch = s.porch := rfl
@[simp] theorem State.doneAt_removed (s : State) (g c i : Nat) (a : List Act) : (s.doneAt g c i a).removed = s.removed := rfl
@[simp] theorem State.doneAt_poison (s : State) (g c i : Nat) (a : List Act) : (s.doneAt g c i a).poison = s.poison := rfl
@[simp] theorem State.doneAt_errors (s : State) (g c i : Nat) (a : List Act) : (s.doneAt g c i a).errors = s.errors := rfl
@[simp] theorem State.doneAt_dieErrors (s : State) (g c i : Nat) (a : List Act) : (s.doneAt g c i a).dieErrors = s.dieErrors := rfl
@[simp] theorem State.doneAt_sramErrors (s : State) (g c i : Nat) (a : List Act) : (s.doneAt g c i a).sramErrors = s.sramErrors := rfl
@[simp] theorem State.doneAt_remap (s : State) (g c i : Nat) (a : List Act) : (s.doneAt g c i a).remap = s.remap := rfl
@[simp] theorem State.doneAt_copying (s : State) (g c i : Nat) (a : List Act) : (s.doneAt g c i a).copying = s.copying := rfl
@[simp] theorem State.doneAt_peerPages (s : State) (g c i : Nat) (a : List Act) : (s.doneAt g c i a).peerPages = s.peerPages := rfl
@[simp] theorem State.doneAt_cabling (s : State) (g c i : Nat) (a : List Act) : (s.doneAt g c i a).cabling = s.cabling := rfl
@[simp] theorem State.doneAt_peerDenied (s : State) (g c i : Nat) (a : List Act) : (s.doneAt g c i a).peerDenied = s.peerDenied := rfl
@[simp] theorem State.doneAt_hostAbsent (s : State) (g c i : Nat) (a : List Act) : (s.doneAt g c i a).hostAbsent = s.hostAbsent := rfl
@[simp] theorem State.doneAt_failed (s : State) (g c i : Nat) (a : List Act) : (s.doneAt g c i a).failed = s.failed := rfl
@[simp] theorem State.stepAt_gts (s : State) (g : Nat) (e : Event) : (s.stepAt g e).gts = s.gts := rfl
@[simp] theorem State.stepAt_begun (s : State) (g : Nat) (e : Event) : (s.stepAt g e).begun = s.begun := rfl
@[simp] theorem State.stepAt_focus (s : State) (g : Nat) (e : Event) : (s.stepAt g e).focus = s.focus := rfl
@[simp] theorem State.stepAt_turn (s : State) (g : Nat) (e : Event) : (s.stepAt g e).turn = s.turn := rfl
@[simp] theorem State.stepAt_agenda (s : State) (g : Nat) (e : Event) : (s.stepAt g e).agenda = s.agenda := rfl
@[simp] theorem State.stepAt_bag (s : State) (g : Nat) (e : Event) : (s.stepAt g e).bag = s.bag := rfl
@[simp] theorem State.stepAt_ctr (s : State) (g : Nat) (e : Event) : (s.stepAt g e).ctr = s.ctr := rfl
@[simp] theorem State.stepAt_latch (s : State) (g : Nat) (e : Event) : (s.stepAt g e).latch = s.latch := rfl
@[simp] theorem State.stepAt_pa (s : State) (g : Nat) (e : Event) : (s.stepAt g e).pa = s.pa := rfl
@[simp] theorem State.stepAt_host (s : State) (g : Nat) (e : Event) : (s.stepAt g e).host = s.host := rfl
@[simp] theorem State.stepAt_peer (s : State) (g : Nat) (e : Event) : (s.stepAt g e).peer = s.peer := rfl
@[simp] theorem State.stepAt_order (s : State) (g : Nat) (e : Event) : (s.stepAt g e).order = s.order := rfl
@[simp] theorem State.stepAt_pub (s : State) (g : Nat) (e : Event) : (s.stepAt g e).pub = s.pub := rfl
@[simp] theorem State.stepAt_cores (s : State) (g : Nat) (e : Event) : (s.stepAt g e).cores = s.cores := rfl
@[simp] theorem State.stepAt_clusters (s : State) (g : Nat) (e : Event) : (s.stepAt g e).clusters = s.clusters := rfl
@[simp] theorem State.stepAt_doms (s : State) (g : Nat) (e : Event) : (s.stepAt g e).doms = s.doms := rfl
@[simp] theorem State.stepAt_households (s : State) (g : Nat) (e : Event) : (s.stepAt g e).households = s.households := rfl
@[simp] theorem State.stepAt_ops (s : State) (g : Nat) (e : Event) : (s.stepAt g e).ops = s.ops := rfl
@[simp] theorem State.stepAt_colls (s : State) (g : Nat) (e : Event) : (s.stepAt g e).colls = s.colls := rfl
@[simp] theorem State.stepAt_queues (s : State) (g : Nat) (e : Event) : (s.stepAt g e).queues = s.queues := rfl
@[simp] theorem State.stepAt_peats (s : State) (g : Nat) (e : Event) : (s.stepAt g e).peats = s.peats := rfl
@[simp] theorem State.stepAt_mounts (s : State) (g : Nat) (e : Event) : (s.stepAt g e).mounts = s.mounts := rfl
@[simp] theorem State.stepAt_tlb (s : State) (g : Nat) (e : Event) : (s.stepAt g e).tlb = s.tlb := rfl
@[simp] theorem State.stepAt_links (s : State) (g : Nat) (e : Event) : (s.stepAt g e).links = s.links := rfl
@[simp] theorem State.stepAt_hbmStacks (s : State) (g : Nat) (e : Event) : (s.stepAt g e).hbmStacks = s.hbmStacks := rfl
@[simp] theorem State.stepAt_banks (s : State) (g : Nat) (e : Event) : (s.stepAt g e).banks = s.banks := rfl
@[simp] theorem State.stepAt_dies (s : State) (g : Nat) (e : Event) : (s.stepAt g e).dies = s.dies := rfl
@[simp] theorem State.stepAt_porch (s : State) (g : Nat) (e : Event) : (s.stepAt g e).porch = s.porch := rfl
@[simp] theorem State.stepAt_removed (s : State) (g : Nat) (e : Event) : (s.stepAt g e).removed = s.removed := rfl
@[simp] theorem State.stepAt_poison (s : State) (g : Nat) (e : Event) : (s.stepAt g e).poison = s.poison := rfl
@[simp] theorem State.stepAt_errors (s : State) (g : Nat) (e : Event) : (s.stepAt g e).errors = s.errors := rfl
@[simp] theorem State.stepAt_dieErrors (s : State) (g : Nat) (e : Event) : (s.stepAt g e).dieErrors = s.dieErrors := rfl
@[simp] theorem State.stepAt_sramErrors (s : State) (g : Nat) (e : Event) : (s.stepAt g e).sramErrors = s.sramErrors := rfl
@[simp] theorem State.stepAt_remap (s : State) (g : Nat) (e : Event) : (s.stepAt g e).remap = s.remap := rfl
@[simp] theorem State.stepAt_copying (s : State) (g : Nat) (e : Event) : (s.stepAt g e).copying = s.copying := rfl
@[simp] theorem State.stepAt_peerPages (s : State) (g : Nat) (e : Event) : (s.stepAt g e).peerPages = s.peerPages := rfl
@[simp] theorem State.stepAt_cabling (s : State) (g : Nat) (e : Event) : (s.stepAt g e).cabling = s.cabling := rfl
@[simp] theorem State.stepAt_peerDenied (s : State) (g : Nat) (e : Event) : (s.stepAt g e).peerDenied = s.peerDenied := rfl
@[simp] theorem State.stepAt_hostAbsent (s : State) (g : Nat) (e : Event) : (s.stepAt g e).hostAbsent = s.hostAbsent := rfl
@[simp] theorem State.stepAt_failed (s : State) (g : Nat) (e : Event) : (s.stepAt g e).failed = s.failed := rfl
@[simp] theorem State.soon_gts (s : State) (e : Event) : (s.soon e).gts = s.gts := rfl
@[simp] theorem State.soon_begun (s : State) (e : Event) : (s.soon e).begun = s.begun := rfl
@[simp] theorem State.soon_focus (s : State) (e : Event) : (s.soon e).focus = s.focus := rfl
@[simp] theorem State.soon_turn (s : State) (e : Event) : (s.soon e).turn = s.turn := rfl
@[simp] theorem State.soon_agenda (s : State) (e : Event) : (s.soon e).agenda = s.agenda := rfl
@[simp] theorem State.soon_bag (s : State) (e : Event) : (s.soon e).bag = s.bag := rfl
@[simp] theorem State.soon_latch (s : State) (e : Event) : (s.soon e).latch = s.latch := rfl
@[simp] theorem State.soon_pa (s : State) (e : Event) : (s.soon e).pa = s.pa := rfl
@[simp] theorem State.soon_host (s : State) (e : Event) : (s.soon e).host = s.host := rfl
@[simp] theorem State.soon_peer (s : State) (e : Event) : (s.soon e).peer = s.peer := rfl
@[simp] theorem State.soon_order (s : State) (e : Event) : (s.soon e).order = s.order := rfl
@[simp] theorem State.soon_pub (s : State) (e : Event) : (s.soon e).pub = s.pub := rfl
@[simp] theorem State.soon_cores (s : State) (e : Event) : (s.soon e).cores = s.cores := rfl
@[simp] theorem State.soon_clusters (s : State) (e : Event) : (s.soon e).clusters = s.clusters := rfl
@[simp] theorem State.soon_doms (s : State) (e : Event) : (s.soon e).doms = s.doms := rfl
@[simp] theorem State.soon_households (s : State) (e : Event) : (s.soon e).households = s.households := rfl
@[simp] theorem State.soon_ops (s : State) (e : Event) : (s.soon e).ops = s.ops := rfl
@[simp] theorem State.soon_colls (s : State) (e : Event) : (s.soon e).colls = s.colls := rfl
@[simp] theorem State.soon_queues (s : State) (e : Event) : (s.soon e).queues = s.queues := rfl
@[simp] theorem State.soon_peats (s : State) (e : Event) : (s.soon e).peats = s.peats := rfl
@[simp] theorem State.soon_mounts (s : State) (e : Event) : (s.soon e).mounts = s.mounts := rfl
@[simp] theorem State.soon_tlb (s : State) (e : Event) : (s.soon e).tlb = s.tlb := rfl
@[simp] theorem State.soon_links (s : State) (e : Event) : (s.soon e).links = s.links := rfl
@[simp] theorem State.soon_hbmStacks (s : State) (e : Event) : (s.soon e).hbmStacks = s.hbmStacks := rfl
@[simp] theorem State.soon_banks (s : State) (e : Event) : (s.soon e).banks = s.banks := rfl
@[simp] theorem State.soon_dies (s : State) (e : Event) : (s.soon e).dies = s.dies := rfl
@[simp] theorem State.soon_porch (s : State) (e : Event) : (s.soon e).porch = s.porch := rfl
@[simp] theorem State.soon_removed (s : State) (e : Event) : (s.soon e).removed = s.removed := rfl
@[simp] theorem State.soon_poison (s : State) (e : Event) : (s.soon e).poison = s.poison := rfl
@[simp] theorem State.soon_errors (s : State) (e : Event) : (s.soon e).errors = s.errors := rfl
@[simp] theorem State.soon_dieErrors (s : State) (e : Event) : (s.soon e).dieErrors = s.dieErrors := rfl
@[simp] theorem State.soon_sramErrors (s : State) (e : Event) : (s.soon e).sramErrors = s.sramErrors := rfl
@[simp] theorem State.soon_remap (s : State) (e : Event) : (s.soon e).remap = s.remap := rfl
@[simp] theorem State.soon_copying (s : State) (e : Event) : (s.soon e).copying = s.copying := rfl
@[simp] theorem State.soon_peerPages (s : State) (e : Event) : (s.soon e).peerPages = s.peerPages := rfl
@[simp] theorem State.soon_cabling (s : State) (e : Event) : (s.soon e).cabling = s.cabling := rfl
@[simp] theorem State.soon_peerDenied (s : State) (e : Event) : (s.soon e).peerDenied = s.peerDenied := rfl
@[simp] theorem State.soon_hostAbsent (s : State) (e : Event) : (s.soon e).hostAbsent = s.hostAbsent := rfl
@[simp] theorem State.soon_failed (s : State) (e : Event) : (s.soon e).failed = s.failed := rfl
@[simp] theorem State.soonAfter_gts (s : State) (g : Nat) (e : Event) : (s.soonAfter g e).gts = s.gts := rfl
@[simp] theorem State.soonAfter_begun (s : State) (g : Nat) (e : Event) : (s.soonAfter g e).begun = s.begun := rfl
@[simp] theorem State.soonAfter_focus (s : State) (g : Nat) (e : Event) : (s.soonAfter g e).focus = s.focus := rfl
@[simp] theorem State.soonAfter_turn (s : State) (g : Nat) (e : Event) : (s.soonAfter g e).turn = s.turn := rfl
@[simp] theorem State.soonAfter_agenda (s : State) (g : Nat) (e : Event) : (s.soonAfter g e).agenda = s.agenda := rfl
@[simp] theorem State.soonAfter_bag (s : State) (g : Nat) (e : Event) : (s.soonAfter g e).bag = s.bag := rfl
@[simp] theorem State.soonAfter_latch (s : State) (g : Nat) (e : Event) : (s.soonAfter g e).latch = s.latch := rfl
@[simp] theorem State.soonAfter_pa (s : State) (g : Nat) (e : Event) : (s.soonAfter g e).pa = s.pa := rfl
@[simp] theorem State.soonAfter_host (s : State) (g : Nat) (e : Event) : (s.soonAfter g e).host = s.host := rfl
@[simp] theorem State.soonAfter_peer (s : State) (g : Nat) (e : Event) : (s.soonAfter g e).peer = s.peer := rfl
@[simp] theorem State.soonAfter_order (s : State) (g : Nat) (e : Event) : (s.soonAfter g e).order = s.order := rfl
@[simp] theorem State.soonAfter_pub (s : State) (g : Nat) (e : Event) : (s.soonAfter g e).pub = s.pub := rfl
@[simp] theorem State.soonAfter_cores (s : State) (g : Nat) (e : Event) : (s.soonAfter g e).cores = s.cores := rfl
@[simp] theorem State.soonAfter_clusters (s : State) (g : Nat) (e : Event) : (s.soonAfter g e).clusters = s.clusters := rfl
@[simp] theorem State.soonAfter_doms (s : State) (g : Nat) (e : Event) : (s.soonAfter g e).doms = s.doms := rfl
@[simp] theorem State.soonAfter_households (s : State) (g : Nat) (e : Event) : (s.soonAfter g e).households = s.households := rfl
@[simp] theorem State.soonAfter_ops (s : State) (g : Nat) (e : Event) : (s.soonAfter g e).ops = s.ops := rfl
@[simp] theorem State.soonAfter_colls (s : State) (g : Nat) (e : Event) : (s.soonAfter g e).colls = s.colls := rfl
@[simp] theorem State.soonAfter_queues (s : State) (g : Nat) (e : Event) : (s.soonAfter g e).queues = s.queues := rfl
@[simp] theorem State.soonAfter_peats (s : State) (g : Nat) (e : Event) : (s.soonAfter g e).peats = s.peats := rfl
@[simp] theorem State.soonAfter_mounts (s : State) (g : Nat) (e : Event) : (s.soonAfter g e).mounts = s.mounts := rfl
@[simp] theorem State.soonAfter_tlb (s : State) (g : Nat) (e : Event) : (s.soonAfter g e).tlb = s.tlb := rfl
@[simp] theorem State.soonAfter_links (s : State) (g : Nat) (e : Event) : (s.soonAfter g e).links = s.links := rfl
@[simp] theorem State.soonAfter_hbmStacks (s : State) (g : Nat) (e : Event) : (s.soonAfter g e).hbmStacks = s.hbmStacks := rfl
@[simp] theorem State.soonAfter_banks (s : State) (g : Nat) (e : Event) : (s.soonAfter g e).banks = s.banks := rfl
@[simp] theorem State.soonAfter_dies (s : State) (g : Nat) (e : Event) : (s.soonAfter g e).dies = s.dies := rfl
@[simp] theorem State.soonAfter_porch (s : State) (g : Nat) (e : Event) : (s.soonAfter g e).porch = s.porch := rfl
@[simp] theorem State.soonAfter_removed (s : State) (g : Nat) (e : Event) : (s.soonAfter g e).removed = s.removed := rfl
@[simp] theorem State.soonAfter_poison (s : State) (g : Nat) (e : Event) : (s.soonAfter g e).poison = s.poison := rfl
@[simp] theorem State.soonAfter_errors (s : State) (g : Nat) (e : Event) : (s.soonAfter g e).errors = s.errors := rfl
@[simp] theorem State.soonAfter_dieErrors (s : State) (g : Nat) (e : Event) : (s.soonAfter g e).dieErrors = s.dieErrors := rfl
@[simp] theorem State.soonAfter_sramErrors (s : State) (g : Nat) (e : Event) : (s.soonAfter g e).sramErrors = s.sramErrors := rfl
@[simp] theorem State.soonAfter_remap (s : State) (g : Nat) (e : Event) : (s.soonAfter g e).remap = s.remap := rfl
@[simp] theorem State.soonAfter_copying (s : State) (g : Nat) (e : Event) : (s.soonAfter g e).copying = s.copying := rfl
@[simp] theorem State.soonAfter_peerPages (s : State) (g : Nat) (e : Event) : (s.soonAfter g e).peerPages = s.peerPages := rfl
@[simp] theorem State.soonAfter_cabling (s : State) (g : Nat) (e : Event) : (s.soonAfter g e).cabling = s.cabling := rfl
@[simp] theorem State.soonAfter_peerDenied (s : State) (g : Nat) (e : Event) : (s.soonAfter g e).peerDenied = s.peerDenied := rfl
@[simp] theorem State.soonAfter_hostAbsent (s : State) (g : Nat) (e : Event) : (s.soonAfter g e).hostAbsent = s.hostAbsent := rfl
@[simp] theorem State.soonAfter_failed (s : State) (g : Nat) (e : Event) : (s.soonAfter g e).failed = s.failed := rfl
@[simp] theorem State.next_gts (s : State) (e : Event) : (s.next e).gts = s.gts := rfl
@[simp] theorem State.next_begun (s : State) (e : Event) : (s.next e).begun = s.begun := rfl
@[simp] theorem State.next_focus (s : State) (e : Event) : (s.next e).focus = s.focus := rfl
@[simp] theorem State.next_turn (s : State) (e : Event) : (s.next e).turn = s.turn := rfl
@[simp] theorem State.next_due (s : State) (e : Event) : (s.next e).due = s.due := rfl
@[simp] theorem State.next_bag (s : State) (e : Event) : (s.next e).bag = s.bag := rfl
@[simp] theorem State.next_ctr (s : State) (e : Event) : (s.next e).ctr = s.ctr := rfl
@[simp] theorem State.next_latch (s : State) (e : Event) : (s.next e).latch = s.latch := rfl
@[simp] theorem State.next_pa (s : State) (e : Event) : (s.next e).pa = s.pa := rfl
@[simp] theorem State.next_host (s : State) (e : Event) : (s.next e).host = s.host := rfl
@[simp] theorem State.next_peer (s : State) (e : Event) : (s.next e).peer = s.peer := rfl
@[simp] theorem State.next_order (s : State) (e : Event) : (s.next e).order = s.order := rfl
@[simp] theorem State.next_pub (s : State) (e : Event) : (s.next e).pub = s.pub := rfl
@[simp] theorem State.next_cores (s : State) (e : Event) : (s.next e).cores = s.cores := rfl
@[simp] theorem State.next_clusters (s : State) (e : Event) : (s.next e).clusters = s.clusters := rfl
@[simp] theorem State.next_doms (s : State) (e : Event) : (s.next e).doms = s.doms := rfl
@[simp] theorem State.next_households (s : State) (e : Event) : (s.next e).households = s.households := rfl
@[simp] theorem State.next_ops (s : State) (e : Event) : (s.next e).ops = s.ops := rfl
@[simp] theorem State.next_colls (s : State) (e : Event) : (s.next e).colls = s.colls := rfl
@[simp] theorem State.next_queues (s : State) (e : Event) : (s.next e).queues = s.queues := rfl
@[simp] theorem State.next_peats (s : State) (e : Event) : (s.next e).peats = s.peats := rfl
@[simp] theorem State.next_mounts (s : State) (e : Event) : (s.next e).mounts = s.mounts := rfl
@[simp] theorem State.next_tlb (s : State) (e : Event) : (s.next e).tlb = s.tlb := rfl
@[simp] theorem State.next_links (s : State) (e : Event) : (s.next e).links = s.links := rfl
@[simp] theorem State.next_hbmStacks (s : State) (e : Event) : (s.next e).hbmStacks = s.hbmStacks := rfl
@[simp] theorem State.next_banks (s : State) (e : Event) : (s.next e).banks = s.banks := rfl
@[simp] theorem State.next_dies (s : State) (e : Event) : (s.next e).dies = s.dies := rfl
@[simp] theorem State.next_porch (s : State) (e : Event) : (s.next e).porch = s.porch := rfl
@[simp] theorem State.next_removed (s : State) (e : Event) : (s.next e).removed = s.removed := rfl
@[simp] theorem State.next_poison (s : State) (e : Event) : (s.next e).poison = s.poison := rfl
@[simp] theorem State.next_errors (s : State) (e : Event) : (s.next e).errors = s.errors := rfl
@[simp] theorem State.next_dieErrors (s : State) (e : Event) : (s.next e).dieErrors = s.dieErrors := rfl
@[simp] theorem State.next_sramErrors (s : State) (e : Event) : (s.next e).sramErrors = s.sramErrors := rfl
@[simp] theorem State.next_remap (s : State) (e : Event) : (s.next e).remap = s.remap := rfl
@[simp] theorem State.next_copying (s : State) (e : Event) : (s.next e).copying = s.copying := rfl
@[simp] theorem State.next_peerPages (s : State) (e : Event) : (s.next e).peerPages = s.peerPages := rfl
@[simp] theorem State.next_cabling (s : State) (e : Event) : (s.next e).cabling = s.cabling := rfl
@[simp] theorem State.next_peerDenied (s : State) (e : Event) : (s.next e).peerDenied = s.peerDenied := rfl
@[simp] theorem State.next_hostAbsent (s : State) (e : Event) : (s.next e).hostAbsent = s.hostAbsent := rfl
@[simp] theorem State.next_failed (s : State) (e : Event) : (s.next e).failed = s.failed := rfl
@[simp] theorem State.dropMsg_gts (s : State) (n : Nat) : (s.dropMsg n).gts = s.gts := rfl
@[simp] theorem State.dropMsg_begun (s : State) (n : Nat) : (s.dropMsg n).begun = s.begun := rfl
@[simp] theorem State.dropMsg_focus (s : State) (n : Nat) : (s.dropMsg n).focus = s.focus := rfl
@[simp] theorem State.dropMsg_turn (s : State) (n : Nat) : (s.dropMsg n).turn = s.turn := rfl
@[simp] theorem State.dropMsg_agenda (s : State) (n : Nat) : (s.dropMsg n).agenda = s.agenda := rfl
@[simp] theorem State.dropMsg_due (s : State) (n : Nat) : (s.dropMsg n).due = s.due := rfl
@[simp] theorem State.dropMsg_ctr (s : State) (n : Nat) : (s.dropMsg n).ctr = s.ctr := rfl
@[simp] theorem State.dropMsg_latch (s : State) (n : Nat) : (s.dropMsg n).latch = s.latch := rfl
@[simp] theorem State.dropMsg_pa (s : State) (n : Nat) : (s.dropMsg n).pa = s.pa := rfl
@[simp] theorem State.dropMsg_host (s : State) (n : Nat) : (s.dropMsg n).host = s.host := rfl
@[simp] theorem State.dropMsg_peer (s : State) (n : Nat) : (s.dropMsg n).peer = s.peer := rfl
@[simp] theorem State.dropMsg_order (s : State) (n : Nat) : (s.dropMsg n).order = s.order := rfl
@[simp] theorem State.dropMsg_pub (s : State) (n : Nat) : (s.dropMsg n).pub = s.pub := rfl
@[simp] theorem State.dropMsg_cores (s : State) (n : Nat) : (s.dropMsg n).cores = s.cores := rfl
@[simp] theorem State.dropMsg_clusters (s : State) (n : Nat) : (s.dropMsg n).clusters = s.clusters := rfl
@[simp] theorem State.dropMsg_doms (s : State) (n : Nat) : (s.dropMsg n).doms = s.doms := rfl
@[simp] theorem State.dropMsg_households (s : State) (n : Nat) : (s.dropMsg n).households = s.households := rfl
@[simp] theorem State.dropMsg_ops (s : State) (n : Nat) : (s.dropMsg n).ops = s.ops := rfl
@[simp] theorem State.dropMsg_colls (s : State) (n : Nat) : (s.dropMsg n).colls = s.colls := rfl
@[simp] theorem State.dropMsg_queues (s : State) (n : Nat) : (s.dropMsg n).queues = s.queues := rfl
@[simp] theorem State.dropMsg_peats (s : State) (n : Nat) : (s.dropMsg n).peats = s.peats := rfl
@[simp] theorem State.dropMsg_mounts (s : State) (n : Nat) : (s.dropMsg n).mounts = s.mounts := rfl
@[simp] theorem State.dropMsg_tlb (s : State) (n : Nat) : (s.dropMsg n).tlb = s.tlb := rfl
@[simp] theorem State.dropMsg_links (s : State) (n : Nat) : (s.dropMsg n).links = s.links := rfl
@[simp] theorem State.dropMsg_hbmStacks (s : State) (n : Nat) : (s.dropMsg n).hbmStacks = s.hbmStacks := rfl
@[simp] theorem State.dropMsg_banks (s : State) (n : Nat) : (s.dropMsg n).banks = s.banks := rfl
@[simp] theorem State.dropMsg_dies (s : State) (n : Nat) : (s.dropMsg n).dies = s.dies := rfl
@[simp] theorem State.dropMsg_porch (s : State) (n : Nat) : (s.dropMsg n).porch = s.porch := rfl
@[simp] theorem State.dropMsg_removed (s : State) (n : Nat) : (s.dropMsg n).removed = s.removed := rfl
@[simp] theorem State.dropMsg_poison (s : State) (n : Nat) : (s.dropMsg n).poison = s.poison := rfl
@[simp] theorem State.dropMsg_errors (s : State) (n : Nat) : (s.dropMsg n).errors = s.errors := rfl
@[simp] theorem State.dropMsg_dieErrors (s : State) (n : Nat) : (s.dropMsg n).dieErrors = s.dieErrors := rfl
@[simp] theorem State.dropMsg_sramErrors (s : State) (n : Nat) : (s.dropMsg n).sramErrors = s.sramErrors := rfl
@[simp] theorem State.dropMsg_remap (s : State) (n : Nat) : (s.dropMsg n).remap = s.remap := rfl
@[simp] theorem State.dropMsg_copying (s : State) (n : Nat) : (s.dropMsg n).copying = s.copying := rfl
@[simp] theorem State.dropMsg_peerPages (s : State) (n : Nat) : (s.dropMsg n).peerPages = s.peerPages := rfl
@[simp] theorem State.dropMsg_cabling (s : State) (n : Nat) : (s.dropMsg n).cabling = s.cabling := rfl
@[simp] theorem State.dropMsg_peerDenied (s : State) (n : Nat) : (s.dropMsg n).peerDenied = s.peerDenied := rfl
@[simp] theorem State.dropMsg_hostAbsent (s : State) (n : Nat) : (s.dropMsg n).hostAbsent = s.hostAbsent := rfl
@[simp] theorem State.dropMsg_failed (s : State) (n : Nat) : (s.dropMsg n).failed = s.failed := rfl
@[simp] theorem State.fixedWrite_gts (s : State) (r : RegId) (v l : Nat) : (s.fixedWrite r v l).gts = s.gts := rfl
@[simp] theorem State.fixedWrite_begun (s : State) (r : RegId) (v l : Nat) : (s.fixedWrite r v l).begun = s.begun := rfl
@[simp] theorem State.fixedWrite_focus (s : State) (r : RegId) (v l : Nat) : (s.fixedWrite r v l).focus = s.focus := rfl
@[simp] theorem State.fixedWrite_turn (s : State) (r : RegId) (v l : Nat) : (s.fixedWrite r v l).turn = s.turn := rfl
@[simp] theorem State.fixedWrite_agenda (s : State) (r : RegId) (v l : Nat) : (s.fixedWrite r v l).agenda = s.agenda := rfl
@[simp] theorem State.fixedWrite_due (s : State) (r : RegId) (v l : Nat) : (s.fixedWrite r v l).due = s.due := rfl
@[simp] theorem State.fixedWrite_bag (s : State) (r : RegId) (v l : Nat) : (s.fixedWrite r v l).bag = s.bag := rfl
@[simp] theorem State.fixedWrite_ctr (s : State) (r : RegId) (v l : Nat) : (s.fixedWrite r v l).ctr = s.ctr := rfl
@[simp] theorem State.fixedWrite_latch (s : State) (r : RegId) (v l : Nat) : (s.fixedWrite r v l).latch = s.latch := rfl
@[simp] theorem State.fixedWrite_pa (s : State) (r : RegId) (v l : Nat) : (s.fixedWrite r v l).pa = s.pa := rfl
@[simp] theorem State.fixedWrite_host (s : State) (r : RegId) (v l : Nat) : (s.fixedWrite r v l).host = s.host := rfl
@[simp] theorem State.fixedWrite_peer (s : State) (r : RegId) (v l : Nat) : (s.fixedWrite r v l).peer = s.peer := rfl
@[simp] theorem State.fixedWrite_order (s : State) (r : RegId) (v l : Nat) : (s.fixedWrite r v l).order = s.order := rfl
@[simp] theorem State.fixedWrite_pub (s : State) (r : RegId) (v l : Nat) : (s.fixedWrite r v l).pub = s.pub := rfl
@[simp] theorem State.fixedWrite_clusters (s : State) (r : RegId) (v l : Nat) : (s.fixedWrite r v l).clusters = s.clusters := rfl
@[simp] theorem State.fixedWrite_doms (s : State) (r : RegId) (v l : Nat) : (s.fixedWrite r v l).doms = s.doms := rfl
@[simp] theorem State.fixedWrite_households (s : State) (r : RegId) (v l : Nat) : (s.fixedWrite r v l).households = s.households := rfl
@[simp] theorem State.fixedWrite_ops (s : State) (r : RegId) (v l : Nat) : (s.fixedWrite r v l).ops = s.ops := rfl
@[simp] theorem State.fixedWrite_colls (s : State) (r : RegId) (v l : Nat) : (s.fixedWrite r v l).colls = s.colls := rfl
@[simp] theorem State.fixedWrite_queues (s : State) (r : RegId) (v l : Nat) : (s.fixedWrite r v l).queues = s.queues := rfl
@[simp] theorem State.fixedWrite_peats (s : State) (r : RegId) (v l : Nat) : (s.fixedWrite r v l).peats = s.peats := rfl
@[simp] theorem State.fixedWrite_mounts (s : State) (r : RegId) (v l : Nat) : (s.fixedWrite r v l).mounts = s.mounts := rfl
@[simp] theorem State.fixedWrite_tlb (s : State) (r : RegId) (v l : Nat) : (s.fixedWrite r v l).tlb = s.tlb := rfl
@[simp] theorem State.fixedWrite_links (s : State) (r : RegId) (v l : Nat) : (s.fixedWrite r v l).links = s.links := rfl
@[simp] theorem State.fixedWrite_hbmStacks (s : State) (r : RegId) (v l : Nat) : (s.fixedWrite r v l).hbmStacks = s.hbmStacks := rfl
@[simp] theorem State.fixedWrite_banks (s : State) (r : RegId) (v l : Nat) : (s.fixedWrite r v l).banks = s.banks := rfl
@[simp] theorem State.fixedWrite_dies (s : State) (r : RegId) (v l : Nat) : (s.fixedWrite r v l).dies = s.dies := rfl
@[simp] theorem State.fixedWrite_porch (s : State) (r : RegId) (v l : Nat) : (s.fixedWrite r v l).porch = s.porch := rfl
@[simp] theorem State.fixedWrite_removed (s : State) (r : RegId) (v l : Nat) : (s.fixedWrite r v l).removed = s.removed := rfl
@[simp] theorem State.fixedWrite_poison (s : State) (r : RegId) (v l : Nat) : (s.fixedWrite r v l).poison = s.poison := rfl
@[simp] theorem State.fixedWrite_errors (s : State) (r : RegId) (v l : Nat) : (s.fixedWrite r v l).errors = s.errors := rfl
@[simp] theorem State.fixedWrite_dieErrors (s : State) (r : RegId) (v l : Nat) : (s.fixedWrite r v l).dieErrors = s.dieErrors := rfl
@[simp] theorem State.fixedWrite_sramErrors (s : State) (r : RegId) (v l : Nat) : (s.fixedWrite r v l).sramErrors = s.sramErrors := rfl
@[simp] theorem State.fixedWrite_remap (s : State) (r : RegId) (v l : Nat) : (s.fixedWrite r v l).remap = s.remap := rfl
@[simp] theorem State.fixedWrite_copying (s : State) (r : RegId) (v l : Nat) : (s.fixedWrite r v l).copying = s.copying := rfl
@[simp] theorem State.fixedWrite_peerPages (s : State) (r : RegId) (v l : Nat) : (s.fixedWrite r v l).peerPages = s.peerPages := rfl
@[simp] theorem State.fixedWrite_cabling (s : State) (r : RegId) (v l : Nat) : (s.fixedWrite r v l).cabling = s.cabling := rfl
@[simp] theorem State.fixedWrite_peerDenied (s : State) (r : RegId) (v l : Nat) : (s.fixedWrite r v l).peerDenied = s.peerDenied := rfl
@[simp] theorem State.fixedWrite_hostAbsent (s : State) (r : RegId) (v l : Nat) : (s.fixedWrite r v l).hostAbsent = s.hostAbsent := rfl
@[simp] theorem State.fixedWrite_failed (s : State) (r : RegId) (v l : Nat) : (s.fixedWrite r v l).failed = s.failed := rfl
@[simp] theorem State.longStart_gts (s : State) (r : RegId) (t : TokRef) : (s.longStart r t).gts = s.gts := rfl
@[simp] theorem State.longStart_begun (s : State) (r : RegId) (t : TokRef) : (s.longStart r t).begun = s.begun := rfl
@[simp] theorem State.longStart_focus (s : State) (r : RegId) (t : TokRef) : (s.longStart r t).focus = s.focus := rfl
@[simp] theorem State.longStart_turn (s : State) (r : RegId) (t : TokRef) : (s.longStart r t).turn = s.turn := rfl
@[simp] theorem State.longStart_agenda (s : State) (r : RegId) (t : TokRef) : (s.longStart r t).agenda = s.agenda := rfl
@[simp] theorem State.longStart_due (s : State) (r : RegId) (t : TokRef) : (s.longStart r t).due = s.due := rfl
@[simp] theorem State.longStart_bag (s : State) (r : RegId) (t : TokRef) : (s.longStart r t).bag = s.bag := rfl
@[simp] theorem State.longStart_ctr (s : State) (r : RegId) (t : TokRef) : (s.longStart r t).ctr = s.ctr := rfl
@[simp] theorem State.longStart_latch (s : State) (r : RegId) (t : TokRef) : (s.longStart r t).latch = s.latch := rfl
@[simp] theorem State.longStart_pa (s : State) (r : RegId) (t : TokRef) : (s.longStart r t).pa = s.pa := rfl
@[simp] theorem State.longStart_host (s : State) (r : RegId) (t : TokRef) : (s.longStart r t).host = s.host := rfl
@[simp] theorem State.longStart_peer (s : State) (r : RegId) (t : TokRef) : (s.longStart r t).peer = s.peer := rfl
@[simp] theorem State.longStart_order (s : State) (r : RegId) (t : TokRef) : (s.longStart r t).order = s.order := rfl
@[simp] theorem State.longStart_pub (s : State) (r : RegId) (t : TokRef) : (s.longStart r t).pub = s.pub := rfl
@[simp] theorem State.longStart_clusters (s : State) (r : RegId) (t : TokRef) : (s.longStart r t).clusters = s.clusters := rfl
@[simp] theorem State.longStart_doms (s : State) (r : RegId) (t : TokRef) : (s.longStart r t).doms = s.doms := rfl
@[simp] theorem State.longStart_households (s : State) (r : RegId) (t : TokRef) : (s.longStart r t).households = s.households := rfl
@[simp] theorem State.longStart_ops (s : State) (r : RegId) (t : TokRef) : (s.longStart r t).ops = s.ops := rfl
@[simp] theorem State.longStart_colls (s : State) (r : RegId) (t : TokRef) : (s.longStart r t).colls = s.colls := rfl
@[simp] theorem State.longStart_queues (s : State) (r : RegId) (t : TokRef) : (s.longStart r t).queues = s.queues := rfl
@[simp] theorem State.longStart_peats (s : State) (r : RegId) (t : TokRef) : (s.longStart r t).peats = s.peats := rfl
@[simp] theorem State.longStart_mounts (s : State) (r : RegId) (t : TokRef) : (s.longStart r t).mounts = s.mounts := rfl
@[simp] theorem State.longStart_tlb (s : State) (r : RegId) (t : TokRef) : (s.longStart r t).tlb = s.tlb := rfl
@[simp] theorem State.longStart_links (s : State) (r : RegId) (t : TokRef) : (s.longStart r t).links = s.links := rfl
@[simp] theorem State.longStart_hbmStacks (s : State) (r : RegId) (t : TokRef) : (s.longStart r t).hbmStacks = s.hbmStacks := rfl
@[simp] theorem State.longStart_banks (s : State) (r : RegId) (t : TokRef) : (s.longStart r t).banks = s.banks := rfl
@[simp] theorem State.longStart_dies (s : State) (r : RegId) (t : TokRef) : (s.longStart r t).dies = s.dies := rfl
@[simp] theorem State.longStart_porch (s : State) (r : RegId) (t : TokRef) : (s.longStart r t).porch = s.porch := rfl
@[simp] theorem State.longStart_removed (s : State) (r : RegId) (t : TokRef) : (s.longStart r t).removed = s.removed := rfl
@[simp] theorem State.longStart_poison (s : State) (r : RegId) (t : TokRef) : (s.longStart r t).poison = s.poison := rfl
@[simp] theorem State.longStart_errors (s : State) (r : RegId) (t : TokRef) : (s.longStart r t).errors = s.errors := rfl
@[simp] theorem State.longStart_dieErrors (s : State) (r : RegId) (t : TokRef) : (s.longStart r t).dieErrors = s.dieErrors := rfl
@[simp] theorem State.longStart_sramErrors (s : State) (r : RegId) (t : TokRef) : (s.longStart r t).sramErrors = s.sramErrors := rfl
@[simp] theorem State.longStart_remap (s : State) (r : RegId) (t : TokRef) : (s.longStart r t).remap = s.remap := rfl
@[simp] theorem State.longStart_copying (s : State) (r : RegId) (t : TokRef) : (s.longStart r t).copying = s.copying := rfl
@[simp] theorem State.longStart_peerPages (s : State) (r : RegId) (t : TokRef) : (s.longStart r t).peerPages = s.peerPages := rfl
@[simp] theorem State.longStart_cabling (s : State) (r : RegId) (t : TokRef) : (s.longStart r t).cabling = s.cabling := rfl
@[simp] theorem State.longStart_peerDenied (s : State) (r : RegId) (t : TokRef) : (s.longStart r t).peerDenied = s.peerDenied := rfl
@[simp] theorem State.longStart_hostAbsent (s : State) (r : RegId) (t : TokRef) : (s.longStart r t).hostAbsent = s.hostAbsent := rfl
@[simp] theorem State.longStart_failed (s : State) (r : RegId) (t : TokRef) : (s.longStart r t).failed = s.failed := rfl

end Sys2Proof.Machine
end

