-- ==== Sys2Proof/Laws/Banks.lean ====
section
/-! SUPPORT. What an access to an HBM bank can change (R430 to R435). -/
namespace Sys2Proof.Machine

/-- A state that differs in what the stacks, the banks and the two lists of coming events hold. -/
def State.banksOnly (s t : State) : Prop :=
  ∃ st bk ag du, t = { s with hbmStacks := st, banks := bk, agenda := ag, due := du }

theorem State.banksOnly_refl (s : State) : s.banksOnly s := ⟨_, _, _, _, rfl⟩
theorem State.banksOnly_trans {s t u : State} (h : s.banksOnly t) (k : t.banksOnly u) : s.banksOnly u := by
  obtain ⟨a, b, c, d, rfl⟩ := h
  obtain ⟨a', b', c', d', rfl⟩ := k
  exact ⟨a', b', c', d', rfl⟩
theorem State.banksOnly_ite {s t u : State} {c : Prop} [Decidable c] (h : s.banksOnly t) (k : s.banksOnly u) :
    s.banksOnly (if c then t else u) := by
  split
  · exact h
  · exact k
theorem State.track_spec (s : State) (pa : Nat) : s.banksOnly (s.track pa) :=
  State.banksOnly_ite ⟨_, _, _, _, rfl⟩ ⟨_, _, _, _, rfl⟩
theorem State.activate_spec (s : State) (pa : Nat) : s.banksOnly (s.activate pa) :=
  State.banksOnly_ite ⟨_, _, _, _, rfl⟩
    (State.banksOnly_ite (State.banksOnly_trans ⟨_, _, _, _, rfl⟩ (State.track_spec _ pa))
      (State.banksOnly_trans (State.banksOnly_trans ⟨_, _, _, _, rfl⟩ (State.track_spec _ pa)) ⟨_, _, _, _, rfl⟩))
theorem State.touch_spec (s : State) (pa : Nat) : s.banksOnly (s.touch pa) := by
  unfold State.touch
  split
  · exact s.banksOnly_refl
  · split
    · exact ⟨_, _, _, _, rfl⟩
    · exact s.activate_spec pa
/-- Opening the rows that an access reaches changes the banks, their stacks and the coming events, and nothing else. -/
theorem State.touchVa_spec (s : State) (hid va n : Nat) : s.banksOnly (s.touchVa hid va n) := by
  unfold State.touchVa
  generalize atomVas va n = l
  induction l generalizing s with
  | nil => exact s.banksOnly_refl
  | cons a l ih =>
    rw [List.foldl_cons]
    refine State.banksOnly_trans ?_ (ih _)
    split
    · exact s.touch_spec _
    · exact s.banksOnly_refl
@[simp] theorem State.touchVa_cores (s : State) (hid va n : Nat) : (s.touchVa hid va n).cores = s.cores := by
  obtain ⟨_, _, _, _, e⟩ := s.touchVa_spec hid va n
  rw [e]
@[simp] theorem State.touchVa_focus (s : State) (hid va n : Nat) : (s.touchVa hid va n).focus = s.focus := by
  obtain ⟨_, _, _, _, e⟩ := s.touchVa_spec hid va n
  rw [e]
@[simp] theorem State.touchVa_gts (s : State) (hid va n : Nat) : (s.touchVa hid va n).gts = s.gts := by
  obtain ⟨_, _, _, _, e⟩ := s.touchVa_spec hid va n
  rw [e]
@[simp] theorem State.touchVa_ctr (s : State) (hid va n : Nat) : (s.touchVa hid va n).ctr = s.ctr := by
  obtain ⟨_, _, _, _, e⟩ := s.touchVa_spec hid va n
  rw [e]
@[simp] theorem State.touchVa_pa (s : State) (hid va n : Nat) : (s.touchVa hid va n).pa = s.pa := by
  obtain ⟨_, _, _, _, e⟩ := s.touchVa_spec hid va n
  rw [e]
@[simp] theorem State.touchVa_latch (s : State) (hid va n : Nat) : (s.touchVa hid va n).latch = s.latch := by
  obtain ⟨_, _, _, _, e⟩ := s.touchVa_spec hid va n
  rw [e]
@[simp] theorem State.touchVa_coreOf (s : State) (hid va n c : Nat) : (s.touchVa hid va n).coreOf c = s.coreOf c := by
  simp [State.coreOf]

end Sys2Proof.Machine
end

