-- ==== Sys2Proof/Laws/Encoding.lean ====
section
/-! SUPPORT. The fields of a word that the encoder has made, for every shape of its operands. -/
set_option Elab.async false
namespace Sys2Proof

theorem fld_cWord_op (h : CHead) (c : BitVec 7) (o : BitVec 18) : fld (cWord h c o) 18 7 = c := by
  change BitVec.extractLsb' 18 7 (h.bits ++ c ++ o) = c
  rw [BitVec.extractLsb'_append_eq_of_le (by decide), BitVec.extractLsb'_append_eq_of_add_le (by decide)]
  exact BitVec.extractLsb'_eq_self
theorem fld_cWord {lo n : Nat} (h : CHead) (c : BitVec 7) (o : BitVec 18) (hl : lo + n ≤ 18) :
    fld (cWord h c o) lo n = o.extractLsb' lo n := by
  change BitVec.extractLsb' lo n (h.bits ++ c ++ o) = _
  exact BitVec.extractLsb'_append_eq_of_add_le hl
theorem head_cWord (h : CHead) (c : BitVec 7) (o : BitVec 18) : decodeHead (cWord h c o) = h := by
  have e (lo n : Nat) (hl : lo + n ≤ 7) : fld (cWord h c o) (25 + lo) n = h.bits.extractLsb' lo n := by
    change BitVec.extractLsb' (25 + lo) n (h.bits ++ c ++ o) = _
    rw [BitVec.append_assoc]
    change BitVec.extractLsb' (25 + lo) n (h.bits ++ (c ++ o)) = _
    rw [BitVec.extractLsb'_append_eq_of_le (by omega)]
    simp
  unfold decodeHead
  rw [show (31 : Nat) = 25 + 6 from rfl, show (27 : Nat) = 25 + 2 from rfl, e 6 1 (by decide), e 2 4 (by decide)]
  rw [show fld (cWord h c o) 25 2 = h.bits.extractLsb' 0 2 from e 0 2 (by decide)]
  obtain ⟨ln, wk, wn⟩ := h
  change CHead.mk (BitVec.extractLsb' 6 1 (BitVec.ofBool ln ++ wk ++ wn) == 1) (BitVec.extractLsb' 2 4 (BitVec.ofBool ln ++ wk ++ wn))
    (BitVec.extractLsb' 0 2 (BitVec.ofBool ln ++ wk ++ wn)) = _
  rw [BitVec.extractLsb'_append_eq_of_le (by decide), BitVec.extractLsb'_append_eq_of_le (by decide),
    BitVec.extractLsb'_append_eq_of_le (by decide), BitVec.extractLsb'_append_eq_of_add_le (by decide),
    BitVec.extractLsb'_append_eq_of_add_le (by decide)]
  cases ln <;> simp
theorem fld_aWord_op (c : BitVec 7) (o : BitVec 25) : fld (aWord c o) 25 7 = c := by
  change BitVec.extractLsb' 25 7 (c ++ o) = c
  rw [BitVec.extractLsb'_append_eq_of_le (by decide)]
  exact BitVec.extractLsb'_eq_self
theorem fld_aWord {lo n : Nat} (c : BitVec 7) (o : BitVec 25) (hl : lo + n ≤ 25) :
    fld (aWord c o) lo n = o.extractLsb' lo n := by
  change BitVec.extractLsb' lo n (c ++ o) = _
  exact BitVec.extractLsb'_append_eq_of_add_le hl
theorem ex_hi {v w start len : Nat} {x : BitVec v} {y : BitVec w} (h : w ≤ start) :
    BitVec.extractLsb' start len (x ++ y) = BitVec.extractLsb' (start - w) len x := BitVec.extractLsb'_append_eq_of_le h
theorem ex_lo {v w start len : Nat} {x : BitVec v} {y : BitVec w} (h : start + len ≤ w) :
    BitVec.extractLsb' start len (x ++ y) = BitVec.extractLsb' start len y := BitVec.extractLsb'_append_eq_of_add_le h
theorem ex_all {w : Nat} {x : BitVec w} : BitVec.extractLsb' 0 w x = x := BitVec.extractLsb'_eq_self

/-! Shapes: widths of the operand fields from the highest bit down. -/

theorem cutA_3_3_3_16 (op : BitVec 7) (x0 : BitVec 3) (x1 : BitVec 3) (x2 : BitVec 3) (x3 : BitVec 16) :
    fld (aWord op (x0 ++ x1 ++ x2 ++ x3)) 22 3 = x0 ∧
    fld (aWord op (x0 ++ x1 ++ x2 ++ x3)) 19 3 = x1 ∧
    fld (aWord op (x0 ++ x1 ++ x2 ++ x3)) 16 3 = x2 ∧
    fld (aWord op (x0 ++ x1 ++ x2 ++ x3)) 0 16 = x3 :=
  ⟨by rw [fld_aWord _ _ (by decide), ex_hi (by decide), ex_hi (by decide), ex_hi (by decide), ex_all],
    by rw [fld_aWord _ _ (by decide), ex_hi (by decide), ex_hi (by decide), ex_lo (by decide), ex_all],
    by rw [fld_aWord _ _ (by decide), ex_hi (by decide), ex_lo (by decide), ex_all],
    by rw [fld_aWord _ _ (by decide), ex_lo (by decide), ex_all]⟩
theorem cutA_3_3_5_4_10 (op : BitVec 7) (x0 : BitVec 3) (x1 : BitVec 3) (x2 : BitVec 5) (x3 : BitVec 4) (x4 : BitVec 10) :
    fld (aWord op (x0 ++ x1 ++ x2 ++ x3 ++ x4)) 22 3 = x0 ∧
    fld (aWord op (x0 ++ x1 ++ x2 ++ x3 ++ x4)) 19 3 = x1 ∧
    fld (aWord op (x0 ++ x1 ++ x2 ++ x3 ++ x4)) 14 5 = x2 ∧
    fld (aWord op (x0 ++ x1 ++ x2 ++ x3 ++ x4)) 10 4 = x3 ∧
    fld (aWord op (x0 ++ x1 ++ x2 ++ x3 ++ x4)) 0 10 = x4 :=
  ⟨by rw [fld_aWord _ _ (by decide), ex_hi (by decide), ex_hi (by decide), ex_hi (by decide), ex_hi (by decide), ex_all],
    by rw [fld_aWord _ _ (by decide), ex_hi (by decide), ex_hi (by decide), ex_hi (by decide), ex_lo (by decide), ex_all],
    by rw [fld_aWord _ _ (by decide), ex_hi (by decide), ex_hi (by decide), ex_lo (by decide), ex_all],
    by rw [fld_aWord _ _ (by decide), ex_hi (by decide), ex_lo (by decide), ex_all],
    by rw [fld_aWord _ _ (by decide), ex_lo (by decide), ex_all]⟩
theorem cutA_3_3_5_5_4_5 (op : BitVec 7) (x0 : BitVec 3) (x1 : BitVec 3) (x2 : BitVec 5) (x3 : BitVec 5) (x4 : BitVec 4) (x5 : BitVec 5) :
    fld (aWord op (x0 ++ x1 ++ x2 ++ x3 ++ x4 ++ x5)) 22 3 = x0 ∧
    fld (aWord op (x0 ++ x1 ++ x2 ++ x3 ++ x4 ++ x5)) 19 3 = x1 ∧
    fld (aWord op (x0 ++ x1 ++ x2 ++ x3 ++ x4 ++ x5)) 14 5 = x2 ∧
    fld (aWord op (x0 ++ x1 ++ x2 ++ x3 ++ x4 ++ x5)) 9 5 = x3 ∧
    fld (aWord op (x0 ++ x1 ++ x2 ++ x3 ++ x4 ++ x5)) 5 4 = x4 ∧
    fld (aWord op (x0 ++ x1 ++ x2 ++ x3 ++ x4 ++ x5)) 0 5 = x5 :=
  ⟨by rw [fld_aWord _ _ (by decide), ex_hi (by decide), ex_hi (by decide), ex_hi (by decide), ex_hi (by decide), ex_hi (by decide), ex_all],
    by rw [fld_aWord _ _ (by decide), ex_hi (by decide), ex_hi (by decide), ex_hi (by decide), ex_hi (by decide), ex_lo (by decide), ex_all],
    by rw [fld_aWord _ _ (by decide), ex_hi (by decide), ex_hi (by decide), ex_hi (by decide), ex_lo (by decide), ex_all],
    by rw [fld_aWord _ _ (by decide), ex_hi (by decide), ex_hi (by decide), ex_lo (by decide), ex_all],
    by rw [fld_aWord _ _ (by decide), ex_hi (by decide), ex_lo (by decide), ex_all],
    by rw [fld_aWord _ _ (by decide), ex_lo (by decide), ex_all]⟩
theorem cutA_3_3_6_5_1_4_3 (op : BitVec 7) (x0 : BitVec 3) (x1 : BitVec 3) (x2 : BitVec 6) (x3 : BitVec 5) (x4 : BitVec 1) (x5 : BitVec 4) (x6 : BitVec 3) :
    fld (aWord op (x0 ++ x1 ++ x2 ++ x3 ++ x4 ++ x5 ++ x6)) 22 3 = x0 ∧
    fld (aWord op (x0 ++ x1 ++ x2 ++ x3 ++ x4 ++ x5 ++ x6)) 19 3 = x1 ∧
    fld (aWord op (x0 ++ x1 ++ x2 ++ x3 ++ x4 ++ x5 ++ x6)) 13 6 = x2 ∧
    fld (aWord op (x0 ++ x1 ++ x2 ++ x3 ++ x4 ++ x5 ++ x6)) 8 5 = x3 ∧
    fld (aWord op (x0 ++ x1 ++ x2 ++ x3 ++ x4 ++ x5 ++ x6)) 7 1 = x4 ∧
    fld (aWord op (x0 ++ x1 ++ x2 ++ x3 ++ x4 ++ x5 ++ x6)) 3 4 = x5 ∧
    fld (aWord op (x0 ++ x1 ++ x2 ++ x3 ++ x4 ++ x5 ++ x6)) 0 3 = x6 :=
  ⟨by rw [fld_aWord _ _ (by decide), ex_hi (by decide), ex_hi (by decide), ex_hi (by decide), ex_hi (by decide), ex_hi (by decide), ex_hi (by decide), ex_all],
    by rw [fld_aWord _ _ (by decide), ex_hi (by decide), ex_hi (by decide), ex_hi (by decide), ex_hi (by decide), ex_hi (by decide), ex_lo (by decide), ex_all],
    by rw [fld_aWord _ _ (by decide), ex_hi (by decide), ex_hi (by decide), ex_hi (by decide), ex_hi (by decide), ex_lo (by decide), ex_all],
    by rw [fld_aWord _ _ (by decide), ex_hi (by decide), ex_hi (by decide), ex_hi (by decide), ex_lo (by decide), ex_all],
    by rw [fld_aWord _ _ (by decide), ex_hi (by decide), ex_hi (by decide), ex_lo (by decide), ex_all],
    by rw [fld_aWord _ _ (by decide), ex_hi (by decide), ex_lo (by decide), ex_all],
    by rw [fld_aWord _ _ (by decide), ex_lo (by decide), ex_all]⟩
theorem cutA_3_3_6_6_4_3 (op : BitVec 7) (x0 : BitVec 3) (x1 : BitVec 3) (x2 : BitVec 6) (x3 : BitVec 6) (x4 : BitVec 4) (x5 : BitVec 3) :
    fld (aWord op (x0 ++ x1 ++ x2 ++ x3 ++ x4 ++ x5)) 22 3 = x0 ∧
    fld (aWord op (x0 ++ x1 ++ x2 ++ x3 ++ x4 ++ x5)) 19 3 = x1 ∧
    fld (aWord op (x0 ++ x1 ++ x2 ++ x3 ++ x4 ++ x5)) 13 6 = x2 ∧
    fld (aWord op (x0 ++ x1 ++ x2 ++ x3 ++ x4 ++ x5)) 7 6 = x3 ∧
    fld (aWord op (x0 ++ x1 ++ x2 ++ x3 ++ x4 ++ x5)) 3 4 = x4 ∧
    fld (aWord op (x0 ++ x1 ++ x2 ++ x3 ++ x4 ++ x5)) 0 3 = x5 :=
  ⟨by rw [fld_aWord _ _ (by decide), ex_hi (by decide), ex_hi (by decide), ex_hi (by decide), ex_hi (by decide), ex_hi (by decide), ex_all],
    by rw [fld_aWord _ _ (by decide), ex_hi (by decide), ex_hi (by decide), ex_hi (by decide), ex_hi (by decide), ex_lo (by decide), ex_all],
    by rw [fld_aWord _ _ (by decide), ex_hi (by decide), ex_hi (by decide), ex_hi (by decide), ex_lo (by decide), ex_all],
    by rw [fld_aWord _ _ (by decide), ex_hi (by decide), ex_hi (by decide), ex_lo (by decide), ex_all],
    by rw [fld_aWord _ _ (by decide), ex_hi (by decide), ex_lo (by decide), ex_all],
    by rw [fld_aWord _ _ (by decide), ex_lo (by decide), ex_all]⟩
theorem cutA_3_3_19 (op : BitVec 7) (x0 : BitVec 3) (x1 : BitVec 3) (x2 : BitVec 19) :
    fld (aWord op (x0 ++ x1 ++ x2)) 22 3 = x0 ∧
    fld (aWord op (x0 ++ x1 ++ x2)) 19 3 = x1 ∧
    fld (aWord op (x0 ++ x1 ++ x2)) 0 19 = x2 :=
  ⟨by rw [fld_aWord _ _ (by decide), ex_hi (by decide), ex_hi (by decide), ex_all],
    by rw [fld_aWord _ _ (by decide), ex_hi (by decide), ex_lo (by decide), ex_all],
    by rw [fld_aWord _ _ (by decide), ex_lo (by decide), ex_all]⟩
theorem cutA_3_5_17 (op : BitVec 7) (x0 : BitVec 3) (x1 : BitVec 5) (x2 : BitVec 17) :
    fld (aWord op (x0 ++ x1 ++ x2)) 22 3 = x0 ∧
    fld (aWord op (x0 ++ x1 ++ x2)) 17 5 = x1 ∧
    fld (aWord op (x0 ++ x1 ++ x2)) 0 17 = x2 :=
  ⟨by rw [fld_aWord _ _ (by decide), ex_hi (by decide), ex_hi (by decide), ex_all],
    by rw [fld_aWord _ _ (by decide), ex_hi (by decide), ex_lo (by decide), ex_all],
    by rw [fld_aWord _ _ (by decide), ex_lo (by decide), ex_all]⟩
theorem cutA_5_5_4_4_7 (op : BitVec 7) (x0 : BitVec 5) (x1 : BitVec 5) (x2 : BitVec 4) (x3 : BitVec 4) (x4 : BitVec 7) :
    fld (aWord op (x0 ++ x1 ++ x2 ++ x3 ++ x4)) 20 5 = x0 ∧
    fld (aWord op (x0 ++ x1 ++ x2 ++ x3 ++ x4)) 15 5 = x1 ∧
    fld (aWord op (x0 ++ x1 ++ x2 ++ x3 ++ x4)) 11 4 = x2 ∧
    fld (aWord op (x0 ++ x1 ++ x2 ++ x3 ++ x4)) 7 4 = x3 ∧
    fld (aWord op (x0 ++ x1 ++ x2 ++ x3 ++ x4)) 0 7 = x4 :=
  ⟨by rw [fld_aWord _ _ (by decide), ex_hi (by decide), ex_hi (by decide), ex_hi (by decide), ex_hi (by decide), ex_all],
    by rw [fld_aWord _ _ (by decide), ex_hi (by decide), ex_hi (by decide), ex_hi (by decide), ex_lo (by decide), ex_all],
    by rw [fld_aWord _ _ (by decide), ex_hi (by decide), ex_hi (by decide), ex_lo (by decide), ex_all],
    by rw [fld_aWord _ _ (by decide), ex_hi (by decide), ex_lo (by decide), ex_all],
    by rw [fld_aWord _ _ (by decide), ex_lo (by decide), ex_all]⟩
theorem cutA_5_5_5_3_7 (op : BitVec 7) (x0 : BitVec 5) (x1 : BitVec 5) (x2 : BitVec 5) (x3 : BitVec 3) (x4 : BitVec 7) :
    fld (aWord op (x0 ++ x1 ++ x2 ++ x3 ++ x4)) 20 5 = x0 ∧
    fld (aWord op (x0 ++ x1 ++ x2 ++ x3 ++ x4)) 15 5 = x1 ∧
    fld (aWord op (x0 ++ x1 ++ x2 ++ x3 ++ x4)) 10 5 = x2 ∧
    fld (aWord op (x0 ++ x1 ++ x2 ++ x3 ++ x4)) 7 3 = x3 ∧
    fld (aWord op (x0 ++ x1 ++ x2 ++ x3 ++ x4)) 0 7 = x4 :=
  ⟨by rw [fld_aWord _ _ (by decide), ex_hi (by decide), ex_hi (by decide), ex_hi (by decide), ex_hi (by decide), ex_all],
    by rw [fld_aWord _ _ (by decide), ex_hi (by decide), ex_hi (by decide), ex_hi (by decide), ex_lo (by decide), ex_all],
    by rw [fld_aWord _ _ (by decide), ex_hi (by decide), ex_hi (by decide), ex_lo (by decide), ex_all],
    by rw [fld_aWord _ _ (by decide), ex_hi (by decide), ex_lo (by decide), ex_all],
    by rw [fld_aWord _ _ (by decide), ex_lo (by decide), ex_all]⟩
theorem cutA_5_5_5_4_6 (op : BitVec 7) (x0 : BitVec 5) (x1 : BitVec 5) (x2 : BitVec 5) (x3 : BitVec 4) (x4 : BitVec 6) :
    fld (aWord op (x0 ++ x1 ++ x2 ++ x3 ++ x4)) 20 5 = x0 ∧
    fld (aWord op (x0 ++ x1 ++ x2 ++ x3 ++ x4)) 15 5 = x1 ∧
    fld (aWord op (x0 ++ x1 ++ x2 ++ x3 ++ x4)) 10 5 = x2 ∧
    fld (aWord op (x0 ++ x1 ++ x2 ++ x3 ++ x4)) 6 4 = x3 ∧
    fld (aWord op (x0 ++ x1 ++ x2 ++ x3 ++ x4)) 0 6 = x4 :=
  ⟨by rw [fld_aWord _ _ (by decide), ex_hi (by decide), ex_hi (by decide), ex_hi (by decide), ex_hi (by decide), ex_all],
    by rw [fld_aWord _ _ (by decide), ex_hi (by decide), ex_hi (by decide), ex_hi (by decide), ex_lo (by decide), ex_all],
    by rw [fld_aWord _ _ (by decide), ex_hi (by decide), ex_hi (by decide), ex_lo (by decide), ex_all],
    by rw [fld_aWord _ _ (by decide), ex_hi (by decide), ex_lo (by decide), ex_all],
    by rw [fld_aWord _ _ (by decide), ex_lo (by decide), ex_all]⟩
theorem cutA_5_5_5_5_5 (op : BitVec 7) (x0 : BitVec 5) (x1 : BitVec 5) (x2 : BitVec 5) (x3 : BitVec 5) (x4 : BitVec 5) :
    fld (aWord op (x0 ++ x1 ++ x2 ++ x3 ++ x4)) 20 5 = x0 ∧
    fld (aWord op (x0 ++ x1 ++ x2 ++ x3 ++ x4)) 15 5 = x1 ∧
    fld (aWord op (x0 ++ x1 ++ x2 ++ x3 ++ x4)) 10 5 = x2 ∧
    fld (aWord op (x0 ++ x1 ++ x2 ++ x3 ++ x4)) 5 5 = x3 ∧
    fld (aWord op (x0 ++ x1 ++ x2 ++ x3 ++ x4)) 0 5 = x4 :=
  ⟨by rw [fld_aWord _ _ (by decide), ex_hi (by decide), ex_hi (by decide), ex_hi (by decide), ex_hi (by decide), ex_all],
    by rw [fld_aWord _ _ (by decide), ex_hi (by decide), ex_hi (by decide), ex_hi (by decide), ex_lo (by decide), ex_all],
    by rw [fld_aWord _ _ (by decide), ex_hi (by decide), ex_hi (by decide), ex_lo (by decide), ex_all],
    by rw [fld_aWord _ _ (by decide), ex_hi (by decide), ex_lo (by decide), ex_all],
    by rw [fld_aWord _ _ (by decide), ex_lo (by decide), ex_all]⟩
theorem cutA_5_5_5_10 (op : BitVec 7) (x0 : BitVec 5) (x1 : BitVec 5) (x2 : BitVec 5) (x3 : BitVec 10) :
    fld (aWord op (x0 ++ x1 ++ x2 ++ x3)) 20 5 = x0 ∧
    fld (aWord op (x0 ++ x1 ++ x2 ++ x3)) 15 5 = x1 ∧
    fld (aWord op (x0 ++ x1 ++ x2 ++ x3)) 10 5 = x2 ∧
    fld (aWord op (x0 ++ x1 ++ x2 ++ x3)) 0 10 = x3 :=
  ⟨by rw [fld_aWord _ _ (by decide), ex_hi (by decide), ex_hi (by decide), ex_hi (by decide), ex_all],
    by rw [fld_aWord _ _ (by decide), ex_hi (by decide), ex_hi (by decide), ex_lo (by decide), ex_all],
    by rw [fld_aWord _ _ (by decide), ex_hi (by decide), ex_lo (by decide), ex_all],
    by rw [fld_aWord _ _ (by decide), ex_lo (by decide), ex_all]⟩
theorem cutA_5_5_9_6 (op : BitVec 7) (x0 : BitVec 5) (x1 : BitVec 5) (x2 : BitVec 9) (x3 : BitVec 6) :
    fld (aWord op (x0 ++ x1 ++ x2 ++ x3)) 20 5 = x0 ∧
    fld (aWord op (x0 ++ x1 ++ x2 ++ x3)) 15 5 = x1 ∧
    fld (aWord op (x0 ++ x1 ++ x2 ++ x3)) 6 9 = x2 ∧
    fld (aWord op (x0 ++ x1 ++ x2 ++ x3)) 0 6 = x3 :=
  ⟨by rw [fld_aWord _ _ (by decide), ex_hi (by decide), ex_hi (by decide), ex_hi (by decide), ex_all],
    by rw [fld_aWord _ _ (by decide), ex_hi (by decide), ex_hi (by decide), ex_lo (by decide), ex_all],
    by rw [fld_aWord _ _ (by decide), ex_hi (by decide), ex_lo (by decide), ex_all],
    by rw [fld_aWord _ _ (by decide), ex_lo (by decide), ex_all]⟩
theorem cutA_5_5_15 (op : BitVec 7) (x0 : BitVec 5) (x1 : BitVec 5) (x2 : BitVec 15) :
    fld (aWord op (x0 ++ x1 ++ x2)) 20 5 = x0 ∧
    fld (aWord op (x0 ++ x1 ++ x2)) 15 5 = x1 ∧
    fld (aWord op (x0 ++ x1 ++ x2)) 0 15 = x2 :=
  ⟨by rw [fld_aWord _ _ (by decide), ex_hi (by decide), ex_hi (by decide), ex_all],
    by rw [fld_aWord _ _ (by decide), ex_hi (by decide), ex_lo (by decide), ex_all],
    by rw [fld_aWord _ _ (by decide), ex_lo (by decide), ex_all]⟩
theorem cutA_5_6_5_9 (op : BitVec 7) (x0 : BitVec 5) (x1 : BitVec 6) (x2 : BitVec 5) (x3 : BitVec 9) :
    fld (aWord op (x0 ++ x1 ++ x2 ++ x3)) 20 5 = x0 ∧
    fld (aWord op (x0 ++ x1 ++ x2 ++ x3)) 14 6 = x1 ∧
    fld (aWord op (x0 ++ x1 ++ x2 ++ x3)) 9 5 = x2 ∧
    fld (aWord op (x0 ++ x1 ++ x2 ++ x3)) 0 9 = x3 :=
  ⟨by rw [fld_aWord _ _ (by decide), ex_hi (by decide), ex_hi (by decide), ex_hi (by decide), ex_all],
    by rw [fld_aWord _ _ (by decide), ex_hi (by decide), ex_hi (by decide), ex_lo (by decide), ex_all],
    by rw [fld_aWord _ _ (by decide), ex_hi (by decide), ex_lo (by decide), ex_all],
    by rw [fld_aWord _ _ (by decide), ex_lo (by decide), ex_all]⟩
theorem cutA_5_20 (op : BitVec 7) (x0 : BitVec 5) (x1 : BitVec 20) :
    fld (aWord op (x0 ++ x1)) 20 5 = x0 ∧
    fld (aWord op (x0 ++ x1)) 0 20 = x1 :=
  ⟨by rw [fld_aWord _ _ (by decide), ex_hi (by decide), ex_all],
    by rw [fld_aWord _ _ (by decide), ex_lo (by decide), ex_all]⟩
theorem cutA_6_5_5_9 (op : BitVec 7) (x0 : BitVec 6) (x1 : BitVec 5) (x2 : BitVec 5) (x3 : BitVec 9) :
    fld (aWord op (x0 ++ x1 ++ x2 ++ x3)) 19 6 = x0 ∧
    fld (aWord op (x0 ++ x1 ++ x2 ++ x3)) 14 5 = x1 ∧
    fld (aWord op (x0 ++ x1 ++ x2 ++ x3)) 9 5 = x2 ∧
    fld (aWord op (x0 ++ x1 ++ x2 ++ x3)) 0 9 = x3 :=
  ⟨by rw [fld_aWord _ _ (by decide), ex_hi (by decide), ex_hi (by decide), ex_hi (by decide), ex_all],
    by rw [fld_aWord _ _ (by decide), ex_hi (by decide), ex_hi (by decide), ex_lo (by decide), ex_all],
    by rw [fld_aWord _ _ (by decide), ex_hi (by decide), ex_lo (by decide), ex_all],
    by rw [fld_aWord _ _ (by decide), ex_lo (by decide), ex_all]⟩
theorem cutA_6_5_7_4_3 (op : BitVec 7) (x0 : BitVec 6) (x1 : BitVec 5) (x2 : BitVec 7) (x3 : BitVec 4) (x4 : BitVec 3) :
    fld (aWord op (x0 ++ x1 ++ x2 ++ x3 ++ x4)) 19 6 = x0 ∧
    fld (aWord op (x0 ++ x1 ++ x2 ++ x3 ++ x4)) 14 5 = x1 ∧
    fld (aWord op (x0 ++ x1 ++ x2 ++ x3 ++ x4)) 7 7 = x2 ∧
    fld (aWord op (x0 ++ x1 ++ x2 ++ x3 ++ x4)) 3 4 = x3 ∧
    fld (aWord op (x0 ++ x1 ++ x2 ++ x3 ++ x4)) 0 3 = x4 :=
  ⟨by rw [fld_aWord _ _ (by decide), ex_hi (by decide), ex_hi (by decide), ex_hi (by decide), ex_hi (by decide), ex_all],
    by rw [fld_aWord _ _ (by decide), ex_hi (by decide), ex_hi (by decide), ex_hi (by decide), ex_lo (by decide), ex_all],
    by rw [fld_aWord _ _ (by decide), ex_hi (by decide), ex_hi (by decide), ex_lo (by decide), ex_all],
    by rw [fld_aWord _ _ (by decide), ex_hi (by decide), ex_lo (by decide), ex_all],
    by rw [fld_aWord _ _ (by decide), ex_lo (by decide), ex_all]⟩
theorem cutA_6_6_3_3_4_3 (op : BitVec 7) (x0 : BitVec 6) (x1 : BitVec 6) (x2 : BitVec 3) (x3 : BitVec 3) (x4 : BitVec 4) (x5 : BitVec 3) :
    fld (aWord op (x0 ++ x1 ++ x2 ++ x3 ++ x4 ++ x5)) 19 6 = x0 ∧
    fld (aWord op (x0 ++ x1 ++ x2 ++ x3 ++ x4 ++ x5)) 13 6 = x1 ∧
    fld (aWord op (x0 ++ x1 ++ x2 ++ x3 ++ x4 ++ x5)) 10 3 = x2 ∧
    fld (aWord op (x0 ++ x1 ++ x2 ++ x3 ++ x4 ++ x5)) 7 3 = x3 ∧
    fld (aWord op (x0 ++ x1 ++ x2 ++ x3 ++ x4 ++ x5)) 3 4 = x4 ∧
    fld (aWord op (x0 ++ x1 ++ x2 ++ x3 ++ x4 ++ x5)) 0 3 = x5 :=
  ⟨by rw [fld_aWord _ _ (by decide), ex_hi (by decide), ex_hi (by decide), ex_hi (by decide), ex_hi (by decide), ex_hi (by decide), ex_all],
    by rw [fld_aWord _ _ (by decide), ex_hi (by decide), ex_hi (by decide), ex_hi (by decide), ex_hi (by decide), ex_lo (by decide), ex_all],
    by rw [fld_aWord _ _ (by decide), ex_hi (by decide), ex_hi (by decide), ex_hi (by decide), ex_lo (by decide), ex_all],
    by rw [fld_aWord _ _ (by decide), ex_hi (by decide), ex_hi (by decide), ex_lo (by decide), ex_all],
    by rw [fld_aWord _ _ (by decide), ex_hi (by decide), ex_lo (by decide), ex_all],
    by rw [fld_aWord _ _ (by decide), ex_lo (by decide), ex_all]⟩
theorem cutA_6_6_4_4_2_3 (op : BitVec 7) (x0 : BitVec 6) (x1 : BitVec 6) (x2 : BitVec 4) (x3 : BitVec 4) (x4 : BitVec 2) (x5 : BitVec 3) :
    fld (aWord op (x0 ++ x1 ++ x2 ++ x3 ++ x4 ++ x5)) 19 6 = x0 ∧
    fld (aWord op (x0 ++ x1 ++ x2 ++ x3 ++ x4 ++ x5)) 13 6 = x1 ∧
    fld (aWord op (x0 ++ x1 ++ x2 ++ x3 ++ x4 ++ x5)) 9 4 = x2 ∧
    fld (aWord op (x0 ++ x1 ++ x2 ++ x3 ++ x4 ++ x5)) 5 4 = x3 ∧
    fld (aWord op (x0 ++ x1 ++ x2 ++ x3 ++ x4 ++ x5)) 3 2 = x4 ∧
    fld (aWord op (x0 ++ x1 ++ x2 ++ x3 ++ x4 ++ x5)) 0 3 = x5 :=
  ⟨by rw [fld_aWord _ _ (by decide), ex_hi (by decide), ex_hi (by decide), ex_hi (by decide), ex_hi (by decide), ex_hi (by decide), ex_all],
    by rw [fld_aWord _ _ (by decide), ex_hi (by decide), ex_hi (by decide), ex_hi (by decide), ex_hi (by decide), ex_lo (by decide), ex_all],
    by rw [fld_aWord _ _ (by decide), ex_hi (by decide), ex_hi (by decide), ex_hi (by decide), ex_lo (by decide), ex_all],
    by rw [fld_aWord _ _ (by decide), ex_hi (by decide), ex_hi (by decide), ex_lo (by decide), ex_all],
    by rw [fld_aWord _ _ (by decide), ex_hi (by decide), ex_lo (by decide), ex_all],
    by rw [fld_aWord _ _ (by decide), ex_lo (by decide), ex_all]⟩
theorem cutA_6_6_5_1_4_3 (op : BitVec 7) (x0 : BitVec 6) (x1 : BitVec 6) (x2 : BitVec 5) (x3 : BitVec 1) (x4 : BitVec 4) (x5 : BitVec 3) :
    fld (aWord op (x0 ++ x1 ++ x2 ++ x3 ++ x4 ++ x5)) 19 6 = x0 ∧
    fld (aWord op (x0 ++ x1 ++ x2 ++ x3 ++ x4 ++ x5)) 13 6 = x1 ∧
    fld (aWord op (x0 ++ x1 ++ x2 ++ x3 ++ x4 ++ x5)) 8 5 = x2 ∧
    fld (aWord op (x0 ++ x1 ++ x2 ++ x3 ++ x4 ++ x5)) 7 1 = x3 ∧
    fld (aWord op (x0 ++ x1 ++ x2 ++ x3 ++ x4 ++ x5)) 3 4 = x4 ∧
    fld (aWord op (x0 ++ x1 ++ x2 ++ x3 ++ x4 ++ x5)) 0 3 = x5 :=
  ⟨by rw [fld_aWord _ _ (by decide), ex_hi (by decide), ex_hi (by decide), ex_hi (by decide), ex_hi (by decide), ex_hi (by decide), ex_all],
    by rw [fld_aWord _ _ (by decide), ex_hi (by decide), ex_hi (by decide), ex_hi (by decide), ex_hi (by decide), ex_lo (by decide), ex_all],
    by rw [fld_aWord _ _ (by decide), ex_hi (by decide), ex_hi (by decide), ex_hi (by decide), ex_lo (by decide), ex_all],
    by rw [fld_aWord _ _ (by decide), ex_hi (by decide), ex_hi (by decide), ex_lo (by decide), ex_all],
    by rw [fld_aWord _ _ (by decide), ex_hi (by decide), ex_lo (by decide), ex_all],
    by rw [fld_aWord _ _ (by decide), ex_lo (by decide), ex_all]⟩
theorem cutA_6_6_5_5_3 (op : BitVec 7) (x0 : BitVec 6) (x1 : BitVec 6) (x2 : BitVec 5) (x3 : BitVec 5) (x4 : BitVec 3) :
    fld (aWord op (x0 ++ x1 ++ x2 ++ x3 ++ x4)) 19 6 = x0 ∧
    fld (aWord op (x0 ++ x1 ++ x2 ++ x3 ++ x4)) 13 6 = x1 ∧
    fld (aWord op (x0 ++ x1 ++ x2 ++ x3 ++ x4)) 8 5 = x2 ∧
    fld (aWord op (x0 ++ x1 ++ x2 ++ x3 ++ x4)) 3 5 = x3 ∧
    fld (aWord op (x0 ++ x1 ++ x2 ++ x3 ++ x4)) 0 3 = x4 :=
  ⟨by rw [fld_aWord _ _ (by decide), ex_hi (by decide), ex_hi (by decide), ex_hi (by decide), ex_hi (by decide), ex_all],
    by rw [fld_aWord _ _ (by decide), ex_hi (by decide), ex_hi (by decide), ex_hi (by decide), ex_lo (by decide), ex_all],
    by rw [fld_aWord _ _ (by decide), ex_hi (by decide), ex_hi (by decide), ex_lo (by decide), ex_all],
    by rw [fld_aWord _ _ (by decide), ex_hi (by decide), ex_lo (by decide), ex_all],
    by rw [fld_aWord _ _ (by decide), ex_lo (by decide), ex_all]⟩
theorem cutA_6_6_6_4_3 (op : BitVec 7) (x0 : BitVec 6) (x1 : BitVec 6) (x2 : BitVec 6) (x3 : BitVec 4) (x4 : BitVec 3) :
    fld (aWord op (x0 ++ x1 ++ x2 ++ x3 ++ x4)) 19 6 = x0 ∧
    fld (aWord op (x0 ++ x1 ++ x2 ++ x3 ++ x4)) 13 6 = x1 ∧
    fld (aWord op (x0 ++ x1 ++ x2 ++ x3 ++ x4)) 7 6 = x2 ∧
    fld (aWord op (x0 ++ x1 ++ x2 ++ x3 ++ x4)) 3 4 = x3 ∧
    fld (aWord op (x0 ++ x1 ++ x2 ++ x3 ++ x4)) 0 3 = x4 :=
  ⟨by rw [fld_aWord _ _ (by decide), ex_hi (by decide), ex_hi (by decide), ex_hi (by decide), ex_hi (by decide), ex_all],
    by rw [fld_aWord _ _ (by decide), ex_hi (by decide), ex_hi (by decide), ex_hi (by decide), ex_lo (by decide), ex_all],
    by rw [fld_aWord _ _ (by decide), ex_hi (by decide), ex_hi (by decide), ex_lo (by decide), ex_all],
    by rw [fld_aWord _ _ (by decide), ex_hi (by decide), ex_lo (by decide), ex_all],
    by rw [fld_aWord _ _ (by decide), ex_lo (by decide), ex_all]⟩
theorem cutA_25 (op : BitVec 7) (x0 : BitVec 25) :
    fld (aWord op x0) 0 25 = x0 :=
  by rw [fld_aWord _ _ (by decide), ex_all]
theorem cutC_1_4_5_8 (h : CHead) (op : BitVec 7) (x0 : BitVec 1) (x1 : BitVec 4) (x2 : BitVec 5) (x3 : BitVec 8) :
    fld (cWord h op (x0 ++ x1 ++ x2 ++ x3)) 17 1 = x0 ∧
    fld (cWord h op (x0 ++ x1 ++ x2 ++ x3)) 13 4 = x1 ∧
    fld (cWord h op (x0 ++ x1 ++ x2 ++ x3)) 8 5 = x2 ∧
    fld (cWord h op (x0 ++ x1 ++ x2 ++ x3)) 0 8 = x3 :=
  ⟨by rw [fld_cWord _ _ _ (by decide), ex_hi (by decide), ex_hi (by decide), ex_hi (by decide), ex_all],
    by rw [fld_cWord _ _ _ (by decide), ex_hi (by decide), ex_hi (by decide), ex_lo (by decide), ex_all],
    by rw [fld_cWord _ _ _ (by decide), ex_hi (by decide), ex_lo (by decide), ex_all],
    by rw [fld_cWord _ _ _ (by decide), ex_lo (by decide), ex_all]⟩
theorem cutC_2_2_2_12 (h : CHead) (op : BitVec 7) (x0 : BitVec 2) (x1 : BitVec 2) (x2 : BitVec 2) (x3 : BitVec 12) :
    fld (cWord h op (x0 ++ x1 ++ x2 ++ x3)) 16 2 = x0 ∧
    fld (cWord h op (x0 ++ x1 ++ x2 ++ x3)) 14 2 = x1 ∧
    fld (cWord h op (x0 ++ x1 ++ x2 ++ x3)) 12 2 = x2 ∧
    fld (cWord h op (x0 ++ x1 ++ x2 ++ x3)) 0 12 = x3 :=
  ⟨by rw [fld_cWord _ _ _ (by decide), ex_hi (by decide), ex_hi (by decide), ex_hi (by decide), ex_all],
    by rw [fld_cWord _ _ _ (by decide), ex_hi (by decide), ex_hi (by decide), ex_lo (by decide), ex_all],
    by rw [fld_cWord _ _ _ (by decide), ex_hi (by decide), ex_lo (by decide), ex_all],
    by rw [fld_cWord _ _ _ (by decide), ex_lo (by decide), ex_all]⟩
theorem cutC_2_4_4_4_4 (h : CHead) (op : BitVec 7) (x0 : BitVec 2) (x1 : BitVec 4) (x2 : BitVec 4) (x3 : BitVec 4) (x4 : BitVec 4) :
    fld (cWord h op (x0 ++ x1 ++ x2 ++ x3 ++ x4)) 16 2 = x0 ∧
    fld (cWord h op (x0 ++ x1 ++ x2 ++ x3 ++ x4)) 12 4 = x1 ∧
    fld (cWord h op (x0 ++ x1 ++ x2 ++ x3 ++ x4)) 8 4 = x2 ∧
    fld (cWord h op (x0 ++ x1 ++ x2 ++ x3 ++ x4)) 4 4 = x3 ∧
    fld (cWord h op (x0 ++ x1 ++ x2 ++ x3 ++ x4)) 0 4 = x4 :=
  ⟨by rw [fld_cWord _ _ _ (by decide), ex_hi (by decide), ex_hi (by decide), ex_hi (by decide), ex_hi (by decide), ex_all],
    by rw [fld_cWord _ _ _ (by decide), ex_hi (by decide), ex_hi (by decide), ex_hi (by decide), ex_lo (by decide), ex_all],
    by rw [fld_cWord _ _ _ (by decide), ex_hi (by decide), ex_hi (by decide), ex_lo (by decide), ex_all],
    by rw [fld_cWord _ _ _ (by decide), ex_hi (by decide), ex_lo (by decide), ex_all],
    by rw [fld_cWord _ _ _ (by decide), ex_lo (by decide), ex_all]⟩
theorem cutC_3_5_5_4_1 (h : CHead) (op : BitVec 7) (x0 : BitVec 3) (x1 : BitVec 5) (x2 : BitVec 5) (x3 : BitVec 4) (x4 : BitVec 1) :
    fld (cWord h op (x0 ++ x1 ++ x2 ++ x3 ++ x4)) 15 3 = x0 ∧
    fld (cWord h op (x0 ++ x1 ++ x2 ++ x3 ++ x4)) 10 5 = x1 ∧
    fld (cWord h op (x0 ++ x1 ++ x2 ++ x3 ++ x4)) 5 5 = x2 ∧
    fld (cWord h op (x0 ++ x1 ++ x2 ++ x3 ++ x4)) 1 4 = x3 ∧
    fld (cWord h op (x0 ++ x1 ++ x2 ++ x3 ++ x4)) 0 1 = x4 :=
  ⟨by rw [fld_cWord _ _ _ (by decide), ex_hi (by decide), ex_hi (by decide), ex_hi (by decide), ex_hi (by decide), ex_all],
    by rw [fld_cWord _ _ _ (by decide), ex_hi (by decide), ex_hi (by decide), ex_hi (by decide), ex_lo (by decide), ex_all],
    by rw [fld_cWord _ _ _ (by decide), ex_hi (by decide), ex_hi (by decide), ex_lo (by decide), ex_all],
    by rw [fld_cWord _ _ _ (by decide), ex_hi (by decide), ex_lo (by decide), ex_all],
    by rw [fld_cWord _ _ _ (by decide), ex_lo (by decide), ex_all]⟩
theorem cutC_3_15 (h : CHead) (op : BitVec 7) (x0 : BitVec 3) (x1 : BitVec 15) :
    fld (cWord h op (x0 ++ x1)) 15 3 = x0 ∧
    fld (cWord h op (x0 ++ x1)) 0 15 = x1 :=
  ⟨by rw [fld_cWord _ _ _ (by decide), ex_hi (by decide), ex_all],
    by rw [fld_cWord _ _ _ (by decide), ex_lo (by decide), ex_all]⟩
theorem cutC_4_4_4_4_2 (h : CHead) (op : BitVec 7) (x0 : BitVec 4) (x1 : BitVec 4) (x2 : BitVec 4) (x3 : BitVec 4) (x4 : BitVec 2) :
    fld (cWord h op (x0 ++ x1 ++ x2 ++ x3 ++ x4)) 14 4 = x0 ∧
    fld (cWord h op (x0 ++ x1 ++ x2 ++ x3 ++ x4)) 10 4 = x1 ∧
    fld (cWord h op (x0 ++ x1 ++ x2 ++ x3 ++ x4)) 6 4 = x2 ∧
    fld (cWord h op (x0 ++ x1 ++ x2 ++ x3 ++ x4)) 2 4 = x3 ∧
    fld (cWord h op (x0 ++ x1 ++ x2 ++ x3 ++ x4)) 0 2 = x4 :=
  ⟨by rw [fld_cWord _ _ _ (by decide), ex_hi (by decide), ex_hi (by decide), ex_hi (by decide), ex_hi (by decide), ex_all],
    by rw [fld_cWord _ _ _ (by decide), ex_hi (by decide), ex_hi (by decide), ex_hi (by decide), ex_lo (by decide), ex_all],
    by rw [fld_cWord _ _ _ (by decide), ex_hi (by decide), ex_hi (by decide), ex_lo (by decide), ex_all],
    by rw [fld_cWord _ _ _ (by decide), ex_hi (by decide), ex_lo (by decide), ex_all],
    by rw [fld_cWord _ _ _ (by decide), ex_lo (by decide), ex_all]⟩
theorem cutC_4_4_10 (h : CHead) (op : BitVec 7) (x0 : BitVec 4) (x1 : BitVec 4) (x2 : BitVec 10) :
    fld (cWord h op (x0 ++ x1 ++ x2)) 14 4 = x0 ∧
    fld (cWord h op (x0 ++ x1 ++ x2)) 10 4 = x1 ∧
    fld (cWord h op (x0 ++ x1 ++ x2)) 0 10 = x2 :=
  ⟨by rw [fld_cWord _ _ _ (by decide), ex_hi (by decide), ex_hi (by decide), ex_all],
    by rw [fld_cWord _ _ _ (by decide), ex_hi (by decide), ex_lo (by decide), ex_all],
    by rw [fld_cWord _ _ _ (by decide), ex_lo (by decide), ex_all]⟩
theorem cutC_4_5_5_4 (h : CHead) (op : BitVec 7) (x0 : BitVec 4) (x1 : BitVec 5) (x2 : BitVec 5) (x3 : BitVec 4) :
    fld (cWord h op (x0 ++ x1 ++ x2 ++ x3)) 14 4 = x0 ∧
    fld (cWord h op (x0 ++ x1 ++ x2 ++ x3)) 9 5 = x1 ∧
    fld (cWord h op (x0 ++ x1 ++ x2 ++ x3)) 4 5 = x2 ∧
    fld (cWord h op (x0 ++ x1 ++ x2 ++ x3)) 0 4 = x3 :=
  ⟨by rw [fld_cWord _ _ _ (by decide), ex_hi (by decide), ex_hi (by decide), ex_hi (by decide), ex_all],
    by rw [fld_cWord _ _ _ (by decide), ex_hi (by decide), ex_hi (by decide), ex_lo (by decide), ex_all],
    by rw [fld_cWord _ _ _ (by decide), ex_hi (by decide), ex_lo (by decide), ex_all],
    by rw [fld_cWord _ _ _ (by decide), ex_lo (by decide), ex_all]⟩
theorem cutC_4_5_9 (h : CHead) (op : BitVec 7) (x0 : BitVec 4) (x1 : BitVec 5) (x2 : BitVec 9) :
    fld (cWord h op (x0 ++ x1 ++ x2)) 14 4 = x0 ∧
    fld (cWord h op (x0 ++ x1 ++ x2)) 9 5 = x1 ∧
    fld (cWord h op (x0 ++ x1 ++ x2)) 0 9 = x2 :=
  ⟨by rw [fld_cWord _ _ _ (by decide), ex_hi (by decide), ex_hi (by decide), ex_all],
    by rw [fld_cWord _ _ _ (by decide), ex_hi (by decide), ex_lo (by decide), ex_all],
    by rw [fld_cWord _ _ _ (by decide), ex_lo (by decide), ex_all]⟩
theorem cutC_4_6_8 (h : CHead) (op : BitVec 7) (x0 : BitVec 4) (x1 : BitVec 6) (x2 : BitVec 8) :
    fld (cWord h op (x0 ++ x1 ++ x2)) 14 4 = x0 ∧
    fld (cWord h op (x0 ++ x1 ++ x2)) 8 6 = x1 ∧
    fld (cWord h op (x0 ++ x1 ++ x2)) 0 8 = x2 :=
  ⟨by rw [fld_cWord _ _ _ (by decide), ex_hi (by decide), ex_hi (by decide), ex_all],
    by rw [fld_cWord _ _ _ (by decide), ex_hi (by decide), ex_lo (by decide), ex_all],
    by rw [fld_cWord _ _ _ (by decide), ex_lo (by decide), ex_all]⟩
theorem cutC_4_14 (h : CHead) (op : BitVec 7) (x0 : BitVec 4) (x1 : BitVec 14) :
    fld (cWord h op (x0 ++ x1)) 14 4 = x0 ∧
    fld (cWord h op (x0 ++ x1)) 0 14 = x1 :=
  ⟨by rw [fld_cWord _ _ _ (by decide), ex_hi (by decide), ex_all],
    by rw [fld_cWord _ _ _ (by decide), ex_lo (by decide), ex_all]⟩
theorem cutC_5_1_12 (h : CHead) (op : BitVec 7) (x0 : BitVec 5) (x1 : BitVec 1) (x2 : BitVec 12) :
    fld (cWord h op (x0 ++ x1 ++ x2)) 13 5 = x0 ∧
    fld (cWord h op (x0 ++ x1 ++ x2)) 12 1 = x1 ∧
    fld (cWord h op (x0 ++ x1 ++ x2)) 0 12 = x2 :=
  ⟨by rw [fld_cWord _ _ _ (by decide), ex_hi (by decide), ex_hi (by decide), ex_all],
    by rw [fld_cWord _ _ _ (by decide), ex_hi (by decide), ex_lo (by decide), ex_all],
    by rw [fld_cWord _ _ _ (by decide), ex_lo (by decide), ex_all]⟩
theorem cutC_5_3_3_4_3 (h : CHead) (op : BitVec 7) (x0 : BitVec 5) (x1 : BitVec 3) (x2 : BitVec 3) (x3 : BitVec 4) (x4 : BitVec 3) :
    fld (cWord h op (x0 ++ x1 ++ x2 ++ x3 ++ x4)) 13 5 = x0 ∧
    fld (cWord h op (x0 ++ x1 ++ x2 ++ x3 ++ x4)) 10 3 = x1 ∧
    fld (cWord h op (x0 ++ x1 ++ x2 ++ x3 ++ x4)) 7 3 = x2 ∧
    fld (cWord h op (x0 ++ x1 ++ x2 ++ x3 ++ x4)) 3 4 = x3 ∧
    fld (cWord h op (x0 ++ x1 ++ x2 ++ x3 ++ x4)) 0 3 = x4 :=
  ⟨by rw [fld_cWord _ _ _ (by decide), ex_hi (by decide), ex_hi (by decide), ex_hi (by decide), ex_hi (by decide), ex_all],
    by rw [fld_cWord _ _ _ (by decide), ex_hi (by decide), ex_hi (by decide), ex_hi (by decide), ex_lo (by decide), ex_all],
    by rw [fld_cWord _ _ _ (by decide), ex_hi (by decide), ex_hi (by decide), ex_lo (by decide), ex_all],
    by rw [fld_cWord _ _ _ (by decide), ex_hi (by decide), ex_lo (by decide), ex_all],
    by rw [fld_cWord _ _ _ (by decide), ex_lo (by decide), ex_all]⟩
theorem cutC_5_4_3_6 (h : CHead) (op : BitVec 7) (x0 : BitVec 5) (x1 : BitVec 4) (x2 : BitVec 3) (x3 : BitVec 6) :
    fld (cWord h op (x0 ++ x1 ++ x2 ++ x3)) 13 5 = x0 ∧
    fld (cWord h op (x0 ++ x1 ++ x2 ++ x3)) 9 4 = x1 ∧
    fld (cWord h op (x0 ++ x1 ++ x2 ++ x3)) 6 3 = x2 ∧
    fld (cWord h op (x0 ++ x1 ++ x2 ++ x3)) 0 6 = x3 :=
  ⟨by rw [fld_cWord _ _ _ (by decide), ex_hi (by decide), ex_hi (by decide), ex_hi (by decide), ex_all],
    by rw [fld_cWord _ _ _ (by decide), ex_hi (by decide), ex_hi (by decide), ex_lo (by decide), ex_all],
    by rw [fld_cWord _ _ _ (by decide), ex_hi (by decide), ex_lo (by decide), ex_all],
    by rw [fld_cWord _ _ _ (by decide), ex_lo (by decide), ex_all]⟩
theorem cutC_5_4_9 (h : CHead) (op : BitVec 7) (x0 : BitVec 5) (x1 : BitVec 4) (x2 : BitVec 9) :
    fld (cWord h op (x0 ++ x1 ++ x2)) 13 5 = x0 ∧
    fld (cWord h op (x0 ++ x1 ++ x2)) 9 4 = x1 ∧
    fld (cWord h op (x0 ++ x1 ++ x2)) 0 9 = x2 :=
  ⟨by rw [fld_cWord _ _ _ (by decide), ex_hi (by decide), ex_hi (by decide), ex_all],
    by rw [fld_cWord _ _ _ (by decide), ex_hi (by decide), ex_lo (by decide), ex_all],
    by rw [fld_cWord _ _ _ (by decide), ex_lo (by decide), ex_all]⟩
theorem cutC_5_5_4_1_3 (h : CHead) (op : BitVec 7) (x0 : BitVec 5) (x1 : BitVec 5) (x2 : BitVec 4) (x3 : BitVec 1) (x4 : BitVec 3) :
    fld (cWord h op (x0 ++ x1 ++ x2 ++ x3 ++ x4)) 13 5 = x0 ∧
    fld (cWord h op (x0 ++ x1 ++ x2 ++ x3 ++ x4)) 8 5 = x1 ∧
    fld (cWord h op (x0 ++ x1 ++ x2 ++ x3 ++ x4)) 4 4 = x2 ∧
    fld (cWord h op (x0 ++ x1 ++ x2 ++ x3 ++ x4)) 3 1 = x3 ∧
    fld (cWord h op (x0 ++ x1 ++ x2 ++ x3 ++ x4)) 0 3 = x4 :=
  ⟨by rw [fld_cWord _ _ _ (by decide), ex_hi (by decide), ex_hi (by decide), ex_hi (by decide), ex_hi (by decide), ex_all],
    by rw [fld_cWord _ _ _ (by decide), ex_hi (by decide), ex_hi (by decide), ex_hi (by decide), ex_lo (by decide), ex_all],
    by rw [fld_cWord _ _ _ (by decide), ex_hi (by decide), ex_hi (by decide), ex_lo (by decide), ex_all],
    by rw [fld_cWord _ _ _ (by decide), ex_hi (by decide), ex_lo (by decide), ex_all],
    by rw [fld_cWord _ _ _ (by decide), ex_lo (by decide), ex_all]⟩
theorem cutC_5_5_4_4 (h : CHead) (op : BitVec 7) (x0 : BitVec 5) (x1 : BitVec 5) (x2 : BitVec 4) (x3 : BitVec 4) :
    fld (cWord h op (x0 ++ x1 ++ x2 ++ x3)) 13 5 = x0 ∧
    fld (cWord h op (x0 ++ x1 ++ x2 ++ x3)) 8 5 = x1 ∧
    fld (cWord h op (x0 ++ x1 ++ x2 ++ x3)) 4 4 = x2 ∧
    fld (cWord h op (x0 ++ x1 ++ x2 ++ x3)) 0 4 = x3 :=
  ⟨by rw [fld_cWord _ _ _ (by decide), ex_hi (by decide), ex_hi (by decide), ex_hi (by decide), ex_all],
    by rw [fld_cWord _ _ _ (by decide), ex_hi (by decide), ex_hi (by decide), ex_lo (by decide), ex_all],
    by rw [fld_cWord _ _ _ (by decide), ex_hi (by decide), ex_lo (by decide), ex_all],
    by rw [fld_cWord _ _ _ (by decide), ex_lo (by decide), ex_all]⟩
theorem cutC_5_5_5_2_1 (h : CHead) (op : BitVec 7) (x0 : BitVec 5) (x1 : BitVec 5) (x2 : BitVec 5) (x3 : BitVec 2) (x4 : BitVec 1) :
    fld (cWord h op (x0 ++ x1 ++ x2 ++ x3 ++ x4)) 13 5 = x0 ∧
    fld (cWord h op (x0 ++ x1 ++ x2 ++ x3 ++ x4)) 8 5 = x1 ∧
    fld (cWord h op (x0 ++ x1 ++ x2 ++ x3 ++ x4)) 3 5 = x2 ∧
    fld (cWord h op (x0 ++ x1 ++ x2 ++ x3 ++ x4)) 1 2 = x3 ∧
    fld (cWord h op (x0 ++ x1 ++ x2 ++ x3 ++ x4)) 0 1 = x4 :=
  ⟨by rw [fld_cWord _ _ _ (by decide), ex_hi (by decide), ex_hi (by decide), ex_hi (by decide), ex_hi (by decide), ex_all],
    by rw [fld_cWord _ _ _ (by decide), ex_hi (by decide), ex_hi (by decide), ex_hi (by decide), ex_lo (by decide), ex_all],
    by rw [fld_cWord _ _ _ (by decide), ex_hi (by decide), ex_hi (by decide), ex_lo (by decide), ex_all],
    by rw [fld_cWord _ _ _ (by decide), ex_hi (by decide), ex_lo (by decide), ex_all],
    by rw [fld_cWord _ _ _ (by decide), ex_lo (by decide), ex_all]⟩
theorem cutC_5_5_5_3 (h : CHead) (op : BitVec 7) (x0 : BitVec 5) (x1 : BitVec 5) (x2 : BitVec 5) (x3 : BitVec 3) :
    fld (cWord h op (x0 ++ x1 ++ x2 ++ x3)) 13 5 = x0 ∧
    fld (cWord h op (x0 ++ x1 ++ x2 ++ x3)) 8 5 = x1 ∧
    fld (cWord h op (x0 ++ x1 ++ x2 ++ x3)) 3 5 = x2 ∧
    fld (cWord h op (x0 ++ x1 ++ x2 ++ x3)) 0 3 = x3 :=
  ⟨by rw [fld_cWord _ _ _ (by decide), ex_hi (by decide), ex_hi (by decide), ex_hi (by decide), ex_all],
    by rw [fld_cWord _ _ _ (by decide), ex_hi (by decide), ex_hi (by decide), ex_lo (by decide), ex_all],
    by rw [fld_cWord _ _ _ (by decide), ex_hi (by decide), ex_lo (by decide), ex_all],
    by rw [fld_cWord _ _ _ (by decide), ex_lo (by decide), ex_all]⟩
theorem cutC_5_5_8 (h : CHead) (op : BitVec 7) (x0 : BitVec 5) (x1 : BitVec 5) (x2 : BitVec 8) :
    fld (cWord h op (x0 ++ x1 ++ x2)) 13 5 = x0 ∧
    fld (cWord h op (x0 ++ x1 ++ x2)) 8 5 = x1 ∧
    fld (cWord h op (x0 ++ x1 ++ x2)) 0 8 = x2 :=
  ⟨by rw [fld_cWord _ _ _ (by decide), ex_hi (by decide), ex_hi (by decide), ex_all],
    by rw [fld_cWord _ _ _ (by decide), ex_hi (by decide), ex_lo (by decide), ex_all],
    by rw [fld_cWord _ _ _ (by decide), ex_lo (by decide), ex_all]⟩
theorem cutC_5_6_4_3 (h : CHead) (op : BitVec 7) (x0 : BitVec 5) (x1 : BitVec 6) (x2 : BitVec 4) (x3 : BitVec 3) :
    fld (cWord h op (x0 ++ x1 ++ x2 ++ x3)) 13 5 = x0 ∧
    fld (cWord h op (x0 ++ x1 ++ x2 ++ x3)) 7 6 = x1 ∧
    fld (cWord h op (x0 ++ x1 ++ x2 ++ x3)) 3 4 = x2 ∧
    fld (cWord h op (x0 ++ x1 ++ x2 ++ x3)) 0 3 = x3 :=
  ⟨by rw [fld_cWord _ _ _ (by decide), ex_hi (by decide), ex_hi (by decide), ex_hi (by decide), ex_all],
    by rw [fld_cWord _ _ _ (by decide), ex_hi (by decide), ex_hi (by decide), ex_lo (by decide), ex_all],
    by rw [fld_cWord _ _ _ (by decide), ex_hi (by decide), ex_lo (by decide), ex_all],
    by rw [fld_cWord _ _ _ (by decide), ex_lo (by decide), ex_all]⟩
theorem cutC_5_13 (h : CHead) (op : BitVec 7) (x0 : BitVec 5) (x1 : BitVec 13) :
    fld (cWord h op (x0 ++ x1)) 13 5 = x0 ∧
    fld (cWord h op (x0 ++ x1)) 0 13 = x1 :=
  ⟨by rw [fld_cWord _ _ _ (by decide), ex_hi (by decide), ex_all],
    by rw [fld_cWord _ _ _ (by decide), ex_lo (by decide), ex_all]⟩
theorem cutC_6_3_5_4 (h : CHead) (op : BitVec 7) (x0 : BitVec 6) (x1 : BitVec 3) (x2 : BitVec 5) (x3 : BitVec 4) :
    fld (cWord h op (x0 ++ x1 ++ x2 ++ x3)) 12 6 = x0 ∧
    fld (cWord h op (x0 ++ x1 ++ x2 ++ x3)) 9 3 = x1 ∧
    fld (cWord h op (x0 ++ x1 ++ x2 ++ x3)) 4 5 = x2 ∧
    fld (cWord h op (x0 ++ x1 ++ x2 ++ x3)) 0 4 = x3 :=
  ⟨by rw [fld_cWord _ _ _ (by decide), ex_hi (by decide), ex_hi (by decide), ex_hi (by decide), ex_all],
    by rw [fld_cWord _ _ _ (by decide), ex_hi (by decide), ex_hi (by decide), ex_lo (by decide), ex_all],
    by rw [fld_cWord _ _ _ (by decide), ex_hi (by decide), ex_lo (by decide), ex_all],
    by rw [fld_cWord _ _ _ (by decide), ex_lo (by decide), ex_all]⟩
theorem cutC_6_4_5_3 (h : CHead) (op : BitVec 7) (x0 : BitVec 6) (x1 : BitVec 4) (x2 : BitVec 5) (x3 : BitVec 3) :
    fld (cWord h op (x0 ++ x1 ++ x2 ++ x3)) 12 6 = x0 ∧
    fld (cWord h op (x0 ++ x1 ++ x2 ++ x3)) 8 4 = x1 ∧
    fld (cWord h op (x0 ++ x1 ++ x2 ++ x3)) 3 5 = x2 ∧
    fld (cWord h op (x0 ++ x1 ++ x2 ++ x3)) 0 3 = x3 :=
  ⟨by rw [fld_cWord _ _ _ (by decide), ex_hi (by decide), ex_hi (by decide), ex_hi (by decide), ex_all],
    by rw [fld_cWord _ _ _ (by decide), ex_hi (by decide), ex_hi (by decide), ex_lo (by decide), ex_all],
    by rw [fld_cWord _ _ _ (by decide), ex_hi (by decide), ex_lo (by decide), ex_all],
    by rw [fld_cWord _ _ _ (by decide), ex_lo (by decide), ex_all]⟩
theorem cutC_6_5_4_3 (h : CHead) (op : BitVec 7) (x0 : BitVec 6) (x1 : BitVec 5) (x2 : BitVec 4) (x3 : BitVec 3) :
    fld (cWord h op (x0 ++ x1 ++ x2 ++ x3)) 12 6 = x0 ∧
    fld (cWord h op (x0 ++ x1 ++ x2 ++ x3)) 7 5 = x1 ∧
    fld (cWord h op (x0 ++ x1 ++ x2 ++ x3)) 3 4 = x2 ∧
    fld (cWord h op (x0 ++ x1 ++ x2 ++ x3)) 0 3 = x3 :=
  ⟨by rw [fld_cWord _ _ _ (by decide), ex_hi (by decide), ex_hi (by decide), ex_hi (by decide), ex_all],
    by rw [fld_cWord _ _ _ (by decide), ex_hi (by decide), ex_hi (by decide), ex_lo (by decide), ex_all],
    by rw [fld_cWord _ _ _ (by decide), ex_hi (by decide), ex_lo (by decide), ex_all],
    by rw [fld_cWord _ _ _ (by decide), ex_lo (by decide), ex_all]⟩
theorem cutC_6_5_5_2 (h : CHead) (op : BitVec 7) (x0 : BitVec 6) (x1 : BitVec 5) (x2 : BitVec 5) (x3 : BitVec 2) :
    fld (cWord h op (x0 ++ x1 ++ x2 ++ x3)) 12 6 = x0 ∧
    fld (cWord h op (x0 ++ x1 ++ x2 ++ x3)) 7 5 = x1 ∧
    fld (cWord h op (x0 ++ x1 ++ x2 ++ x3)) 2 5 = x2 ∧
    fld (cWord h op (x0 ++ x1 ++ x2 ++ x3)) 0 2 = x3 :=
  ⟨by rw [fld_cWord _ _ _ (by decide), ex_hi (by decide), ex_hi (by decide), ex_hi (by decide), ex_all],
    by rw [fld_cWord _ _ _ (by decide), ex_hi (by decide), ex_hi (by decide), ex_lo (by decide), ex_all],
    by rw [fld_cWord _ _ _ (by decide), ex_hi (by decide), ex_lo (by decide), ex_all],
    by rw [fld_cWord _ _ _ (by decide), ex_lo (by decide), ex_all]⟩
theorem cutC_6_5_6_1 (h : CHead) (op : BitVec 7) (x0 : BitVec 6) (x1 : BitVec 5) (x2 : BitVec 6) (x3 : BitVec 1) :
    fld (cWord h op (x0 ++ x1 ++ x2 ++ x3)) 12 6 = x0 ∧
    fld (cWord h op (x0 ++ x1 ++ x2 ++ x3)) 7 5 = x1 ∧
    fld (cWord h op (x0 ++ x1 ++ x2 ++ x3)) 1 6 = x2 ∧
    fld (cWord h op (x0 ++ x1 ++ x2 ++ x3)) 0 1 = x3 :=
  ⟨by rw [fld_cWord _ _ _ (by decide), ex_hi (by decide), ex_hi (by decide), ex_hi (by decide), ex_all],
    by rw [fld_cWord _ _ _ (by decide), ex_hi (by decide), ex_hi (by decide), ex_lo (by decide), ex_all],
    by rw [fld_cWord _ _ _ (by decide), ex_hi (by decide), ex_lo (by decide), ex_all],
    by rw [fld_cWord _ _ _ (by decide), ex_lo (by decide), ex_all]⟩
theorem cutC_6_5_7 (h : CHead) (op : BitVec 7) (x0 : BitVec 6) (x1 : BitVec 5) (x2 : BitVec 7) :
    fld (cWord h op (x0 ++ x1 ++ x2)) 12 6 = x0 ∧
    fld (cWord h op (x0 ++ x1 ++ x2)) 7 5 = x1 ∧
    fld (cWord h op (x0 ++ x1 ++ x2)) 0 7 = x2 :=
  ⟨by rw [fld_cWord _ _ _ (by decide), ex_hi (by decide), ex_hi (by decide), ex_all],
    by rw [fld_cWord _ _ _ (by decide), ex_hi (by decide), ex_lo (by decide), ex_all],
    by rw [fld_cWord _ _ _ (by decide), ex_lo (by decide), ex_all]⟩
theorem cutC_6_12 (h : CHead) (op : BitVec 7) (x0 : BitVec 6) (x1 : BitVec 12) :
    fld (cWord h op (x0 ++ x1)) 12 6 = x0 ∧
    fld (cWord h op (x0 ++ x1)) 0 12 = x1 :=
  ⟨by rw [fld_cWord _ _ _ (by decide), ex_hi (by decide), ex_all],
    by rw [fld_cWord _ _ _ (by decide), ex_lo (by decide), ex_all]⟩
theorem cutC_10_8 (h : CHead) (op : BitVec 7) (x0 : BitVec 10) (x1 : BitVec 8) :
    fld (cWord h op (x0 ++ x1)) 8 10 = x0 ∧
    fld (cWord h op (x0 ++ x1)) 0 8 = x1 :=
  ⟨by rw [fld_cWord _ _ _ (by decide), ex_hi (by decide), ex_all],
    by rw [fld_cWord _ _ _ (by decide), ex_lo (by decide), ex_all]⟩
theorem cutC_12_6 (h : CHead) (op : BitVec 7) (x0 : BitVec 12) (x1 : BitVec 6) :
    fld (cWord h op (x0 ++ x1)) 6 12 = x0 ∧
    fld (cWord h op (x0 ++ x1)) 0 6 = x1 :=
  ⟨by rw [fld_cWord _ _ _ (by decide), ex_hi (by decide), ex_all],
    by rw [fld_cWord _ _ _ (by decide), ex_lo (by decide), ex_all]⟩
theorem cutC_14_4 (h : CHead) (op : BitVec 7) (x0 : BitVec 14) (x1 : BitVec 4) :
    fld (cWord h op (x0 ++ x1)) 4 14 = x0 ∧
    fld (cWord h op (x0 ++ x1)) 0 4 = x1 :=
  ⟨by rw [fld_cWord _ _ _ (by decide), ex_hi (by decide), ex_all],
    by rw [fld_cWord _ _ _ (by decide), ex_lo (by decide), ex_all]⟩
theorem cutC_15_3 (h : CHead) (op : BitVec 7) (x0 : BitVec 15) (x1 : BitVec 3) :
    fld (cWord h op (x0 ++ x1)) 3 15 = x0 ∧
    fld (cWord h op (x0 ++ x1)) 0 3 = x1 :=
  ⟨by rw [fld_cWord _ _ _ (by decide), ex_hi (by decide), ex_all],
    by rw [fld_cWord _ _ _ (by decide), ex_lo (by decide), ex_all]⟩
theorem cutC_18 (h : CHead) (op : BitVec 7) (x0 : BitVec 18) :
    fld (cWord h op x0) 0 18 = x0 :=
  by rw [fld_cWord _ _ _ (by decide), ex_all]

end Sys2Proof
end

