-- ==== Sys2Proof/Laws/Events.lean ====
section
/-! SUPPORT. An event of the agenda acts as the instruction of the same name: `runEvent` and `exec` agree on every row of the
opcode table that has no encoding. -/
set_option Elab.async false
namespace Sys2Proof.Machine

theorem runEvent_replayedPair (s : State) : runEvent (.replayedPair) s = exec (.replayedPair) s := rfl
theorem runEvent_lateTrap (s : State) : runEvent (.lateTrap) s = exec (.lateTrap) s := rfl
theorem runEvent_upcall (s : State) : runEvent (.upcall) s = exec (.upcall) s := rfl
theorem runEvent_helperRetire (core : Nat) (ctx : Nat) (s : State) : runEvent (.helperRetire core ctx) s = exec (.helperRetire core ctx) s := rfl
theorem runEvent_taskEnd (core : Nat) (s : State) : runEvent (.taskEnd core) s = exec (.taskEnd core) s := rfl
theorem runEvent_phaseComplete (hid : Nat) (level : Nat) (unit : Nat) (s : State) : runEvent (.phaseComplete hid level unit) s = exec (.phaseComplete hid level unit) s := rfl
theorem runEvent_syncTLimit (core : Nat) (ctx : Nat) (s : State) : runEvent (.syncTLimit core ctx) s = exec (.syncTLimit core ctx) s := rfl
theorem runEvent_planEntry (core : Nat) (idx : Nat) (s : State) : runEvent (.planEntry core idx) s = exec (.planEntry core idx) s := rfl
theorem runEvent_remoteRequestPerform (id : Nat) (s : State) : runEvent (.remoteRequestPerform id) s = exec (.remoteRequestPerform id) s := rfl
theorem runEvent_takeRetry (id : Nat) (s : State) : runEvent (.takeRetry id) s = exec (.takeRetry id) s := rfl
theorem runEvent_replyReceive (id : Nat) (s : State) : runEvent (.replyReceive id) s = exec (.replyReceive id) s := rfl
theorem runEvent_requestAck (id : Nat) (s : State) : runEvent (.requestAck id) s = exec (.requestAck id) s := rfl
theorem runEvent_refusalReceive (id : Nat) (s : State) : runEvent (.refusalReceive id) s = exec (.refusalReceive id) s := rfl
theorem runEvent_predictorDecay (core : Nat) (line : Nat) (s : State) : runEvent (.predictorDecay core line) s = exec (.predictorDecay core line) s := rfl
theorem runEvent_esigAdd (id : Nat) (s : State) : runEvent (.esigAdd id) s = exec (.esigAdd id) s := rfl
theorem runEvent_ewaitAnswer (core : Nat) (ctx : Nat) (s : State) : runEvent (.ewaitAnswer core ctx) s = exec (.ewaitAnswer core ctx) s := rfl
theorem runEvent_msendDepart (id : Nat) (s : State) : runEvent (.msendDepart id) s = exec (.msendDepart id) s := rfl
theorem runEvent_entryPlace (id : Nat) (s : State) : runEvent (.entryPlace id) s = exec (.entryPlace id) s := rfl
theorem runEvent_inbxTLimit (core : Nat) (ctx : Nat) (s : State) : runEvent (.inbxTLimit core ctx) s = exec (.inbxTLimit core ctx) s := rfl
theorem runEvent_boxWrite (core : Nat) (s : State) : runEvent (.boxWrite core) s = exec (.boxWrite core) s := rfl
theorem runEvent_boxMoveBack (core : Nat) (s : State) : runEvent (.boxMoveBack core) s = exec (.boxMoveBack core) s := rfl
theorem runEvent_stallTimeout (core : Nat) (s : State) : runEvent (.stallTimeout core) s = exec (.stallTimeout core) s := rfl
theorem runEvent_matrixCommandStart (core : Nat) (s : State) : runEvent (.matrixCommandStart core) s = exec (.matrixCommandStart core) s := rfl
theorem runEvent_matrixCommit (core : Nat) (s : State) : runEvent (.matrixCommit core) s = exec (.matrixCommit core) s := rfl
theorem runEvent_mldBStart (core : Nat) (s : State) : runEvent (.mldBStart core) s = exec (.mldBStart core) s := rfl
theorem runEvent_mldBDone (core : Nat) (s : State) : runEvent (.mldBDone core) s = exec (.mldBDone core) s := rfl
theorem runEvent_cisternAddPath (cl : Nat) (s : State) : runEvent (.cisternAddPath cl) s = exec (.cisternAddPath cl) s := rfl
theorem runEvent_cisternTapPath (cl : Nat) (s : State) : runEvent (.cisternTapPath cl) s = exec (.cisternTapPath cl) s := rfl
theorem runEvent_scrubEnd (cl : Nat) (row : Nat) (s : State) : runEvent (.scrubEnd cl row) s = exec (.scrubEnd cl row) s := rfl
theorem runEvent_spillComplete (cl : Nat) (row : Nat) (s : State) : runEvent (.spillComplete cl row) s = exec (.spillComplete cl row) s := rfl
theorem runEvent_fillComplete (cl : Nat) (row : Nat) (s : State) : runEvent (.fillComplete cl row) s = exec (.fillComplete cl row) s := rfl
theorem runEvent_hsendDepart (id : Nat) (s : State) : runEvent (.hsendDepart id) s = exec (.hsendDepart id) s := rfl
theorem runEvent_hjoinComplete (core : Nat) (ctx : Nat) (reg : Nat) (s : State) : runEvent (.hjoinComplete core ctx reg) s = exec (.hjoinComplete core ctx reg) s := rfl
theorem runEvent_hfreeComplete (cl : Nat) (entry : Nat) (s : State) : runEvent (.hfreeComplete cl entry) s = exec (.hfreeComplete cl entry) s := rfl
theorem runEvent_streamerAccept (id : Nat) (s : State) : runEvent (.streamerAccept id) s = exec (.streamerAccept id) s := rfl
theorem runEvent_streamerStep (op : Nat) (s : State) : runEvent (.streamerStep op) s = exec (.streamerStep op) s := rfl
theorem runEvent_streamerComplete (op : Nat) (s : State) : runEvent (.streamerComplete op) s = exec (.streamerComplete op) s := rfl
theorem runEvent_pantryCommit (op : Nat) (s : State) : runEvent (.pantryCommit op) s = exec (.pantryCommit op) s := rfl
theorem runEvent_collectiveRun (hid : Nat) (colid : Nat) (s : State) : runEvent (.collectiveRun hid colid) s = exec (.collectiveRun hid colid) s := rfl
theorem runEvent_registerWrite (off : Nat) (val : BitVec 64) (s : State) : runEvent (.registerWrite off val) s = exec (.registerWrite off val) s := rfl
theorem runEvent_tkrCas (q : Nat) (cmp : BitVec 64) (new : BitVec 64) (s : State) : runEvent (.tkrCas q cmp new) s = exec (.tkrCas q cmp new) s := rfl
theorem runEvent_cmt (q : Nat) (val : BitVec 64) (s : State) : runEvent (.cmt q val) s = exec (.cmt q val) s := rfl
theorem runEvent_cancel (q : Nat) (val : BitVec 64) (s : State) : runEvent (.cancel q val) s = exec (.cancel q val) s := rfl
theorem runEvent_schedulerTick (s : State) : runEvent (.schedulerTick) s = exec (.schedulerTick) s := rfl
theorem runEvent_coreLoadAck (q : Nat) (t : Nat) (core : Nat) (s : State) : runEvent (.coreLoadAck q t core) s = exec (.coreLoadAck q t core) s := rfl
theorem runEvent_groupStart (q : Nat) (t : Nat) (s : State) : runEvent (.groupStart q t) s = exec (.groupStart q t) s := rfl
theorem runEvent_taskEndReport (core : Nat) (s : State) : runEvent (.taskEndReport core) s = exec (.taskEndReport core) s := rfl
theorem runEvent_groupFree (q : Nat) (t : Nat) (s : State) : runEvent (.groupFree q t) s = exec (.groupFree q t) s := rfl
theorem runEvent_recordWrite (q : Nat) (ring : Nat) (s : State) : runEvent (.recordWrite q ring) s = exec (.recordWrite q ring) s := rfl
theorem runEvent_recordRetry (q : Nat) (ring : Nat) (s : State) : runEvent (.recordRetry q ring) s = exec (.recordRetry q ring) s := rfl
theorem runEvent_ringHeadWrite (q : Nat) (ring : Nat) (val : BitVec 64) (s : State) : runEvent (.ringHeadWrite q ring val) s = exec (.ringHeadWrite q ring val) s := rfl
theorem runEvent_swcmdSave (q : Nat) (val : BitVec 64) (s : State) : runEvent (.swcmdSave q val) s = exec (.swcmdSave q val) s := rfl
theorem runEvent_swcmdRestore (q : Nat) (val : BitVec 64) (s : State) : runEvent (.swcmdRestore q val) s = exec (.swcmdRestore q val) s := rfl
theorem runEvent_swcmdDisarm (q : Nat) (val : BitVec 64) (s : State) : runEvent (.swcmdDisarm q val) s = exec (.swcmdDisarm q val) s := rfl
theorem runEvent_switchStop (hid : Nat) (s : State) : runEvent (.switchStop hid) s = exec (.switchStop hid) s := rfl
theorem runEvent_sluiceClose (hid : Nat) (s : State) : runEvent (.sluiceClose hid) s = exec (.sluiceClose hid) s := rfl
theorem runEvent_saveComplete (hid : Nat) (s : State) : runEvent (.saveComplete hid) s = exec (.saveComplete hid) s := rfl
theorem runEvent_restoreResume (hid : Nat) (s : State) : runEvent (.restoreResume hid) s = exec (.restoreResume hid) s := rfl
theorem runEvent_reinject (id : Nat) (s : State) : runEvent (.reinject id) s = exec (.reinject id) s := rfl
theorem runEvent_stubForward (id : Nat) (s : State) : runEvent (.stubForward id) s = exec (.stubForward id) s := rfl
theorem runEvent_stubCorrection (id : Nat) (s : State) : runEvent (.stubCorrection id) s = exec (.stubCorrection id) s := rfl
theorem runEvent_pasidTeardown (q : Nat) (s : State) : runEvent (.pasidTeardown q) s = exec (.pasidTeardown q) s := rfl
theorem runEvent_hostResponseDiscard (q : Nat) (s : State) : runEvent (.hostResponseDiscard q) s = exec (.hostResponseDiscard q) s := rfl
theorem runEvent_waitArm (q : Nat) (val : BitVec 64) (s : State) : runEvent (.waitArm q val) s = exec (.waitArm q val) s := rfl
theorem runEvent_watchRead (q : Nat) (s : State) : runEvent (.watchRead q) s = exec (.watchRead q) s := rfl
theorem runEvent_watchYield (q : Nat) (s : State) : runEvent (.watchYield q) s = exec (.watchYield q) s := rfl
theorem runEvent_pageResponse (q : Nat) (s : State) : runEvent (.pageResponse q) s = exec (.pageResponse q) s := rfl
theorem runEvent_tdiStateChange (q : Nat) (st : Nat) (s : State) : runEvent (.tdiStateChange q st) s = exec (.tdiStateChange q st) s := rfl
theorem runEvent_tinv (q : Nat) (val : BitVec 64) (s : State) : runEvent (.tinv q val) s = exec (.tinv q val) s := rfl
theorem runEvent_tinvComplete (q : Nat) (s : State) : runEvent (.tinvComplete q) s = exec (.tinvComplete q) s := rfl
theorem runEvent_gtsJoin (ref : Nat) (s : State) : runEvent (.gtsJoin ref) s = exec (.gtsJoin ref) s := rfl
theorem runEvent_gtsCorrect (add : Bool) (s : State) : runEvent (.gtsCorrect add) s = exec (.gtsCorrect add) s := rfl
theorem runEvent_leaseCas (cmp : BitVec 64) (new : BitVec 64) (s : State) : runEvent (.leaseCas cmp new) s = exec (.leaseCas cmp new) s := rfl
theorem runEvent_coldReset (s : State) : runEvent (.coldReset) s = exec (.coldReset) s := rfl
theorem runEvent_firstStageBoot (die : Nat) (s : State) : runEvent (.firstStageBoot die) s = exec (.firstStageBoot die) s := rfl
theorem runEvent_getMeasurements (s : State) : runEvent (.getMeasurements) s = exec (.getMeasurements) s := rfl
theorem runEvent_hostPortTrain (modes : BitVec 4) (s : State) : runEvent (.hostPortTrain modes) s = exec (.hostPortTrain modes) s := rfl
theorem runEvent_kill (q : Nat) (val : BitVec 64) (s : State) : runEvent (.kill q val) s = exec (.kill q val) s := rfl
theorem runEvent_warmReset (s : State) : runEvent (.warmReset) s = exec (.warmReset) s := rfl
theorem runEvent_killStop (hid : Nat) (s : State) : runEvent (.killStop hid) s = exec (.killStop hid) s := rfl
theorem runEvent_peatAllocate (hid : Nat) (s : State) : runEvent (.peatAllocate hid) s = exec (.peatAllocate hid) s := rfl
theorem runEvent_peatFormed (hid : Nat) (s : State) : runEvent (.peatFormed hid) s = exec (.peatFormed hid) s := rfl
theorem runEvent_pwrel (val : BitVec 64) (s : State) : runEvent (.pwrel val) s = exec (.pwrel val) s := rfl
theorem runEvent_reviveResume (q : Nat) (t : Nat) (s : State) : runEvent (.reviveResume q t) s = exec (.reviveResume q t) s := rfl
theorem runEvent_sramUe (kind : Nat) (holder : Nat) (addr : Nat) (s : State) : runEvent (.sramUe kind holder addr) s = exec (.sramUe kind holder addr) s := rfl
theorem runEvent_patrolScrub (pa : Nat) (s : State) : runEvent (.patrolScrub pa) s = exec (.patrolScrub pa) s := rfl
theorem runEvent_flitReceive (link : Nat) (seq : BitVec 12) (good : Bool) (s : State) : runEvent (.flitReceive link seq good) s = exec (.flitReceive link seq good) s := rfl
theorem runEvent_nakReplay (link : Nat) (seq : BitVec 12) (s : State) : runEvent (.nakReplay link seq) s = exec (.nakReplay link seq) s := rfl
theorem runEvent_retrainEnd (link : Nat) (up : Bool) (s : State) : runEvent (.retrainEnd link up) s = exec (.retrainEnd link up) s := rfl
theorem runEvent_eventRecordWrite (s : State) : runEvent (.eventRecordWrite) s = exec (.eventRecordWrite) s := rfl
theorem runEvent_rowActivate (pa : Nat) (s : State) : runEvent (.rowActivate pa) s = exec (.rowActivate pa) s := rfl
theorem runEvent_backoffEnd (bank : Nat) (s : State) : runEvent (.backoffEnd bank) s = exec (.backoffEnd bank) s := rfl
theorem runEvent_rowClose (bank : Nat) (s : State) : runEvent (.rowClose bank) s = exec (.rowClose bank) s := rfl
theorem runEvent_refreshWindow (stack : Nat) (s : State) : runEvent (.refreshWindow stack) s = exec (.refreshWindow stack) s := rfl
theorem runEvent_bankRefresh (bank : Nat) (s : State) : runEvent (.bankRefresh bank) s = exec (.bankRefresh bank) s := rfl
theorem runEvent_heartbeat (stack : Nat) (s : State) : runEvent (.heartbeat stack) s = exec (.heartbeat stack) s := rfl
theorem runEvent_refreshTakeover (stack : Nat) (s : State) : runEvent (.refreshTakeover stack) s = exec (.refreshTakeover stack) s := rfl
theorem runEvent_sequencerRefresh (stack : Nat) (s : State) : runEvent (.sequencerRefresh stack) s = exec (.sequencerRefresh stack) s := rfl
theorem runEvent_refreshHandback (stack : Nat) (s : State) : runEvent (.refreshHandback stack) s = exec (.refreshHandback stack) s := rfl
theorem runEvent_pageMigrate (page : Nat) (s : State) : runEvent (.pageMigrate page) s = exec (.pageMigrate page) s := rfl
theorem runEvent_sensorRead (die : Nat) (temp : Nat) (s : State) : runEvent (.sensorRead die temp) s = exec (.sensorRead die temp) s := rfl
theorem runEvent_routerReceive (id : Nat) (s : State) : runEvent (.routerReceive id) s = exec (.routerReceive id) s := rfl
theorem runEvent_orderRestoreDeliver (core : Nat) (s : State) : runEvent (.orderRestoreDeliver core) s = exec (.orderRestoreDeliver core) s := rfl
theorem runEvent_securityAlarm (cls : Nat) (s : State) : runEvent (.securityAlarm cls) s = exec (.securityAlarm cls) s := rfl
theorem runEvent_alarmAction (cls : Nat) (s : State) : runEvent (.alarmAction cls) s = exec (.alarmAction cls) s := rfl
theorem runEvent_signatureCheck (q : Nat) (idx : Nat) (s : State) : runEvent (.signatureCheck q idx) s = exec (.signatureCheck q idx) s := rfl
theorem runEvent_dbgunlk (q : Nat) (val : BitVec 64) (s : State) : runEvent (.dbgunlk q val) s = exec (.dbgunlk q val) s := rfl
theorem runEvent_debugStop (core : Nat) (s : State) : runEvent (.debugStop core) s = exec (.debugStop core) s := rfl
theorem runEvent_debugStopTake (core : Nat) (s : State) : runEvent (.debugStopTake core) s = exec (.debugStopTake core) s := rfl
theorem runEvent_debugRun (core : Nat) (s : State) : runEvent (.debugRun core) s = exec (.debugRun core) s := rfl
theorem runEvent_debugStep (core : Nat) (ctx : Nat) (s : State) : runEvent (.debugStep core ctx) s = exec (.debugStep core ctx) s := rfl
theorem runEvent_debugSnapshot (core : Nat) (s : State) : runEvent (.debugSnapshot core) s = exec (.debugSnapshot core) s := rfl
theorem runEvent_snapshotDone (core : Nat) (s : State) : runEvent (.snapshotDone core) s = exec (.snapshotDone core) s := rfl
theorem runEvent_traceGtsTrigger (core : Nat) (s : State) : runEvent (.traceGtsTrigger core) s = exec (.traceGtsTrigger core) s := rfl
theorem runEvent_droopDetect (die : Nat) (below : BitVec 32) (mv : BitVec 32) (s : State) : runEvent (.droopDetect die below mv) s = exec (.droopDetect die below mv) s := rfl
theorem runEvent_molHeadReread (core : Nat) (ctx : Nat) (s : State) : runEvent (.molHeadReread core ctx) s = exec (.molHeadReread core ctx) s := rfl
theorem runEvent_illegalOpcode (slot : Nat) (word : BitVec 32) (s : State) : runEvent (.illegalOpcode slot word) s = exec (.illegalOpcode slot word) s := rfl
theorem runEvent_fetchTrap (s : State) : runEvent (.fetchTrap) s = exec (.fetchTrap) s := rfl
theorem runEvent_householdCreate (hid : Nat) (q : Nat) (root : BitVec 64) (prot : Bool) (cred : BitVec 64) (s : State) : runEvent (.householdCreate hid q root prot cred) s = exec (.householdCreate hid q root prot cred) s := rfl
theorem runEvent_householdDestroy (hid : Nat) (s : State) : runEvent (.householdDestroy hid) s = exec (.householdDestroy hid) s := rfl
theorem runEvent_fenCreate (hid : Nat) (cx : Nat) (cy : Nat) (w : Nat) (ht : Nat) (s : State) : runEvent (.fenCreate hid cx cy w ht) s = exec (.fenCreate hid cx cy w ht) s := rfl
theorem runEvent_fenEnd (hid : Nat) (idx : Nat) (s : State) : runEvent (.fenEnd hid idx) s = exec (.fenEnd hid idx) s := rfl
theorem runEvent_hostCxlMemAccess (pa : Nat) (wr : Bool) (val : BitVec 64) (s : State) : runEvent (.hostCxlMemAccess pa wr val) s = exec (.hostCxlMemAccess pa wr val) s := rfl
theorem runEvent_boardwalkPeerAccess (port : Nat) (hid : Nat) (va : Nat) (wr : Bool) (val : BitVec 64) (s : State) : runEvent (.boardwalkPeerAccess port hid va wr val) s = exec (.boardwalkPeerAccess port hid va wr val) s := rfl
theorem runEvent_unsupportedAtomicop (off : Nat) (val : BitVec 64) (s : State) : runEvent (.unsupportedAtomicop off val) s = exec (.unsupportedAtomicop off val) s := rfl
theorem runEvent_porchAnswer (id : Nat) (s : State) : runEvent (.porchAnswer id) s = exec (.porchAnswer id) s := rfl
theorem runEvent_boxFetch (core : Nat) (ctx : Nat) (s : State) : runEvent (.boxFetch core ctx) s = exec (.boxFetch core ctx) s := rfl
theorem runEvent_allBankRefreshEnd (stack : Nat) (s : State) : runEvent (.allBankRefreshEnd stack) s = exec (.allBankRefreshEnd stack) s := rfl
theorem runEvent_migrationDone (page : Nat) (s : State) : runEvent (.migrationDone page) s = exec (.migrationDone page) s := rfl

end Sys2Proof.Machine
end

