-- ==== Sys2Proof/Laws/Issue.lean ====
section
/-! SUPPORT. What the shared issue of a word does: with no condition it has its effect, with a condition it traps or waits. -/
namespace Sys2Proof.Machine

theorem condIf_false (c sub info : Nat) : condIf false c sub info = [] := rfl
theorem firstCond_nil : firstCond [] = none := rfl
theorem underWaited_nil {c : Ctx} {srcs : List RegId} (h : c.uwtrap = true → ∀ r ∈ srcs, c.isPending r = false) :
    c.underWaited srcs = [] := by
  unfold Ctx.underWaited
  split
  · rw [List.map_eq_nil_iff, List.filter_eq_nil_iff]
    intro r hr
    simp [h ‹_› r hr]
  · rfl
theorem overQuota_nil {c : Ctx} {vs : List Nat} (h : ∀ v ∈ vs, v < c.quota) : c.overQuota vs = [] := by
  unfold Ctx.overQuota
  rw [List.map_eq_nil_iff, List.filter_eq_nil_iff]
  intro v hv
  simpa using h v hv
theorem outsideRegion_nil {c : Ctx} {b : Bool} (h : b = true ∨ c.region = none) : c.outsideRegion b = [] := by
  unfold Ctx.outsideRegion
  split
  · rfl
  · rcases h with h | h
    · simp [h, condIf]
    · simp_all
theorem tokenOverflow_nil {c : Ctx} {t : Option TokRef} (h : ∀ r, t = some r → c.tok r < 63) : c.tokenOverflow t = [] := by
  cases t with
  | none => rfl
  | some r =>
    have := h r rfl
    simp [Ctx.tokenOverflow, condIf]
    omega
theorem requestOverflow_nil {c : Ctx} {n : Nat} (h : n = 0 ∨ c.orcCount + n ≤ 1023) : c.requestOverflow n = [] := by
  unfold Ctx.requestOverflow condIf
  rcases h with h | h
  · simp [h]
  · simp
    omega

/-- A log that has room meets no busy bank: its head is not read again. -/
theorem molBusy_of_room {s : State} {n : Nat} (h : s.molShort n = false) : s.molBusy n = false := by
  cases hb : s.molBusy n with
  | false => rfl
  | true =>
    have hf : s.here.molFull n s.here.molHead = true := by
      unfold State.molBusy at hb
      simp only [Bool.and_eq_true] at hb
      exact hb.1
    unfold State.molShort State.molHeadFor State.molReads at h
    simp [hb, hf] at h

/-- An A-slot word that nothing stops has its effect. -/
theorem issueA_next {s : State} {i : Instr} {srcs : List RegId} {vecs : List Nat} {r : Bool} {m : Nat} (eff : State → State)
    (h : AClear s i srcs vecs r) :
    issueA i { srcs := srcs, vecs := vecs, inRegion := r, mol := m } eff s = .next (eff (s.markReads srcs)) := by
  unfold issueA
  simp [h.wf, Use.all, underWaited_nil h.reads, overQuota_nil h.quota, outsideRegion_nil h.region, Ctx.tokenOverflow,
    Ctx.requestOverflow, condIf, firstCond]
/-- A C-slot word that nothing stops, with no condition and no wait of its own, has its effect. -/
theorem issueC_next {s : State} {i : Instr} {hd : CHead} {srcs : List RegId} {vecs : List Nat} {ks : List (BitVec 4)}
    {tok : Option TokRef} {reqs mol : Nat} {conds : List Cond} {waits ill r : Bool} (eff : State → State)
    (h : CClear s i hd srcs vecs ks tok reqs mol r) (hc : conds = []) (hw : waits = false) (hi : ill = false) :
    issueC i hd { srcs := srcs, vecs := vecs, kfields := ks, tok := tok, reqs := reqs, conds := conds, waits := waits, inRegion := r,
                  illegal := ill, mol := mol } eff s = .next (eff (s.readied srcs mol)) := by
  subst hc hw hi
  have hk : ks.any s.me.badToken = false := by
    rw [List.any_eq_false]
    intro k hk
    simp [h.fields k hk]
  have hh : ¬ (hd.wn ≠ 3 ∧ s.me.badToken hd.wk = true) := by
    rcases h.head with h | h <;> simp [h]
  unfold issueC
  simp [h.met, h.wf, hk, Use.all, underWaited_nil h.reads, overQuota_nil h.quota, outsideRegion_nil h.region,
    tokenOverflow_nil h.raised, requestOverflow_nil h.room, State.molCond, h.log, molBusy_of_room h.log, condIf, firstCond, State.readied]
  exact fun a b => absurd ⟨a, b⟩ hh
/-- The same, as a word's meaning calls it: the effect is read off the call. -/
theorem issueA_eq {s t : State} {i : Instr} {u : Use} {eff : State → State} (h : AClear s i u.srcs u.vecs u.inRegion)
    (hc : u.conds = []) (hk : u.tok = none) (hr : u.reqs = 0) (ht : eff (s.markReads u.srcs) = t) : issueA i u eff s = .next t := by
  obtain ⟨srcs, vecs, ks, tok, reqs, conds, waits, r, ill, m⟩ := u
  subst hc hk hr ht
  unfold issueA
  simp [h.wf, Use.all, underWaited_nil h.reads, overQuota_nil h.quota, outsideRegion_nil h.region, Ctx.tokenOverflow,
    Ctx.requestOverflow, condIf, firstCond]
theorem issueC_eq {s t : State} {i : Instr} {hd : CHead} {u : Use} {eff : State → State}
    (h : CClear s i hd u.srcs u.vecs u.kfields u.tok u.reqs u.mol u.inRegion) (hc : u.conds = []) (hw : u.waits = false)
    (hi : u.illegal = false) (ht : eff (s.readied u.srcs u.mol) = t) : issueC i hd u eff s = .next t := by
  obtain ⟨srcs, vecs, ks, tok, reqs, conds, waits, r, ill, m⟩ := u
  subst ht
  exact issueC_next eff h hc hw hi
/-- A pair whose wait field is not met does nothing (R76). -/
theorem issueC_waits {s : State} {i : Instr} {hd : CHead} {u : Use} {eff : State → State} (h : s.me.waitMet hd = false) :
    issueC i hd u eff s = .next (s.hold true) := by
  simp [issueC, h]
/-- A word that its instruction's own condition holds back does nothing. -/
theorem issueC_holds {s : State} {i : Instr} {hd : CHead} {u : Use} {eff : State → State}
    (h : CClear s i hd u.srcs u.vecs u.kfields u.tok u.reqs u.mol u.inRegion) (hw : u.waits = true) (hi : u.illegal = false) :
    issueC i hd u eff s = .next (s.hold false) := by
  have hk : u.kfields.any s.me.badToken = false := by
    rw [List.any_eq_false]
    intro k hk
    simp [h.fields k hk]
  have hh : ¬ (hd.wn ≠ 3 ∧ s.me.badToken hd.wk = true) := by
    rcases h.head with h | h <;> simp [h]
  unfold issueC
  simp [h.met, h.wf, hk, hw, hi]
  exact fun a b => absurd ⟨a, b⟩ hh

end Sys2Proof.Machine
end

