-- ==== Sys2Proof/Laws/Memory.lean ====
section
/-! SUPPORT. Byte memories: reads after writes, and every write keeps the canonical form. -/
namespace Sys2Proof.Machine

/-- Every listed address lies above a bound. -/
def Memory.above (m : Memory) (lo : Nat) : Prop :=
  match m with
  | [] => True
  | (a, _) :: _ => lo < a

theorem Memory.wf_nil : Memory.wf [] = true := rfl
theorem Memory.wf_cons {a : Nat} {b : Byte} {m : Memory} :
    Memory.wf ((a, b) :: m) = true ↔ b ≠ unlisted ∧ Memory.above m a ∧ Memory.wf m = true := by
  cases m with
  | nil => simp [Memory.wf, Memory.above]
  | cons p m => simp [Memory.wf, Memory.above, and_assoc]

@[simp] theorem Memory.read_write_same (m : Memory) (a : Nat) (b : Byte) (h : Memory.wf m = true) :
    Memory.read (Memory.write m a b) a = b := by
  induction m with
  | nil =>
    unfold Memory.write
    split
    · simp_all [Memory.read]
    · simp [Memory.read]
  | cons p m ih =>
    obtain ⟨a', b'⟩ := p
    obtain ⟨_, hab, hw⟩ := Memory.wf_cons.1 h
    have low : ∀ (n : Memory) (lo : Nat), Memory.wf n = true → Memory.above n lo → ∀ x, x ≤ lo → Memory.read n x = unlisted := by
      intro n
      induction n with
      | nil => intros; rfl
      | cons q n ihn =>
        obtain ⟨q1, q2⟩ := q
        intro lo hn ha x hx
        obtain ⟨_, hab, hn'⟩ := Memory.wf_cons.1 hn
        have hq : lo < q1 := ha
        rw [Memory.read, if_neg (by omega)]
        exact ihn q1 hn' hab x (by omega)
    unfold Memory.write
    split
    · split
      · subst_vars
        exact low m a' hw hab a' (Nat.le_refl _)
      · simp [Memory.read]
    · split
      · split
        · subst_vars
          exact low _ a h (by simp only [Memory.above]; omega) a (Nat.le_refl _)
        · simp [Memory.read]
      · rw [Memory.read, if_neg (by omega)]
        exact ih hw
theorem Memory.read_write_ne (m : Memory) {a x : Nat} (b : Byte) (h : x ≠ a) :
    Memory.read (Memory.write m a b) x = Memory.read m x := by
  induction m with
  | nil =>
    unfold Memory.write
    split <;> simp [Memory.read, Ne.symm h]
  | cons p m ih =>
    obtain ⟨a', b'⟩ := p
    unfold Memory.write
    split
    · split <;> simp_all [Memory.read, Ne.symm h]
    · split
      · split
        · rfl
        · simp [Memory.read, Ne.symm h]
      · simp only [Memory.read]
        split
        · rfl
        · exact ih

theorem Memory.above_write {m : Memory} {lo a : Nat} {b : Byte} (h : Memory.above m lo) (ha : lo < a) (hw : Memory.wf m = true) :
    Memory.above (Memory.write m a b) lo := by
  cases m with
  | nil =>
    unfold Memory.write
    split
    · trivial
    · exact ha
  | cons p m =>
    obtain ⟨a', b'⟩ := p
    obtain ⟨_, hab, _⟩ := Memory.wf_cons.1 hw
    unfold Memory.write
    split
    · split
      · cases m with
        | nil => trivial
        | cons q m =>
          have h1 : lo < a' := h
          have h2 : a' < q.1 := hab
          exact (by omega : lo < q.1)
      · exact ha
    · split
      · split
        · exact h
        · exact ha
      · exact h
/-- A write of one byte keeps the canonical form. -/
theorem Memory.write_wf {m : Memory} {a : Nat} {b : Byte} (h : Memory.wf m = true) : Memory.wf (Memory.write m a b) = true := by
  induction m with
  | nil =>
    unfold Memory.write
    split
    · rfl
    · exact Memory.wf_cons.2 ⟨‹_›, trivial, rfl⟩
  | cons p m ih =>
    obtain ⟨a', b'⟩ := p
    obtain ⟨hb, hab, hw⟩ := Memory.wf_cons.1 h
    unfold Memory.write
    split
    · split
      · exact hw
      · subst_vars
        exact Memory.wf_cons.2 ⟨‹_›, hab, hw⟩
    · split
      · split
        · exact h
        · exact Memory.wf_cons.2 ⟨‹_›, by simp only [Memory.above]; omega, h⟩
      · exact Memory.wf_cons.2 ⟨hb, Memory.above_write hab (by omega) hw, ih hw⟩
/-- So does a write of a value. -/
theorem Memory.writeN_wf {m : Memory} {a n v : Nat} (h : Memory.wf m = true) : Memory.wf (Memory.writeN m a n v) = true := by
  induction n generalizing m a v with
  | zero => exact h
  | succ n ih => exact ih (Memory.write_wf h)
/-- So does a write of bytes. -/
theorem Memory.writeBytes_wf {m : Memory} {a : Nat} {bs : List Byte} (h : Memory.wf m = true) :
    Memory.wf (Memory.writeBytes m a bs) = true := by
  induction bs generalizing m a with
  | nil => exact h
  | cons b bs ih => exact ih (Memory.write_wf h)
/-- Bytes outside the written ones keep their values. -/
theorem Memory.read_writeN_ne (m : Memory) {a n x : Nat} (v : Nat) (h : x < a ∨ a + n ≤ x) :
    Memory.read (Memory.writeN m a n v) x = Memory.read m x := by
  induction n generalizing m a v with
  | zero => rfl
  | succ n ih =>
    rw [Memory.writeN, ih _ _ (by omega), Memory.read_write_ne _ _ (by omega)]
theorem Memory.read_writeBytes_ne (m : Memory) {a x : Nat} (bs : List Byte) (h : x < a ∨ a + bs.length ≤ x) :
    Memory.read (Memory.writeBytes m a bs) x = Memory.read m x := by
  induction bs generalizing m a with
  | nil => rfl
  | cons b bs ih =>
    simp only [List.length_cons] at h
    rw [Memory.writeBytes, ih _ (by omega), Memory.read_write_ne _ _ (by omega)]
/-- A value written is read back. -/
theorem Memory.readN_writeN (m : Memory) (a n v : Nat) (h : Memory.wf m = true) :
    Memory.readN (Memory.writeN m a n v) a n = v % 256 ^ n := by
  have below : ∀ (n : Nat) (m : Memory) (a x v : Nat), x < a → Memory.read (Memory.writeN m a n v) x = Memory.read m x := by
    intro n m a x v hx
    exact Memory.read_writeN_ne m v (Or.inl hx)
  induction n generalizing m a v with
  | zero => simp [Memory.readN, Nat.mod_one]
  | succ n ih =>
    rw [Memory.readN, Memory.writeN, below _ _ _ _ _ (by omega), Memory.read_write_same _ _ _ h, ih _ _ _ (Memory.write_wf h)]
    rw [BitVec.toNat_ofNat, show (256 : Nat) ^ (n + 1) = 256 * 256 ^ n from Nat.pow_succ', Nat.mod_mul (b := 256 ^ n)]

theorem State.reset_memWf : State.reset.memWf := ⟨rfl, rfl, rfl⟩
theorem CoreSt.reset_memWf : CoreSt.reset.memWf := ⟨rfl, rfl⟩
theorem CoreSt.putLs_memWf {x : CoreSt} {a n v : Nat} (h : x.memWf) : (x.putLs a n v).memWf := ⟨Memory.writeN_wf h.1, h.2⟩
theorem CoreSt.putLsBytes_memWf {x : CoreSt} {a : Nat} {bs : List Byte} (h : x.memWf) : (x.putLsBytes a bs).memWf := by
  unfold CoreSt.putLsBytes
  split
  · exact h
  · exact ⟨Memory.writeBytes_wf h.1, h.2⟩
theorem CoreSt.putB_memWf {x : CoreSt} {a : Nat} {bs : List Byte} (h : x.memWf) : (x.putB a bs).memWf := by
  unfold CoreSt.putB
  split
  · exact h
  · exact ⟨h.1, Memory.writeBytes_wf h.2⟩

end Sys2Proof.Machine
end

