-- ==== Sys2Proof/Laws/Reads.lean ====
section
/-! SUPPORT. Marking a read of a pending register and reserving log entries change no register that a word reads. -/
namespace Sys2Proof.Machine

/-- An update of the running context that keeps a part of it keeps that part, whichever context runs. -/
theorem State.onMe_proj {α : Type} (s : State) (f : Ctx → Ctx) (g : Ctx → α) (h : ∀ c, g (f c) = g c) :
    g (s.onMe f).me = g s.me := by
  by_cases hr : s.here.run < 11
  · rw [State.me_onMe _ _ hr, h]
  · have : (s.onMe f).me = s.me := by
      change (s.onMe f).here.ctx (s.onMe f).here.run = _
      rw [State.here_onMe, CoreSt.setCtx_run]
      have h2 : s.here.setCtx s.here.run (f s.me) = s.here := by
        unfold CoreSt.setCtx
        rw [Vector.setIfInBounds_eq_of_size_le (by omega)]
      rw [h2]
      rfl
    rw [this]
theorem State.markReads_proj {α : Type} (s : State) (srcs : List RegId) (g : Ctx → α) (h : ∀ c b, g { c with uw := b } = g c) :
    g (s.markReads srcs).me = g s.me := by
  unfold State.markReads
  split
  · exact State.onMe_proj s _ g (fun c => h c true)
  · rfl
@[simp] theorem State.markReads_focus (s : State) (srcs : List RegId) : (s.markReads srcs).focus = s.focus := by
  unfold State.markReads
  split <;> rfl
@[simp] theorem State.markReads_gts (s : State) (srcs : List RegId) : (s.markReads srcs).gts = s.gts := by
  unfold State.markReads
  split <;> rfl
@[simp] theorem State.markReads_sReg (s : State) (srcs : List RegId) (n : Nat) : (s.markReads srcs).me.sReg n = s.me.sReg n :=
  State.markReads_proj s srcs (fun c => c.sReg n) (fun _ _ => rfl)
@[simp] theorem State.markReads_vReg (s : State) (srcs : List RegId) (n : Nat) : (s.markReads srcs).me.vReg n = s.me.vReg n :=
  State.markReads_proj s srcs (fun c => c.vReg n) (fun _ _ => rfl)
@[simp] theorem State.markReads_pReg (s : State) (srcs : List RegId) (n : Nat) : (s.markReads srcs).me.pReg n = s.me.pReg n :=
  State.markReads_proj s srcs (fun c => c.pReg n) (fun _ _ => rfl)
@[simp] theorem State.markReads_genF32 (s : State) (srcs : List RegId) : (s.markReads srcs).genF32 = s.genF32 := by
  simp [State.genF32]

/-- Reserving log entries changes two fields of the running core at most: the count and the head that the check used. -/
theorem State.molReserve_here (s : State) (m : Nat) :
    ∃ n k, (s.molReserve m).here = { s.here with molRes := n, molHead := k } := by
  unfold State.molReserve
  simp only
  rw [State.here_onHere]
  split
  · exact ⟨_, _, rfl⟩
  · exact ⟨_, _, rfl⟩
/-- Reserving log entries touches no context. -/
theorem State.readied_proj {α : Type} (s : State) (srcs : List RegId) (m : Nat) (g : Ctx → α) (h : ∀ c b, g { c with uw := b } = g c) :
    g (s.readied srcs m).me = g s.me := by
  have : (s.readied srcs m).me = (s.markReads srcs).me := by
    obtain ⟨n, k, e⟩ := (s.markReads srcs).molReserve_here m
    unfold State.readied State.me
    rw [e]
    rfl
  rw [this, State.markReads_proj s srcs g h]
@[simp] theorem State.readied_focus (s : State) (srcs : List RegId) (m : Nat) : (s.readied srcs m).focus = s.focus := by
  simp [State.readied, State.molReserve]
@[simp] theorem State.readied_gts (s : State) (srcs : List RegId) (m : Nat) : (s.readied srcs m).gts = s.gts := by
  simp [State.readied, State.molReserve]
@[simp] theorem State.readied_sReg (s : State) (srcs : List RegId) (m n : Nat) : (s.readied srcs m).me.sReg n = s.me.sReg n :=
  State.readied_proj s srcs m (fun c => c.sReg n) (fun _ _ => rfl)
@[simp] theorem State.readied_vReg (s : State) (srcs : List RegId) (m n : Nat) : (s.readied srcs m).me.vReg n = s.me.vReg n :=
  State.readied_proj s srcs m (fun c => c.vReg n) (fun _ _ => rfl)
@[simp] theorem State.readied_pReg (s : State) (srcs : List RegId) (m n : Nat) : (s.readied srcs m).me.pReg n = s.me.pReg n :=
  State.readied_proj s srcs m (fun c => c.pReg n) (fun _ _ => rfl)
@[simp] theorem State.readied_pc (s : State) (srcs : List RegId) (m : Nat) : (s.readied srcs m).me.pc = s.me.pc :=
  State.readied_proj s srcs m (fun c => c.pc) (fun _ _ => rfl)
theorem State.readied_core {α : Type} (s : State) (srcs : List RegId) (m : Nat) (g : CoreSt → α)
    (h : ∀ x i c, g (CoreSt.setCtx x i c) = g x) (h2 : ∀ x : CoreSt, ∀ n k, g { x with molRes := n, molHead := k } = g x) :
    g (s.readied srcs m).here = g s.here := by
  obtain ⟨n, k, e⟩ := (s.markReads srcs).molReserve_here m
  unfold State.readied
  rw [e, h2]
  unfold State.markReads
  split
  · rw [State.here_onMe, h]
  · rfl
@[simp] theorem State.readied_gang (s : State) (srcs : List RegId) (m : Nat) : (s.readied srcs m).here.gang = s.here.gang :=
  State.readied_core s srcs m (fun x => x.gang) (fun _ _ _ => rfl) (fun _ _ _ => rfl)
@[simp] theorem State.readied_run (s : State) (srcs : List RegId) (m : Nat) : (s.readied srcs m).here.run = s.here.run :=
  State.readied_core s srcs m (fun x => x.run) (fun _ _ _ => rfl) (fun _ _ _ => rfl)
@[simp] theorem State.readied_ls (s : State) (srcs : List RegId) (m : Nat) : (s.readied srcs m).here.ls = s.here.ls :=
  State.readied_core s srcs m (fun x => x.ls) (fun _ _ _ => rfl) (fun _ _ _ => rfl)
@[simp] theorem State.readied_rb (s : State) (srcs : List RegId) (m : Nat) : (s.readied srcs m).here.rb = s.here.rb :=
  State.readied_core s srcs m (fun x => x.rb) (fun _ _ _ => rfl) (fun _ _ _ => rfl)
@[simp] theorem State.readied_rbSt (s : State) (srcs : List RegId) (m : Nat) : (s.readied srcs m).here.rbSt = s.here.rbSt :=
  State.readied_core s srcs m (fun x => x.rbSt) (fun _ _ _ => rfl) (fun _ _ _ => rfl)
@[simp] theorem State.readied_inh (s : State) (srcs : List RegId) (m : Nat) : (s.readied srcs m).me.inh = s.me.inh :=
  State.readied_proj s srcs m (fun c => c.inh) (fun _ _ => rfl)
@[simp] theorem State.readied_tok (s : State) (srcs : List RegId) (m : Nat) (t : TokRef) : (s.readied srcs m).me.tok t = s.me.tok t :=
  State.readied_proj s srcs m (fun c => c.tok t) (fun _ _ => by cases t <;> rfl)
@[simp] theorem State.readied_tokRef (s : State) (srcs : List RegId) (m k : Nat) : (s.readied srcs m).me.tokRef k = s.me.tokRef k :=
  State.readied_proj s srcs m (fun c => c.tokRef k) (fun _ _ => rfl)
@[simp] theorem State.readied_ltkRef (s : State) (srcs : List RegId) (m : Nat) : (s.readied srcs m).me.ltkRef = s.me.ltkRef :=
  State.readied_proj s srcs m Ctx.ltkRef (fun _ _ => rfl)
@[simp] theorem State.readied_npc (s : State) (srcs : List RegId) (m : Nat) : (s.readied srcs m).me.npc = s.me.npc :=
  State.readied_proj s srcs m (fun c => c.npc) (fun _ _ => rfl)
@[simp] theorem State.readied_level (s : State) (srcs : List RegId) (m : Nat) : (s.readied srcs m).me.level = s.me.level :=
  State.readied_proj s srcs m (fun c => c.level) (fun _ _ => rfl)
@[simp] theorem State.readied_fetchBound (s : State) (srcs : List RegId) (m : Nat) : (s.readied srcs m).me.bound = s.me.bound :=
  State.readied_proj s srcs m (fun c => c.bound) (fun _ _ => rfl)
@[simp] theorem State.readied_ovh (s : State) (srcs : List RegId) (m : Nat) : (s.readied srcs m).me.ovh = s.me.ovh :=
  State.readied_proj s srcs m (fun c => c.ovh) (fun _ _ => rfl)
@[simp] theorem State.readied_task (s : State) (srcs : List RegId) (m : Nat) : (s.readied srcs m).me.task = s.me.task :=
  State.readied_proj s srcs m (fun c => c.task) (fun _ _ => rfl)
@[simp] theorem State.readied_fen (s : State) (srcs : List RegId) (m : Nat) : (s.readied srcs m).me.fen = s.me.fen :=
  State.readied_proj s srcs m (fun c => c.fen) (fun _ _ => rfl)
@[simp] theorem State.fixedWrite_pc (s : State) (r : RegId) (v l : Nat) : (s.fixedWrite r v l).me.pc = s.me.pc :=
  State.onMe_proj _ _ (fun c => c.pc) (fun c => by unfold Ctx.queueFixed; split <;> rfl)
/-- Outside a gang and a replay a switching event passes the slot at once. -/
theorem State.switching_plain {s : State} (hg : s.here.gang = none) (hr : s.replays = false) : s.switching = s.passed := by
  unfold State.switching State.passed
  rw [if_neg (by simp [hg])]
  unfold State.onHere State.onCore
  congr 1
  change (match s.here.rbSt with | .replaying o pass passes idx stag _ => _ | _ => _) = _
  unfold State.replays at hr
  split
  · rename_i heq
    rw [heq] at hr
    simp only [beq_eq_false_iff_ne] at hr
    exact if_neg hr
  · rfl

/-! ### More of what a ready word finds unchanged -/

/-- The running core after a word is ready: one context's CSTAT.UW, the count of reserved log entries and the head that their
check used may differ. -/
theorem State.readied_here_eq (s : State) (srcs : List RegId) (m : Nat) :
    ∃ b n k, (s.readied srcs m).here = { s.here.setCtx s.here.run { s.me with uw := b } with molRes := n, molHead := k } := by
  obtain ⟨n, k, e⟩ := (s.markReads srcs).molReserve_here m
  unfold State.readied
  rw [e]
  unfold State.markReads
  split
  · exact ⟨true, n, k, by rw [State.here_onMe]⟩
  · refine ⟨s.me.uw, n, k, ?_⟩
    have : s.here.setCtx s.here.run { s.me with uw := s.me.uw } = s.here := by
      unfold CoreSt.setCtx State.me CoreSt.ctx
      congr 1
      ext i hi
      rw [Vector.getElem_setIfInBounds]
      split
      · rename_i h; subst h; simp only [Vector.getElem?_eq_getElem hi, Option.getD_some]; rfl
      · rfl
    rw [this]
/-- A part of the running core that neither CSTAT.UW nor the reservations touch. -/
theorem State.readied_here {α : Type} (s : State) (srcs : List RegId) (m : Nat) (g : CoreSt → α)
    (h : ∀ x : CoreSt, ∀ b n k, g { x.setCtx x.run { x.ctx x.run with uw := b } with molRes := n, molHead := k } = g x) :
    g (s.readied srcs m).here = g s.here := by
  obtain ⟨b, n, k, e⟩ := s.readied_here_eq srcs m
  rw [e]
  exact h s.here b n k
/-- A field of a context that CSTAT.UW is not. -/
theorem CoreSt.ctx_setUw {α : Type} (x : CoreSt) (b : Bool) (i : Nat) (g : Ctx → α) (h : ∀ c b, g { c with uw := b } = g c) :
    g ((x.setCtx x.run { x.ctx x.run with uw := b }).ctx i) = g (x.ctx i) := by
  unfold CoreSt.ctx CoreSt.setCtx
  simp only [Vector.getElem?_setIfInBounds]
  split
  · rename_i hi
    subst hi
    split
    · rename_i hr
      simp only [Option.getD_some, h]
    · rename_i hr
      rw [Vector.getElem?_eq_none (by omega)]
  · rfl
@[simp] theorem State.readied_core_det (s : State) (srcs : List RegId) (m : Nat) : (s.readied srcs m).here.det = s.here.det :=
  s.readied_here srcs m (fun x => x.det) (fun _ _ _ _ => rfl)
@[simp] theorem State.readied_core_mq (s : State) (srcs : List RegId) (m : Nat) : (s.readied srcs m).here.mq = s.here.mq :=
  s.readied_here srcs m (fun x => x.mq) (fun _ _ _ _ => rfl)
@[simp] theorem State.readied_core_mrun (s : State) (srcs : List RegId) (m : Nat) : (s.readied srcs m).here.mrun = s.here.mrun :=
  s.readied_here srcs m (fun x => x.mrun) (fun _ _ _ _ => rfl)
@[simp] theorem State.readied_core_mlast (s : State) (srcs : List RegId) (m : Nat) : (s.readied srcs m).here.mlast = s.here.mlast :=
  s.readied_here srcs m (fun x => x.mlast) (fun _ _ _ _ => rfl)
@[simp] theorem State.readied_core_mowner (s : State) (srcs : List RegId) (m : Nat) : (s.readied srcs m).here.mowner = s.here.mowner :=
  s.readied_here srcs m (fun x => x.mowner) (fun _ _ _ _ => rfl)
@[simp] theorem State.readied_core_mlds (s : State) (srcs : List RegId) (m : Nat) : (s.readied srcs m).here.mlds = s.here.mlds :=
  s.readied_here srcs m (fun x => x.mlds) (fun _ _ _ _ => rfl)
@[simp] theorem State.readied_core_mldLast (s : State) (srcs : List RegId) (m : Nat) : (s.readied srcs m).here.mldLast = s.here.mldLast :=
  s.readied_here srcs m (fun x => x.mldLast) (fun _ _ _ _ => rfl)
@[simp] theorem State.readied_core_inbox (s : State) (srcs : List RegId) (m : Nat) : (s.readied srcs m).here.inbox = s.here.inbox :=
  s.readied_here srcs m (fun x => x.inbox) (fun _ _ _ _ => rfl)
@[simp] theorem State.readied_core_deferred (s : State) (srcs : List RegId) (m : Nat) : (s.readied srcs m).here.deferred = s.here.deferred :=
  s.readied_here srcs m (fun x => x.deferred) (fun _ _ _ _ => rfl)
@[simp] theorem State.readied_core_cisOut (s : State) (srcs : List RegId) (m : Nat) : (s.readied srcs m).here.cisOut = s.here.cisOut :=
  s.readied_here srcs m (fun x => x.cisOut) (fun _ _ _ _ => rfl)
@[simp] theorem State.readied_core_hid (s : State) (srcs : List RegId) (m : Nat) : (s.readied srcs m).here.hid = s.here.hid :=
  s.readied_here srcs m (fun x => x.hid) (fun _ _ _ _ => rfl)
@[simp] theorem State.readied_core_upcs (s : State) (srcs : List RegId) (m : Nat) : (s.readied srcs m).here.upcs = s.here.upcs :=
  s.readied_here srcs m (fun x => x.upcs) (fun _ _ _ _ => rfl)
@[simp] theorem State.readied_core_appIdx (s : State) (srcs : List RegId) (m : Nat) : (s.readied srcs m).here.appIdx = s.here.appIdx :=
  s.readied_here srcs m (fun x => x.appIdx) (fun _ _ _ _ => rfl)
@[simp] theorem State.readied_core_feEmpty (s : State) (srcs : List RegId) (m : Nat) : (s.readied srcs m).here.feEmpty = s.here.feEmpty :=
  s.readied_here srcs m (fun x => x.feEmpty) (fun _ _ _ _ => rfl)
@[simp] theorem State.readied_core_pages (s : State) (srcs : List RegId) (m : Nat) : (s.readied srcs m).here.pages = s.here.pages :=
  s.readied_here srcs m (fun x => x.pages) (fun _ _ _ _ => rfl)
@[simp] theorem State.readied_core_mfa (s : State) (srcs : List RegId) (m : Nat) : (s.readied srcs m).here.mfa = s.here.mfa :=
  s.readied_here srcs m (fun x => x.mfa) (fun _ _ _ _ => rfl)
@[simp] theorem State.readied_core_mfb (s : State) (srcs : List RegId) (m : Nat) : (s.readied srcs m).here.mfb = s.here.mfb :=
  s.readied_here srcs m (fun x => x.mfb) (fun _ _ _ _ => rfl)
@[simp] theorem State.readied_core_msa (s : State) (srcs : List RegId) (m : Nat) : (s.readied srcs m).here.msa = s.here.msa :=
  s.readied_here srcs m (fun x => x.msa) (fun _ _ _ _ => rfl)
@[simp] theorem State.readied_core_msb (s : State) (srcs : List RegId) (m : Nat) : (s.readied srcs m).here.msb = s.here.msb :=
  s.readied_here srcs m (fun x => x.msb) (fun _ _ _ _ => rfl)
@[simp] theorem State.readied_core_pass (s : State) (srcs : List RegId) (m : Nat) : (s.readied srcs m).here.pass = s.here.pass :=
  s.readied_here srcs m (fun x => x.pass) (fun _ _ _ _ => rfl)
@[simp] theorem State.readied_core_dbg (s : State) (srcs : List RegId) (m : Nat) : (s.readied srcs m).here.dbg = s.here.dbg :=
  s.readied_here srcs m (fun x => x.dbg) (fun _ _ _ _ => rfl)
@[simp] theorem State.readied_core_tiles (s : State) (srcs : List RegId) (m : Nat) : (s.readied srcs m).here.tiles = s.here.tiles :=
  s.readied_here srcs m (fun x => x.tiles) (fun _ _ _ _ => rfl)
@[simp] theorem State.readied_core_chunkIdx (s : State) (srcs : List RegId) (m : Nat) : (s.readied srcs m).here.chunkIdx = s.here.chunkIdx :=
  s.readied_here srcs m (fun x => x.chunkIdx) (fun _ _ _ _ => rfl)
@[simp] theorem State.readied_me_nseq (s : State) (srcs : List RegId) (m : Nat) : (s.readied srcs m).me.nseq = s.me.nseq :=
  s.readied_proj srcs m (fun c => c.nseq) (fun _ _ => rfl)
@[simp] theorem State.readied_me_out (s : State) (srcs : List RegId) (m : Nat) : (s.readied srcs m).me.out = s.me.out :=
  s.readied_proj srcs m (fun c => c.out) (fun _ _ => rfl)
@[simp] theorem State.readied_me_acq (s : State) (srcs : List RegId) (m : Nat) : (s.readied srcs m).me.acq = s.me.acq :=
  s.readied_proj srcs m (fun c => c.acq) (fun _ _ => rfl)
@[simp] theorem State.readied_me_ctxNo (s : State) (srcs : List RegId) (m : Nat) : (s.readied srcs m).me.ctxNo = s.me.ctxNo :=
  s.readied_proj srcs m (fun c => c.ctxNo) (fun _ _ => rfl)
@[simp] theorem State.readied_me_region (s : State) (srcs : List RegId) (m : Nat) : (s.readied srcs m).me.region = s.me.region :=
  s.readied_proj srcs m (fun c => c.region) (fun _ _ => rfl)
@[simp] theorem State.readied_me_wait (s : State) (srcs : List RegId) (m : Nat) : (s.readied srcs m).me.wait = s.me.wait :=
  s.readied_proj srcs m (fun c => c.wait) (fun _ _ => rfl)
@[simp] theorem State.readied_me_behind (s : State) (srcs : List RegId) (m : Nat) : (s.readied srcs m).me.behind = s.me.behind :=
  s.readied_proj srcs m (fun c => c.behind) (fun _ _ => rfl)
@[simp] theorem State.readied_me_h (s : State) (srcs : List RegId) (m : Nat) : (s.readied srcs m).me.h = s.me.h :=
  s.readied_proj srcs m (fun c => c.h) (fun _ _ => rfl)
@[simp] theorem State.readied_me_quota (s : State) (srcs : List RegId) (m : Nat) : (s.readied srcs m).me.quota = s.me.quota :=
  s.readied_proj srcs m (fun c => c.quota) (fun _ _ => rfl)
@[simp] theorem State.readied_me_vloads (s : State) (srcs : List RegId) (m : Nat) : (s.readied srcs m).me.vloads = s.me.vloads :=
  s.readied_proj srcs m (fun c => c.vloads) (fun _ _ => rfl)
@[simp] theorem State.readied_bag (s : State) (srcs : List RegId) (m : Nat) : (s.readied srcs m).bag = s.bag := by
  unfold State.readied State.molReserve State.markReads; split <;> rfl
@[simp] theorem State.readied_ctr (s : State) (srcs : List RegId) (m : Nat) : (s.readied srcs m).ctr = s.ctr := by
  unfold State.readied State.molReserve State.markReads; split <;> rfl
@[simp] theorem State.readied_due (s : State) (srcs : List RegId) (m : Nat) : (s.readied srcs m).due = s.due := by
  unfold State.readied State.molReserve State.markReads; split <;> rfl
@[simp] theorem State.readied_agenda (s : State) (srcs : List RegId) (m : Nat) : (s.readied srcs m).agenda = s.agenda := by
  unfold State.readied State.molReserve State.markReads; split <;> rfl
@[simp] theorem State.readied_clusters (s : State) (srcs : List RegId) (m : Nat) : (s.readied srcs m).clusters = s.clusters := by
  unfold State.readied State.molReserve State.markReads; split <;> rfl
@[simp] theorem State.readied_pa (s : State) (srcs : List RegId) (m : Nat) : (s.readied srcs m).pa = s.pa := by
  unfold State.readied State.molReserve State.markReads; split <;> rfl
@[simp] theorem State.readied_host (s : State) (srcs : List RegId) (m : Nat) : (s.readied srcs m).host = s.host := by
  unfold State.readied State.molReserve State.markReads; split <;> rfl
@[simp] theorem State.readied_peer (s : State) (srcs : List RegId) (m : Nat) : (s.readied srcs m).peer = s.peer := by
  unfold State.readied State.molReserve State.markReads; split <;> rfl
@[simp] theorem State.readied_queues (s : State) (srcs : List RegId) (m : Nat) : (s.readied srcs m).queues = s.queues := by
  unfold State.readied State.molReserve State.markReads; split <;> rfl
@[simp] theorem State.readied_households (s : State) (srcs : List RegId) (m : Nat) : (s.readied srcs m).households = s.households := by
  unfold State.readied State.molReserve State.markReads; split <;> rfl
@[simp] theorem State.readied_turn (s : State) (srcs : List RegId) (m : Nat) : (s.readied srcs m).turn = s.turn := by
  unfold State.readied State.molReserve State.markReads; split <;> rfl
@[simp] theorem State.readied_boundary (s : State) (srcs : List RegId) (m : Nat) :
    (s.readied srcs m).here.boundary = s.here.boundary :=
  s.readied_here srcs m CoreSt.boundary (fun x b n k => by
    unfold CoreSt.boundary
    exact congrArg (256 * ·) (x.ctx_setUw b 0 (fun c => c.bound) (fun _ _ => rfl)))
@[simp] theorem State.readied_hReg (s : State) (srcs : List RegId) (m n : Nat) : (s.readied srcs m).me.hReg n = s.me.hReg n :=
  s.readied_proj srcs m (fun c => c.hReg n) (fun _ _ => rfl)
@[simp] theorem State.readied_myCluster (s : State) (srcs : List RegId) (m : Nat) : (s.readied srcs m).myCluster = s.myCluster := by
  simp [State.myCluster]
@[simp] theorem State.readied_clusterAt (s : State) (srcs : List RegId) (m c : Nat) : (s.readied srcs m).clusterAt c = s.clusterAt c := by
  simp [State.clusterAt]
@[simp] theorem State.readied_cgroup (s : State) (srcs : List RegId) (m c r : Nat) : (s.readied srcs m).cgroup c r = s.cgroup c r := by
  simp [State.cgroup]
@[simp] theorem State.readied_lentry (s : State) (srcs : List RegId) (m c r : Nat) : (s.readied srcs m).lentry c r = s.lentry c r := by
  simp [State.lentry]
@[simp] theorem State.readied_freeEntries (s : State) (srcs : List RegId) (m : Nat) : (s.readied srcs m).freeEntries = s.freeEntries := by
  simp [State.freeEntries]
@[simp] theorem State.readied_dstOf (s : State) (srcs : List RegId) (m a : Nat) : (s.readied srcs m).dstOf a = s.dstOf a := by
  simp [State.dstOf]
@[simp] theorem State.readied_replays (s : State) (srcs : List RegId) (m : Nat) : (s.readied srcs m).replays = s.replays := by
  simp [State.replays]

end Sys2Proof.Machine
end

