-- ==== Sys2Proof/Laws/Order.lean ====
section
/-! SUPPORT. What the steps of the ordering machine can do: where a read finds its bytes, what a write and an atomic step add,
and what each leaves alone. -/
namespace Sys2Proof.Machine

/-! ### Choosing -/

@[simp] theorem State.choose_core (s : State) (n c : Nat) : (s.choose n).2.coreOf c = s.coreOf c := rfl
@[simp] theorem State.choose_order (s : State) (n : Nat) : (s.choose n).2.order = s.order := rfl
/-- Choosing advances the model's counter and changes nothing else. -/
theorem State.pickFrom_state (s : State) (cand : Nat → List Node) (a n left : Nat) (done : List (Nat × Node)) :
    ∃ k, (s.pickFrom cand a n left done).2 = { s with ctr := k } := by
  induction left generalizing s done with
  | zero => exact ⟨s.ctr, rfl⟩
  | succ k ih =>
    unfold State.pickFrom
    simp only
    split
    · exact ih s done
    · exact ih s _
    · rename_i w l _ _
      obtain ⟨c, e⟩ := ih (s.choose _).2 (done ++ [(a + (n - (k + 1)), _)])
      exact ⟨c, by rw [e]; rfl⟩
/-- Every choice is one of its byte's candidates, and each byte that has a candidate gets one. -/
theorem State.pickFrom_mem (s : State) (cand : Nat → List Node) (a n left : Nat) (done : List (Nat × Node))
    (hne : ∀ i, i < n → cand (a + i) ≠ []) (hl : left ≤ n) :
    ∃ ps, (s.pickFrom cand a n left done).1 = done ++ ps ∧ ps.length = left ∧
      ∀ i, i < left → ∃ w, ps[i]? = some (a + (n - left + i), w) ∧ w ∈ cand (a + (n - left + i)) := by
  induction left generalizing s done with
  | zero => exact ⟨[], by simp [State.pickFrom], rfl, fun i hi => absurd hi (by omega)⟩
  | succ k ih =>
    have hx := hne (n - (k + 1)) (by omega)
    have step : ∃ w u, w ∈ cand (a + (n - (k + 1))) ∧ s.pickFrom cand a n (k + 1) done =
        State.pickFrom u cand a n k (done ++ [(a + (n - (k + 1)), w)]) := by
      rw [State.pickFrom]
      simp only
      split
      · rename_i h
        exfalso
        split at h
        · rename_i h2
          cases hc : (cand (a + (n - (k + 1)))).reverse with
          | nil => exact hx (List.reverse_eq_nil_iff.1 hc)
          | cons y ys => rw [hc] at h; simp at h
        · rename_i h2
          rw [h] at h2
          exact h2 rfl
      · rename_i w h
        refine ⟨w, s, ?_, rfl⟩
        split at h
        · have := List.mem_of_mem_take (by rw [h]; exact List.mem_singleton.2 rfl : w ∈ (cand (a + (n - (k + 1)))).reverse.take 1)
          simpa using this
        · exact (List.mem_filter.1 (by rw [h]; exact List.mem_singleton.2 rfl)).1
      · rename_i f w l h1 h2
        refine ⟨_, _, ?_, rfl⟩
        have hmem : ∀ y, y ∈ w :: l → y ∈ cand (a + (n - (k + 1))) := by
          intro y hy
          rw [← h2] at hy
          split at hy
          · have := List.mem_of_mem_take hy
            simpa using this
          · exact (List.mem_filter.1 hy).1
        rw [h2]
        cases hg : (w :: l)[(s.choose (w :: l).length).1]? with
        | none => exact hmem w (List.mem_cons_self)
        | some y => exact hmem y (List.mem_of_getElem? hg)
    obtain ⟨w, u, hw, e⟩ := step
    obtain ⟨ps, e2, hlen, hps⟩ := ih u (done ++ [(a + (n - (k + 1)), w)]) (by omega)
    refine ⟨(a + (n - (k + 1)), w) :: ps, by rw [e, e2]; simp, by simp [hlen], ?_⟩
    intro i hi
    cases i with
    | zero => exact ⟨w, by simp, hw⟩
    | succ j =>
      obtain ⟨y, hy, hc⟩ := hps j (by omega)
      have : n - k + j = n - (k + 1) + (j + 1) := by omega
      rw [this] at hy hc
      exact ⟨y, by simpa using hy, hc⟩
/-- A byte of the value chosen. -/
theorem pickedVal_byte (ps : List (Nat × Node)) (i : Nat) {p : Nat × Node} (h : ps[i]? = some p) :
    pickedVal ps / 256 ^ i % 256 = p.2.val % 256 := by
  induction ps generalizing i with
  | nil => simp at h
  | cons q ps ih =>
    have e : pickedVal (q :: ps) = q.2.val % 256 + 256 * pickedVal ps := rfl
    cases i with
    | zero =>
      simp only [List.getElem?_cons_zero, Option.some.injEq] at h
      subst h
      rw [e]
      omega
    | succ j =>
      have hj : ps[j]? = some p := by simpa using h
      rw [← ih j hj, e, Nat.pow_succ', ← Nat.div_div_eq_div_mul]
      congr 2
      omega

/-! ### Reads of a local store (R163, R167) -/

/-- A read that leaves no choice finds what memory holds and changes nothing. -/
theorem State.readLs_settled {s : State} {core home a n : Nat} (h : settled (s.sightLs core home) (s.byteLs home) a n = true) :
    s.readLs core home a n = ((s.coreOf home).ls.readN a n, s) := by
  unfold State.readLs
  rw [if_pos h]
/-- A read that leaves a choice takes each byte from a node of its sight set. -/
theorem State.readLs_byte {s : State} {core home a n : Nat} (h : settled (s.sightLs core home) (s.byteLs home) a n = false)
    (hne : ∀ i, i < n → s.sightLs core home (a + i) ≠ []) {i : Nat} (hi : i < n) :
    ∃ w ∈ s.sightLs core home (a + i), (s.readLs core home a n).1 / 256 ^ i % 256 = w.val % 256 := by
  obtain ⟨ps, e, _, hps⟩ := s.pickFrom_mem (s.sightLs core home) a n n [] hne (Nat.le_refl n)
  obtain ⟨w, hw, hc⟩ := hps i hi
  rw [Nat.sub_self, Nat.zero_add] at hw hc
  refine ⟨w, hc, ?_⟩
  unfold State.readLs
  rw [if_neg (by simp [h])]
  simp only [e, List.nil_append]
  exact pickedVal_byte ps i hw
/-- A read changes at most the reader's Seen set and the model's counter. -/
theorem State.readLs_state (s : State) (core home a n : Nat) :
    ∃ k seen, (s.readLs core home a n).2 = ({ s with ctr := k }.onCore core (fun x => { x with seen := seen })) ∨
      (s.readLs core home a n).2 = { s with ctr := k } := by
  unfold State.readLs
  split
  · exact ⟨s.ctr, [], Or.inr rfl⟩
  · obtain ⟨k, e⟩ := s.pickFrom_state (s.sightLs core home) a n n []
    simp only [e]
    unfold State.learn
    split
    · exact ⟨k, [], Or.inr rfl⟩
    · exact ⟨k, _, Or.inl rfl⟩

/-! ### Write nodes (R166, R168) -/

theorem lfind_lput_same (t : List (Loc × Graph)) (l : Loc) (g : Graph) : lfind (lput t l g) l = some g := by
  induction t with
  | nil => simp [lput, lfind]
  | cons p t ih =>
    obtain ⟨k, h⟩ := p
    unfold lput
    split
    · simp [lfind]
    · rename_i hk
      simp [lfind, hk, ih]
theorem lfind_lput_ne (t : List (Loc × Graph)) {l m : Loc} (g : Graph) (h : m ≠ l) : lfind (lput t l g) m = lfind t m := by
  induction t with
  | nil => simp [lput, lfind, Ne.symm h]
  | cons p t ih =>
    obtain ⟨k, g'⟩ := p
    unfold lput
    split
    · rename_i hk
      subst hk
      simp [lfind, Ne.symm h]
    · simp only [lfind, ih]
/-- Adding nodes changes the graphs and nothing else. -/
theorem State.addNodes_state (s : State) (id : Nat) (all : Bool) (know : Seen) (loc : Nat → Loc) (byte : Nat → Nat)
    (a n val left : Nat) : ∃ o, (s.addNodes id all know loc byte a n val left).2 = { s with order := o } := by
  induction left generalizing s know with
  | zero => exact ⟨s.order, rfl⟩
  | succ k ih =>
    unfold State.addNodes
    obtain ⟨o, e⟩ := ih { s with order := _ } _
    exact ⟨o, by rw [e]⟩
/-- What a location's graph is before a write: its own, or its initial node. -/
def graphAt (o : List (Loc × Graph)) (loc : Nat → Loc) (byte : Nat → Nat) (x : Nat) : Graph :=
  (lfind o (loc x)).getD { init := byte x, nodes := [] }
/-- Locations that no byte of the write stands at keep their graphs. -/
theorem State.addNodes_other (s : State) (id : Nat) (all : Bool) (know : Seen) (loc : Nat → Loc) (byte : Nat → Nat)
    (a n val left : Nat) {l : Loc} (h : ∀ i, n - left ≤ i → i < n → loc (a + i) ≠ l) (hl : left ≤ n) :
    lfind (s.addNodes id all know loc byte a n val left).2.order l = lfind s.order l := by
  induction left generalizing s know with
  | zero => rfl
  | succ k ih =>
    unfold State.addNodes
    simp only
    rw [ih _ _ (fun i h1 h2 => h i (by omega) h2) (by omega)]
    exact lfind_lput_ne _ _ (Ne.symm (h (n - (k + 1)) (by omega) (by omega)))
/-- One byte of a write: its location gets a graph, and the writer's set grows at that location alone. -/
theorem State.addNodes_succ (s : State) (id : Nat) (all : Bool) (know : Seen) (loc : Nat → Loc) (byte : Nat → Nat)
    (a n val k : Nat) : ∃ G K, s.addNodes id all know loc byte a n val (k + 1) =
      State.addNodes { s with order := lput s.order (loc (a + (n - (k + 1)))) G } id all K loc byte a n val k ∧
      (all = false → ∀ m, m ≠ loc (a + (n - (k + 1))) → seenAt K m = seenAt know m) := by
  refine ⟨_, _, rfl, ?_⟩
  intro ha m hm
  subst ha
  simp only [seenAt, Bool.false_eq_true, if_false]
  rw [List.filter_cons_of_neg (by simpa using Ne.symm hm)]
/-- Each byte of a write that starts with the set `know` gains one node, of the write's identity and the byte's value, after
exactly the nodes that the set holds there, or after all. -/
theorem State.addNodes_node (s : State) (id : Nat) (all : Bool) (know : Seen) (loc : Nat → Loc) (byte : Nat → Nat)
    (a n val left : Nat) (inj : ∀ x y, loc x = loc y → x = y) (hl : left ≤ n) {i : Nat} (h1 : n - left ≤ i) (h2 : i < n) :
    let g := graphAt s.order loc byte (a + i)
    ∃ before, lfind (s.addNodes id all know loc byte a n val left).2.order (loc (a + i)) =
        some { g with nodes := g.nodes ++ [{ id := id, val := val / 256 ^ i % 256, base := a, size := n, before := before }] } ∧
      (all = true → before = g.nodes.map (fun u => u.id)) ∧
      (all = false → before = (g.nodes.map (fun u => u.id)).filter (fun j => (seenAt know (loc (a + i))).contains j)) := by
  induction left generalizing s know with
  | zero => omega
  | succ k ih =>
    intro g
    by_cases hi : i = n - (k + 1)
    · subst hi
      unfold State.addNodes
      simp only
      rw [State.addNodes_other _ _ _ _ _ _ _ _ _ _ (fun j h3 h4 e => by have := inj _ _ e; omega) (by omega)]
      refine ⟨_, lfind_lput_same _ _ _, ?_, ?_⟩
      · intro ha
        simp [ha]
        rfl
      · intro ha
        simp [ha]
        rfl
    · have hne : loc (a + i) ≠ loc (a + (n - (k + 1))) := fun e => hi (by have := inj _ _ e; omega)
      obtain ⟨G, K, eq, hK⟩ := s.addNodes_succ id all know loc byte a n val k
      rw [eq]
      obtain ⟨b, e, e1, e2⟩ := ih { s with order := lput s.order (loc (a + (n - (k + 1)))) G } K (by omega) (by omega)
      have hg : graphAt (lput s.order (loc (a + (n - (k + 1)))) G) loc byte (a + i) = g := by
        unfold graphAt
        rw [lfind_lput_ne _ _ hne]
        rfl
      simp only [hg] at e e1 e2
      exact ⟨b, e, e1, fun ha => by rw [e2 ha, hK ha _ hne]⟩

/-! ### Own accesses of a core (R135, R165) -/

/-- The last of two entries put at one key stands. -/
theorem tput_tput {α : Type} (t : Table α) (k : Nat) (v w : α) : tput (tput t k v) k w = tput t k w := by
  induction t with
  | nil => simp [tput]
  | cons p t ih =>
    obtain ⟨k', v'⟩ := p
    by_cases h1 : k' = k
    · subst h1
      simp [tput]
    · by_cases h2 : k < k'
      · simp [tput, h1, h2]
      · simp [tput, h1, h2, ih]
/-- Two updates of one core are one. -/
theorem State.onCore_onCore (s : State) (c : Nat) (f g : CoreSt → CoreSt) : (s.onCore c f).onCore c g = s.onCore c (fun x => g (f x)) := by
  unfold State.onCore State.setCore State.coreOf
  simp only [tget_tput_same, tput_tput]
/-- The graphs and the model's counter are no part of a core. -/
theorem State.here_graphs (s : State) (o : List (Loc × Graph)) (c : Nat) : State.here { s with order := o, ctr := c } = s.here := rfl
/-- An update of the running core depends only on what it makes of that core. -/
theorem State.onHere_congr {s : State} {f g : CoreSt → CoreSt} (h : f s.here = g s.here) : s.onHere f = s.onHere g := by
  change State.setCore s s.focus (f s.here) = State.setCore s s.focus (g s.here)
  rw [h]
/-- A store of the running core to its own local store: the bytes, its Seen set, and one node for each byte. -/
theorem State.storeLs_own (s : State) (a n v : Nat) : ∃ o k,
    s.storeLs s.focus s.focus a n v = { s.onHere (fun x => { x.putLs a n v with seen := k }) with order := o, ctr := s.ctr + 1 } ∧
      (∀ l, (∀ i, i < n → Loc.ls s.focus (a + i) ≠ l) → lfind o l = lfind s.order l) ∧
      ∀ i, i < n → ∃ before, lfind o (.ls s.focus (a + i)) =
          some { graphAt s.order (Loc.ls s.focus) (s.byteLs s.focus) (a + i) with
            nodes := (graphAt s.order (Loc.ls s.focus) (s.byteLs s.focus) (a + i)).nodes ++
              [{ id := s.ctr + 1, val := v / 256 ^ i % 256, base := a, size := n, before := before }] } ∧
        before = ((graphAt s.order (Loc.ls s.focus) (s.byteLs s.focus) (a + i)).nodes.map (fun u => u.id)).filter
          (fun j => (seenAt s.here.seen (.ls s.focus (a + i))).contains j) := by
  obtain ⟨o, e⟩ := State.addNodes_state { s with ctr := s.ctr + 1 } (s.ctr + 1) false (s.coreOf s.focus).seen (Loc.ls s.focus)
    (s.byteLs s.focus) a n v n
  have inj : ∀ x y, Loc.ls s.focus x = Loc.ls s.focus y → x = y := fun x y h => by injection h
  refine ⟨o, ?k, ?_, ?_, ?_⟩
  case k => exact (s.noteWrite false (s.coreOf s.focus).seen (Loc.ls s.focus) (s.byteLs s.focus) a n v).1
  · unfold State.storeLs
    simp only
    rw [State.onCore_onCore]
    unfold State.noteWrite
    simp only [e]
    rfl
  · intro l h
    have := State.addNodes_other { s with ctr := s.ctr + 1 } (s.ctr + 1) false (s.coreOf s.focus).seen (Loc.ls s.focus)
      (s.byteLs s.focus) a n v n (l := l) (fun i _ hi => h i hi) (Nat.le_refl n)
    rw [e] at this
    exact this
  · intro i hi
    obtain ⟨b, h1, _, h2⟩ := State.addNodes_node { s with ctr := s.ctr + 1 } (s.ctr + 1) false (s.coreOf s.focus).seen
      (Loc.ls s.focus) (s.byteLs s.focus) a n v n inj (Nat.le_refl n) (i := i) (by omega) hi
    rw [e] at h1
    exact ⟨b, h1, h2 rfl⟩
/-- An atomic step of the running core on its own local store finds, where no byte leaves a choice, what memory holds, and puts the
new value; each byte gains one node after all that stood there. -/
theorem State.atomicLs_own (s : State) (a n : Nat) (f : Nat → Nat)
    (h : settled (s.topAt (Loc.ls s.focus) (s.byteLs s.focus)) (s.byteLs s.focus) a n = true) : ∃ o k,
    s.atomicLs s.focus s.focus a n f = (s.here.ls.readN a n,
      { s.onHere (fun x => { x.putLs a n (f (s.here.ls.readN a n)) with seen := k }) with order := o, ctr := s.ctr + 1 }) ∧
      (∀ l, (∀ i, i < n → Loc.ls s.focus (a + i) ≠ l) → lfind o l = lfind s.order l) ∧
      ∀ i, i < n → ∃ before, lfind o (.ls s.focus (a + i)) =
          some { graphAt s.order (Loc.ls s.focus) (s.byteLs s.focus) (a + i) with
            nodes := (graphAt s.order (Loc.ls s.focus) (s.byteLs s.focus) (a + i)).nodes ++
              [{ id := s.ctr + 1, val := f (s.here.ls.readN a n) / 256 ^ i % 256, base := a, size := n, before := before }] } ∧
        before = (graphAt s.order (Loc.ls s.focus) (s.byteLs s.focus) (a + i)).nodes.map (fun u => u.id) := by
  have hs : s.settleLs s.focus a n = s := by
    unfold State.settleLs
    simp only
    rw [if_pos h]
  obtain ⟨o, e⟩ := State.addNodes_state { s with ctr := s.ctr + 1 } (s.ctr + 1) true (s.coreOf s.focus).seen (Loc.ls s.focus)
    (s.byteLs s.focus) a n (f ((s.coreOf s.focus).ls.readN a n)) n
  have inj : ∀ x y, Loc.ls s.focus x = Loc.ls s.focus y → x = y := fun x y h => by injection h
  refine ⟨o, ?k, ?_, ?_, ?_⟩
  case k => exact (s.noteWrite true (s.coreOf s.focus).seen (Loc.ls s.focus) (s.byteLs s.focus) a n
    (f ((s.coreOf s.focus).ls.readN a n))).1
  · unfold State.atomicLs
    simp only
    rw [hs, State.onCore_onCore]
    unfold State.noteWrite
    simp only [e]
    rfl
  · intro l h
    have := State.addNodes_other { s with ctr := s.ctr + 1 } (s.ctr + 1) true (s.coreOf s.focus).seen (Loc.ls s.focus)
      (s.byteLs s.focus) a n (f ((s.coreOf s.focus).ls.readN a n)) n (l := l) (fun i _ hi => h i hi) (Nat.le_refl n)
    rw [e] at this
    exact this
  · intro i hi
    obtain ⟨b, h1, h2, _⟩ := State.addNodes_node { s with ctr := s.ctr + 1 } (s.ctr + 1) true (s.coreOf s.focus).seen
      (Loc.ls s.focus) (s.byteLs s.focus) a n (f ((s.coreOf s.focus).ls.readN a n)) n inj (Nat.le_refl n) (i := i) (by omega) hi
    rw [e] at h1
    exact ⟨b, h1, h2 rfl⟩
/-- Marking reads and reserving log entries leaves the graphs, and what a core has seen, alone. -/
@[simp] theorem State.readied_order (s : State) (srcs : List RegId) (m : Nat) : (s.readied srcs m).order = s.order := by
  unfold State.readied State.molReserve State.markReads; split <;> rfl
@[simp] theorem State.readied_seen (s : State) (srcs : List RegId) (m : Nat) : (s.readied srcs m).here.seen = s.here.seen :=
  s.readied_here srcs m (fun x => x.seen) (fun _ _ _ _ => rfl)
@[simp] theorem State.readied_byteLs (s : State) (srcs : List RegId) (m : Nat) :
    (s.readied srcs m).byteLs (s.readied srcs m).focus = s.byteLs s.focus := by
  funext x
  have : (s.readied srcs m).here.ls = s.here.ls := s.readied_ls srcs m
  unfold State.byteLs
  change ((s.readied srcs m).here.ls.read x).toNat = (s.here.ls.read x).toNat
  rw [this]
@[simp] theorem State.readied_sightLs (s : State) (srcs : List RegId) (m : Nat) :
    (s.readied srcs m).sightLs (s.readied srcs m).focus (s.readied srcs m).focus = s.sightLs s.focus s.focus := by
  funext x
  unfold State.sightLs State.sightAt
  rw [State.readied_byteLs, State.readied_order, State.readied_focus]
  have : ((s.readied srcs m).coreOf s.focus).seen = (s.coreOf s.focus).seen := by
    have := s.readied_seen srcs m
    unfold State.here at this
    rw [State.readied_focus] at this
    exact this
  rw [this]

/-! ### Releases and acquires (R169, R170) -/

theorem mem_joinSeen (a b : Seen) (p : Loc × Nat) : p ∈ joinSeen a b ↔ p ∈ a ∨ p ∈ b := by
  unfold joinSeen
  simp only [List.mem_append, List.mem_filter, Bool.not_eq_true', List.contains_eq_mem, decide_eq_false_iff_not]
  tauto
/-- Publishing adds to one published set. -/
theorem State.publish_spec (s : State) (key : Nat) (know : Seen) : ∃ P, s.publish key know = { s with pub := P } ∧
    ∀ k p, p ∈ tget P [] k ↔ p ∈ tget s.pub [] k ∨ k = key ∧ p ∈ know := by
  unfold State.publish
  split
  · rename_i h
    have : know = [] := List.isEmpty_iff.1 h
    exact ⟨s.pub, rfl, fun k p => by simp [this]⟩
  · refine ⟨_, rfl, fun k p => ?_⟩
    by_cases hk : k = key
    · subst hk
      simp only [tget_tput_same, mem_joinSeen]
      tauto
    · simp only [tget_tput_ne _ _ _ hk, hk, false_and, or_false]
theorem State.publishAll_spec (us : List Nat) (K : Nat → Nat) (s : State) (core : Nat) :
    ∃ P, us.foldl (fun s u => s.publish (K u) (s.coreOf core).seen) s = { s with pub := P } ∧
      ∀ k p, p ∈ tget P [] k ↔ p ∈ tget s.pub [] k ∨ (∃ n ∈ us, k = K n) ∧ p ∈ (s.coreOf core).seen := by
  induction us generalizing s with
  | nil => exact ⟨s.pub, rfl, fun k p => by simp⟩
  | cons u us ih =>
    obtain ⟨P, e, h⟩ := s.publish_spec (K u) (s.coreOf core).seen
    obtain ⟨Q, e2, h2⟩ := ih { s with pub := P }
    refine ⟨Q, by rw [List.foldl_cons, e, e2], fun k p => ?_⟩
    have hc : State.coreOf { s with pub := P } core = s.coreOf core := rfl
    rw [hc] at h2
    rw [h2 k p, h k p]
    simp only [List.mem_cons, exists_eq_or_imp]
    tauto
/-- A release adds what its core has seen to the published set of every unit of its scope, and changes nothing else. -/
theorem State.release_spec (s : State) (core fen scope : Nat) : ∃ P, s.release core fen scope = { s with pub := P } ∧
    ∀ k p, p ∈ tget P [] k ↔ p ∈ tget s.pub [] k ∨
      (∃ n ∈ releaseScopes scope, k = domKey ((s.coreOf core).hid.getD 0) n (unitOf n core fen)) ∧ p ∈ (s.coreOf core).seen :=
  State.publishAll_spec (releaseScopes scope) (fun n => domKey ((s.coreOf core).hid.getD 0) n (unitOf n core fen)) s core
/-- An acquire adds the published set of its scope's unit to what its core has seen, and changes nothing else. -/
theorem State.acquire_spec (s : State) (core fen scope : Nat) :
    (s.acquire core fen scope = s ∨ ∃ k, s.acquire core fen scope = s.onCore core (fun x => { x with seen := k })) ∧
      ∀ p, p ∈ ((s.acquire core fen scope).coreOf core).seen ↔ p ∈ (s.coreOf core).seen ∨
        scope ≠ 0 ∧ p ∈ tget s.pub [] (domKey ((s.coreOf core).hid.getD 0) scope (unitOf scope core fen)) := by
  unfold State.acquire State.learn
  split
  · rename_i h
    exact ⟨.inl rfl, fun p => by simp [h]⟩
  · rename_i h
    split
    · rename_i h2
      have h2 : tget s.pub [] (domKey ((s.coreOf core).hid.getD 0) scope (unitOf scope core fen)) = [] := List.isEmpty_iff.1 h2
      exact ⟨.inl rfl, fun p => by simp [h2]⟩
    · refine ⟨.inr ⟨joinSeen (s.coreOf core).seen (tget s.pub [] (domKey ((s.coreOf core).hid.getD 0) scope (unitOf scope core fen))), rfl⟩,
        fun p => ?_⟩
      rw [State.coreOf_onCore]
      simp only [mem_joinSeen, ne_eq, h, not_false_eq_true, true_and]

end Sys2Proof.Machine
end

