-- ==== Sys2Proof/Laws/PerInstr.lean ====
section
/-! SUPPORT. Family RoundTrip, one lemma per constructor: encoding and decoding agree. -/
set_option Elab.async false
set_option linter.unusedSimpArgs false
namespace Sys2Proof.Laws

/-- Encoding a well-formed instruction and decoding the word in its slot gives the instruction back; a row without an encoding
has no word. -/
def RoundTrip.Statement (i : Instr) : Prop :=
  i.wf = true → ∀ w, encode i = some w → (i.isC = true → decodeC w = .ok i) ∧ (i.isA = true → decodeA w = .ok i)
theorem RoundTrip.ofOk {i : Instr} {h : CHead} {op : BitVec 7} {ops : BitVec 18} (he : encode i = some (cWord h op ops))
    (hA : i.isA = false) (hd : i.wf = true → decodeCOp op.toNat (cWord h op ops) = .ok i) : RoundTrip.Statement i := by
  intro wf w hw
  rw [he] at hw
  obtain rfl := Option.some.inj hw
  refine ⟨fun _ => ?_, fun hc => by simp [hA] at hc⟩
  rw [decodeC, fld_cWord_op]
  exact hd wf
theorem RoundTrip.ofOkA {i : Instr} {op : BitVec 7} {ops : BitVec 25} (he : encode i = some (aWord op ops)) (hC : i.isC = false)
    (hd : i.wf = true → decodeAOp op.toNat (aWord op ops) = .ok i) : RoundTrip.Statement i := by
  intro wf w hw
  rw [he] at hw
  obtain rfl := Option.some.inj hw
  refine ⟨fun hc => by simp [hC] at hc, fun _ => ?_⟩
  rw [decodeA, fld_aWord_op]
  exact hd wf
theorem RoundTrip.ofC {i i' : Instr} {z : Bool} {h : CHead} {op : BitVec 7} {ops : BitVec 18}
    (he : encode i = some (cWord h op ops)) (hA : i.isA = false)
    (hd : decodeCOp op.toNat (cWord h op ops) = checked z i') (hz : z = true) (hi : i' = i) : RoundTrip.Statement i :=
  RoundTrip.ofOk he hA fun wf => by
    subst hz hi
    rw [hd, checked, wf]
    rfl
theorem RoundTrip.ofA {i i' : Instr} {z : Bool} {op : BitVec 7} {ops : BitVec 25} (he : encode i = some (aWord op ops))
    (hC : i.isC = false) (hd : decodeAOp op.toNat (aWord op ops) = checked z i') (hz : z = true) (hi : i' = i) :
    RoundTrip.Statement i :=
  RoundTrip.ofOkA he hC fun wf => by
    subst hz hi
    rw [hd, checked, wf]
    rfl
theorem RoundTrip.ofNone {i : Instr} (he : encode i = none) : RoundTrip.Statement i := by
  intro _ w hw
  rw [he] at hw
  cases hw

theorem RoundTrip.nop (hd : CHead) : RoundTrip.Statement (.nop hd) :=
  RoundTrip.ofC rfl rfl rfl (by simp only [cutC_18]; rfl) (by simp only [cutC_18, head_cWord])
theorem RoundTrip.dly (hd : CHead) (c : BitVec 6) : RoundTrip.Statement (.dly hd c) :=
  RoundTrip.ofC rfl rfl rfl (by simp only [cutC_12_6]; rfl) (by simp only [cutC_12_6, head_cWord])
theorem RoundTrip.yield (hd : CHead) : RoundTrip.Statement (.yield hd) :=
  RoundTrip.ofC rfl rfl rfl (by simp only [cutC_18]; rfl) (by simp only [cutC_18, head_cWord])
theorem RoundTrip.halt (hd : CHead) : RoundTrip.Statement (.halt hd) :=
  RoundTrip.ofC rfl rfl rfl (by simp only [cutC_18]; rfl) (by simp only [cutC_18, head_cWord])
theorem RoundTrip.ret (hd : CHead) : RoundTrip.Statement (.ret hd) :=
  RoundTrip.ofC rfl rfl rfl (by simp only [cutC_18]; rfl) (by simp only [cutC_18, head_cWord])
theorem RoundTrip.eret (hd : CHead) : RoundTrip.Statement (.eret hd) :=
  RoundTrip.ofC rfl rfl rfl (by simp only [cutC_18]; rfl) (by simp only [cutC_18, head_cWord])
theorem RoundTrip.gsplit (hd : CHead) : RoundTrip.Statement (.gsplit hd) :=
  RoundTrip.ofC rfl rfl rfl (by simp only [cutC_18]; rfl) (by simp only [cutC_18, head_cWord])
theorem RoundTrip.sync (hd : CHead) : RoundTrip.Statement (.sync hd) :=
  RoundTrip.ofC rfl rfl rfl (by simp only [cutC_18]; rfl) (by simp only [cutC_18, head_cWord])
theorem RoundTrip.syncT (hd : CHead) (d : BitVec 5) (sl : BitVec 5) : RoundTrip.Statement (.syncT hd d sl) :=
  RoundTrip.ofC rfl rfl rfl (by simp only [cutC_5_5_8]; rfl) (by simp only [cutC_5_5_8, head_cWord])
theorem RoundTrip.gang (hd : CHead) (hh : BitVec 2) (x : BitVec 2) (y : BitVec 2) : RoundTrip.Statement (.gang hd hh x y) :=
  RoundTrip.ofC rfl rfl rfl (by simp only [cutC_2_2_2_12]; rfl) (by simp only [cutC_2_2_2_12, head_cWord])
theorem RoundTrip.kwait (hd : CHead) (k : BitVec 4) (b : BitVec 6) : RoundTrip.Statement (.kwait hd k b) :=
  RoundTrip.ofC rfl rfl rfl (by simp only [cutC_4_6_8]; rfl) (by simp only [cutC_4_6_8, head_cWord])
theorem RoundTrip.ktst (hd : CHead) (d : BitVec 5) (k : BitVec 4) : RoundTrip.Statement (.ktst hd d k) :=
  RoundTrip.ofC rfl rfl rfl (by simp only [cutC_5_4_9]; rfl) (by simp only [cutC_5_4_9, head_cWord])
theorem RoundTrip.spawn (hd : CHead) (d : BitVec 5) (a : BitVec 5) (b : BitVec 5) (q : BitVec 3) : RoundTrip.Statement (.spawn hd d a b q) :=
  RoundTrip.ofC rfl rfl rfl rfl (by simp only [cutC_5_5_5_3, head_cWord])
theorem RoundTrip.rbRec (hd : CHead) (c : BitVec 4) : RoundTrip.Statement (.rbRec hd c) :=
  RoundTrip.ofC rfl rfl rfl (by simp only [cutC_14_4]; rfl) (by simp only [cutC_14_4, head_cWord])
theorem RoundTrip.rbRun (hd : CHead) (a : BitVec 5) (b : BitVec 5) : RoundTrip.Statement (.rbRun hd a b) :=
  RoundTrip.ofC rfl rfl rfl (by simp only [cutC_5_5_8]; rfl) (by simp only [cutC_5_5_8, head_cWord])
theorem RoundTrip.brT (hd : CHead) (p : BitVec 3) (o : BitVec 15) : RoundTrip.Statement (.brT hd p o) :=
  RoundTrip.ofC rfl rfl rfl rfl (by simp only [cutC_3_15, head_cWord])
theorem RoundTrip.brF (hd : CHead) (p : BitVec 3) (o : BitVec 15) : RoundTrip.Statement (.brF hd p o) :=
  RoundTrip.ofC rfl rfl rfl rfl (by simp only [cutC_3_15, head_cWord])
theorem RoundTrip.brAny (hd : CHead) (p : BitVec 3) (o : BitVec 15) : RoundTrip.Statement (.brAny hd p o) :=
  RoundTrip.ofC rfl rfl rfl rfl (by simp only [cutC_3_15, head_cWord])
theorem RoundTrip.brNone (hd : CHead) (p : BitVec 3) (o : BitVec 15) : RoundTrip.Statement (.brNone hd p o) :=
  RoundTrip.ofC rfl rfl rfl rfl (by simp only [cutC_3_15, head_cWord])
theorem RoundTrip.jmp (hd : CHead) (o : BitVec 18) : RoundTrip.Statement (.jmp hd o) :=
  RoundTrip.ofC rfl rfl rfl rfl (by simp only [cutC_18, head_cWord])
theorem RoundTrip.call (hd : CHead) (o : BitVec 18) : RoundTrip.Statement (.call hd o) :=
  RoundTrip.ofC rfl rfl rfl rfl (by simp only [cutC_18, head_cWord])
theorem RoundTrip.jal (hd : CHead) (d : BitVec 5) (o : BitVec 13) : RoundTrip.Statement (.jal hd d o) :=
  RoundTrip.ofC rfl rfl rfl rfl (by simp only [cutC_5_13, head_cWord])
theorem RoundTrip.jr (hd : CHead) (r : BitVec 5) : RoundTrip.Statement (.jr hd r) :=
  RoundTrip.ofC rfl rfl rfl (by simp only [cutC_5_13]; rfl) (by simp only [cutC_5_13, head_cWord])
theorem RoundTrip.trap (hd : CHead) (c : BitVec 8) : RoundTrip.Statement (.trap hd c) :=
  RoundTrip.ofC rfl rfl rfl (by simp only [cutC_10_8]; rfl) (by simp only [cutC_10_8, head_cWord])
theorem RoundTrip.sig (hd : CHead) (a : BitVec 5) (imm : BitVec 13) : RoundTrip.Statement (.sig hd a imm) :=
  RoundTrip.ofC rfl rfl rfl rfl (by simp only [cutC_5_13, head_cWord])
theorem RoundTrip.getc (hd : CHead) (d : BitVec 5) (c : BitVec 12) : RoundTrip.Statement (.getc hd d c) :=
  RoundTrip.ofC rfl rfl rfl (by simp only [cutC_5_1_12]; rfl) (by simp only [cutC_5_1_12, head_cWord])
theorem RoundTrip.setc (hd : CHead) (a : BitVec 5) (c : BitVec 12) : RoundTrip.Statement (.setc hd a c) :=
  RoundTrip.ofC rfl rfl rfl (by simp only [cutC_5_1_12]; rfl) (by simp only [cutC_5_1_12, head_cWord])
theorem RoundTrip.gts (hd : CHead) (r : BitVec 5) : RoundTrip.Statement (.gts hd r) :=
  RoundTrip.ofC rfl rfl rfl (by simp only [cutC_5_13]; rfl) (by simp only [cutC_5_13, head_cWord])
theorem RoundTrip.tmark (hd : CHead) (a : BitVec 5) (imm : BitVec 13) : RoundTrip.Statement (.tmark hd a imm) :=
  RoundTrip.ofC rfl rfl rfl rfl (by simp only [cutC_5_13, head_cWord])
theorem RoundTrip.ewait (hd : CHead) (d : BitVec 5) (a : BitVec 5) : RoundTrip.Statement (.ewait hd d a) :=
  RoundTrip.ofC rfl rfl rfl (by simp only [cutC_5_5_8]; rfl) (by simp only [cutC_5_5_8, head_cWord])
theorem RoundTrip.esig (hd : CHead) (a : BitVec 5) (b : BitVec 5) : RoundTrip.Statement (.esig hd a b) :=
  RoundTrip.ofC rfl rfl rfl (by simp only [cutC_5_5_8]; rfl) (by simp only [cutC_5_5_8, head_cWord])
theorem RoundTrip.ldb (hd : CHead) (d : BitVec 5) (a : BitVec 5) (o : BitVec 8) : RoundTrip.Statement (.ldb hd d a o) :=
  RoundTrip.ofC rfl rfl rfl rfl (by simp only [cutC_5_5_8, head_cWord])
theorem RoundTrip.ldbN (hd : CHead) (d : BitVec 5) (a : BitVec 5) (o : BitVec 8) : RoundTrip.Statement (.ldbN hd d a o) :=
  RoundTrip.ofC rfl rfl rfl rfl (by simp only [cutC_5_5_8, head_cWord])
theorem RoundTrip.ldh (hd : CHead) (d : BitVec 5) (a : BitVec 5) (o : BitVec 8) : RoundTrip.Statement (.ldh hd d a o) :=
  RoundTrip.ofC rfl rfl rfl rfl (by simp only [cutC_5_5_8, head_cWord])
theorem RoundTrip.ldhN (hd : CHead) (d : BitVec 5) (a : BitVec 5) (o : BitVec 8) : RoundTrip.Statement (.ldhN hd d a o) :=
  RoundTrip.ofC rfl rfl rfl rfl (by simp only [cutC_5_5_8, head_cWord])
theorem RoundTrip.ldw (hd : CHead) (d : BitVec 5) (a : BitVec 5) (o : BitVec 8) : RoundTrip.Statement (.ldw hd d a o) :=
  RoundTrip.ofC rfl rfl rfl rfl (by simp only [cutC_5_5_8, head_cWord])
theorem RoundTrip.ldwN (hd : CHead) (d : BitVec 5) (a : BitVec 5) (o : BitVec 8) : RoundTrip.Statement (.ldwN hd d a o) :=
  RoundTrip.ofC rfl rfl rfl rfl (by simp only [cutC_5_5_8, head_cWord])
theorem RoundTrip.ldd (hd : CHead) (d : BitVec 5) (a : BitVec 5) (o : BitVec 8) : RoundTrip.Statement (.ldd hd d a o) :=
  RoundTrip.ofC rfl rfl rfl rfl (by simp only [cutC_5_5_8, head_cWord])
theorem RoundTrip.stb (hd : CHead) (v : BitVec 5) (a : BitVec 5) (o : BitVec 8) : RoundTrip.Statement (.stb hd v a o) :=
  RoundTrip.ofC rfl rfl rfl rfl (by simp only [cutC_5_5_8, head_cWord])
theorem RoundTrip.sth (hd : CHead) (v : BitVec 5) (a : BitVec 5) (o : BitVec 8) : RoundTrip.Statement (.sth hd v a o) :=
  RoundTrip.ofC rfl rfl rfl rfl (by simp only [cutC_5_5_8, head_cWord])
theorem RoundTrip.stw (hd : CHead) (v : BitVec 5) (a : BitVec 5) (o : BitVec 8) : RoundTrip.Statement (.stw hd v a o) :=
  RoundTrip.ofC rfl rfl rfl rfl (by simp only [cutC_5_5_8, head_cWord])
theorem RoundTrip.std (hd : CHead) (v : BitVec 5) (a : BitVec 5) (o : BitVec 8) : RoundTrip.Statement (.std hd v a o) :=
  RoundTrip.ofC rfl rfl rfl rfl (by simp only [cutC_5_5_8, head_cWord])
theorem RoundTrip.take (hd : CHead) (d : BitVec 5) (a : BitVec 5) (o : BitVec 8) : RoundTrip.Statement (.take hd d a o) :=
  RoundTrip.ofC rfl rfl rfl rfl (by simp only [cutC_5_5_8, head_cWord])
theorem RoundTrip.give (hd : CHead) (v : BitVec 5) (a : BitVec 5) (o : BitVec 8) : RoundTrip.Statement (.give hd v a o) :=
  RoundTrip.ofC rfl rfl rfl rfl (by simp only [cutC_5_5_8, head_cWord])
theorem RoundTrip.feSet (hd : CHead) (f : BitVec 1) (a : BitVec 5) (o : BitVec 8) : RoundTrip.Statement (.feSet hd f a o) :=
  RoundTrip.ofC rfl rfl rfl (by simp only [cutC_1_4_5_8]; rfl) (by simp only [cutC_1_4_5_8, head_cWord])
theorem RoundTrip.ldbX (hd : CHead) (d : BitVec 5) (a : BitVec 5) (b : BitVec 5) : RoundTrip.Statement (.ldbX hd d a b) :=
  RoundTrip.ofC rfl rfl rfl (by simp only [cutC_5_5_5_3]; rfl) (by simp only [cutC_5_5_5_3, head_cWord])
theorem RoundTrip.ldbNX (hd : CHead) (d : BitVec 5) (a : BitVec 5) (b : BitVec 5) : RoundTrip.Statement (.ldbNX hd d a b) :=
  RoundTrip.ofC rfl rfl rfl (by simp only [cutC_5_5_5_3]; rfl) (by simp only [cutC_5_5_5_3, head_cWord])
theorem RoundTrip.ldhX (hd : CHead) (d : BitVec 5) (a : BitVec 5) (b : BitVec 5) : RoundTrip.Statement (.ldhX hd d a b) :=
  RoundTrip.ofC rfl rfl rfl (by simp only [cutC_5_5_5_3]; rfl) (by simp only [cutC_5_5_5_3, head_cWord])
theorem RoundTrip.ldhNX (hd : CHead) (d : BitVec 5) (a : BitVec 5) (b : BitVec 5) : RoundTrip.Statement (.ldhNX hd d a b) :=
  RoundTrip.ofC rfl rfl rfl (by simp only [cutC_5_5_5_3]; rfl) (by simp only [cutC_5_5_5_3, head_cWord])
theorem RoundTrip.ldwX (hd : CHead) (d : BitVec 5) (a : BitVec 5) (b : BitVec 5) : RoundTrip.Statement (.ldwX hd d a b) :=
  RoundTrip.ofC rfl rfl rfl (by simp only [cutC_5_5_5_3]; rfl) (by simp only [cutC_5_5_5_3, head_cWord])
theorem RoundTrip.ldwNX (hd : CHead) (d : BitVec 5) (a : BitVec 5) (b : BitVec 5) : RoundTrip.Statement (.ldwNX hd d a b) :=
  RoundTrip.ofC rfl rfl rfl (by simp only [cutC_5_5_5_3]; rfl) (by simp only [cutC_5_5_5_3, head_cWord])
theorem RoundTrip.lddX (hd : CHead) (d : BitVec 5) (a : BitVec 5) (b : BitVec 5) : RoundTrip.Statement (.lddX hd d a b) :=
  RoundTrip.ofC rfl rfl rfl (by simp only [cutC_5_5_5_3]; rfl) (by simp only [cutC_5_5_5_3, head_cWord])
theorem RoundTrip.stbX (hd : CHead) (v : BitVec 5) (a : BitVec 5) (b : BitVec 5) : RoundTrip.Statement (.stbX hd v a b) :=
  RoundTrip.ofC rfl rfl rfl (by simp only [cutC_5_5_5_3]; rfl) (by simp only [cutC_5_5_5_3, head_cWord])
theorem RoundTrip.sthX (hd : CHead) (v : BitVec 5) (a : BitVec 5) (b : BitVec 5) : RoundTrip.Statement (.sthX hd v a b) :=
  RoundTrip.ofC rfl rfl rfl (by simp only [cutC_5_5_5_3]; rfl) (by simp only [cutC_5_5_5_3, head_cWord])
theorem RoundTrip.stwX (hd : CHead) (v : BitVec 5) (a : BitVec 5) (b : BitVec 5) : RoundTrip.Statement (.stwX hd v a b) :=
  RoundTrip.ofC rfl rfl rfl (by simp only [cutC_5_5_5_3]; rfl) (by simp only [cutC_5_5_5_3, head_cWord])
theorem RoundTrip.stdX (hd : CHead) (v : BitVec 5) (a : BitVec 5) (b : BitVec 5) : RoundTrip.Statement (.stdX hd v a b) :=
  RoundTrip.ofC rfl rfl rfl (by simp only [cutC_5_5_5_3]; rfl) (by simp only [cutC_5_5_5_3, head_cWord])
theorem RoundTrip.ldv (hd : CHead) (v : BitVec 6) (a : BitVec 5) (o : BitVec 7) : RoundTrip.Statement (.ldv hd v a o) :=
  RoundTrip.ofC rfl rfl rfl rfl (by simp only [cutC_6_5_7, head_cWord])
theorem RoundTrip.stv (hd : CHead) (v : BitVec 6) (a : BitVec 5) (o : BitVec 7) : RoundTrip.Statement (.stv hd v a o) :=
  RoundTrip.ofC rfl rfl rfl rfl (by simp only [cutC_6_5_7, head_cWord])
theorem RoundTrip.ldvs (hd : CHead) (v : BitVec 6) (a : BitVec 5) (b : BitVec 5) : RoundTrip.Statement (.ldvs hd v a b) :=
  RoundTrip.ofC rfl rfl rfl (by simp only [cutC_6_5_5_2]; rfl) (by simp only [cutC_6_5_5_2, head_cWord])
theorem RoundTrip.ldvx (hd : CHead) (v : BitVec 6) (a : BitVec 5) (imm : BitVec 6) : RoundTrip.Statement (.ldvx hd v a imm) :=
  RoundTrip.ofC rfl rfl rfl (by simp only [cutC_6_5_6_1]; rfl) (by simp only [cutC_6_5_6_1, head_cWord])
theorem RoundTrip.stvx (hd : CHead) (v : BitVec 6) (a : BitVec 5) (imm : BitVec 6) : RoundTrip.Statement (.stvx hd v a imm) :=
  RoundTrip.ofC rfl rfl rfl (by simp only [cutC_6_5_6_1]; rfl) (by simp only [cutC_6_5_6_1, head_cWord])
theorem RoundTrip.alb (hd : CHead) (a : BitVec 5) : RoundTrip.Statement (.alb hd a) :=
  RoundTrip.ofC rfl rfl rfl (by simp only [cutC_5_13]; rfl) (by simp only [cutC_5_13, head_cWord])
theorem RoundTrip.ale (hd : CHead) : RoundTrip.Statement (.ale hd) :=
  RoundTrip.ofC rfl rfl rfl (by simp only [cutC_18]; rfl) (by simp only [cutC_18, head_cWord])
theorem RoundTrip.fenceAcq (hd : CHead) (sl : BitVec 3) : RoundTrip.Statement (.fenceAcq hd sl) :=
  RoundTrip.ofC rfl rfl rfl (by simp only [cutC_15_3]; rfl) (by simp only [cutC_15_3, head_cWord])
theorem RoundTrip.fenceRel (hd : CHead) (sl : BitVec 3) : RoundTrip.Statement (.fenceRel hd sl) :=
  RoundTrip.ofC rfl rfl rfl (by simp only [cutC_15_3]; rfl) (by simp only [cutC_15_3, head_cWord])
theorem RoundTrip.fenceAr (hd : CHead) (sl : BitVec 3) : RoundTrip.Statement (.fenceAr hd sl) :=
  RoundTrip.ofC rfl rfl rfl (by simp only [cutC_15_3]; rfl) (by simp only [cutC_15_3, head_cWord])
theorem RoundTrip.inbx (hd : CHead) (v : BitVec 6) : RoundTrip.Statement (.inbx hd v) :=
  RoundTrip.ofC rfl rfl rfl (by simp only [cutC_6_12]; rfl) (by simp only [cutC_6_12, head_cWord])
theorem RoundTrip.inbxT (hd : CHead) (v : BitVec 6) (d : BitVec 5) (sl : BitVec 5) : RoundTrip.Statement (.inbxT hd v d sl) :=
  RoundTrip.ofC rfl rfl rfl (by simp only [cutC_6_5_5_2]; rfl) (by simp only [cutC_6_5_5_2, head_cWord])
theorem RoundTrip.amoAdd (hd : CHead) (d : BitVec 5) (a : BitVec 5) (b : BitVec 5) (z : BitVec 2) (u : BitVec 1) : RoundTrip.Statement (.amoAdd hd d a b z u) :=
  RoundTrip.ofC rfl rfl rfl rfl (by simp only [cutC_5_5_5_2_1, head_cWord])
theorem RoundTrip.amoMin (hd : CHead) (d : BitVec 5) (a : BitVec 5) (b : BitVec 5) (z : BitVec 2) (u : BitVec 1) : RoundTrip.Statement (.amoMin hd d a b z u) :=
  RoundTrip.ofC rfl rfl rfl rfl (by simp only [cutC_5_5_5_2_1, head_cWord])
theorem RoundTrip.amoMax (hd : CHead) (d : BitVec 5) (a : BitVec 5) (b : BitVec 5) (z : BitVec 2) (u : BitVec 1) : RoundTrip.Statement (.amoMax hd d a b z u) :=
  RoundTrip.ofC rfl rfl rfl rfl (by simp only [cutC_5_5_5_2_1, head_cWord])
theorem RoundTrip.amoAnd (hd : CHead) (d : BitVec 5) (a : BitVec 5) (b : BitVec 5) (z : BitVec 2) (u : BitVec 1) : RoundTrip.Statement (.amoAnd hd d a b z u) :=
  RoundTrip.ofC rfl rfl rfl rfl (by simp only [cutC_5_5_5_2_1, head_cWord])
theorem RoundTrip.amoOr (hd : CHead) (d : BitVec 5) (a : BitVec 5) (b : BitVec 5) (z : BitVec 2) (u : BitVec 1) : RoundTrip.Statement (.amoOr hd d a b z u) :=
  RoundTrip.ofC rfl rfl rfl rfl (by simp only [cutC_5_5_5_2_1, head_cWord])
theorem RoundTrip.amoXor (hd : CHead) (d : BitVec 5) (a : BitVec 5) (b : BitVec 5) (z : BitVec 2) (u : BitVec 1) : RoundTrip.Statement (.amoXor hd d a b z u) :=
  RoundTrip.ofC rfl rfl rfl rfl (by simp only [cutC_5_5_5_2_1, head_cWord])
theorem RoundTrip.amoSwp (hd : CHead) (d : BitVec 5) (a : BitVec 5) (b : BitVec 5) (z : BitVec 2) (u : BitVec 1) : RoundTrip.Statement (.amoSwp hd d a b z u) :=
  RoundTrip.ofC rfl rfl rfl rfl (by simp only [cutC_5_5_5_2_1, head_cWord])
theorem RoundTrip.amoCas (hd : CHead) (d : BitVec 5) (a : BitVec 5) (b : BitVec 5) (z : BitVec 2) (u : BitVec 1) : RoundTrip.Statement (.amoCas hd d a b z u) :=
  RoundTrip.ofC rfl rfl rfl rfl (by simp only [cutC_5_5_5_2_1, head_cWord])
theorem RoundTrip.redAdd (hd : CHead) (a : BitVec 5) (b : BitVec 5) (z : BitVec 2) (u : BitVec 1) : RoundTrip.Statement (.redAdd hd a b z u) :=
  RoundTrip.ofC rfl rfl rfl (by simp only [cutC_5_5_5_2_1]; rfl) (by simp only [cutC_5_5_5_2_1, head_cWord])
theorem RoundTrip.redMin (hd : CHead) (a : BitVec 5) (b : BitVec 5) (z : BitVec 2) (u : BitVec 1) : RoundTrip.Statement (.redMin hd a b z u) :=
  RoundTrip.ofC rfl rfl rfl (by simp only [cutC_5_5_5_2_1]; rfl) (by simp only [cutC_5_5_5_2_1, head_cWord])
theorem RoundTrip.redMax (hd : CHead) (a : BitVec 5) (b : BitVec 5) (z : BitVec 2) (u : BitVec 1) : RoundTrip.Statement (.redMax hd a b z u) :=
  RoundTrip.ofC rfl rfl rfl (by simp only [cutC_5_5_5_2_1]; rfl) (by simp only [cutC_5_5_5_2_1, head_cWord])
theorem RoundTrip.redAnd (hd : CHead) (a : BitVec 5) (b : BitVec 5) (z : BitVec 2) (u : BitVec 1) : RoundTrip.Statement (.redAnd hd a b z u) :=
  RoundTrip.ofC rfl rfl rfl (by simp only [cutC_5_5_5_2_1]; rfl) (by simp only [cutC_5_5_5_2_1, head_cWord])
theorem RoundTrip.redOr (hd : CHead) (a : BitVec 5) (b : BitVec 5) (z : BitVec 2) (u : BitVec 1) : RoundTrip.Statement (.redOr hd a b z u) :=
  RoundTrip.ofC rfl rfl rfl (by simp only [cutC_5_5_5_2_1]; rfl) (by simp only [cutC_5_5_5_2_1, head_cWord])
theorem RoundTrip.redXor (hd : CHead) (a : BitVec 5) (b : BitVec 5) (z : BitVec 2) (u : BitVec 1) : RoundTrip.Statement (.redXor hd a b z u) :=
  RoundTrip.ofC rfl rfl rfl (by simp only [cutC_5_5_5_2_1]; rfl) (by simp only [cutC_5_5_5_2_1, head_cWord])
theorem RoundTrip.msend (hd : CHead) (e : BitVec 5) (v : BitVec 6) (k : BitVec 4) : RoundTrip.Statement (.msend hd e v k) :=
  RoundTrip.ofC rfl rfl rfl (by simp only [cutC_5_6_4_3]; rfl) (by simp only [cutC_5_6_4_3, head_cWord])
theorem RoundTrip.mxq (hd : CHead) (a : BitVec 5) (k : BitVec 4) : RoundTrip.Statement (.mxq hd a k) :=
  RoundTrip.ofC rfl rfl rfl (by simp only [cutC_5_4_9]; rfl) (by simp only [cutC_5_4_9, head_cWord])
theorem RoundTrip.mma (hd : CHead) (m : BitVec 3) (a : BitVec 5) (b : BitVec 5) (k : BitVec 4) : RoundTrip.Statement (.mma hd m a b k) :=
  RoundTrip.ofC rfl rfl rfl (by simp only [cutC_3_5_5_4_1]; rfl) (by simp only [cutC_3_5_5_4_1, head_cWord])
theorem RoundTrip.mzero (hd : CHead) (m : BitVec 3) : RoundTrip.Statement (.mzero hd m) :=
  RoundTrip.ofC rfl rfl rfl (by simp only [cutC_3_15]; rfl) (by simp only [cutC_3_15, head_cWord])
theorem RoundTrip.mrd (hd : CHead) (v : BitVec 6) (t : BitVec 3) (sl : BitVec 5) (k : BitVec 4) : RoundTrip.Statement (.mrd hd v t sl k) :=
  RoundTrip.ofC rfl rfl rfl rfl (by simp only [cutC_6_3_5_4, head_cWord])
theorem RoundTrip.mldB (hd : CHead) (a : BitVec 5) (b : BitVec 5) (k : BitVec 4) (c : BitVec 4) : RoundTrip.Statement (.mldB hd a b k c) :=
  RoundTrip.ofC rfl rfl rfl rfl (by simp only [cutC_5_5_4_4, head_cWord])
theorem RoundTrip.pmount (hd : CHead) (d : BitVec 5) (a : BitVec 5) (k : BitVec 4) : RoundTrip.Statement (.pmount hd d a k) :=
  RoundTrip.ofC rfl rfl rfl (by simp only [cutC_5_5_4_4]; rfl) (by simp only [cutC_5_5_4_4, head_cWord])
theorem RoundTrip.punmount (hd : CHead) (a : BitVec 5) : RoundTrip.Statement (.punmount hd a) :=
  RoundTrip.ofC rfl rfl rfl (by simp only [cutC_5_5_8]; rfl) (by simp only [cutC_5_5_8, head_cWord])
theorem RoundTrip.pinfo (hd : CHead) (d : BitVec 5) (a : BitVec 5) : RoundTrip.Statement (.pinfo hd d a) :=
  RoundTrip.ofC rfl rfl rfl (by simp only [cutC_5_5_8]; rfl) (by simp only [cutC_5_5_8, head_cWord])
theorem RoundTrip.cadd (hd : CHead) (c : BitVec 5) (v : BitVec 6) (k : BitVec 4) : RoundTrip.Statement (.cadd hd c v k) :=
  RoundTrip.ofOk rfl rfl fun h => by simp [decodeCOp, cutC_5_6_4_3, head_cWord, checked, h]
theorem RoundTrip.caddTile (hd : CHead) (c : BitVec 5) (t : BitVec 3) (k : BitVec 4) : RoundTrip.Statement (.caddTile hd c t k) :=
  RoundTrip.ofOk rfl rfl fun h => by simp [decodeCOp, cutC_5_3_3_4_3, head_cWord, checked, h]
theorem RoundTrip.ctap (hd : CHead) (v : BitVec 6) (c : BitVec 5) (k : BitVec 4) (f : BitVec 3) : RoundTrip.Statement (.ctap hd v c k f) :=
  RoundTrip.ofC rfl rfl rfl rfl (by simp only [cutC_6_5_4_3, head_cWord])
theorem RoundTrip.cscrub (hd : CHead) (c : BitVec 5) (k : BitVec 4) : RoundTrip.Statement (.cscrub hd c k) :=
  RoundTrip.ofC rfl rfl rfl (by simp only [cutC_5_4_9]; rfl) (by simp only [cutC_5_4_9, head_cWord])
theorem RoundTrip.cspill (hd : CHead) (c : BitVec 5) (a : BitVec 5) (k : BitVec 4) (f : BitVec 1) : RoundTrip.Statement (.cspill hd c a k f) :=
  RoundTrip.ofC rfl rfl rfl (by simp only [cutC_5_5_4_1_3]; rfl) (by simp only [cutC_5_5_4_1_3, head_cWord])
theorem RoundTrip.cfill (hd : CHead) (c : BitVec 5) (a : BitVec 5) (k : BitVec 4) (f : BitVec 1) : RoundTrip.Statement (.cfill hd c a k f) :=
  RoundTrip.ofC rfl rfl rfl (by simp only [cutC_5_5_4_1_3]; rfl) (by simp only [cutC_5_5_4_1_3, head_cWord])
theorem RoundTrip.cinfo (hd : CHead) (d : BitVec 5) (c : BitVec 5) : RoundTrip.Statement (.cinfo hd d c) :=
  RoundTrip.ofC rfl rfl rfl (by simp only [cutC_5_5_8]; rfl) (by simp only [cutC_5_5_8, head_cWord])
theorem RoundTrip.previve (hd : CHead) (d : BitVec 5) (a : BitVec 5) (k : BitVec 4) : RoundTrip.Statement (.previve hd d a k) :=
  RoundTrip.ofC rfl rfl rfl (by simp only [cutC_5_5_4_4]; rfl) (by simp only [cutC_5_5_4_4, head_cWord])
theorem RoundTrip.hnew (hd : CHead) (hh : BitVec 4) (a : BitVec 5) (b : BitVec 5) : RoundTrip.Statement (.hnew hd hh a b) :=
  RoundTrip.ofC rfl rfl rfl (by simp only [cutC_4_5_5_4]; rfl) (by simp only [cutC_4_5_5_4, head_cWord])
theorem RoundTrip.hmov (hd : CHead) (hh : BitVec 4) (g : BitVec 4) : RoundTrip.Statement (.hmov hd hh g) :=
  RoundTrip.ofC rfl rfl rfl (by simp only [cutC_4_4_10]; rfl) (by simp only [cutC_4_4_10, head_cWord])
theorem RoundTrip.hsplit (hd : CHead) (x : BitVec 2) (a : BitVec 4) (b : BitVec 4) (c : BitVec 4) (imm : BitVec 4) : RoundTrip.Statement (.hsplit hd x a b c imm) :=
  RoundTrip.ofC rfl rfl rfl rfl (by simp only [cutC_2_4_4_4_4, head_cWord])
theorem RoundTrip.hjoin (hd : CHead) (hh : BitVec 4) (a : BitVec 4) (b : BitVec 4) (k : BitVec 4) : RoundTrip.Statement (.hjoin hd hh a b k) :=
  RoundTrip.ofC rfl rfl rfl (by simp only [cutC_4_4_4_4_2]; rfl) (by simp only [cutC_4_4_4_4_2, head_cWord])
theorem RoundTrip.hsend (hd : CHead) (a : BitVec 4) (e : BitVec 5) : RoundTrip.Statement (.hsend hd a e) :=
  RoundTrip.ofC rfl rfl rfl (by simp only [cutC_4_5_9]; rfl) (by simp only [cutC_4_5_9, head_cWord])
theorem RoundTrip.hrecv (hd : CHead) (hh : BitVec 4) : RoundTrip.Statement (.hrecv hd hh) :=
  RoundTrip.ofC rfl rfl rfl (by simp only [cutC_4_14]; rfl) (by simp only [cutC_4_14, head_cWord])
theorem RoundTrip.hinfo (hd : CHead) (d : BitVec 5) (a : BitVec 4) (f : BitVec 3) : RoundTrip.Statement (.hinfo hd d a f) :=
  RoundTrip.ofC rfl rfl rfl (by simp only [cutC_5_4_3_6]; rfl) (by simp only [cutC_5_4_3_6, head_cWord])
theorem RoundTrip.hfree (hd : CHead) (hh : BitVec 4) : RoundTrip.Statement (.hfree hd hh) :=
  RoundTrip.ofC rfl rfl rfl (by simp only [cutC_4_14]; rfl) (by simp only [cutC_4_14, head_cWord])
theorem RoundTrip.hldv (hd : CHead) (v : BitVec 6) (a : BitVec 4) (imm : BitVec 5) : RoundTrip.Statement (.hldv hd v a imm) :=
  RoundTrip.ofC rfl rfl rfl (by simp only [cutC_6_4_5_3]; rfl) (by simp only [cutC_6_4_5_3, head_cWord])
theorem RoundTrip.hstv (hd : CHead) (v : BitVec 6) (a : BitVec 4) (imm : BitVec 5) : RoundTrip.Statement (.hstv hd v a imm) :=
  RoundTrip.ofC rfl rfl rfl (by simp only [cutC_6_4_5_3]; rfl) (by simp only [cutC_6_4_5_3, head_cWord])
theorem RoundTrip.sget (hd : CHead) (a : BitVec 5) (k : BitVec 4) : RoundTrip.Statement (.sget hd a k) :=
  RoundTrip.ofC rfl rfl rfl (by simp only [cutC_5_4_9]; rfl) (by simp only [cutC_5_4_9, head_cWord])
theorem RoundTrip.sput (hd : CHead) (a : BitVec 5) (k : BitVec 4) : RoundTrip.Statement (.sput hd a k) :=
  RoundTrip.ofC rfl rfl rfl (by simp only [cutC_5_4_9]; rfl) (by simp only [cutC_5_4_9, head_cWord])
theorem RoundTrip.sgat (hd : CHead) (a : BitVec 5) (k : BitVec 4) : RoundTrip.Statement (.sgat hd a k) :=
  RoundTrip.ofC rfl rfl rfl (by simp only [cutC_5_4_9]; rfl) (by simp only [cutC_5_4_9, head_cWord])
theorem RoundTrip.sred (hd : CHead) (a : BitVec 5) (k : BitVec 4) : RoundTrip.Statement (.sred hd a k) :=
  RoundTrip.ofC rfl rfl rfl (by simp only [cutC_5_4_9]; rfl) (by simp only [cutC_5_4_9, head_cWord])
theorem RoundTrip.scol (hd : CHead) (a : BitVec 5) (k : BitVec 4) : RoundTrip.Statement (.scol hd a k) :=
  RoundTrip.ofC rfl rfl rfl (by simp only [cutC_5_4_9]; rfl) (by simp only [cutC_5_4_9, head_cWord])
theorem RoundTrip.pinit (hd : CHead) (a : BitVec 5) : RoundTrip.Statement (.pinit hd a) :=
  RoundTrip.ofC rfl rfl rfl (by simp only [cutC_5_5_8]; rfl) (by simp only [cutC_5_5_8, head_cWord])
theorem RoundTrip.pres (hd : CHead) (d : BitVec 5) (a : BitVec 5) : RoundTrip.Statement (.pres hd d a) :=
  RoundTrip.ofC rfl rfl rfl (by simp only [cutC_5_5_8]; rfl) (by simp only [cutC_5_5_8, head_cWord])
theorem RoundTrip.pcmt (hd : CHead) (a : BitVec 5) : RoundTrip.Statement (.pcmt hd a) :=
  RoundTrip.ofC rfl rfl rfl (by simp only [cutC_5_5_8]; rfl) (by simp only [cutC_5_5_8, head_cWord])
theorem RoundTrip.pacq (hd : CHead) (d : BitVec 5) (a : BitVec 5) : RoundTrip.Statement (.pacq hd d a) :=
  RoundTrip.ofC rfl rfl rfl (by simp only [cutC_5_5_8]; rfl) (by simp only [cutC_5_5_8, head_cWord])
theorem RoundTrip.prel (hd : CHead) (a : BitVec 5) : RoundTrip.Statement (.prel hd a) :=
  RoundTrip.ofC rfl rfl rfl (by simp only [cutC_5_5_8]; rfl) (by simp only [cutC_5_5_8, head_cWord])
theorem RoundTrip.aNop : RoundTrip.Statement (.aNop) :=
  RoundTrip.ofA rfl rfl rfl (by simp only [cutA_25]; rfl) rfl
theorem RoundTrip.add (d : BitVec 5) (a : BitVec 5) (b : BitVec 5) (t : BitVec 4) : RoundTrip.Statement (.add d a b t) :=
  RoundTrip.ofA rfl rfl rfl (by simp only [cutA_5_5_5_4_6]; rfl) (by simp only [cutA_5_5_5_4_6])
theorem RoundTrip.sub (d : BitVec 5) (a : BitVec 5) (b : BitVec 5) (t : BitVec 4) : RoundTrip.Statement (.sub d a b t) :=
  RoundTrip.ofA rfl rfl rfl (by simp only [cutA_5_5_5_4_6]; rfl) (by simp only [cutA_5_5_5_4_6])
theorem RoundTrip.mul (d : BitVec 5) (a : BitVec 5) (b : BitVec 5) (t : BitVec 4) : RoundTrip.Statement (.mul d a b t) :=
  RoundTrip.ofA rfl rfl rfl (by simp only [cutA_5_5_5_4_6]; rfl) (by simp only [cutA_5_5_5_4_6])
theorem RoundTrip.mulh (d : BitVec 5) (a : BitVec 5) (b : BitVec 5) (t : BitVec 4) : RoundTrip.Statement (.mulh d a b t) :=
  RoundTrip.ofA rfl rfl rfl (by simp only [cutA_5_5_5_4_6]; rfl) (by simp only [cutA_5_5_5_4_6])
theorem RoundTrip.div (d : BitVec 5) (a : BitVec 5) (b : BitVec 5) (t : BitVec 4) : RoundTrip.Statement (.div d a b t) :=
  RoundTrip.ofA rfl rfl rfl (by simp only [cutA_5_5_5_4_6]; rfl) (by simp only [cutA_5_5_5_4_6])
theorem RoundTrip.rem (d : BitVec 5) (a : BitVec 5) (b : BitVec 5) (t : BitVec 4) : RoundTrip.Statement (.rem d a b t) :=
  RoundTrip.ofA rfl rfl rfl (by simp only [cutA_5_5_5_4_6]; rfl) (by simp only [cutA_5_5_5_4_6])
theorem RoundTrip.and (d : BitVec 5) (a : BitVec 5) (b : BitVec 5) (t : BitVec 4) : RoundTrip.Statement (.and d a b t) :=
  RoundTrip.ofA rfl rfl rfl (by simp only [cutA_5_5_5_4_6]; rfl) (by simp only [cutA_5_5_5_4_6])
theorem RoundTrip.or (d : BitVec 5) (a : BitVec 5) (b : BitVec 5) (t : BitVec 4) : RoundTrip.Statement (.or d a b t) :=
  RoundTrip.ofA rfl rfl rfl (by simp only [cutA_5_5_5_4_6]; rfl) (by simp only [cutA_5_5_5_4_6])
theorem RoundTrip.xor (d : BitVec 5) (a : BitVec 5) (b : BitVec 5) (t : BitVec 4) : RoundTrip.Statement (.xor d a b t) :=
  RoundTrip.ofA rfl rfl rfl (by simp only [cutA_5_5_5_4_6]; rfl) (by simp only [cutA_5_5_5_4_6])
theorem RoundTrip.shl (d : BitVec 5) (a : BitVec 5) (b : BitVec 5) (t : BitVec 4) : RoundTrip.Statement (.shl d a b t) :=
  RoundTrip.ofA rfl rfl rfl (by simp only [cutA_5_5_5_4_6]; rfl) (by simp only [cutA_5_5_5_4_6])
theorem RoundTrip.shr (d : BitVec 5) (a : BitVec 5) (b : BitVec 5) (t : BitVec 4) : RoundTrip.Statement (.shr d a b t) :=
  RoundTrip.ofA rfl rfl rfl (by simp only [cutA_5_5_5_4_6]; rfl) (by simp only [cutA_5_5_5_4_6])
theorem RoundTrip.sra (d : BitVec 5) (a : BitVec 5) (b : BitVec 5) (t : BitVec 4) : RoundTrip.Statement (.sra d a b t) :=
  RoundTrip.ofA rfl rfl rfl (by simp only [cutA_5_5_5_4_6]; rfl) (by simp only [cutA_5_5_5_4_6])
theorem RoundTrip.min (d : BitVec 5) (a : BitVec 5) (b : BitVec 5) (t : BitVec 4) : RoundTrip.Statement (.min d a b t) :=
  RoundTrip.ofA rfl rfl rfl (by simp only [cutA_5_5_5_4_6]; rfl) (by simp only [cutA_5_5_5_4_6])
theorem RoundTrip.max (d : BitVec 5) (a : BitVec 5) (b : BitVec 5) (t : BitVec 4) : RoundTrip.Statement (.max d a b t) :=
  RoundTrip.ofA rfl rfl rfl (by simp only [cutA_5_5_5_4_6]; rfl) (by simp only [cutA_5_5_5_4_6])
theorem RoundTrip.cmp (p : BitVec 3) (c : BitVec 3) (a : BitVec 5) (b : BitVec 5) (t : BitVec 4) : RoundTrip.Statement (.cmp p c a b t) :=
  RoundTrip.ofA rfl rfl rfl (by simp only [cutA_3_3_5_5_4_5]; rfl) (by simp only [cutA_3_3_5_5_4_5])
theorem RoundTrip.sel (d : BitVec 5) (a : BitVec 5) (b : BitVec 5) (p : BitVec 3) : RoundTrip.Statement (.sel d a b p) :=
  RoundTrip.ofA rfl rfl rfl (by simp only [cutA_5_5_5_3_7]; rfl) (by simp only [cutA_5_5_5_3_7])
theorem RoundTrip.clz (d : BitVec 5) (a : BitVec 5) (t : BitVec 4) : RoundTrip.Statement (.clz d a t) :=
  RoundTrip.ofA rfl rfl rfl (by simp only [cutA_5_5_5_4_6]; rfl) (by simp only [cutA_5_5_5_4_6])
theorem RoundTrip.popc (d : BitVec 5) (a : BitVec 5) (t : BitVec 4) : RoundTrip.Statement (.popc d a t) :=
  RoundTrip.ofA rfl rfl rfl (by simp only [cutA_5_5_5_4_6]; rfl) (by simp only [cutA_5_5_5_4_6])
theorem RoundTrip.lih (d : BitVec 5) (imm : BitVec 20) : RoundTrip.Statement (.lih d imm) :=
  RoundTrip.ofA rfl rfl rfl rfl (by simp only [cutA_5_20])
theorem RoundTrip.adr (d : BitVec 5) (a : BitVec 5) (imm : BitVec 15) : RoundTrip.Statement (.adr d a imm) :=
  RoundTrip.ofA rfl rfl rfl rfl (by simp only [cutA_5_5_15])
theorem RoundTrip.andI (d : BitVec 5) (a : BitVec 5) (imm : BitVec 15) : RoundTrip.Statement (.andI d a imm) :=
  RoundTrip.ofA rfl rfl rfl rfl (by simp only [cutA_5_5_15])
theorem RoundTrip.orI (d : BitVec 5) (a : BitVec 5) (imm : BitVec 15) : RoundTrip.Statement (.orI d a imm) :=
  RoundTrip.ofA rfl rfl rfl rfl (by simp only [cutA_5_5_15])
theorem RoundTrip.xorI (d : BitVec 5) (a : BitVec 5) (imm : BitVec 15) : RoundTrip.Statement (.xorI d a imm) :=
  RoundTrip.ofA rfl rfl rfl rfl (by simp only [cutA_5_5_15])
theorem RoundTrip.shlI (d : BitVec 5) (a : BitVec 5) (imm : BitVec 6) : RoundTrip.Statement (.shlI d a imm) :=
  RoundTrip.ofA rfl rfl rfl (by simp only [cutA_5_5_9_6]; rfl) (by simp only [cutA_5_5_9_6])
theorem RoundTrip.shrI (d : BitVec 5) (a : BitVec 5) (imm : BitVec 6) : RoundTrip.Statement (.shrI d a imm) :=
  RoundTrip.ofA rfl rfl rfl (by simp only [cutA_5_5_9_6]; rfl) (by simp only [cutA_5_5_9_6])
theorem RoundTrip.sraI (d : BitVec 5) (a : BitVec 5) (imm : BitVec 6) : RoundTrip.Statement (.sraI d a imm) :=
  RoundTrip.ofA rfl rfl rfl (by simp only [cutA_5_5_9_6]; rfl) (by simp only [cutA_5_5_9_6])
theorem RoundTrip.minI (d : BitVec 5) (a : BitVec 5) (imm : BitVec 15) : RoundTrip.Statement (.minI d a imm) :=
  RoundTrip.ofA rfl rfl rfl rfl (by simp only [cutA_5_5_15])
theorem RoundTrip.maxI (d : BitVec 5) (a : BitVec 5) (imm : BitVec 15) : RoundTrip.Statement (.maxI d a imm) :=
  RoundTrip.ofA rfl rfl rfl rfl (by simp only [cutA_5_5_15])
theorem RoundTrip.cmpI (p : BitVec 3) (c : BitVec 3) (a : BitVec 5) (t : BitVec 4) (imm : BitVec 10) : RoundTrip.Statement (.cmpI p c a t imm) :=
  RoundTrip.ofA rfl rfl rfl rfl (by simp only [cutA_3_3_5_4_10])
theorem RoundTrip.faddF32 (d : BitVec 5) (a : BitVec 5) (b : BitVec 5) : RoundTrip.Statement (.faddF32 d a b) :=
  RoundTrip.ofA rfl rfl rfl (by simp only [cutA_5_5_5_10]; rfl) (by simp only [cutA_5_5_5_10])
theorem RoundTrip.fmulF32 (d : BitVec 5) (a : BitVec 5) (b : BitVec 5) : RoundTrip.Statement (.fmulF32 d a b) :=
  RoundTrip.ofA rfl rfl rfl (by simp only [cutA_5_5_5_10]; rfl) (by simp only [cutA_5_5_5_10])
theorem RoundTrip.ffmaF32 (d : BitVec 5) (a : BitVec 5) (b : BitVec 5) (c : BitVec 5) : RoundTrip.Statement (.ffmaF32 d a b c) :=
  RoundTrip.ofA rfl rfl rfl (by simp only [cutA_5_5_5_5_5]; rfl) (by simp only [cutA_5_5_5_5_5])
theorem RoundTrip.fcvt (d : BitVec 5) (a : BitVec 5) (x : BitVec 4) (y : BitVec 4) : RoundTrip.Statement (.fcvt d a x y) :=
  RoundTrip.ofA rfl rfl rfl (by simp only [cutA_5_5_4_4_7]; rfl) (by simp only [cutA_5_5_4_4_7])
theorem RoundTrip.pset (d : BitVec 3) (a : BitVec 5) : RoundTrip.Statement (.pset d a) :=
  RoundTrip.ofA rfl rfl rfl (by simp only [cutA_3_5_17]; rfl) (by simp only [cutA_3_5_17])
theorem RoundTrip.pand (d : BitVec 3) (a : BitVec 3) (b : BitVec 3) : RoundTrip.Statement (.pand d a b) :=
  RoundTrip.ofA rfl rfl rfl (by simp only [cutA_3_3_3_16]; rfl) (by simp only [cutA_3_3_3_16])
theorem RoundTrip.por (d : BitVec 3) (a : BitVec 3) (b : BitVec 3) : RoundTrip.Statement (.por d a b) :=
  RoundTrip.ofA rfl rfl rfl (by simp only [cutA_3_3_3_16]; rfl) (by simp only [cutA_3_3_3_16])
theorem RoundTrip.pnot (d : BitVec 3) (a : BitVec 3) : RoundTrip.Statement (.pnot d a) :=
  RoundTrip.ofA rfl rfl rfl (by simp only [cutA_3_3_19]; rfl) (by simp only [cutA_3_3_19])
theorem RoundTrip.vadd (d : BitVec 6) (a : BitVec 6) (b : BitVec 6) (t : BitVec 4) (p : BitVec 3) : RoundTrip.Statement (.vadd d a b t p) :=
  RoundTrip.ofA rfl rfl rfl rfl (by simp only [cutA_6_6_6_4_3])
theorem RoundTrip.vsub (d : BitVec 6) (a : BitVec 6) (b : BitVec 6) (t : BitVec 4) (p : BitVec 3) : RoundTrip.Statement (.vsub d a b t p) :=
  RoundTrip.ofA rfl rfl rfl rfl (by simp only [cutA_6_6_6_4_3])
theorem RoundTrip.vmul (d : BitVec 6) (a : BitVec 6) (b : BitVec 6) (t : BitVec 4) (p : BitVec 3) : RoundTrip.Statement (.vmul d a b t p) :=
  RoundTrip.ofA rfl rfl rfl rfl (by simp only [cutA_6_6_6_4_3])
theorem RoundTrip.vfma (d : BitVec 6) (a : BitVec 6) (b : BitVec 6) (t : BitVec 4) (p : BitVec 3) : RoundTrip.Statement (.vfma d a b t p) :=
  RoundTrip.ofA rfl rfl rfl rfl (by simp only [cutA_6_6_6_4_3])
theorem RoundTrip.vfms (d : BitVec 6) (a : BitVec 6) (b : BitVec 6) (t : BitVec 4) (p : BitVec 3) : RoundTrip.Statement (.vfms d a b t p) :=
  RoundTrip.ofA rfl rfl rfl rfl (by simp only [cutA_6_6_6_4_3])
theorem RoundTrip.vmin (d : BitVec 6) (a : BitVec 6) (b : BitVec 6) (t : BitVec 4) (p : BitVec 3) : RoundTrip.Statement (.vmin d a b t p) :=
  RoundTrip.ofA rfl rfl rfl rfl (by simp only [cutA_6_6_6_4_3])
theorem RoundTrip.vmax (d : BitVec 6) (a : BitVec 6) (b : BitVec 6) (t : BitVec 4) (p : BitVec 3) : RoundTrip.Statement (.vmax d a b t p) :=
  RoundTrip.ofA rfl rfl rfl rfl (by simp only [cutA_6_6_6_4_3])
theorem RoundTrip.vand (d : BitVec 6) (a : BitVec 6) (b : BitVec 6) (t : BitVec 4) (p : BitVec 3) : RoundTrip.Statement (.vand d a b t p) :=
  RoundTrip.ofA rfl rfl rfl rfl (by simp only [cutA_6_6_6_4_3])
theorem RoundTrip.vor (d : BitVec 6) (a : BitVec 6) (b : BitVec 6) (t : BitVec 4) (p : BitVec 3) : RoundTrip.Statement (.vor d a b t p) :=
  RoundTrip.ofA rfl rfl rfl rfl (by simp only [cutA_6_6_6_4_3])
theorem RoundTrip.vxor (d : BitVec 6) (a : BitVec 6) (b : BitVec 6) (t : BitVec 4) (p : BitVec 3) : RoundTrip.Statement (.vxor d a b t p) :=
  RoundTrip.ofA rfl rfl rfl rfl (by simp only [cutA_6_6_6_4_3])
theorem RoundTrip.vshl (d : BitVec 6) (a : BitVec 6) (b : BitVec 6) (t : BitVec 4) (p : BitVec 3) : RoundTrip.Statement (.vshl d a b t p) :=
  RoundTrip.ofA rfl rfl rfl rfl (by simp only [cutA_6_6_6_4_3])
theorem RoundTrip.vshr (d : BitVec 6) (a : BitVec 6) (b : BitVec 6) (t : BitVec 4) (p : BitVec 3) : RoundTrip.Statement (.vshr d a b t p) :=
  RoundTrip.ofA rfl rfl rfl rfl (by simp only [cutA_6_6_6_4_3])
theorem RoundTrip.vclamp (d : BitVec 6) (a : BitVec 6) (b : BitVec 6) (t : BitVec 4) (p : BitVec 3) : RoundTrip.Statement (.vclamp d a b t p) :=
  RoundTrip.ofA rfl rfl rfl rfl (by simp only [cutA_6_6_6_4_3])
theorem RoundTrip.vperm (d : BitVec 6) (a : BitVec 6) (b : BitVec 6) (t : BitVec 4) (p : BitVec 3) : RoundTrip.Statement (.vperm d a b t p) :=
  RoundTrip.ofA rfl rfl rfl rfl (by simp only [cutA_6_6_6_4_3])
theorem RoundTrip.vdotI8 (d : BitVec 6) (a : BitVec 6) (b : BitVec 6) (p : BitVec 3) : RoundTrip.Statement (.vdotI8 d a b p) :=
  RoundTrip.ofA rfl rfl rfl (by simp only [cutA_6_6_6_4_3]; rfl) (by simp only [cutA_6_6_6_4_3])
theorem RoundTrip.vsel (d : BitVec 6) (a : BitVec 6) (b : BitVec 6) (t : BitVec 4) (p : BitVec 3) : RoundTrip.Statement (.vsel d a b t p) :=
  RoundTrip.ofA rfl rfl rfl rfl (by simp only [cutA_6_6_6_4_3])
theorem RoundTrip.vcmp (d : BitVec 3) (c : BitVec 3) (a : BitVec 6) (b : BitVec 6) (t : BitVec 4) (p : BitVec 3) : RoundTrip.Statement (.vcmp d c a b t p) :=
  RoundTrip.ofA rfl rfl rfl rfl (by simp only [cutA_3_3_6_6_4_3])
theorem RoundTrip.vabs (d : BitVec 6) (a : BitVec 6) (t : BitVec 4) (p : BitVec 3) : RoundTrip.Statement (.vabs d a t p) :=
  RoundTrip.ofA rfl rfl rfl (by simp only [cutA_6_6_6_4_3]; rfl) (by simp only [cutA_6_6_6_4_3])
theorem RoundTrip.vneg (d : BitVec 6) (a : BitVec 6) (t : BitVec 4) (p : BitVec 3) : RoundTrip.Statement (.vneg d a t p) :=
  RoundTrip.ofA rfl rfl rfl (by simp only [cutA_6_6_6_4_3]; rfl) (by simp only [cutA_6_6_6_4_3])
theorem RoundTrip.vrcp (d : BitVec 6) (a : BitVec 6) (t : BitVec 4) (p : BitVec 3) : RoundTrip.Statement (.vrcp d a t p) :=
  RoundTrip.ofA rfl rfl rfl (by simp only [cutA_6_6_6_4_3]; rfl) (by simp only [cutA_6_6_6_4_3])
theorem RoundTrip.vrsqrt (d : BitVec 6) (a : BitVec 6) (t : BitVec 4) (p : BitVec 3) : RoundTrip.Statement (.vrsqrt d a t p) :=
  RoundTrip.ofA rfl rfl rfl (by simp only [cutA_6_6_6_4_3]; rfl) (by simp only [cutA_6_6_6_4_3])
theorem RoundTrip.vexp2 (d : BitVec 6) (a : BitVec 6) (t : BitVec 4) (p : BitVec 3) : RoundTrip.Statement (.vexp2 d a t p) :=
  RoundTrip.ofA rfl rfl rfl (by simp only [cutA_6_6_6_4_3]; rfl) (by simp only [cutA_6_6_6_4_3])
theorem RoundTrip.vlog2 (d : BitVec 6) (a : BitVec 6) (t : BitVec 4) (p : BitVec 3) : RoundTrip.Statement (.vlog2 d a t p) :=
  RoundTrip.ofA rfl rfl rfl (by simp only [cutA_6_6_6_4_3]; rfl) (by simp only [cutA_6_6_6_4_3])
theorem RoundTrip.vcvt (d : BitVec 6) (a : BitVec 6) (x : BitVec 4) (y : BitVec 4) (p : BitVec 3) : RoundTrip.Statement (.vcvt d a x y p) :=
  RoundTrip.ofA rfl rfl rfl (by simp only [cutA_6_6_4_4_2_3]; rfl) (by simp only [cutA_6_6_4_4_2_3])
theorem RoundTrip.vred (d : BitVec 6) (a : BitVec 6) (o : BitVec 3) (t : BitVec 4) (p : BitVec 3) : RoundTrip.Statement (.vred d a o t p) :=
  RoundTrip.ofA rfl rfl rfl (by simp only [cutA_6_6_3_3_4_3]; rfl) (by simp only [cutA_6_6_3_3_4_3])
theorem RoundTrip.vbcast (d : BitVec 6) (a : BitVec 6) (e : BitVec 5) (p : BitVec 3) : RoundTrip.Statement (.vbcast d a e p) :=
  RoundTrip.ofA rfl rfl rfl (by simp only [cutA_6_6_5_5_3]; rfl) (by simp only [cutA_6_6_5_5_3])
theorem RoundTrip.vsplat (d : BitVec 6) (sl : BitVec 5) (t : BitVec 4) (p : BitVec 3) : RoundTrip.Statement (.vsplat d sl t p) :=
  RoundTrip.ofA rfl rfl rfl (by simp only [cutA_6_5_7_4_3]; rfl) (by simp only [cutA_6_5_7_4_3])
theorem RoundTrip.vext (d : BitVec 5) (a : BitVec 6) (e : BitVec 5) : RoundTrip.Statement (.vext d a e) :=
  RoundTrip.ofA rfl rfl rfl (by simp only [cutA_5_6_5_9]; rfl) (by simp only [cutA_5_6_5_9])
theorem RoundTrip.vins (d : BitVec 6) (sl : BitVec 5) (e : BitVec 5) : RoundTrip.Statement (.vins d sl e) :=
  RoundTrip.ofA rfl rfl rfl (by simp only [cutA_6_5_5_9]; rfl) (by simp only [cutA_6_5_5_9])
theorem RoundTrip.vaddS (d : BitVec 6) (a : BitVec 6) (sl : BitVec 5) (t : BitVec 4) (p : BitVec 3) : RoundTrip.Statement (.vaddS d a sl t p) :=
  RoundTrip.ofA rfl rfl rfl (by simp only [cutA_6_6_5_1_4_3]; rfl) (by simp only [cutA_6_6_5_1_4_3])
theorem RoundTrip.vsubS (d : BitVec 6) (a : BitVec 6) (sl : BitVec 5) (t : BitVec 4) (p : BitVec 3) : RoundTrip.Statement (.vsubS d a sl t p) :=
  RoundTrip.ofA rfl rfl rfl (by simp only [cutA_6_6_5_1_4_3]; rfl) (by simp only [cutA_6_6_5_1_4_3])
theorem RoundTrip.vmulS (d : BitVec 6) (a : BitVec 6) (sl : BitVec 5) (t : BitVec 4) (p : BitVec 3) : RoundTrip.Statement (.vmulS d a sl t p) :=
  RoundTrip.ofA rfl rfl rfl (by simp only [cutA_6_6_5_1_4_3]; rfl) (by simp only [cutA_6_6_5_1_4_3])
theorem RoundTrip.vfmaS (d : BitVec 6) (a : BitVec 6) (sl : BitVec 5) (t : BitVec 4) (p : BitVec 3) : RoundTrip.Statement (.vfmaS d a sl t p) :=
  RoundTrip.ofA rfl rfl rfl (by simp only [cutA_6_6_5_1_4_3]; rfl) (by simp only [cutA_6_6_5_1_4_3])
theorem RoundTrip.vfmsS (d : BitVec 6) (a : BitVec 6) (sl : BitVec 5) (t : BitVec 4) (p : BitVec 3) : RoundTrip.Statement (.vfmsS d a sl t p) :=
  RoundTrip.ofA rfl rfl rfl (by simp only [cutA_6_6_5_1_4_3]; rfl) (by simp only [cutA_6_6_5_1_4_3])
theorem RoundTrip.vminS (d : BitVec 6) (a : BitVec 6) (sl : BitVec 5) (t : BitVec 4) (p : BitVec 3) : RoundTrip.Statement (.vminS d a sl t p) :=
  RoundTrip.ofA rfl rfl rfl (by simp only [cutA_6_6_5_1_4_3]; rfl) (by simp only [cutA_6_6_5_1_4_3])
theorem RoundTrip.vmaxS (d : BitVec 6) (a : BitVec 6) (sl : BitVec 5) (t : BitVec 4) (p : BitVec 3) : RoundTrip.Statement (.vmaxS d a sl t p) :=
  RoundTrip.ofA rfl rfl rfl (by simp only [cutA_6_6_5_1_4_3]; rfl) (by simp only [cutA_6_6_5_1_4_3])
theorem RoundTrip.vandS (d : BitVec 6) (a : BitVec 6) (sl : BitVec 5) (t : BitVec 4) (p : BitVec 3) : RoundTrip.Statement (.vandS d a sl t p) :=
  RoundTrip.ofA rfl rfl rfl (by simp only [cutA_6_6_5_1_4_3]; rfl) (by simp only [cutA_6_6_5_1_4_3])
theorem RoundTrip.vorS (d : BitVec 6) (a : BitVec 6) (sl : BitVec 5) (t : BitVec 4) (p : BitVec 3) : RoundTrip.Statement (.vorS d a sl t p) :=
  RoundTrip.ofA rfl rfl rfl (by simp only [cutA_6_6_5_1_4_3]; rfl) (by simp only [cutA_6_6_5_1_4_3])
theorem RoundTrip.vxorS (d : BitVec 6) (a : BitVec 6) (sl : BitVec 5) (t : BitVec 4) (p : BitVec 3) : RoundTrip.Statement (.vxorS d a sl t p) :=
  RoundTrip.ofA rfl rfl rfl (by simp only [cutA_6_6_5_1_4_3]; rfl) (by simp only [cutA_6_6_5_1_4_3])
theorem RoundTrip.vshlS (d : BitVec 6) (a : BitVec 6) (sl : BitVec 5) (t : BitVec 4) (p : BitVec 3) : RoundTrip.Statement (.vshlS d a sl t p) :=
  RoundTrip.ofA rfl rfl rfl (by simp only [cutA_6_6_5_1_4_3]; rfl) (by simp only [cutA_6_6_5_1_4_3])
theorem RoundTrip.vshrS (d : BitVec 6) (a : BitVec 6) (sl : BitVec 5) (t : BitVec 4) (p : BitVec 3) : RoundTrip.Statement (.vshrS d a sl t p) :=
  RoundTrip.ofA rfl rfl rfl (by simp only [cutA_6_6_5_1_4_3]; rfl) (by simp only [cutA_6_6_5_1_4_3])
theorem RoundTrip.vcmpS (d : BitVec 3) (c : BitVec 3) (a : BitVec 6) (sl : BitVec 5) (t : BitVec 4) (p : BitVec 3) : RoundTrip.Statement (.vcmpS d c a sl t p) :=
  RoundTrip.ofA rfl rfl rfl (by simp only [cutA_3_3_6_5_1_4_3]; rfl) (by simp only [cutA_3_3_6_5_1_4_3])
theorem RoundTrip.cReservedNop (hd : CHead) (op : BitVec 7) (rest : BitVec 18) : RoundTrip.Statement (.cReservedNop hd op rest) :=
  RoundTrip.ofOk rfl rfl fun h => by
    have hop : op.toNat = 0x7C ∨ op.toNat = 0x7D ∨ op.toNat = 0x7E := by
      simp [Instr.wf, reservedNopOpcode] at h
      omega
    rcases hop with e | e | e <;> rw [e] <;> simp [decodeCOp, fld_cWord_op, cutC_18, head_cWord]
theorem RoundTrip.aReservedNop (op : BitVec 7) (rest : BitVec 25) : RoundTrip.Statement (.aReservedNop op rest) :=
  RoundTrip.ofOkA rfl rfl fun h => by
    have hop : op.toNat = 0x7C ∨ op.toNat = 0x7D ∨ op.toNat = 0x7E := by
      simp [Instr.wf, reservedNopOpcode] at h
      omega
    rcases hop with e | e | e <;> rw [e] <;> simp [decodeAOp, fld_aWord_op, cutA_25]
theorem RoundTrip.illegalOpcode (slot : Nat) (word : BitVec 32) : RoundTrip.Statement (.illegalOpcode slot word) := RoundTrip.ofNone rfl
theorem RoundTrip.replayedPair : RoundTrip.Statement (.replayedPair) := RoundTrip.ofNone rfl
theorem RoundTrip.lateTrap : RoundTrip.Statement (.lateTrap) := RoundTrip.ofNone rfl
theorem RoundTrip.upcall : RoundTrip.Statement (.upcall) := RoundTrip.ofNone rfl
theorem RoundTrip.helperRetire (core : Nat) (ctx : Nat) : RoundTrip.Statement (.helperRetire core ctx) := RoundTrip.ofNone rfl
theorem RoundTrip.taskEnd (core : Nat) : RoundTrip.Statement (.taskEnd core) := RoundTrip.ofNone rfl
theorem RoundTrip.phaseComplete (hid : Nat) (level : Nat) (unit : Nat) : RoundTrip.Statement (.phaseComplete hid level unit) := RoundTrip.ofNone rfl
theorem RoundTrip.syncTLimit (core : Nat) (ctx : Nat) : RoundTrip.Statement (.syncTLimit core ctx) := RoundTrip.ofNone rfl
theorem RoundTrip.planEntry (core : Nat) (idx : Nat) : RoundTrip.Statement (.planEntry core idx) := RoundTrip.ofNone rfl
theorem RoundTrip.remoteRequestPerform (id : Nat) : RoundTrip.Statement (.remoteRequestPerform id) := RoundTrip.ofNone rfl
theorem RoundTrip.takeRetry (id : Nat) : RoundTrip.Statement (.takeRetry id) := RoundTrip.ofNone rfl
theorem RoundTrip.replyReceive (id : Nat) : RoundTrip.Statement (.replyReceive id) := RoundTrip.ofNone rfl
theorem RoundTrip.requestAck (id : Nat) : RoundTrip.Statement (.requestAck id) := RoundTrip.ofNone rfl
theorem RoundTrip.refusalReceive (id : Nat) : RoundTrip.Statement (.refusalReceive id) := RoundTrip.ofNone rfl
theorem RoundTrip.predictorDecay (core : Nat) (line : Nat) : RoundTrip.Statement (.predictorDecay core line) := RoundTrip.ofNone rfl
theorem RoundTrip.esigAdd (id : Nat) : RoundTrip.Statement (.esigAdd id) := RoundTrip.ofNone rfl
theorem RoundTrip.ewaitAnswer (core : Nat) (ctx : Nat) : RoundTrip.Statement (.ewaitAnswer core ctx) := RoundTrip.ofNone rfl
theorem RoundTrip.msendDepart (id : Nat) : RoundTrip.Statement (.msendDepart id) := RoundTrip.ofNone rfl
theorem RoundTrip.entryPlace (id : Nat) : RoundTrip.Statement (.entryPlace id) := RoundTrip.ofNone rfl
theorem RoundTrip.inbxTLimit (core : Nat) (ctx : Nat) : RoundTrip.Statement (.inbxTLimit core ctx) := RoundTrip.ofNone rfl
theorem RoundTrip.boxWrite (core : Nat) : RoundTrip.Statement (.boxWrite core) := RoundTrip.ofNone rfl
theorem RoundTrip.boxMoveBack (core : Nat) : RoundTrip.Statement (.boxMoveBack core) := RoundTrip.ofNone rfl
theorem RoundTrip.stallTimeout (core : Nat) : RoundTrip.Statement (.stallTimeout core) := RoundTrip.ofNone rfl
theorem RoundTrip.matrixCommandStart (core : Nat) : RoundTrip.Statement (.matrixCommandStart core) := RoundTrip.ofNone rfl
theorem RoundTrip.matrixCommit (core : Nat) : RoundTrip.Statement (.matrixCommit core) := RoundTrip.ofNone rfl
theorem RoundTrip.mldBStart (core : Nat) : RoundTrip.Statement (.mldBStart core) := RoundTrip.ofNone rfl
theorem RoundTrip.mldBDone (core : Nat) : RoundTrip.Statement (.mldBDone core) := RoundTrip.ofNone rfl
theorem RoundTrip.cisternAddPath (cl : Nat) : RoundTrip.Statement (.cisternAddPath cl) := RoundTrip.ofNone rfl
theorem RoundTrip.cisternTapPath (cl : Nat) : RoundTrip.Statement (.cisternTapPath cl) := RoundTrip.ofNone rfl
theorem RoundTrip.scrubEnd (cl : Nat) (row : Nat) : RoundTrip.Statement (.scrubEnd cl row) := RoundTrip.ofNone rfl
theorem RoundTrip.spillComplete (cl : Nat) (row : Nat) : RoundTrip.Statement (.spillComplete cl row) := RoundTrip.ofNone rfl
theorem RoundTrip.fillComplete (cl : Nat) (row : Nat) : RoundTrip.Statement (.fillComplete cl row) := RoundTrip.ofNone rfl
theorem RoundTrip.hsendDepart (id : Nat) : RoundTrip.Statement (.hsendDepart id) := RoundTrip.ofNone rfl
theorem RoundTrip.hjoinComplete (core : Nat) (ctx : Nat) (reg : Nat) : RoundTrip.Statement (.hjoinComplete core ctx reg) := RoundTrip.ofNone rfl
theorem RoundTrip.hfreeComplete (cl : Nat) (entry : Nat) : RoundTrip.Statement (.hfreeComplete cl entry) := RoundTrip.ofNone rfl
theorem RoundTrip.streamerAccept (id : Nat) : RoundTrip.Statement (.streamerAccept id) := RoundTrip.ofNone rfl
theorem RoundTrip.streamerStep (op : Nat) : RoundTrip.Statement (.streamerStep op) := RoundTrip.ofNone rfl
theorem RoundTrip.streamerComplete (op : Nat) : RoundTrip.Statement (.streamerComplete op) := RoundTrip.ofNone rfl
theorem RoundTrip.pantryCommit (op : Nat) : RoundTrip.Statement (.pantryCommit op) := RoundTrip.ofNone rfl
theorem RoundTrip.collectiveRun (hid : Nat) (colid : Nat) : RoundTrip.Statement (.collectiveRun hid colid) := RoundTrip.ofNone rfl
theorem RoundTrip.registerWrite (off : Nat) (val : BitVec 64) : RoundTrip.Statement (.registerWrite off val) := RoundTrip.ofNone rfl
theorem RoundTrip.tkrCas (q : Nat) (cmp : BitVec 64) (new : BitVec 64) : RoundTrip.Statement (.tkrCas q cmp new) := RoundTrip.ofNone rfl
theorem RoundTrip.cmt (q : Nat) (val : BitVec 64) : RoundTrip.Statement (.cmt q val) := RoundTrip.ofNone rfl
theorem RoundTrip.cancel (q : Nat) (val : BitVec 64) : RoundTrip.Statement (.cancel q val) := RoundTrip.ofNone rfl
theorem RoundTrip.schedulerTick : RoundTrip.Statement (.schedulerTick) := RoundTrip.ofNone rfl
theorem RoundTrip.coreLoadAck (q : Nat) (t : Nat) (core : Nat) : RoundTrip.Statement (.coreLoadAck q t core) := RoundTrip.ofNone rfl
theorem RoundTrip.groupStart (q : Nat) (t : Nat) : RoundTrip.Statement (.groupStart q t) := RoundTrip.ofNone rfl
theorem RoundTrip.taskEndReport (core : Nat) : RoundTrip.Statement (.taskEndReport core) := RoundTrip.ofNone rfl
theorem RoundTrip.groupFree (q : Nat) (t : Nat) : RoundTrip.Statement (.groupFree q t) := RoundTrip.ofNone rfl
theorem RoundTrip.recordWrite (q : Nat) (ring : Nat) : RoundTrip.Statement (.recordWrite q ring) := RoundTrip.ofNone rfl
theorem RoundTrip.recordRetry (q : Nat) (ring : Nat) : RoundTrip.Statement (.recordRetry q ring) := RoundTrip.ofNone rfl
theorem RoundTrip.ringHeadWrite (q : Nat) (ring : Nat) (val : BitVec 64) : RoundTrip.Statement (.ringHeadWrite q ring val) := RoundTrip.ofNone rfl
theorem RoundTrip.swcmdSave (q : Nat) (val : BitVec 64) : RoundTrip.Statement (.swcmdSave q val) := RoundTrip.ofNone rfl
theorem RoundTrip.swcmdRestore (q : Nat) (val : BitVec 64) : RoundTrip.Statement (.swcmdRestore q val) := RoundTrip.ofNone rfl
theorem RoundTrip.swcmdDisarm (q : Nat) (val : BitVec 64) : RoundTrip.Statement (.swcmdDisarm q val) := RoundTrip.ofNone rfl
theorem RoundTrip.switchStop (hid : Nat) : RoundTrip.Statement (.switchStop hid) := RoundTrip.ofNone rfl
theorem RoundTrip.sluiceClose (hid : Nat) : RoundTrip.Statement (.sluiceClose hid) := RoundTrip.ofNone rfl
theorem RoundTrip.saveComplete (hid : Nat) : RoundTrip.Statement (.saveComplete hid) := RoundTrip.ofNone rfl
theorem RoundTrip.restoreResume (hid : Nat) : RoundTrip.Statement (.restoreResume hid) := RoundTrip.ofNone rfl
theorem RoundTrip.reinject (id : Nat) : RoundTrip.Statement (.reinject id) := RoundTrip.ofNone rfl
theorem RoundTrip.stubForward (id : Nat) : RoundTrip.Statement (.stubForward id) := RoundTrip.ofNone rfl
theorem RoundTrip.stubCorrection (id : Nat) : RoundTrip.Statement (.stubCorrection id) := RoundTrip.ofNone rfl
theorem RoundTrip.pasidTeardown (q : Nat) : RoundTrip.Statement (.pasidTeardown q) := RoundTrip.ofNone rfl
theorem RoundTrip.hostResponseDiscard (q : Nat) : RoundTrip.Statement (.hostResponseDiscard q) := RoundTrip.ofNone rfl
theorem RoundTrip.waitArm (q : Nat) (val : BitVec 64) : RoundTrip.Statement (.waitArm q val) := RoundTrip.ofNone rfl
theorem RoundTrip.watchRead (q : Nat) : RoundTrip.Statement (.watchRead q) := RoundTrip.ofNone rfl
theorem RoundTrip.watchYield (q : Nat) : RoundTrip.Statement (.watchYield q) := RoundTrip.ofNone rfl
theorem RoundTrip.pageResponse (q : Nat) : RoundTrip.Statement (.pageResponse q) := RoundTrip.ofNone rfl
theorem RoundTrip.tdiStateChange (q : Nat) (st : Nat) : RoundTrip.Statement (.tdiStateChange q st) := RoundTrip.ofNone rfl
theorem RoundTrip.tinv (q : Nat) (val : BitVec 64) : RoundTrip.Statement (.tinv q val) := RoundTrip.ofNone rfl
theorem RoundTrip.tinvComplete (q : Nat) : RoundTrip.Statement (.tinvComplete q) := RoundTrip.ofNone rfl
theorem RoundTrip.gtsJoin (ref : Nat) : RoundTrip.Statement (.gtsJoin ref) := RoundTrip.ofNone rfl
theorem RoundTrip.gtsCorrect (add : Bool) : RoundTrip.Statement (.gtsCorrect add) := RoundTrip.ofNone rfl
theorem RoundTrip.leaseCas (cmp : BitVec 64) (new : BitVec 64) : RoundTrip.Statement (.leaseCas cmp new) := RoundTrip.ofNone rfl
theorem RoundTrip.coldReset : RoundTrip.Statement (.coldReset) := RoundTrip.ofNone rfl
theorem RoundTrip.firstStageBoot (die : Nat) : RoundTrip.Statement (.firstStageBoot die) := RoundTrip.ofNone rfl
theorem RoundTrip.getMeasurements : RoundTrip.Statement (.getMeasurements) := RoundTrip.ofNone rfl
theorem RoundTrip.hostPortTrain (modes : BitVec 4) : RoundTrip.Statement (.hostPortTrain modes) := RoundTrip.ofNone rfl
theorem RoundTrip.kill (q : Nat) (val : BitVec 64) : RoundTrip.Statement (.kill q val) := RoundTrip.ofNone rfl
theorem RoundTrip.warmReset : RoundTrip.Statement (.warmReset) := RoundTrip.ofNone rfl
theorem RoundTrip.killStop (hid : Nat) : RoundTrip.Statement (.killStop hid) := RoundTrip.ofNone rfl
theorem RoundTrip.peatAllocate (hid : Nat) : RoundTrip.Statement (.peatAllocate hid) := RoundTrip.ofNone rfl
theorem RoundTrip.peatFormed (hid : Nat) : RoundTrip.Statement (.peatFormed hid) := RoundTrip.ofNone rfl
theorem RoundTrip.pwrel (val : BitVec 64) : RoundTrip.Statement (.pwrel val) := RoundTrip.ofNone rfl
theorem RoundTrip.reviveResume (q : Nat) (t : Nat) : RoundTrip.Statement (.reviveResume q t) := RoundTrip.ofNone rfl
theorem RoundTrip.sramUe (kind : Nat) (holder : Nat) (addr : Nat) : RoundTrip.Statement (.sramUe kind holder addr) := RoundTrip.ofNone rfl
theorem RoundTrip.patrolScrub (pa : Nat) : RoundTrip.Statement (.patrolScrub pa) := RoundTrip.ofNone rfl
theorem RoundTrip.flitReceive (link : Nat) (seq : BitVec 12) (good : Bool) : RoundTrip.Statement (.flitReceive link seq good) := RoundTrip.ofNone rfl
theorem RoundTrip.nakReplay (link : Nat) (seq : BitVec 12) : RoundTrip.Statement (.nakReplay link seq) := RoundTrip.ofNone rfl
theorem RoundTrip.retrainEnd (link : Nat) (up : Bool) : RoundTrip.Statement (.retrainEnd link up) := RoundTrip.ofNone rfl
theorem RoundTrip.eventRecordWrite : RoundTrip.Statement (.eventRecordWrite) := RoundTrip.ofNone rfl
theorem RoundTrip.rowActivate (pa : Nat) : RoundTrip.Statement (.rowActivate pa) := RoundTrip.ofNone rfl
theorem RoundTrip.backoffEnd (bank : Nat) : RoundTrip.Statement (.backoffEnd bank) := RoundTrip.ofNone rfl
theorem RoundTrip.rowClose (bank : Nat) : RoundTrip.Statement (.rowClose bank) := RoundTrip.ofNone rfl
theorem RoundTrip.refreshWindow (stack : Nat) : RoundTrip.Statement (.refreshWindow stack) := RoundTrip.ofNone rfl
theorem RoundTrip.bankRefresh (bank : Nat) : RoundTrip.Statement (.bankRefresh bank) := RoundTrip.ofNone rfl
theorem RoundTrip.heartbeat (stack : Nat) : RoundTrip.Statement (.heartbeat stack) := RoundTrip.ofNone rfl
theorem RoundTrip.refreshTakeover (stack : Nat) : RoundTrip.Statement (.refreshTakeover stack) := RoundTrip.ofNone rfl
theorem RoundTrip.sequencerRefresh (stack : Nat) : RoundTrip.Statement (.sequencerRefresh stack) := RoundTrip.ofNone rfl
theorem RoundTrip.refreshHandback (stack : Nat) : RoundTrip.Statement (.refreshHandback stack) := RoundTrip.ofNone rfl
theorem RoundTrip.pageMigrate (page : Nat) : RoundTrip.Statement (.pageMigrate page) := RoundTrip.ofNone rfl
theorem RoundTrip.sensorRead (die : Nat) (temp : Nat) : RoundTrip.Statement (.sensorRead die temp) := RoundTrip.ofNone rfl
theorem RoundTrip.routerReceive (id : Nat) : RoundTrip.Statement (.routerReceive id) := RoundTrip.ofNone rfl
theorem RoundTrip.orderRestoreDeliver (core : Nat) : RoundTrip.Statement (.orderRestoreDeliver core) := RoundTrip.ofNone rfl
theorem RoundTrip.securityAlarm (cls : Nat) : RoundTrip.Statement (.securityAlarm cls) := RoundTrip.ofNone rfl
theorem RoundTrip.alarmAction (cls : Nat) : RoundTrip.Statement (.alarmAction cls) := RoundTrip.ofNone rfl
theorem RoundTrip.signatureCheck (q : Nat) (idx : Nat) : RoundTrip.Statement (.signatureCheck q idx) := RoundTrip.ofNone rfl
theorem RoundTrip.dbgunlk (q : Nat) (val : BitVec 64) : RoundTrip.Statement (.dbgunlk q val) := RoundTrip.ofNone rfl
theorem RoundTrip.debugStop (core : Nat) : RoundTrip.Statement (.debugStop core) := RoundTrip.ofNone rfl
theorem RoundTrip.debugStopTake (core : Nat) : RoundTrip.Statement (.debugStopTake core) := RoundTrip.ofNone rfl
theorem RoundTrip.debugRun (core : Nat) : RoundTrip.Statement (.debugRun core) := RoundTrip.ofNone rfl
theorem RoundTrip.debugStep (core : Nat) (ctx : Nat) : RoundTrip.Statement (.debugStep core ctx) := RoundTrip.ofNone rfl
theorem RoundTrip.debugSnapshot (core : Nat) : RoundTrip.Statement (.debugSnapshot core) := RoundTrip.ofNone rfl
theorem RoundTrip.snapshotDone (core : Nat) : RoundTrip.Statement (.snapshotDone core) := RoundTrip.ofNone rfl
theorem RoundTrip.traceGtsTrigger (core : Nat) : RoundTrip.Statement (.traceGtsTrigger core) := RoundTrip.ofNone rfl
theorem RoundTrip.droopDetect (die : Nat) (below : BitVec 32) (mv : BitVec 32) : RoundTrip.Statement (.droopDetect die below mv) := RoundTrip.ofNone rfl
theorem RoundTrip.molHeadReread (core : Nat) (ctx : Nat) : RoundTrip.Statement (.molHeadReread core ctx) := RoundTrip.ofNone rfl
theorem RoundTrip.fetchTrap : RoundTrip.Statement (.fetchTrap) := RoundTrip.ofNone rfl
theorem RoundTrip.householdCreate (hid : Nat) (q : Nat) (root : BitVec 64) (prot : Bool) (cred : BitVec 64) : RoundTrip.Statement (.householdCreate hid q root prot cred) := RoundTrip.ofNone rfl
theorem RoundTrip.householdDestroy (hid : Nat) : RoundTrip.Statement (.householdDestroy hid) := RoundTrip.ofNone rfl
theorem RoundTrip.fenCreate (hid : Nat) (cx : Nat) (cy : Nat) (w : Nat) (ht : Nat) : RoundTrip.Statement (.fenCreate hid cx cy w ht) := RoundTrip.ofNone rfl
theorem RoundTrip.fenEnd (hid : Nat) (idx : Nat) : RoundTrip.Statement (.fenEnd hid idx) := RoundTrip.ofNone rfl
theorem RoundTrip.hostCxlMemAccess (pa : Nat) (wr : Bool) (val : BitVec 64) : RoundTrip.Statement (.hostCxlMemAccess pa wr val) := RoundTrip.ofNone rfl
theorem RoundTrip.boardwalkPeerAccess (port : Nat) (hid : Nat) (va : Nat) (wr : Bool) (val : BitVec 64) : RoundTrip.Statement (.boardwalkPeerAccess port hid va wr val) := RoundTrip.ofNone rfl
theorem RoundTrip.unsupportedAtomicop (off : Nat) (val : BitVec 64) : RoundTrip.Statement (.unsupportedAtomicop off val) := RoundTrip.ofNone rfl
theorem RoundTrip.porchAnswer (id : Nat) : RoundTrip.Statement (.porchAnswer id) := RoundTrip.ofNone rfl
theorem RoundTrip.boxFetch (core : Nat) (ctx : Nat) : RoundTrip.Statement (.boxFetch core ctx) := RoundTrip.ofNone rfl
theorem RoundTrip.allBankRefreshEnd (stack : Nat) : RoundTrip.Statement (.allBankRefreshEnd stack) := RoundTrip.ofNone rfl
theorem RoundTrip.migrationDone (page : Nat) : RoundTrip.Statement (.migrationDone page) := RoundTrip.ofNone rfl

end Sys2Proof.Laws
end

