-- ==== Sys2Proof/Laws/Typed.lean ====
section
/-! SUPPORT. The model's reading of typed scalar operands and results agrees with bit vectors read as numbers (R94). -/
namespace Sys2Proof.Machine

theorem readInt_unsigned (w : Nat) (x : Word) : readInt false w x.toNat = ((x.setWidth w).toNat : Int) := by
  simp [readInt]
theorem readInt_signed {w : Nat} (hw : 0 < w) (x : Word) : readInt true w x.toNat = (x.setWidth w).toInt := by
  have h2 : 2 ^ w = 2 * 2 ^ (w - 1) := by
    obtain ⟨k, rfl⟩ : ∃ k, w = k + 1 := ⟨w - 1, by omega⟩
    rw [Nat.add_sub_cancel, Nat.pow_succ, Nat.mul_comm]
  simp only [readInt, BitVec.toInt, BitVec.toNat_setWidth, Bool.true_and, ge_iff_le, decide_eq_true_eq]
  split <;> split <;> omega
theorem wrapInt_eq (w : Nat) (z : Int) : wrapInt w z = (BitVec.ofInt w z).toNat := by
  simp [wrapInt, BitVec.toNat_ofInt]
theorem typeBytes_pos (t : Nat) : 0 < typeBytes t := by
  unfold typeBytes
  split <;> omega
theorem typeBytes_le (t : Nat) : typeBytes t ≤ 8 := by
  unfold typeBytes
  split <;> omega
theorem typed_eq (t : Nat) (x : Word) : typed t x = typedOperand t x := by
  have := typeBytes_pos t
  unfold typed typedOperand typeWidth
  by_cases h : t < 4
  · simp only [h, decide_true, if_true]
    exact readInt_signed (by omega) x
  · simp only [h, decide_false, if_false]
    exact readInt_unsigned _ x
theorem extended_eq (t : Nat) (z : Int) : extended t z = (typedResult t z).toNat := by
  have h0 := typeBytes_pos t
  have h1 := typeBytes_le t
  unfold extended typedResult typeWidth
  by_cases h : t < 4
  · simp only [h, if_true, wrapInt_eq]
    congr 1
    have : readInt true (8 * typeBytes t) (BitVec.ofInt (8 * typeBytes t) z).toNat = (BitVec.ofInt (8 * typeBytes t) z).toInt := by
      have h2 : (BitVec.ofInt (8 * typeBytes t) z).toNat = ((BitVec.ofInt (8 * typeBytes t) z).setWidth 64).toNat := by
        rw [BitVec.toNat_setWidth, Nat.mod_eq_of_lt]
        exact Nat.lt_of_lt_of_le (BitVec.isLt _) (Nat.pow_le_pow_right (by omega) (by omega))
      rw [h2, readInt_signed (by omega), BitVec.setWidth_setWidth_of_le _ (by omega), BitVec.setWidth_eq]
    rw [this]
    rfl
  · simp only [h, if_false, wrapInt_eq]
    rw [BitVec.toNat_setWidth, Nat.mod_eq_of_lt]
    exact Nat.lt_of_lt_of_le (BitVec.isLt _) (Nat.pow_le_pow_right (by omega) (by omega))
/-- Numbers that agree modulo 2^w give one result. -/
theorem typedResult_congr {t : Nat} {y z : Int} (h : y % ((2 ^ (8 * typeBytes t) : Nat) : Int) = z % ((2 ^ (8 * typeBytes t) : Nat) : Int)) :
    typedResult t y = typedResult t z := by
  have : BitVec.ofInt (8 * typeBytes t) y = BitVec.ofInt (8 * typeBytes t) z := by
    apply BitVec.eq_of_toNat_eq
    simpa [BitVec.toNat_ofInt] using congrArg Int.toNat h
  simp [typedResult, this]

end Sys2Proof.Machine
end

