-- ==== Sys2Proof/Laws/Vector.lean ====
section
/-! SUPPORT. Lanes of a register built from packed elements, and the words that share an issue form. -/
namespace Sys2Proof.Machine

/-- The element i of packed elements. -/
theorem ofPacked_elem (w : Nat) (es : List Nat) (i : Nat) : ofPacked w es / 2 ^ (w * i) % 2 ^ w = (es.getD i 0) % 2 ^ w := by
  induction es generalizing i with
  | nil => simp [ofPacked]
  | cons e es ih =>
    have hp : 0 < 2 ^ w := Nat.two_pow_pos w
    have h : ofPacked w (e :: es) = e % 2 ^ w + ofPacked w es * 2 ^ w := rfl
    rw [h]
    cases i with
    | zero => simp
    | succ i =>
      have h3 : 2 ^ (w * (i + 1)) = 2 ^ w * 2 ^ (w * i) := by rw [Nat.mul_succ, Nat.pow_add, Nat.mul_comm]
      rw [h3, ← Nat.div_div_eq_div_mul, Nat.add_mul_div_right _ _ hp, Nat.div_eq_of_lt (Nat.mod_lt _ hp), Nat.zero_add, ih]
      rfl
/-- Lane i of a register built from 32 lanes. -/
theorem vlane_ofPacked {es : List Nat} {i : Nat} (hi : i < 32) :
    vlane (BitVec.ofNat 1024 (ofPacked 32 es)) i = BitVec.ofNat 32 (es.getD i 0) := by
  apply BitVec.eq_of_toNat_eq
  have h1 : 2 ^ (32 * (32 - i)) * 2 ^ (32 * i) = 2 ^ 1024 := by rw [← Nat.pow_add]; congr 1; omega
  have hd : ofPacked 32 es % 2 ^ 1024 / 2 ^ (32 * i) % 2 ^ 32 = ofPacked 32 es / 2 ^ (32 * i) % 2 ^ 32 := by
    rw [← h1, Nat.mul_comm, Nat.mod_mul_right_div_self, Nat.mod_mod_of_dvd]
    exact Nat.pow_dvd_pow 2 (by omega)
  simp only [vlane, BitVec.extractLsb'_toNat, BitVec.toNat_ofNat, Nat.shiftRight_eq_div_pow]
  rw [hd, ofPacked_elem]
/-- Lane i of a governed result (R201). -/
theorem vlane_governed (p : BitVec 32) (old : VReg) (f : Nat → Nat) {i : Nat} (hi : i < 32) :
    vlane (BitVec.ofNat 1024 (governed p old f)) i = if p.getLsbD i then BitVec.ofNat 32 (f i) else vlane old i := by
  unfold governed
  rw [vlane_ofPacked hi]
  simp only [List.getD_eq_getElem?_getD, List.getElem?_map, List.getElem?_range hi, Option.map_some, Option.getD_some]
  split
  · rfl
  · simp [laneOf]

theorem issueBin_next {s : State} {i : Instr} {f : Word → Word → Nat} {lat : Nat} {d a b : BitVec 5}
    (h : AClear s i [.s a.toNat, .s b.toNat] [] false) :
    issueBin i f lat d a b s = .next ((s.markReads [.s a.toNat, .s b.toNat]).fixedWrite (.s d.toNat)
      (f (s.me.sReg a.toNat) (s.me.sReg b.toNat)) lat) := by
  unfold issueBin
  rw [issueA_next _ h]
  simp
theorem issueUn_next {s : State} {i : Instr} {f : Word → Nat} {lat : Nat} {d a : BitVec 5}
    (h : AClear s i [.s a.toNat] [] false) :
    issueUn i f lat d a s = .next ((s.markReads [.s a.toNat]).fixedWrite (.s d.toNat) (f (s.me.sReg a.toNat)) lat) := by
  unfold issueUn
  rw [issueA_next _ h]
  simp
/-- A governed word with two vector sources. -/
theorem issueVV_next {s : State} {i : Instr} {f : Nat → Val → Nat → Nat → Nat → Nat} {usesD : Bool} {t lat : Nat}
    {d a b : BitVec 6} {p : BitVec 3}
    (h : AClear s i (governedReads [.v a.toNat, .v b.toNat] p d usesD) [d.toNat, a.toNat, b.toNat] false) :
    issueVV i f usesD t lat d a b p s = .next ((s.markReads (governedReads [.v a.toNat, .v b.toNat] p d usesD)).fixedWrite
      (.v d.toNat) (governed (s.me.pReg p.toNat) (s.me.vReg d.toNat) (fun n => f t s.genF32 (laneOf (s.me.vReg a.toNat) n)
        (laneOf (s.me.vReg b.toNat) n) (laneOf (s.me.vReg d.toNat) n))) lat) := by
  unfold issueVV
  refine (issueA_next _ h).trans ?_
  simp
/-- A governed word whose second source is a scalar. -/
theorem issueVS_next {s : State} {i : Instr} {f : Nat → Val → Nat → Nat → Nat → Nat} {usesD : Bool} {t lat : Nat}
    {d a : BitVec 6} {b : BitVec 5} {p : BitVec 3}
    (h : AClear s i (governedReads [.v a.toNat, .s b.toNat] p d usesD) [d.toNat, a.toNat] false) :
    issueVS i f usesD t lat d a b p s = .next ((s.markReads (governedReads [.v a.toNat, .s b.toNat] p d usesD)).fixedWrite
      (.v d.toNat) (governed (s.me.pReg p.toNat) (s.me.vReg d.toNat) (fun n => f t s.genF32 (laneOf (s.me.vReg a.toNat) n)
        (f32Of (s.me.sReg b.toNat)) (laneOf (s.me.vReg d.toNat) n))) lat) := by
  unfold issueVS
  refine (issueA_next _ h).trans ?_
  simp
/-- A governed word with one vector source. -/
theorem issueV1_next {s : State} {i : Instr} {f : Nat → Val → Nat → Nat} {t lat : Nat} {d a : BitVec 6} {p : BitVec 3}
    (h : AClear s i (governedReads [.v a.toNat] p d false) [d.toNat, a.toNat] false) :
    issueV1 i f t lat d a p s = .next ((s.markReads (governedReads [.v a.toNat] p d false)).fixedWrite
      (.v d.toNat) (governed (s.me.pReg p.toNat) (s.me.vReg d.toNat)
        (fun n => f t s.genF32 (laneOf (s.me.vReg a.toNat) n))) lat) := by
  unfold issueV1
  refine (issueA_next _ h).trans ?_
  simp

end Sys2Proof.Machine
end

