-- ==== Sys2Proof/Tests/Slice0.lean ====
section
/-! SUPPORT. Our own tests: ill-formed terms, words written out from the encodings, one step of an instruction, and a witness
for every statement with hypotheses. Expected values come from the rules of spec/ that each test names, by hand. -/
set_option Elab.async false
set_option maxRecDepth 6000
namespace Sys2Proof.Tests
open Sys2Proof Sys2Proof.Machine

/-! ### Helpers -/

/-- A head without a wait (R75). -/
def h0 : CHead := { ln := false, wk := 0, wn := 3 }
/-- A C-slot word from its opcode and operands, without a wait (R75). -/
def cw (op : BitVec 7) (x : BitVec 18) : BitVec 32 := 0#1 ++ 0#4 ++ 3#2 ++ op ++ x
/-- An A-slot word from its opcode and operands (R78). -/
def aw (op : BitVec 7) (x : BitVec 25) : BitVec 32 := op ++ x
/-- A context that runs, below a boundary of 256 bytes. -/
def ctx0 : Ctx := { Ctx.reset with live := true, bound := 1 }
/-- A core that runs a task of household 1. -/
def core0 : CoreSt := ({ CoreSt.reset with hid := some 1 }).setCtx 0 ctx0
/-- Core 0 alone, with nothing else to do. -/
def at0 : State := { State.reset with cores := [(0, core0)], agenda := [] }
/-- The same with some scalar registers. -/
def atS (l : List (Nat × Nat)) : State := at0.onMe (fun c => l.foldl (fun c p => c.writeReg (.s p.1) p.2) c)
/-- The state that a step leaves, the one before it when it stops. -/
def after (o : Host.Outcome State Fault Refusal) : State :=
  match o with
  | .next t => t
  | .fault _ => at0
  | .refused _ => at0
/-- The results that a word queues for its context: register, value and latency (R101). -/
def queued (i : Instr) (s : State) : List FixedW := (after (exec i s)).me.fixed
/-- The cause with which a word traps, 0 when it does not (R373). -/
def cause (i : Instr) (s : State) : Nat :=
  match (after (exec i s)).latch with
  | .trapped c => c
  | _ => 0

/-- Every condition of `AClear`, as a check. -/
def aOk (s : State) (i : Instr) (srcs : List RegId) (vecs : List Nat) (r : Bool) : Bool :=
  i.wf && (!s.me.uwtrap || srcs.all (fun x => !s.me.isPending x)) && vecs.all (fun v => decide (v < s.me.quota)) &&
    (r || s.me.region.isNone)
theorem aClear {s : State} {i : Instr} {srcs : List RegId} {vecs : List Nat} {r : Bool} (h : aOk s i srcs vecs r = true) :
    AClear s i srcs vecs r := by
  simp only [aOk, Bool.and_eq_true, Bool.or_eq_true, Bool.not_eq_true', List.all_eq_true, decide_eq_true_eq,
    Option.isNone_iff_eq_none] at h
  obtain ⟨⟨⟨h1, h2⟩, h3⟩, h4⟩ := h
  exact ⟨h1, fun hu x hx => (h2.resolve_left (by simp [hu])) x hx, h3, h4⟩
/-- Every condition of `CClear`, as a check. -/
def cOk (s : State) (i : Instr) (hd : CHead) (srcs : List RegId) (vecs : List Nat) (ks : List (BitVec 4)) (tok : Option TokRef)
    (reqs mol : Nat) (r : Bool) : Bool :=
  s.me.waitMet hd && (hd.wn == 3 || !s.me.badToken hd.wk) && aOk s i srcs vecs r && ks.all (fun k => !s.me.badToken k) &&
    (match tok with
     | some t => decide (s.me.tok t < 63)
     | none => true) && (reqs == 0 || decide (s.me.orcCount + reqs ≤ 1023)) && !s.molShort mol
theorem cClear {s : State} {i : Instr} {hd : CHead} {srcs : List RegId} {vecs : List Nat} {ks : List (BitVec 4)}
    {tok : Option TokRef} {reqs mol : Nat} {r : Bool} (h : cOk s i hd srcs vecs ks tok reqs mol r = true) :
    CClear s i hd srcs vecs ks tok reqs mol r := by
  simp only [cOk, Bool.and_eq_true, Bool.or_eq_true, Bool.not_eq_true', List.all_eq_true, beq_iff_eq, decide_eq_true_eq] at h
  obtain ⟨⟨⟨⟨⟨⟨h1, h2⟩, h3⟩, h4⟩, h5⟩, h6⟩, h7⟩ := h
  have a := aClear h3
  refine ⟨h1, h2, a.wf, h4, a.reads, a.quota, a.region, ?_, h6, h7⟩
  intro t ht
  subst ht
  simpa using h5

/-! ### Ill-formed terms, one for each check of WellFormed -/

/-- R103: `dly 0`; R118: origins off the grid of each shape; R38: a quota above 32 registers; R126: a number that the map
skips; R83: scope 7; R243, R254: a form that no instruction has. -/
theorem test_wf_control : ∀ i ∈ ([.dly h0 0, .gang h0 0 1 0, .gang h0 1 2 1, .gang h0 2 1 0, .gang h0 3 0 1, .spawn h0 1 2 3 5,
    .getc h0 1 0x009, .setc h0 1 0x013, .fenceAcq h0 7, .fenceRel h0 7, .fenceAr h0 7, .ctap h0 1 2 3 4] : List Instr),
    i.wf = false := by decide
/-- R82, R94, R97, R98, R100: types that scalar instructions do not accept; R83: condition 6. -/
theorem test_wf_scalar : ∀ i ∈ ([.add 1 2 3 8, .sub 1 2 3 8, .mul 1 2 3 8, .mulh 1 2 3 9, .div 1 2 3 8, .rem 1 2 3 8, .and 1 2 3 8,
    .or 1 2 3 8, .xor 1 2 3 8, .shl 1 2 3 8, .shr 1 2 3 8, .sra 1 2 3 8, .min 1 2 3 8, .max 1 2 3 8, .cmp 1 6 2 3 2,
    .cmp 1 0 2 3 9, .clz 1 2 8, .popc 1 2 8, .cmpI 1 6 2 2 0, .cmpI 1 0 2 8 0, .fcvt 1 2 13 8, .fcvt 1 2 8 14] : List Instr),
    i.wf = false := by decide
/-- R200, R83, R209: types, conditions and operations that vector instructions do not accept. -/
theorem test_wf_vector : ∀ i ∈ ([.vadd 1 2 3 3 0, .vsub 1 2 3 9 0, .vmul 1 2 3 0 0, .vfma 1 2 3 2 0, .vfms 1 2 3 2 0, .vmin 1 2 3 0 0,
    .vmax 1 2 3 0 0, .vand 1 2 3 8 0, .vor 1 2 3 8 0, .vxor 1 2 3 8 0, .vshl 1 2 3 8 0, .vshr 1 2 3 8 0, .vclamp 1 2 3 0 0,
    .vperm 1 2 3 8 0, .vsel 1 2 3 8 0, .vcmp 1 6 2 3 2 0, .vcmp 1 0 2 3 0 0, .vabs 1 2 6 0, .vneg 1 2 6 0, .vrcp 1 2 2 0,
    .vrsqrt 1 2 2 0, .vexp2 1 2 2 0, .vlog2 1 2 2 0, .vcvt 1 2 14 8 0, .vcvt 1 2 8 3 0, .vred 1 2 3 8 0, .vred 1 2 6 2 0,
    .vsplat 1 2 7 0] : List Instr), i.wf = false := by decide
theorem test_wf_vector_scalar : ∀ i ∈ ([.vaddS 1 2 3 0 0, .vsubS 1 2 3 0 0, .vmulS 1 2 3 0 0, .vfmaS 1 2 3 2 0, .vfmsS 1 2 3 6 0,
    .vminS 1 2 3 0 0, .vmaxS 1 2 3 0 0, .vandS 1 2 3 8 0, .vorS 1 2 3 8 0, .vxorS 1 2 3 8 0, .vshlS 1 2 3 8 0, .vshrS 1 2 3 8 0,
    .vcmpS 1 7 2 3 2 0, .cReservedNop h0 0x7B 0, .aReservedNop 0x7F 0] : List Instr), i.wf = false := by decide

/-! ### Words written out from the layout tables (R75, R78, R84 to R87) -/

theorem test_decode_bare : ∀ q ∈ ([(0x01, .nop h0), (0x03, .yield h0), (0x04, .halt h0), (0x05, .ret h0), (0x06, .eret h0),
    (0x07, .gsplit h0), (0x08, .sync h0), (0x42, .ale h0)] : List (BitVec 7 × Instr)), decodeC (cw q.1 0#18) = .ok q.2 := by decide
theorem test_decode_control : decodeC (cw 0x02 (0#12 ++ 9#6)) = .ok (.dly h0 9) ∧
    decodeC (cw 0x09 (1#5 ++ 2#5 ++ 0#8)) = .ok (.syncT h0 1 2) ∧
    decodeC (cw 0x0A (1#2 ++ 2#2 ++ 2#2 ++ 0#12)) = .ok (.gang h0 1 2 2) ∧
    decodeC (cw 0x0B (5#4 ++ 63#6 ++ 0#8)) = .ok (.kwait h0 5 63) ∧
    decodeC (cw 0x0C (7#5 ++ 5#4 ++ 0#9)) = .ok (.ktst h0 7 5) ∧
    decodeC (cw 0x0D (1#5 ++ 2#5 ++ 3#5 ++ 4#3)) = .ok (.spawn h0 1 2 3 4) ∧
    decodeC (cw 0x0E (0#14 ++ 15#4)) = .ok (.rbRec h0 15) ∧
    decodeC (cw 0x0F (1#5 ++ 2#5 ++ 0#8)) = .ok (.rbRun h0 1 2) := by decide
theorem test_decode_transfers : (∀ q ∈ ([(0x10, .brT h0 5 0x7FFE), (0x11, .brF h0 5 0x7FFE), (0x12, .brAny h0 5 0x7FFE),
      (0x13, .brNone h0 5 0x7FFE)] : List (BitVec 7 × Instr)), decodeC (cw q.1 (5#3 ++ 0x7FFE#15)) = .ok q.2) ∧
    decodeC (cw 0x14 0x3FFFE#18) = .ok (.jmp h0 0x3FFFE) ∧ decodeC (cw 0x15 7#18) = .ok (.call h0 7) ∧
    decodeC (cw 0x16 (9#5 ++ 0x1FFF#13)) = .ok (.jal h0 9 0x1FFF) ∧ decodeC (cw 0x17 (9#5 ++ 0#13)) = .ok (.jr h0 9) ∧
    decodeC (cw 0x18 (0#10 ++ 0xA5#8)) = .ok (.trap h0 0xA5) := by decide
theorem test_decode_system : decodeC (cw 0x19 (3#5 ++ 77#13)) = .ok (.sig h0 3 77) ∧
    decodeC (cw 0x1A (3#5 ++ 0#1 ++ 0x030#12)) = .ok (.getc h0 3 0x030) ∧
    decodeC (cw 0x1B (3#5 ++ 0#1 ++ 0x010#12)) = .ok (.setc h0 3 0x010) ∧ decodeC (cw 0x1C (3#5 ++ 0#13)) = .ok (.gts h0 3) ∧
    decodeC (cw 0x1D (3#5 ++ 77#13)) = .ok (.tmark h0 3 77) ∧ decodeC (cw 0x1E (3#5 ++ 4#5 ++ 0#8)) = .ok (.ewait h0 3 4) ∧
    decodeC (cw 0x1F (3#5 ++ 4#5 ++ 0#8)) = .ok (.esig h0 3 4) := by decide
theorem test_decode_offsets : (∀ q ∈ ([(0x20, .ldb h0 1 2 0xFD), (0x21, .ldbN h0 1 2 0xFD), (0x22, .ldh h0 1 2 0xFD),
      (0x23, .ldhN h0 1 2 0xFD), (0x24, .ldw h0 1 2 0xFD), (0x25, .ldwN h0 1 2 0xFD), (0x26, .ldd h0 1 2 0xFD),
      (0x28, .stb h0 1 2 0xFD), (0x29, .sth h0 1 2 0xFD), (0x2A, .stw h0 1 2 0xFD), (0x2B, .std h0 1 2 0xFD),
      (0x2C, .take h0 1 2 0xFD), (0x2D, .give h0 1 2 0xFD)] : List (BitVec 7 × Instr)),
      decodeC (cw q.1 (1#5 ++ 2#5 ++ 0xFD#8)) = .ok q.2) ∧
    decodeC (cw 0x2E (1#1 ++ 0#4 ++ 2#5 ++ 0xFD#8)) = .ok (.feSet h0 1 2 0xFD) := by decide
theorem test_decode_indexed : ∀ q ∈ ([(0x30, .ldbX h0 1 2 3), (0x31, .ldbNX h0 1 2 3), (0x32, .ldhX h0 1 2 3), (0x33, .ldhNX h0 1 2 3),
      (0x34, .ldwX h0 1 2 3), (0x35, .ldwNX h0 1 2 3), (0x36, .lddX h0 1 2 3), (0x38, .stbX h0 1 2 3), (0x39, .sthX h0 1 2 3),
      (0x3A, .stwX h0 1 2 3), (0x3B, .stdX h0 1 2 3)] : List (BitVec 7 × Instr)),
      decodeC (cw q.1 (1#5 ++ 2#5 ++ 3#5 ++ 0#3)) = .ok q.2 := by decide
theorem test_decode_vector_memory : decodeC (cw 0x3C (33#6 ++ 2#5 ++ 0x7F#7)) = .ok (.ldv h0 33 2 0x7F) ∧
    decodeC (cw 0x3D (33#6 ++ 2#5 ++ 0x7F#7)) = .ok (.stv h0 33 2 0x7F) ∧
    decodeC (cw 0x3E (33#6 ++ 2#5 ++ 3#5 ++ 0#2)) = .ok (.ldvs h0 33 2 3) ∧
    decodeC (cw 0x3F (33#6 ++ 2#5 ++ 44#6 ++ 0#1)) = .ok (.ldvx h0 33 2 44) ∧
    decodeC (cw 0x40 (33#6 ++ 2#5 ++ 44#6 ++ 0#1)) = .ok (.stvx h0 33 2 44) ∧ decodeC (cw 0x41 (9#5 ++ 0#13)) = .ok (.alb h0 9) ∧
    decodeC (cw 0x43 (0#15 ++ 6#3)) = .ok (.fenceAcq h0 6) ∧ decodeC (cw 0x44 (0#15 ++ 1#3)) = .ok (.fenceRel h0 1) ∧
    decodeC (cw 0x45 (0#15 ++ 2#3)) = .ok (.fenceAr h0 2) ∧ decodeC (cw 0x46 (33#6 ++ 0#12)) = .ok (.inbx h0 33) ∧
    decodeC (cw 0x47 (33#6 ++ 1#5 ++ 2#5 ++ 0#2)) = .ok (.inbxT h0 33 1 2) := by decide
theorem test_decode_atomics : (∀ q ∈ ([(0x48, .amoAdd h0 1 2 3 2 1), (0x49, .amoMin h0 1 2 3 2 1), (0x4A, .amoMax h0 1 2 3 2 1),
      (0x4B, .amoAnd h0 1 2 3 2 1), (0x4C, .amoOr h0 1 2 3 2 1), (0x4D, .amoXor h0 1 2 3 2 1), (0x4E, .amoSwp h0 1 2 3 2 1),
      (0x4F, .amoCas h0 1 2 3 2 1)] : List (BitVec 7 × Instr)), decodeC (cw q.1 (1#5 ++ 2#5 ++ 3#5 ++ 2#2 ++ 1#1)) = .ok q.2) ∧
    (∀ q ∈ ([(0x50, .redAdd h0 2 3 2 1), (0x51, .redMin h0 2 3 2 1), (0x52, .redMax h0 2 3 2 1), (0x53, .redAnd h0 2 3 2 1),
      (0x54, .redOr h0 2 3 2 1), (0x55, .redXor h0 2 3 2 1)] : List (BitVec 7 × Instr)),
      decodeC (cw q.1 (0#5 ++ 2#5 ++ 3#5 ++ 2#2 ++ 1#1)) = .ok q.2) := by decide
theorem test_decode_token_words : ∀ q ∈ ([(0x58, .mxq h0 1 9), (0x62, .cscrub h0 1 9), (0x72, .sget h0 1 9), (0x73, .sput h0 1 9),
      (0x74, .sgat h0 1 9), (0x75, .sred h0 1 9), (0x76, .scol h0 1 9)] : List (BitVec 7 × Instr)),
      decodeC (cw q.1 (1#5 ++ 9#4 ++ 0#9)) = .ok q.2 := by decide
theorem test_decode_units : decodeC (cw 0x56 (1#5 ++ 33#6 ++ 9#4 ++ 0#3)) = .ok (.msend h0 1 33 9) ∧
    decodeC (cw 0x59 (5#3 ++ 1#5 ++ 2#5 ++ 9#4 ++ 0#1)) = .ok (.mma h0 5 1 2 9) ∧
    decodeC (cw 0x5A (5#3 ++ 0#15)) = .ok (.mzero h0 5) ∧ decodeC (cw 0x5B (33#6 ++ 5#3 ++ 1#5 ++ 9#4)) = .ok (.mrd h0 33 5 1 9) ∧
    decodeC (cw 0x5C (1#5 ++ 2#5 ++ 9#4 ++ 15#4)) = .ok (.mldB h0 1 2 9 15) ∧
    decodeC (cw 0x5D (1#5 ++ 2#5 ++ 9#4 ++ 0#4)) = .ok (.pmount h0 1 2 9) ∧
    decodeC (cw 0x66 (1#5 ++ 2#5 ++ 9#4 ++ 0#4)) = .ok (.previve h0 1 2 9) ∧
    decodeC (cw 0x60 (1#5 ++ 33#6 ++ 9#4 ++ 0#3)) = .ok (.cadd h0 1 33 9) ∧
    decodeC (cw 0x61 (33#6 ++ 1#5 ++ 9#4 ++ 3#3)) = .ok (.ctap h0 33 1 9 3) ∧
    decodeC (cw 0x63 (1#5 ++ 2#5 ++ 9#4 ++ 1#1 ++ 0#3)) = .ok (.cspill h0 1 2 9 1) ∧
    decodeC (cw 0x64 (1#5 ++ 2#5 ++ 9#4 ++ 1#1 ++ 0#3)) = .ok (.cfill h0 1 2 9 1) := by decide
/-- R242: form 1 of `cadd` names its tile in bits 12:10. -/
theorem test_decode_cadd_tile : decodeC (cw 0x60 (1#5 ++ 5#3 ++ 0#3 ++ 9#4 ++ 1#3)) = .ok (.caddTile h0 1 5 9) := by decide
theorem test_decode_one_address : (∀ q ∈ ([(0x5E, .punmount h0 2), (0x77, .pinit h0 2), (0x79, .pcmt h0 2), (0x7B, .prel h0 2)] :
      List (BitVec 7 × Instr)), decodeC (cw q.1 (0#5 ++ 2#5 ++ 0#8)) = .ok q.2) ∧
    (∀ q ∈ ([(0x5F, .pinfo h0 1 2), (0x65, .cinfo h0 1 2), (0x78, .pres h0 1 2), (0x7A, .pacq h0 1 2)] : List (BitVec 7 × Instr)),
      decodeC (cw q.1 (1#5 ++ 2#5 ++ 0#8)) = .ok q.2) := by decide
theorem test_decode_handles : decodeC (cw 0x68 (1#4 ++ 2#5 ++ 3#5 ++ 0#4)) = .ok (.hnew h0 1 2 3) ∧
    decodeC (cw 0x69 (1#4 ++ 2#4 ++ 0#10)) = .ok (.hmov h0 1 2) ∧
    decodeC (cw 0x6A (3#2 ++ 1#4 ++ 2#4 ++ 4#4 ++ 5#4)) = .ok (.hsplit h0 3 1 2 4 5) ∧
    decodeC (cw 0x6B (1#4 ++ 2#4 ++ 4#4 ++ 9#4 ++ 0#2)) = .ok (.hjoin h0 1 2 4 9) ∧
    decodeC (cw 0x6C (1#4 ++ 2#5 ++ 0#9)) = .ok (.hsend h0 1 2) ∧ decodeC (cw 0x6D (1#4 ++ 0#14)) = .ok (.hrecv h0 1) ∧
    decodeC (cw 0x6E (1#5 ++ 2#4 ++ 6#3 ++ 0#6)) = .ok (.hinfo h0 1 2 6) ∧ decodeC (cw 0x6F (1#4 ++ 0#14)) = .ok (.hfree h0 1) ∧
    decodeC (cw 0x70 (33#6 ++ 2#4 ++ 3#5 ++ 0#3)) = .ok (.hldv h0 33 2 3) ∧
    decodeC (cw 0x71 (33#6 ++ 2#4 ++ 3#5 ++ 0#3)) = .ok (.hstv h0 33 2 3) ∧
    decodeC (cw 0x7C 0x2ABCD#18) = .ok (.cReservedNop h0 0x7C 0x2ABCD) := by decide
theorem test_decode_scalar : (∀ q ∈ ([(0x02, .add 1 2 3 6), (0x03, .sub 1 2 3 6), (0x04, .mul 1 2 3 6), (0x05, .mulh 1 2 3 6),
      (0x06, .div 1 2 3 6), (0x07, .rem 1 2 3 6), (0x08, .and 1 2 3 6), (0x09, .or 1 2 3 6), (0x0A, .xor 1 2 3 6), (0x0B, .shl 1 2 3 6),
      (0x0C, .shr 1 2 3 6), (0x0D, .sra 1 2 3 6), (0x0E, .min 1 2 3 6), (0x0F, .max 1 2 3 6)] : List (BitVec 7 × Instr)),
      decodeA (aw q.1 (1#5 ++ 2#5 ++ 3#5 ++ 6#4 ++ 0#6)) = .ok q.2) ∧
    decodeA (aw 0x01 0#25) = .ok .aNop ∧ decodeA (aw 0x10 (1#3 ++ 5#3 ++ 2#5 ++ 3#5 ++ 8#4 ++ 0#5)) = .ok (.cmp 1 5 2 3 8) ∧
    decodeA (aw 0x11 (1#5 ++ 2#5 ++ 3#5 ++ 7#3 ++ 0#7)) = .ok (.sel 1 2 3 7) ∧
    decodeA (aw 0x12 (1#5 ++ 2#5 ++ 0#5 ++ 6#4 ++ 0#6)) = .ok (.clz 1 2 6) ∧
    decodeA (aw 0x13 (1#5 ++ 2#5 ++ 0#5 ++ 6#4 ++ 0#6)) = .ok (.popc 1 2 6) ∧
    decodeA (aw 0x14 (1#5 ++ 0xABCDE#20)) = .ok (.lih 1 0xABCDE) := by decide
theorem test_decode_immediates : (∀ q ∈ ([(0x15, .adr 1 2 0x7FFD), (0x18, .andI 1 2 0x7FFD), (0x19, .orI 1 2 0x7FFD),
      (0x1A, .xorI 1 2 0x7FFD), (0x1E, .minI 1 2 0x7FFD), (0x1F, .maxI 1 2 0x7FFD)] : List (BitVec 7 × Instr)),
      decodeA (aw q.1 (1#5 ++ 2#5 ++ 0x7FFD#15)) = .ok q.2) ∧
    (∀ q ∈ ([(0x1B, .shlI 1 2 63), (0x1C, .shrI 1 2 63), (0x1D, .sraI 1 2 63)] : List (BitVec 7 × Instr)),
      decodeA (aw q.1 (1#5 ++ 2#5 ++ 0#9 ++ 63#6)) = .ok q.2) ∧
    decodeA (aw 0x20 (1#3 ++ 2#3 ++ 3#5 ++ 6#4 ++ 0x3FF#10)) = .ok (.cmpI 1 2 3 6 0x3FF) := by decide
theorem test_decode_float : decodeA (aw 0x21 (1#5 ++ 2#5 ++ 3#5 ++ 0#10)) = .ok (.faddF32 1 2 3) ∧
    decodeA (aw 0x22 (1#5 ++ 2#5 ++ 3#5 ++ 0#10)) = .ok (.fmulF32 1 2 3) ∧
    decodeA (aw 0x23 (1#5 ++ 2#5 ++ 3#5 ++ 4#5 ++ 0#5)) = .ok (.ffmaF32 1 2 3 4) ∧
    decodeA (aw 0x24 (1#5 ++ 2#5 ++ 8#4 ++ 15#4 ++ 0#7)) = .ok (.fcvt 1 2 8 15) ∧
    decodeA (aw 0x28 (1#3 ++ 2#5 ++ 0#17)) = .ok (.pset 1 2) ∧ decodeA (aw 0x29 (1#3 ++ 2#3 ++ 3#3 ++ 0#16)) = .ok (.pand 1 2 3) ∧
    decodeA (aw 0x2A (1#3 ++ 2#3 ++ 3#3 ++ 0#16)) = .ok (.por 1 2 3) ∧ decodeA (aw 0x2B (1#3 ++ 2#3 ++ 0#19)) = .ok (.pnot 1 2) ∧
    decodeA (aw 0x7E 0x1ABCDEF#25) = .ok (.aReservedNop 0x7E 0x1ABCDEF) := by decide
theorem test_decode_vector : ∀ q ∈ ([(0x30, 8, .vadd 1 2 3 8 4), (0x31, 8, .vsub 1 2 3 8 4), (0x32, 8, .vmul 1 2 3 8 4),
      (0x33, 8, .vfma 1 2 3 8 4), (0x34, 8, .vfms 1 2 3 8 4), (0x35, 8, .vmin 1 2 3 8 4), (0x36, 8, .vmax 1 2 3 8 4),
      (0x37, 6, .vand 1 2 3 6 4), (0x38, 6, .vor 1 2 3 6 4), (0x39, 6, .vxor 1 2 3 6 4), (0x3A, 6, .vshl 1 2 3 6 4),
      (0x3B, 6, .vshr 1 2 3 6 4), (0x3C, 8, .vclamp 1 2 3 8 4), (0x3D, 6, .vperm 1 2 3 6 4), (0x3E, 0, .vdotI8 1 2 3 4),
      (0x3F, 2, .vsel 1 2 3 2 4)] : List (BitVec 7 × BitVec 4 × Instr)),
      decodeA (aw q.1 (1#6 ++ 2#6 ++ 3#6 ++ q.2.1 ++ 4#3)) = .ok q.2.2 := by decide
theorem test_decode_vector_scalar : ∀ q ∈ ([(0x50, 8, .vaddS 1 2 3 8 4), (0x51, 8, .vsubS 1 2 3 8 4), (0x52, 8, .vmulS 1 2 3 8 4),
      (0x53, 8, .vfmaS 1 2 3 8 4), (0x54, 8, .vfmsS 1 2 3 8 4), (0x55, 8, .vminS 1 2 3 8 4), (0x56, 8, .vmaxS 1 2 3 8 4),
      (0x57, 6, .vandS 1 2 3 6 4), (0x58, 6, .vorS 1 2 3 6 4), (0x59, 6, .vxorS 1 2 3 6 4), (0x5A, 6, .vshlS 1 2 3 6 4),
      (0x5B, 6, .vshrS 1 2 3 6 4)] : List (BitVec 7 × BitVec 4 × Instr)),
      decodeA (aw q.1 (1#6 ++ 2#6 ++ 3#5 ++ 0#1 ++ q.2.1 ++ 4#3)) = .ok q.2.2 := by decide
theorem test_decode_vector_rest : (∀ q ∈ ([(0x41, .vabs 1 2 8 4), (0x42, .vneg 1 2 8 4), (0x43, .vrcp 1 2 8 4), (0x44, .vrsqrt 1 2 8 4),
      (0x45, .vexp2 1 2 8 4), (0x46, .vlog2 1 2 8 4)] : List (BitVec 7 × Instr)),
      decodeA (aw q.1 (1#6 ++ 2#6 ++ 0#6 ++ 8#4 ++ 4#3)) = .ok q.2) ∧
    decodeA (aw 0x40 (1#3 ++ 5#3 ++ 2#6 ++ 3#6 ++ 8#4 ++ 4#3)) = .ok (.vcmp 1 5 2 3 8 4) ∧
    decodeA (aw 0x5C (1#3 ++ 5#3 ++ 2#6 ++ 3#5 ++ 0#1 ++ 8#4 ++ 4#3)) = .ok (.vcmpS 1 5 2 3 8 4) ∧
    decodeA (aw 0x47 (1#6 ++ 2#6 ++ 9#4 ++ 8#4 ++ 0#2 ++ 4#3)) = .ok (.vcvt 1 2 9 8 4) ∧
    decodeA (aw 0x48 (1#6 ++ 2#6 ++ 2#3 ++ 0#3 ++ 8#4 ++ 4#3)) = .ok (.vred 1 2 2 8 4) ∧
    decodeA (aw 0x49 (1#6 ++ 2#6 ++ 31#5 ++ 0#5 ++ 4#3)) = .ok (.vbcast 1 2 31 4) ∧
    decodeA (aw 0x4A (1#6 ++ 2#5 ++ 0#7 ++ 9#4 ++ 4#3)) = .ok (.vsplat 1 2 9 4) ∧
    decodeA (aw 0x4B (1#5 ++ 2#6 ++ 31#5 ++ 0#9)) = .ok (.vext 1 2 31) ∧
    decodeA (aw 0x4C (1#6 ++ 2#5 ++ 31#5 ++ 0#9)) = .ok (.vins 1 2 31) := by decide
/-- R75: L, WK and WN. R91: a "0" range that is not zero, a type, a scope and a control register that no rule gives. -/
theorem test_decode_head : decodeC (1#1 ++ 7#4 ++ 2#2 ++ 0x04#7 ++ 0#18) = .ok (.halt { ln := true, wk := 7, wn := 2 }) ∧
    decodeC (cw 0x04 1#18) ≠ .ok (.halt h0) ∧ decodeC (cw 0x43 (0#15 ++ 7#3)) = .error .illegalField ∧
    decodeC (cw 0x1A (3#5 ++ 0#1 ++ 0x009#12)) = .error .illegalField ∧ decodeA (aw 0x02 (1#5 ++ 2#5 ++ 3#5 ++ 8#4 ++ 0#6)) = .error .illegalField := by
  decide

/-! ### One step of an instruction -/

/-- R94: the wrap of a signed and of an unsigned byte, extended as the type says, with latency 1. -/
theorem test_add_wraps : queued (.add 1 2 3 0) (atS [(2, 127), (3, 1)]) = [⟨.s 1, 0xFFFFFFFFFFFFFF80, 1⟩] ∧
    queued (.add 1 2 3 4) (atS [(2, 255), (3, 1)]) = [⟨.s 1, 0, 1⟩] := by decide
theorem test_sub_wraps : queued (.sub 1 2 3 6) (atS [(2, 0), (3, 1)]) = [⟨.s 1, 0xFFFFFFFF, 1⟩] := by decide
/-- R94: the low and the high words of (2^64 - 1) squared. -/
theorem test_mul_low : queued (.mul 1 2 3 7) (atS [(2, 2 ^ 64 - 1), (3, 2 ^ 64 - 1)]) = [⟨.s 1, 1, 3⟩] := by decide
theorem test_mulh_sign : queued (.mulh 1 2 3 7) (atS [(2, 2 ^ 64 - 1), (3, 2 ^ 64 - 1)]) = [⟨.s 1, 2 ^ 64 - 2, 3⟩] ∧
    queued (.mulh 1 2 3 3) (atS [(2, 2 ^ 64 - 1), (3, 2 ^ 64 - 1)]) = [⟨.s 1, 0, 3⟩] := by decide
/-- R94: division truncates toward zero; by 0 it gives -1; the most negative number by -1 gives itself. -/
theorem test_div_corners : queued (.div 1 2 3 3) (atS [(2, 2 ^ 64 - 7), (3, 2)]) = [⟨.s 1, 2 ^ 64 - 3, 18⟩] ∧
    queued (.div 1 2 3 6) (atS [(2, 5)]) = [⟨.s 1, 2 ^ 32 - 1, 18⟩] ∧
    queued (.div 1 2 3 0) (atS [(2, 0x80), (3, 0xFF)]) = [⟨.s 1, 2 ^ 64 - 128, 18⟩] := by decide
theorem test_rem_corners : queued (.rem 1 2 3 3) (atS [(2, 2 ^ 64 - 7), (3, 2)]) = [⟨.s 1, 2 ^ 64 - 1, 18⟩] ∧
    queued (.rem 1 2 3 0) (atS [(2, 0x80), (3, 0xFF)]) = [⟨.s 1, 0, 18⟩] := by decide
theorem test_logic : queued (.and 1 2 3 7) (atS [(2, 12), (3, 10)]) = [⟨.s 1, 8, 1⟩] ∧
    queued (.or 1 2 3 7) (atS [(2, 12), (3, 10)]) = [⟨.s 1, 14, 1⟩] ∧
    queued (.xor 1 2 3 7) (atS [(2, 12), (3, 10)]) = [⟨.s 1, 6, 1⟩] := by decide
/-- R94: the amount of a shift is taken modulo the width of the type. -/
theorem test_shifts : queued (.shl 1 2 3 4) (atS [(2, 0xFF), (3, 9)]) = [⟨.s 1, 0xFE, 1⟩] ∧
    queued (.shr 1 2 3 0) (atS [(2, 0x80), (3, 8)]) = [⟨.s 1, 2 ^ 64 - 128, 1⟩] ∧
    queued (.sra 1 2 3 4) (atS [(2, 0x80), (3, 7)]) = [⟨.s 1, 0xFF, 1⟩] := by decide
theorem test_min_max_signs : queued (.min 1 2 3 0) (atS [(2, 0xFF), (3, 1)]) = [⟨.s 1, 2 ^ 64 - 1, 1⟩] ∧
    queued (.max 1 2 3 4) (atS [(2, 0xFF), (3, 1)]) = [⟨.s 1, 0xFF, 1⟩] := by decide
/-- R95: S15 is sign-extended. R96: `lih` and `adr`. R80: a write of s0 is discarded. -/
theorem test_immediates : queued (.andI 1 2 0x7FFE) (atS [(2, 2 ^ 64 - 1)]) = [⟨.s 1, 2 ^ 64 - 2, 1⟩] ∧
    queued (.sraI 1 2 63) (atS [(2, 2 ^ 63)]) = [⟨.s 1, 2 ^ 64 - 1, 1⟩] ∧
    queued (.minI 1 2 0x7FFF) (atS [(2, 3)]) = [⟨.s 1, 2 ^ 64 - 1, 1⟩] ∧ queued (.lih 1 0xFFFFF) at0 = [⟨.s 1, 0xFFFFF000, 1⟩] ∧
    queued (.adr 1 2 0x7FFF) at0 = [⟨.s 1, 2 ^ 64 - 1, 1⟩] ∧ queued (.adr 0 2 1) at0 = [] := by decide
/-- R97, R98: a comparison sets every lane; `clz` of 0 is the width; `popc` counts the low bits. -/
theorem test_compare_and_count : queued (.cmp 1 2 2 3 0) (atS [(2, 0xFF), (3, 1)]) = [⟨.p 1, 0xFFFFFFFF, 1⟩] ∧
    queued (.cmp 1 2 2 3 4) (atS [(2, 0xFF), (3, 1)]) = [⟨.p 1, 0, 1⟩] ∧ queued (.cmpI 1 0 2 3 0x3FF) (atS [(2, 2 ^ 64 - 1)]) =
      [⟨.p 1, 0xFFFFFFFF, 1⟩] ∧ queued (.clz 1 2 5) at0 = [⟨.s 1, 16, 1⟩] ∧ queued (.popc 1 2 4) (atS [(2, 0xF0F)]) = [⟨.s 1, 4, 1⟩] ∧
    queued (.sel 1 2 3 1) (atS [(2, 7), (3, 9)]) = [⟨.s 1, 9, 1⟩] := by decide
/-- R99: 1 + 2 = 3, 2 · 3 = 6, 2 · 3 + 1 = 7; R100: 2^24 + 1 rounds to 2^24, 2.5 to 2. -/
theorem test_float : queued (.faddF32 1 2 3) (atS [(2, 0x3F800000), (3, 0x40000000)]) = [⟨.s 1, 0x40400000, 4⟩] ∧
    queued (.fmulF32 1 2 3) (atS [(2, 0x40000000), (3, 0x40400000)]) = [⟨.s 1, 0x40C00000, 4⟩] ∧
    queued (.ffmaF32 1 2 3 4) (atS [(2, 0x40000000), (3, 0x40400000), (4, 0x3F800000)]) = [⟨.s 1, 0x40E00000, 4⟩] := by decide
theorem test_convert : queued (.fcvt 1 2 8 2) (atS [(2, 16777217)]) = [⟨.s 1, 0x4B800000, 2⟩] ∧
    queued (.fcvt 1 2 2 8) (atS [(2, 0x40200000)]) = [⟨.s 1, 2, 2⟩] := by decide
/-- R201, R210: a governed word keeps the lanes that its predicate leaves out. -/
def lanes1 : State := at0.onMe (fun c => ((c.writeReg (.v 2) (2 ^ 32 * 5 + 7)).writeReg (.v 1) 99).writeReg (.p 1) 2)
theorem test_vadd_lanes : queued (.vaddS 1 2 3 2 1) (lanes1.onMe (fun c => c.writeReg (.s 3) 10)) = [⟨.v 1, 2 ^ 32 * 15 + 99, 2⟩] := by decide
theorem test_vext_vins : queued (.vext 4 2 1) lanes1 = [⟨.s 4, 5, 2⟩] ∧
    queued (.vins 1 3 1) (lanes1.onMe (fun c => c.writeReg (.s 3) 10)) = [⟨.v 1, 2 ^ 32 * 10 + 99, 2⟩] := by decide
theorem test_predicates : queued (.pset 1 2) (atS [(2, 2 ^ 32 + 6)]) = [⟨.p 1, 6, 1⟩] ∧ queued (.pnot 2 1) lanes1 = [⟨.p 2, 2 ^ 32 - 3, 1⟩] ∧
    queued (.pand 2 0 1) lanes1 = [⟨.p 2, 2, 1⟩] ∧ queued (.por 2 0 1) lanes1 = [⟨.p 2, 2 ^ 32 - 1, 1⟩] := by decide
/-- R136: a byte load extends its sign, with latency 3; R132, R134, R373: misaligned, below the boundary, outside every class. -/
def stored : State := (atS [(2, 512), (3, 0x80)]).onHere (fun x => x.putLs 511 2 0x80FF)
theorem test_loads : queued (.ldb h0 1 2 0) stored = [⟨.s 1, 2 ^ 64 - 128, 3⟩] ∧ queued (.ldbN h0 1 2 0xFF) stored = [⟨.s 1, 255, 3⟩] := by decide
theorem test_access_traps : cause (.ldd h0 1 3 0) at0 = 5 ∧ cause (.ldh h0 1 2 0) (atS [(2, 513)]) = 4 ∧
    cause (.stb h0 1 2 0) (atS [(2, 0x60000)]) = 5 ∧ cause (.take h0 1 2 0) (atS [(2, 516)]) = 4 := by decide
/-- R136, R135: a store writes its low bytes, the least significant at the lowest address. -/
theorem test_store : (after (exec (.sth h0 3 2 1) (atS [(2, 512), (3, 0xABCD1234)]))).here.ls = [(514, 0x34), (515, 0x12)] := by decide
/-- R142, R143: a local `amo` writes at once and answers later; `red` answers nothing. -/
theorem test_atomics : (after (exec (.amoMin h0 1 2 3 0 0) stored)).here.ls = [(511, 0xFF), (512, 0x80)] ∧
    (after (exec (.amoAdd h0 1 2 3 0 0) stored)).here.ls = [(511, 0xFF)] ∧
    (after (exec (.redAdd h0 2 3 1 0) stored)).here.ls = [(511, 0xFF), (513, 1)] := by decide
/-- R138 to R141: `give` fills a word and `take` waits on an empty one. -/
theorem test_full_empty : (after (exec (.give h0 3 2 0) (stored.onHere (fun x => x.setFe 64 false)))).here.feEmpty = [] ∧
    (after (exec (.take h0 1 2 0) (stored.onHere (fun x => x.setFe 64 false)))).me.wait = .take 512 := by decide
/-- R109, R110, R111: targets are 4-byte steps from the branch word; `call` links to the next C-slot position. -/
def atPc (n : Nat) : State := at0.onMe (fun c => { c with pc := BitVec.ofNat 64 n, npc := BitVec.ofNat 64 (n + 8) })
theorem test_transfers : (after (exec (.jmp h0 0x3FFFE) (atPc 64))).me.npc = 56 ∧ (after (exec (.brT h0 0 4) (atPc 64))).me.npc = 80 ∧
    (after (exec (.brF h0 0 4) (atPc 64))).me.npc = 72 ∧ queued (.call { h0 with ln := true } 4) (atPc 64) = [⟨.s 31, 68, 1⟩] ∧
    queued (.jal h0 5 4) (atPc 64) = [⟨.s 5, 72, 1⟩] := by decide
theorem test_call_owns_tokens : cause (.call h0 4) (at0.onMe (fun c => { c with k := c.k.set 7 1 })) = 9 ∧
    cause (.call h0 4) (at0.onMe (fun c => { c with k := c.k.set 8 1 })) = 0 := by decide
/-- R112, R374, R372: `trap` saves the next position and its code, clears the trap tokens and enters the handler. -/
def trapped : Ctx := (after (exec (.trap h0 0xA5) ((atPc 64).onMe (fun c => { c with ovh := 16, t := c.t.set 1 3 })))).me
theorem test_trap : trapped.epc = 72 ∧ trapped.einfo = 0xA5 ∧ trapped.npc = 128 ∧ trapped.inh = true ∧ trapped.tok (.t 1) = 0 ∧
    trapped.ecause.toNat % 256 = 26 := by decide
/-- R114, R77: `eret` goes back to EPC; outside a handler it is illegal. -/
theorem test_eret : (after (exec (.eret h0) (at0.onMe (fun c => { c with inh := true, epc := 200 })))).me.npc = 200 ∧
    cause (.eret h0) at0 = 1 := by decide
/-- R104, R129, R38, R107: a token at 63, a full ORC, a register at the quota, a pending register under UWTRAP. -/
theorem test_precise_traps : cause (.msend h0 2 3 1) ((atS [(2, 512)]).onMe (fun c => { c with k := c.k.set 1 63 })) = 8 ∧
    cause (.sig h0 2 5) (at0.onMe (fun c => { c with out := List.range 1023 })) = 10 ∧
    cause (.vext 1 8 0) (at0.onMe (fun c => { c with quota := 8 })) = 11 ∧
    cause (.add 1 2 3 3) (at0.onMe (fun c => { c with uwtrap := true, pend := [.s 2] })) = 7 := by decide
/-- R38, R115: with no register left in the pool `spawn` gives 0; otherwise the lowest free helper. -/
theorem test_spawn : queued (.spawn h0 1 2 3 1) at0 = [⟨.s 1, 1, 2⟩] ∧ cause (.spawn h0 1 2 3 1) (at0.onMe (fun c => { c with ctxNo := 2 })) = 12 := by
  decide
/-- R122: field by field; R43: LEVEL is not written with 7; R105, R106: tokens. -/
theorem test_system : (after (exec (.setc h0 2 2) (atS [(2, 3)]))).me.level = 3 ∧ (after (exec (.setc h0 2 2) (atS [(2, 7)]))).me.level = 0 ∧
    queued (.ktst h0 1 5) (at0.onMe (fun c => { c with k := c.k.set 5 9 })) = [⟨.s 1, 9, 1⟩] ∧
    (after (exec (.kwait h0 5 8) (at0.onMe (fun c => { c with k := c.k.set 5 9 })))).latch = .waits false := by decide
/-- R76, R71, N29, N43: a step fetches the pair that stands at the pc of the context and runs it; an all-zero word traps (R89). -/
def fetched (w : Nat) : State := after (step (State.reset.withFetchWord 32 w))
def paired (c a : Nat) : State :=
  after (step ((State.reset.withFetchWord 32 c).onHere (fun x => { x with ls := (x.ls.writeN 0 4 c).writeN 4 4 a })))
theorem test_step_runs : (paired 0x06040000 0x2AA02000).me.fixed = [⟨.s 10, 0x2000, 1⟩] ∧ (paired 0x06040000 0x2AA02000).me.pc = 8 ∧
    (paired 0x06407FFE 0x2B4A0001).me.pc = BitVec.ofInt 64 (-8) ∧ (paired 0x06407FFE 0x2B4A0001).me.fixed = [⟨.s 20, 1, 1⟩] := by decide
theorem test_step_fetches : (fetched 0x0653FFFF).me.pc = BitVec.ofInt 64 (-4) ∧ (fetched 0x04000000).me.pc = 8 ∧
    (fetched 0).me.ecause.toNat % 256 = 1 := by decide

/-! ### Witnesses: a state and operands that meet the hypotheses of each statement

Each names its obligation; where the clauses of a statement have hypotheses of their own, it has a part for each. -/

/-- Scalar registers with values at the edges of their types. -/
def edges : State := atS [(2, 2 ^ 63), (3, 2 ^ 64 - 1), (4, 0x7F800000)]
theorem witness_ScalarArithmeticResults : ∀ i ∈ ([.add 1 2 3 7, .sub 1 2 3 0, .mul 1 2 3 2, .mulh 1 2 3 3, .div 1 2 3 3, .rem 1 2 3 3,
    .and 1 2 3 7, .or 1 2 3 7, .xor 1 2 3 7, .shl 1 2 3 3, .shr 1 2 3 3, .sra 1 2 3 3, .min 1 2 3 3, .max 1 2 3 7] : List Instr),
    AClear edges i [.s 2, .s 3] [] false :=
  fun i hi => aClear ((by decide : ∀ i ∈ _, aOk edges i [.s 2, .s 3] [] false = true) i hi)
theorem witness_ScalarImmediateResults : (∀ i ∈ ([.andI 1 2 0x4000, .orI 1 2 0x4000, .xorI 1 2 0x4000, .minI 1 2 0x4000, .maxI 1 2 0x4000,
    .shlI 1 2 63, .shrI 1 2 63, .sraI 1 2 63, .adr 1 2 0x3FFF] : List Instr), AClear edges i [.s 2] [] false) ∧
    AClear edges (.lih 1 0xFFFFF) [] [] false :=
  ⟨fun i hi => aClear ((by decide : ∀ i ∈ _, aOk edges i [.s 2] [] false = true) i hi), aClear (by decide)⟩
/-- An unordered comparison on equal numbers, a signed one on -1 and 0, an immediate one. -/
theorem witness_ScalarCompareAndSelectResults : AClear edges (.cmp 1 5 2 2 3) [.s 2, .s 2] [] false ∧
    ¬ holdsOf 1 (typedOperand 3 (edges.me.sReg 2)) (typedOperand 3 (edges.me.sReg 2)) ∧
    AClear edges (.cmpI 1 2 3 3 0) [.s 3] [] false ∧ AClear edges (.sel 1 2 3 0) [.p 0, .s 2, .s 3] [] false ∧
    AClear edges (.clz 1 2 3) [.s 2] [] false ∧ AClear edges (.popc 1 3 3) [.s 3] [] false ∧
    AClear edges (.cmp 1 5 4 4 8) [.s 4, .s 4] [] false :=
  ⟨aClear (by decide), by simp [holdsOf], aClear (by decide), aClear (by decide), aClear (by decide), aClear (by decide), aClear (by decide)⟩
theorem witness_ScalarFloatResults : AClear edges (.faddF32 1 4 4) [.s 4, .s 4] [] false ∧ AClear edges (.fmulF32 1 4 0) [.s 4, .s 0] [] false ∧
    AClear edges (.ffmaF32 1 4 4 4) [.s 4, .s 4, .s 4] [] false ∧
    AClear edges (.fcvt 1 4 0 8) [.s 4] [] false :=
  ⟨ aClear (by decide), aClear (by decide), aClear (by decide), aClear (by decide)⟩
/-- p0 and v0 as sources, which read no vD; a predicate that is not p0, and a word that uses d, do. -/
theorem witness_VectorTwoSourceResults : AClear at0 (.vadd 63 2 3 2 0) (governedReads [.v 2, .v 3] 0 63 false) [63, 2, 3] false ∧
    AClear at0 (.vfma 63 2 3 8 7) (governedReads [.v 2, .v 3] 7 63 true) [63, 2, 3] false ∧
    AClear at0 (.vclamp 1 2 3 6 1) (governedReads [.v 2, .v 3] 1 1 true) [1, 2, 3] false ∧
    AClear at0 (.vdotI8 1 2 3 1) (governedReads [.v 2, .v 3] 1 1 true) [1, 2, 3] false ∧
    AClear at0 (.vshrS 1 2 3 2 1) (governedReads [.v 2, .s 3] 1 1 false) [1, 2] false :=
  ⟨aClear (by decide), aClear (by decide), aClear (by decide), aClear (by decide), aClear (by decide)⟩
theorem witness_VectorOneSourceResults : ∀ i ∈ ([.vabs 1 63 2 3, .vneg 1 63 8 3, .vrcp 1 63 8 3, .vrsqrt 1 63 8 3, .vexp2 1 63 8 3,
    .vlog2 1 63 8 3] : List Instr), AClear at0 i (governedReads [.v 63] 3 1 false) [1, 63] false :=
  fun i hi => aClear ((by decide : ∀ i ∈ _, aOk at0 i (governedReads [.v 63] 3 1 false) [1, 63] false = true) i hi)
theorem witness_VectorMoveResults : AClear at0 (.vperm 1 2 3 2 1) (governedReads [.v 2, .v 3] 1 1 false) [1, 2, 3] false ∧
    AClear at0 (.vsel 1 2 3 6 7) [.v 2, .v 3, .p 7] [1, 2, 3] false ∧ AClear at0 (.vbcast 1 2 31 0) (governedReads [.v 2] 0 1 false) [1, 2] false ∧
    AClear at0 (.vsplat 1 3 13 0) (governedReads [.s 3] 0 1 false) [1] false ∧ AClear at0 (.vins 1 3 31) [.s 3, .v 1] [1] false ∧
    AClear at0 (.vext 3 1 31) [.v 1] [1] false :=
  ⟨aClear (by decide), aClear (by decide), aClear (by decide), aClear (by decide), aClear (by decide), aClear (by decide)⟩
theorem witness_PredicateResults : AClear at0 (.vcmp 1 5 2 3 8 0) [.v 2, .v 3, .p 0] [2, 3] false ∧
    AClear at0 (.vcmpS 1 0 2 3 6 7) [.v 2, .s 3, .p 7] [2] false ∧ AClear at0 (.pset 0 3) [.s 3] [] false ∧
    AClear at0 (.pand 1 0 7) [.p 0, .p 7] [] false ∧ AClear at0 (.por 1 0 7) [.p 0, .p 7] [] false ∧ AClear at0 (.pnot 1 0) [.p 0] [] false :=
  ⟨aClear (by decide), aClear (by decide), aClear (by decide), aClear (by decide), aClear (by decide), aClear (by decide)⟩
theorem witness_VectorConvertAndReduceResults : AClear at0 (.vcvt 1 2 11 8 1) (governedReads [.v 2] 1 1 false) [1, 2] false ∧
    AClear at0 (.vred 1 2 5 2 7) [.v 2, .p 7] [1, 2] false := ⟨aClear (by decide), aClear (by decide)⟩

/-- Tokens at counts of 9. -/
def tokens : State := at0.onMe (fun c => { c with k := c.k.set 5 9 })
/-- A handler that has no token owed. -/
def handler : State := at0.onMe (fun c => { c with inh := true, epc := 200 })
theorem witness_PlainWordResults : CClear at0 (.nop h0) h0 [] [] [] none 0 0 true ∧
    CClear at0 (.cReservedNop h0 0x7E 5) h0 [] [] [] none 0 0 true ∧ AClear at0 .aNop [] [] true ∧
    AClear at0 (.aReservedNop 0x7C 9) [] [] true ∧ CClear at0 (.dly h0 63) h0 [] [] [] none 0 0 true ∧
    (CClear at0 (.yield h0) h0 [] [] [] none 0 0 false ∧ at0.plainSlot) ∧
    (CClear tokens (.kwait h0 5 9) h0 [] [] [5] none 0 0 false ∧ tokens.me.tok (tokens.me.tokRef 5) ≤ 9) ∧
    (CClear tokens (.kwait h0 5 8) h0 [] [] [5] none 0 0 false ∧ 8 < tokens.me.tok (tokens.me.tokRef 5)) ∧
    CClear tokens (.ktst h0 1 5) h0 [] [] [5] none 0 0 false :=
  ⟨cClear (by decide), cClear (by decide), aClear (by decide), aClear (by decide), cClear (by decide),
   ⟨cClear (by decide), by decide, by decide⟩, ⟨cClear (by decide), by decide⟩, ⟨cClear (by decide), by decide⟩, cClear (by decide)⟩
/-- p0 reads as all lanes true and p1 as none at reset: both outcomes of each branch. -/
theorem witness_BranchResults : (∀ i ∈ ([.brT h0 0 0x4000, .brF h0 0 0x4000, .brAny h0 0 0x4000, .brNone h0 0 0x4000] : List Instr),
      CClear at0 i h0 [.p 0] [] [] none 0 0 false) ∧
    (∀ i ∈ ([.brT h0 1 0x4000, .brF h0 1 0x4000, .brAny h0 1 0x4000, .brNone h0 1 0x4000] : List Instr),
      CClear at0 i h0 [.p 1] [] [] none 0 0 false) ∧ at0.traceCond none = [] :=
  ⟨fun i hi => cClear ((by decide : ∀ i ∈ _, cOk at0 i h0 [.p 0] [] [] none 0 0 false = true) i hi),
   fun i hi => cClear ((by decide : ∀ i ∈ _, cOk at0 i h0 [.p 1] [] [] none 0 0 false = true) i hi), by decide⟩
theorem witness_JumpResultsOwned : let s := at0.onMe (fun c => { c with k := c.k.set 7 1 })
    s.traceCond none = [] ∧ CClear s (.call h0 0x20000) h0 [] [] [] none 0 0 false ∧ s.me.inh = false ∧
      ∀ j, j < 8 → ((128 : Nat).testBit j = true ↔ s.me.tok (.k j) ≠ 0) :=
  ⟨by decide, cClear (by decide), by decide, by decide⟩
theorem witness_JumpResults : at0.traceCond none = [] ∧ CClear at0 (.jmp h0 0x20000) h0 [] [] [] none 0 0 false ∧
    (CClear at0 (.call h0 0x20000) h0 [] [] [] none 0 0 false ∧ ∀ j, j < 8 → at0.me.tok (.k j) = 0) ∧
    (CClear handler (.call h0 1) h0 [] [] [] none 0 0 false ∧ handler.me.inh = true) ∧
    CClear at0 (.jal h0 0 0x1000) h0 [] [] [] none 0 0 false ∧ CClear at0 (.jr h0 31) h0 [.s 31] [] [] none 0 0 false ∧
    CClear at0 (.ret h0) h0 [.s 31] [] [] none 0 0 false :=
  ⟨by decide, cClear (by decide), ⟨cClear (by decide), by decide⟩, ⟨cClear (by decide), by decide⟩, cClear (by decide), cClear (by decide),
   cClear (by decide)⟩
/-- A handler with a trap token owed, and a word whose wait field is not met. -/
def owing : State := handler.onMe (fun c => { c with t := c.t.set 3 1, k := c.k.set 0 1 })
theorem witness_TrapWordResults : CClear at0 (.trap h0 255) h0 [] [] [] none 0 0 false ∧
    (CClear handler (.eret h0) h0 [] [] [] none 0 0 false ∧ handler.me.inh = true ∧ ∀ j, j < 4 → handler.me.tok (.t j) = 0) ∧
    (CClear owing (.eret h0) h0 [] [] [] none 0 0 false ∧ owing.me.inh = true ∧ ∃ j, j < 4 ∧ owing.me.tok (.t j) ≠ 0) ∧
    (at0.me.waitMet h0 = true ∧ at0.me.inh = false) ∧ at0.me.waitMet (decodeHead 0) = true ∧
    (at0.onMe (fun c => { c with k := c.k.set 0 1 })).me.waitMet (decodeHead 0) = false :=
  ⟨cClear (by decide), ⟨cClear (by decide), by decide, by decide⟩, ⟨cClear (by decide), by decide, 3, by decide, by decide⟩,
   ⟨by decide, by decide⟩, by decide, by decide⟩
/-- A completion that opens an upcall, and a late report. -/
def ent (k : Nat) : Entry :=
  { kind := k, b1 := 0, seq := 4, src := 5, payload := 77, ctxTo := 0, placed := 0, fromCore := 3, fromCtx := 1, know := [] }
def inb (s : State) (l : List Entry) : State := s.onHere (fun x => { x with inbox := l })
def report : LateReport := { cause := 25, sub := 0, seq := 4, reason := 2, rkind := 0, addr := 77, tag := 0, gts := 0 }
theorem witness_TrapsInPlaceOfAPair : 256 * at0.me.bound ≤ (atPc 256).me.pc.toNat ∧
    ((atPc 2).me.pc.toNat < 256 * (atPc 2).me.bound ∧ (atPc 2).me.pc.toNat % 4 ≠ 0) ∧
    ((atPc 252).me.pc.toNat < 256 * (atPc 252).me.bound ∧ (atPc 252).me.pc.toNat % 8 = 4 ∧ ((atPc 252).wordAt 252).getLsbD 31 = false) ∧
    ((at0.onMe (fun c => { c with lateQ := [report] })).me.lateQ = [report] ∧ at0.me.inh = false) ∧
    (inb at0 [ent 1, ent 5]).here.inbox.find? (fun e => e.ctxTo == (inb at0 [ent 1, ent 5]).here.run && e.kind == 5) = some (ent 5) := by
  decide
/-- A core in a gang, and one whose ten helpers are live. -/
def inGang : State := at0.onHere (fun x => { x with gang := some { shape := 0, ox := 0, oy := 0, members := [0, 1] } })
def crowded : State := at0.onHere (fun x => (List.range 10).foldl (fun x i => x.setCtx (i + 1) { ctx0 with quota := 0 }) x)
theorem witness_ContextWordResults : CClear at0 (.spawn h0 1 2 3 4) h0 [.s 2, .s 3] [] [] none 0 0 false ∧ at0.me.ctxNo = 0 ∧
    (at0.here.poolHeld + 8 * 4 ≤ 192 ∧ (at0.here.ctx 1).live = false) ∧
    (CClear crowded (.spawn h0 1 2 3 0) h0 [.s 2, .s 3] [] [] none 0 0 false ∧ ∀ i, i < 11 → 1 ≤ i → (crowded.here.ctx i).live = true) ∧
    (CClear at0 (.gsplit h0) h0 [] [] [] none 0 0 false ∧ at0.here.gang = none) ∧
    (CClear inGang (.gsplit h0) h0 [] [] [] none 0 0 false ∧ inGang.here.gang ≠ none) ∧
    (CClear at0 (.halt h0) h0 [] [] [] none 0 0 false ∧ at0.here.run < 11) ∧ CClear inGang (.halt h0) h0 [] [] [] none 0 0 false :=
  ⟨cClear (by decide), by decide, ⟨by decide, by decide⟩, ⟨cClear (by decide), by decide⟩, ⟨cClear (by decide), by decide⟩,
   ⟨cClear (by decide), by decide⟩, ⟨cClear (by decide), by decide⟩, cClear (by decide)⟩
/-- A context at LEVEL 2 in cycle 5. -/
def level2 : State := { (atS [(2, 5), (3, 6)]).onMe (fun c => { c with level := 2 }) with gts := 5 }
theorem witness_BarrierWordResults : CClear at0 (.sync h0) h0 [] [] [] none 0 0 false ∧
    (CClear at0 (.syncT h0 1 2) h0 [.s 2] [] [] none 0 0 false ∧ at0.me.level = 0) ∧
    (CClear level2 (.syncT h0 1 3) h0 [.s 3] [] [] none 0 0 false ∧ level2.me.level ≠ 0 ∧ level2.gts < (level2.me.sReg 3).toNat) ∧
    (CClear level2 (.syncT h0 1 0) h0 [.s 0] [] [] none 0 0 false ∧ (level2.me.sReg 0).toNat < level2.gts) ∧
    (CClear level2 (.syncT h0 1 2) h0 [.s 2] [] [] none 0 0 false ∧ (level2.me.sReg 2).toNat = level2.gts) ∧
    (CClear level2 (.gang h0 3 0 0) h0 [] [] [] none 0 0 false ∧ level2.me.ctxNo = 0 ∧ level2.me.level = 2 ∧
      (gangCores level2.myCluster 3 0 0).contains level2.focus = true) :=
  ⟨cClear (by decide), ⟨cClear (by decide), by decide⟩, ⟨cClear (by decide), by decide, by decide⟩, ⟨cClear (by decide), by decide⟩,
   ⟨cClear (by decide), by decide⟩, ⟨cClear (by decide), by decide, by decide, by decide⟩⟩
/-- A buffer of one word, idle and in its replay. -/
def filled (st : RbSt) : State := (atS [(2, 1)]).onHere (fun x => { x with rb := [0x02000000], rbSt := st })
def replayed : State := ((filled (.replaying 0 0 2 0 0 false)).onHere (fun x => { x with ls := x.ls.writeN 0 4 0x06040000 }))
theorem witness_RepetitionBufferResults : (CClear at0 (.rbRec h0 15) h0 [] [] [] none 0 0 false ∧ at0.here.rbSt = .idle) ∧
    (CClear (filled .idle) (.rbRun h0 0 3) h0 [.s 0, .s 3] [] [] none 0 0 false ∧ ((filled .idle).me.sReg 0).toNat % 65536 = 0) ∧
    (CClear (filled .idle) (.rbRun h0 2 3) h0 [.s 2, .s 3] [] [] none 0 0 false ∧ ((filled .idle).me.sReg 2).toNat % 65536 ≠ 0 ∧
      (filled .idle).here.rb ≠ [] ∧ ∀ j, j < 4 → ((filled .idle).me.sReg 3).getLsbD (16 * j + 14) = false ∧
        ((filled .idle).me.sReg 3).extractLsb' (16 * j + 6) 2 = 0) ∧
    (replayed.me.dlyRem = 0 ∧ replayed.me.aboveBound = false ∧ replayed.badPosition = false ∧
      (after (runPair runWord (replayed.pairAt replayed.me.pc).1 (mapVectors (stagger 0 0) (aInstr (replayed.here.rb.getD 0 0x02000000)))
        (replayed.setNext (replayed.pairAt replayed.me.pc).2.2))).latch = .issued) :=
  ⟨⟨cClear (by decide), by decide⟩, ⟨cClear (by decide), by decide⟩, ⟨cClear (by decide), by decide, by decide, by decide⟩, by decide⟩
/-- Its C-slot word is a `nop`, or one that waits, or a `dly` is in progress. -/
theorem witness_RepetitionBufferRuns :
    (let w := mapVectors (stagger 0 0) (aInstr (replayed.here.rb.getD 0 0x02000000))
     replayed.latch = .issued ∧ w.isA = true ∧ w.wf = true ∧ illegalWord w = false ∧ replayed.me.uwtrap = false ∧ 64 ≤ replayed.me.quota ∧
      replayed.me.region = none ∧ decodeC (replayed.wordAt 0) = .ok (.nop h0) ∧ replayed.me.waitMet h0 = true) ∧
    (let s := (replayed.onHere (fun x => { x with ls := x.ls.writeN 0 4 0x10040000 })).onMe (fun c => { c with k := c.k.set 2 1 })
     decodeC (s.wordAt 0) = .ok (.nop { ln := false, wk := 2, wn := 0 }) ∧ s.me.waitMet (decodeHead 0x10040000) = false) ∧
    (replayed.onMe (fun c => { c with dlyRem := 3 })).me.dlyRem ≠ 0 := by decide
theorem witness_SystemWordResults : CClear at0 (.getc h0 1 0x030) h0 [] [] [] none 0 0 false ∧ CClear at0 (.gts h0 1) h0 [] [] [] none 0 0 false ∧
    (∀ c ∈ ([0x002, 0x003, 0x005, 0x006, 0x010, 0x020, 0x021, 0x022, 0x023, 0x000] : List (BitVec 12)),
      CClear at0 (.setc h0 2 c) h0 [.s 2] [] [] none 0 0 false) ∧ CClear at0 (.sig h0 2 0x1FFF) h0 [.s 2] [] [] none 1 1 false ∧
    CClear at0 (.tmark h0 2 0x1FFF) h0 [.s 2] [] [] none 0 0 false ∧ at0.traceCond (some 0x1FFF) = [] :=
  ⟨cClear (by decide), cClear (by decide),
   fun c hc => cClear ((by decide : ∀ c ∈ _, cOk at0 (.setc h0 2 c) h0 [.s 2] [] [] none 0 0 false = true) c hc), cClear (by decide),
   cClear (by decide), by decide⟩

/-- Addresses of the own local store, of the cluster window and of the event window in s2, with bytes at 512. -/
def mem (s : State) : State := s.onHere (fun x => x.putLs 512 16 0x8899AABBCCDDEEFF1122334455667788)
def own : State := mem (atS [(1, 77), (2, 512), (3, 0xFFFFFFFFFFFFFF85), (4, 1)])
def win : State := atS [(1, 77), (2, 0x1000000 + 128 + 8192), (3, 0xFFFFFFFFFFFFFF85), (4, 1)]
def evw : State := atS [(1, 77), (2, 0x2000000 + 24), (4, 1)]
theorem win_classify (n : Nat) (h : n < 64 := by decide) : ∃ m off, classify (0x1000000 + 128 + 8192 + n) = .window m off := by
  have e : ∀ n, n < 64 → classify (0x1000000 + 128 + 8192 + n) = .window 1 (512 + n) := by decide
  exact ⟨1, 512 + n, e n h⟩
theorem witness_OwnLoadResults : own.me.region = none ∧ ∀ q ∈ loadForms own h0 1 2 4 1,
    own.ownAccess q.addr q.z q.z ∧ CClear own q.i h0 q.srcs [] [] none 0 0 false := by
  have h : (loadForms own h0 1 2 4 1).all (fun q => decide (q.addr % q.z = 0 ∧ q.addr < lsBytes ∧ own.here.boundary ≤ q.addr ∧
      own.lineHeld q.addr q.z = false) && cOk own q.i h0 q.srcs [] [] none 0 0 false) = true := by decide
  refine ⟨by decide, fun q hq => ?_⟩
  have := List.all_eq_true.mp h q hq
  simp only [Bool.and_eq_true, decide_eq_true_eq] at this
  exact ⟨this.1, cClear this.2⟩
theorem witness_OwnStoreResults : own.me.region = none ∧ (∀ q ∈ storeForms own h0 1 2 4 1,
    own.ownAccess q.addr q.z q.z ∧ CClear own q.i h0 q.srcs [] [] none 0 0 false) ∧ Memory.wf own.here.ls = true := by
  have h : (storeForms own h0 1 2 4 1).all (fun q => decide (q.addr % q.z = 0 ∧ q.addr < lsBytes ∧ own.here.boundary ≤ q.addr ∧
      own.lineHeld q.addr q.z = false) && cOk own q.i h0 q.srcs [] [] none 0 0 false) = true := by decide
  refine ⟨by decide, fun q hq => ?_, by decide⟩
  have := List.all_eq_true.mp h q hq
  simp only [Bool.and_eq_true, decide_eq_true_eq] at this
  exact ⟨this.1, cClear this.2⟩
/-- Two writes to byte 512 that core 0 knows neither of. -/
def torn : State :=
  let w (n : Nat) : Node := { id := n, val := n, base := 512, size := 1, before := [] }
  { own with order := [(.ls 0 512, { init := 17, nodes := [w 1, w 2] })] }
/-- What one core can find at a byte: what memory holds, where nothing leaves a choice, and else one of several nodes. -/
theorem witness_Sights : (∀ n, n < 8 → (own.ownSight (512 + n)).length = 1 ∧ (own.ownTop (512 + n)).length = 1) ∧
    (torn.ownSight 512).length = 3 ∧ (torn.ownTop 512).length = 2 ∧ (torn.ownSight 513).length = 1 ∧
    torn.here.deferred.any (fun e => e.op == 0 && e.addr == 512) = false := by decide
theorem witness_RemoteRequestTakesTheNextNumber : at0.here.run < 11 := by decide
theorem witness_RemoteScalarAccessResults : win.me.region = none ∧ win.plainSlot ∧
    (∀ q ∈ loadForms win h0 1 2 4 1, q.addr % q.z = 0 ∧ (∃ n, n < 64 ∧ q.addr = 0x1000000 + 128 + 8192 + n) ∧
      CClear win q.i h0 q.srcs [] [] (some win.me.ltkRef) 1 1 false) ∧
    (∀ q ∈ storeForms win h0 1 2 4 1, q.addr % q.z = 0 ∧ (∃ n, n < 64 ∧ q.addr = 0x1000000 + 128 + 8192 + n) ∧
      CClear win q.i h0 q.srcs [] [] none 1 1 false) := by
  have h : (loadForms win h0 1 2 4 1).all (fun q => decide (q.addr % q.z = 0 ∧ 0x1000000 + 128 + 8192 ≤ q.addr ∧
      q.addr < 0x1000000 + 128 + 8192 + 64) && cOk win q.i h0 q.srcs [] [] (some win.me.ltkRef) 1 1 false) = true := by decide
  have g : (storeForms win h0 1 2 4 1).all (fun q => decide (q.addr % q.z = 0 ∧ 0x1000000 + 128 + 8192 ≤ q.addr ∧
      q.addr < 0x1000000 + 128 + 8192 + 64) && cOk win q.i h0 q.srcs [] [] none 1 1 false) = true := by decide
  refine ⟨by decide, ⟨by decide, by decide⟩, fun q hq => ?_, fun q hq => ?_⟩
  · have := List.all_eq_true.mp h q hq
    simp only [Bool.and_eq_true, decide_eq_true_eq] at this
    exact ⟨this.1.1, ⟨q.addr - (0x1000000 + 128 + 8192), by omega, by omega⟩, cClear this.2⟩
  · have := List.all_eq_true.mp g q hq
    simp only [Bool.and_eq_true, decide_eq_true_eq] at this
    exact ⟨this.1.1, ⟨q.addr - (0x1000000 + 128 + 8192), by omega, by omega⟩, cClear this.2⟩
/-- A load of the event window. -/
theorem witness_event_load : classify 0x2000018 = .event 24 ∧ CClear evw (.ldw h0 1 2 0) h0 [.s 2] [] [] (some evw.me.ltkRef) 1 1 false :=
  ⟨by decide, cClear (by decide)⟩
/-- An open region on a line of the own local store and of the window. -/
def inRegion (s : State) (n : Nat) : State :=
  s.onMe (fun c => { c with region := some { line := n, pc := 8, accs := [{ store := true, addr := n + 4, z := 2, val := 7, d := 0, sext := false }] } })
def ownR : State := inRegion own 512
def winR : State := inRegion win (0x1000000 + 128 + 8192)
theorem witness_RegionResults : (CClear own (.alb h0 2) h0 [.s 2] [] [] none 0 0 false ∧ own.here.boundary ≤ 512 ∧ 512 < lsBytes) ∧
    (∃ r, ownR.me.region = some r ∧ r.accs.length < 8 ∧ r.line ≤ 513 ∧ 513 + 1 ≤ r.line + 128 ∧ isRemote r.line = false ∧
      ownR.lineHeld r.line 128 = false) ∧ CClear ownR (.ldb h0 1 2 1) h0 [.s 2] [] [] none 0 0 true ∧
    CClear ownR (.stb h0 1 2 1) h0 [.s 1, .s 2] [] [] none 0 0 true ∧ CClear ownR (.ale h0) h0 [] [] [] (some ownR.me.ltkRef) 0 0 true ∧
    (∃ r, winR.me.region = some r ∧ isRemote r.line = true ∧ winR.lineHeld r.line 128 = false) ∧
    CClear winR (.ale h0) h0 [] [] [] (some winR.me.ltkRef) 1 1 true ∧
    (own.me.region = none ∧ CClear own (.ale h0) h0 [] [] [] none 0 0 false) :=
  ⟨⟨cClear (by decide), by decide⟩, ⟨_, rfl, by decide⟩, cClear (by decide), cClear (by decide), cClear (by decide), ⟨_, rfl, by decide⟩,
   cClear (by decide), ⟨by decide, cClear (by decide)⟩⟩
/-- v6 indexes lanes of the own store, of the window's, or both. -/
def vecs (s : State) (n : Nat) : State := s.onMe (fun c => (c.writeReg (.v 5) 0x123456789ABCDEF0).writeReg (.v 6) n)
def mixed : State := vecs own ((0x1000000 + 128 + 8192 - 512) / 4)
theorem witness_VectorMemoryResults : (∀ n, n < 32 → ((512 + 4 * n) % 2 ^ 64) % 4 = 0 ∧ own.lineHeld (512 + 4 * n) 4 = false ∧
      own.here.boundary ≤ 512 + 4 * n ∧ 512 + 4 * n < lsBytes) ∧ (∃ m off, classify (0x1000000 + 128 + 8192) = .window m off) ∧
    CClear own (.ldv h0 5 2 0) h0 [.s 2] [5] [] none 0 0 false ∧
    CClear own (.ldvs h0 5 2 4) h0 [.s 2, .s 4] [5] [] none 0 0 false ∧
    CClear mixed (.ldvx h0 5 2 6) h0 [.s 2, .v 6] [5, 6] [] (some mixed.me.ltkRef) 1 1 false ∧ mixed.plainSlot ∧
    CClear own (.stv h0 5 2 0) h0 [.v 5, .s 2] [5] [] none 0 0 false ∧
    CClear mixed (.stvx h0 5 2 6) h0 [.v 5, .s 2, .v 6] [5, 6] [] none 1 1 false ∧
    (512 + 4 * (vlane (mixed.me.vReg 6) 0).toNat = 0x1000000 + 128 + 8192 ∧ (vlane (mixed.me.vReg 6) 1).toNat = 0) :=
  ⟨by decide, win_classify 0, cClear (by decide), cClear (by decide), cClear (by decide), ⟨by decide, by decide⟩, cClear (by decide),
   cClear (by decide), by decide⟩
def emptied : State := own.onHere (fun x => x.setFe 64 false)
theorem witness_FullEmptyResults : (own.lineHeld 512 8 = false ∧ own.me.region = none ∧ own.here.boundary ≤ 512 ∧ 512 < lsBytes) ∧
    (CClear own (.take h0 1 2 0) h0 [.s 2] [] [] (some own.me.ltkRef) 0 1 false ∧ own.here.takeable 512 = true) ∧
    (CClear emptied (.take h0 1 2 0) h0 [.s 2] [] [] (some emptied.me.ltkRef) 0 1 false ∧ emptied.here.takeable 512 = false) ∧
    CClear own (.give h0 1 2 0) h0 [.s 1, .s 2] [] [] none 0 0 false ∧ CClear own (.feSet h0 0 2 0) h0 [.s 2] [] [] none 0 0 false ∧
    (win.lineHeld (0x1000000 + 128 + 8192) 8 = false ∧ ∃ m off, classify (0x1000000 + 128 + 8192) = .window m off) ∧
    CClear win (.take h0 1 2 0) h0 [.s 2] [] [] (some win.me.ltkRef) 1 2 false ∧
    CClear win (.give h0 1 2 0) h0 [.s 1, .s 2] [] [] none 1 1 false ∧ CClear win (.feSet h0 1 2 0) h0 [.s 2] [] [] none 1 1 false :=
  ⟨by decide, ⟨cClear (by decide), by decide⟩, ⟨cClear (by decide), by decide⟩, cClear (by decide), cClear (by decide),
   ⟨by decide, win_classify 0⟩, cClear (by decide), cClear (by decide), cClear (by decide)⟩
/-- Deterministic mode at LEVEL 2, where an atomic is held for its superstep. -/
def det (s : State) : State := s.onHere (fun x => { x with det := 7, ctxs := x.ctxs.set 0 { x.ctx 0 with level := 2 } })
theorem witness_AtomicResults : (own.lineHeld 512 8 = false ∧ own.here.boundary ≤ 512 ∧ own.holdKey = none) ∧
    CClear own (.amoCas h0 1 2 3 3 1) h0 [.s 2, .s 3, .s 1] [] [] (some own.me.ltkRef) 0 0 false ∧
    CClear own (.redAdd h0 2 3 3 1) h0 [.s 2, .s 3] [] [] none 0 0 false ∧ (∃ k n, (det own).holdKey = some (k, n)) ∧
    CClear (det own) (.amoAdd h0 1 2 3 0 0) h0 [.s 2, .s 3] [] [] (some own.me.ltkRef) 0 0 false ∧
    CClear (det own) (.redMax h0 2 3 0 1) h0 [.s 2, .s 3] [] [] none 0 0 false ∧
    (win.plainSlot ∧ ∃ m off, classify (0x1000000 + 128 + 8192) = .window m off) ∧
    CClear win (.amoMin h0 1 2 3 2 1) h0 [.s 2, .s 3] [] [] (some win.me.ltkRef) 1 1 false ∧
    CClear win (.redXor h0 2 3 2 1) h0 [.s 2, .s 3] [] [] none 1 1 false :=
  ⟨by decide, cClear (by decide), cClear (by decide), ⟨_, _, rfl⟩, cClear (by decide), cClear (by decide),
   ⟨⟨by decide, by decide⟩, win_classify 0⟩, cClear (by decide), cClear (by decide)⟩
/-- An unanswered request and an unwritten destination. -/
def waiting : State := at0.onMe (fun c => { c with out := [4], acq := [.s 3] })
theorem witness_FenceResults : (CClear at0 (.fenceAcq h0 6) h0 [] [] [] none 0 0 false ∧ at0.me.acq = []) ∧
    (CClear waiting (.fenceAcq h0 0) h0 [] [] [] none 0 0 false ∧ waiting.me.acq ≠ []) ∧
    CClear waiting (.fenceRel h0 0) h0 [] [] [] none 0 0 false ∧ (CClear waiting (.fenceRel h0 1) h0 [] [] [] none 0 0 false ∧ waiting.me.out ≠ []) ∧
    CClear at0 (.fenceAr h0 6) h0 [] [] [] none 0 0 false ∧ CClear waiting (.fenceAr h0 1) h0 [] [] [] none 0 0 false :=
  ⟨⟨cClear (by decide), by decide⟩, ⟨cClear (by decide), by decide⟩, cClear (by decide), ⟨cClear (by decide), by decide⟩, cClear (by decide),
   cClear (by decide)⟩

def eventArgs : State := atS [(2, 5 + 7 * 2 ^ 32), (3, 9)]
theorem witness_EventUnitWordResults : CClear eventArgs (.esig h0 2 3) h0 [.s 2, .s 3] [] [] none 1 1 false ∧ eventArgs.me.out = [] ∧
    (CClear waiting (.esig h0 2 3) h0 [.s 2, .s 3] [] [] none 1 1 false ∧ waiting.me.out ≠ []) ∧
    CClear eventArgs (.ewait h0 1 2) h0 [.s 2] [] [] (some eventArgs.me.ltkRef) 0 0 false ∧ eventArgs.plainSlot :=
  ⟨cClear (by decide), by decide, ⟨cClear (by decide), by decide⟩, cClear (by decide), by decide, by decide⟩
def boxes (l : List Entry) : State := inb (atS [(2, 50)]) l
def takes (e : Entry) : Bool := e.ctxTo == 0 && e.kind != 2 && e.kind != 3 && e.kind != 5
theorem witness_InboxWordResults : at0.here.run < 11 ∧ (boxes [ent 2, ent 1]).here.inbox.find? takes = some (ent 1) ∧
    CClear (boxes [ent 2, ent 1]) (.inbx h0 5) h0 [] [5] [] (some at0.me.ltkRef) 0 1 false ∧
    CClear (boxes [ent 2, ent 1]) (.inbxT h0 5 1 2) h0 [.s 2] [5] [] (some at0.me.ltkRef) 0 1 false ∧
    ((boxes [ent 2, ent 5]).here.inbox.find? takes = none ∧ (boxes [ent 2, ent 5]).boxCount 0 = 0 ∧ (boxes [ent 2, ent 5]).plainSlot) ∧
    CClear (boxes [ent 2, ent 5]) (.inbx h0 5) h0 [] [5] [] (some at0.me.ltkRef) 0 1 false ∧
    (CClear (boxes [ent 2, ent 5]) (.inbxT h0 5 1 2) h0 [.s 2] [5] [] (some at0.me.ltkRef) 0 1 false ∧
      (boxes [ent 2, ent 5]).gts < ((boxes [ent 2, ent 5]).me.sReg 2).toNat) ∧
    (CClear (boxes []) (.inbxT h0 5 1 3) h0 [.s 3] [5] [] (some at0.me.ltkRef) 0 1 false ∧ ((boxes []).me.sReg 3).toNat ≤ (boxes []).gts) :=
  ⟨by decide, by decide, cClear (by decide), cClear (by decide), ⟨by decide, by decide, by decide, by decide⟩, cClear (by decide),
   ⟨cClear (by decide), by decide⟩, ⟨cClear (by decide), by decide⟩⟩
theorem witness_SendResults : at0.here.run < 11 ∧ CClear at0 (.msend h0 2 63 15) h0 [.s 2, .v 63] [63] [15] (some (.k 15)) 1 1 false :=
  ⟨by decide, cClear (by decide)⟩
/-- A command block at 512, and the operands of `mma` and `mld.b`. -/
def block1 : Nat := 3 + 2 ^ 3 + 0x8000 * 2 ^ 32 + 4 * 2 ^ 64 + 64 * 2 ^ 80 + 128 * 2 ^ 96 + 1 * 2 ^ 128 + 2 ^ 132
def command : State := (atS [(2, 512), (3, 640)]).onHere (fun x => x.putLs 512 64 block1)
def tiles : State := atS [(2, 0x8000), (3, 5 + 2 ^ 7 + 64 * 2 ^ 9 + 3 * 2 ^ 23 + 2 ^ 36)]
theorem witness_MatrixWordResults : (command.here.mowner = none ∧ command.here.mq = [] ∧ command.here.mrun = none ∧
      command.lineHeld 512 64 = false ∧ (5 + 2 ^ 7 + 64 * 2 ^ 9 + 3 * 2 ^ 23 + 2 ^ 36 : Nat) < 2 ^ 39) ∧ (CClear command (.mxq h0 2 4) h0 [.s 2] [] [4] (some (.k 4)) 0 0 false ∧
      command.here.ls.readN 512 64 = block1) ∧
    (∀ p ∈ ([(5, 27), (51, 13), (131, 1), (147, 13), (179, 13), (211, 13), (224, 288)] : List (Nat × Nat)),
      block1 / 2 ^ p.1 % 2 ^ p.2 = 0) ∧
    (0x8000 < 0x60000 ∧ 0x8000 % (16 * 2 ^ (block1 / 2 ^ 128 % 8)) = 0 ∧ block1 / 2 ^ 64 % 2 ^ 16 = 4 ∧ block1 / 2 ^ 80 % 2 ^ 16 = 64 ∧
      block1 / 2 ^ 96 % 2 ^ 32 = 128) ∧
    CClear tiles (.mma h0 3 2 3 4) h0 [.s 2, .s 3] [] [4] (some (.k 4)) 0 0 false ∧ CClear tiles (.mzero h0 7) h0 [] [] [] none 0 0 false ∧
    CClear tiles (.mrd h0 63 7 2 15) h0 [.s 2] [63] [15] (some (.k 15)) 0 0 false ∧
    (CClear command (.mldB h0 2 3 4 0) h0 [.s 2, .s 3] [] [4] (some (.k 4)) 0 0 false ∧ command.here.boundary ≤ 512 ∧ 640 + 1024 ≤ 524288) :=
  ⟨by decide, ⟨cClear (by decide), by decide⟩, by decide, by decide, cClear (by decide), cClear (by decide), cClear (by decide),
   ⟨cClear (by decide), by decide⟩⟩
def cistern : State :=
  { atS [(2, 512), (3, 4 + 5 * 64 + 3 * 2 ^ 17)] with
    clusters := [(0, { Cluster.reset with groups := [(4, { CGroup.reset with n := 100, per := 1, gaddr := 1024, st := .idle })] })] }
theorem witness_CisternWordResults : ((cistern.me.sReg 3).toNat < 2 ^ 23 ∧ (cistern.cgroup 0 4).st ≠ .undeclared ∧ cistern.here.cisOut < 32 ∧
      (cistern.me.sReg 3).toNat / 2 ^ 6 % 2 ^ 11 < 512 * (cistern.cgroup 0 4).per) ∧
    CClear cistern (.cadd h0 3 5 4) h0 [.s 3, .v 5] [5] [4] (some (.k 4)) 0 1 false ∧
    (CClear cistern (.caddTile h0 3 7 4) h0 [.s 3] [] [4] (some (.k 4)) 0 1 false ∧ cistern.here.mowner = none) ∧
    (CClear cistern (.ctap h0 5 3 4 3) h0 [.s 3] [5] [4] (some (.k 4)) 0 0 false ∧ cistern.here.boundary ≤ 1024 + 64 * 5 ∧
      cistern.lineHeld (1024 + 64 * 5) 64 = false) ∧
    CClear cistern (.cscrub h0 3 4) h0 [.s 3] [] [4] (some (.k 4)) 0 0 false ∧
    (CClear cistern (.cinfo h0 1 3) h0 [.s 3] [] [] (some cistern.me.ltkRef) 0 0 false ∧ (cistern.me.sReg 3).toNat / 2 ^ 17 % 2 ^ 6 ≤ 6) ∧
    (CClear cistern (.cspill h0 3 2 4 1) h0 [.s 3, .s 2] [] [4] (some (.k 4)) 1 1 false ∧ 512 % 128 = 0) ∧
    CClear cistern (.cfill h0 3 2 4 0) h0 [.s 3, .s 2] [] [4] (some (.k 4)) 1 1 false :=
  ⟨by decide, cClear (by decide), ⟨cClear (by decide), by decide⟩, ⟨cClear (by decide), by decide⟩, cClear (by decide),
   ⟨cClear (by decide), by decide⟩, ⟨cClear (by decide), by decide⟩, cClear (by decide)⟩

def view1 : View := { typ := 2, nax := 1, base := 1024, window := false, home := 0, org := [0, 0, 0, 0], ext := [64, 0, 0, 0], dims := [64, 0, 0, 0] }
def handle (root side : Bool) (p e : Nat) : HReg :=
  { st := .live, val := { cluster := 0, root := root, side := side, parent := p, entry := e }, view := view1 }
def lent1 : LEntry := { LEntry.reset with st := .live, view := view1, root := true, parent := 0, hid := 1 }
def handles (l : List (Nat × HReg)) (es : List (Nat × LEntry)) : State :=
  let s := (atS [(2, 512), (3, 0), (4, 32), (5, 0x1000000 + 128)]).onMe (fun c => l.foldl (fun c p => c.setHandle p.1 p.2) c)
  { s with clusters := [(0, { Cluster.reset with lineage := es })] }
def oneHandle : State := handles [(1, handle true false 0 0)] [(0, lent1)]
def twoHalves : State := handles [(1, handle false false 7 8), (4, handle false true 7 9)]
  [(7, { lent1 with parent := 7, st := .split, child0 := 8, child1 := 9 }), (8, { lent1 with root := false, parent := 7 }),
   (9, { lent1 with root := false, parent := 7, side := true })]
def described : State := (atS [(2, 1024), (3, 512), (5, 0x1000000 + 128)]).onHere (fun x => x.putLs 512 16 (2 + 1 * 2 ^ 8 + 64 * 2 ^ 32))
/-- The free entries of member 0's part of the table. -/
def free0 (s : State) : List Nat :=
  ((List.range 64).map (fun i => 64 * memberOf s.focus + i)).filter (fun e =>
    (tget (s.clusterAt s.myCluster).lineage LEntry.reset e).st == .free && !(s.clusterAt s.myCluster).taken.contains e)
theorem witness_HandleWordResults : (CClear described (.hnew h0 2 2 3) h0 [.s 2, .s 3] [] [] none 0 0 false ∧ (described.me.hReg 2).st = .empty ∧
      (View.ofDesc (described.here.ls.readN 512 16)).2 = true ∧ described.here.boundary ≤ 1024 ∧
      1024 + (View.ofDesc (described.here.ls.readN 512 16)).1.bytes ≤ 0x60000 ∧ (free0 described).head? = some 0) ∧
    CClear described (.hnew h0 2 5 3) h0 [.s 5, .s 3] [] [] none 0 0 false ∧
    (CClear oneHandle (.hmov h0 2 1) h0 [] [] [] none 0 0 false ∧ (oneHandle.me.hReg 1).st = .live ∧ (oneHandle.me.hReg 2).st = .empty) ∧
    (CClear oneHandle (.hsplit h0 0 1 2 1 4) h0 [.s 4] [] [] none 0 0 false ∧ 0 < (oneHandle.me.hReg 1).view.nax ∧
      (oneHandle.me.sReg 4).toNat < 64 ∧ (oneHandle.me.sReg 4).toNat * typeBytes 2 % 128 = 0 ∧ (oneHandle.me.hReg 1).val.entry ∉ free0 oneHandle ∧
      (free0 oneHandle).take 2 = [1, 2]) ∧
    CClear oneHandle (.hsend h0 1 2) h0 [.s 2] [] [] none 1 1 false :=
  ⟨⟨cClear (by decide), by decide⟩, cClear (by decide), ⟨cClear (by decide), by decide⟩, ⟨cClear (by decide), by decide⟩, cClear (by decide)⟩
def windowHandle : State :=
  oneHandle.onMe (fun c => c.setHandle 1 { handle true false 0 0 with view := { view1 with window := true, home := 3 } })
theorem witness_HandleWaitAndCellResults : (CClear at0 (.hrecv h0 2) h0 [] [] [] (some at0.me.ltkRef) 0 1 false ∧ (at0.me.hReg 2).st = .empty ∧
      at0.here.inbox = [] ∧ at0.boxCount 0 = 0 ∧ at0.here.gang = none ∧ at0.replays = false) ∧
    (CClear twoHalves (.hjoin h0 1 1 4 5) h0 [] [] [5] (some (.k 5)) 0 0 false ∧ (twoHalves.me.hReg 1).st = .live ∧
      (twoHalves.me.hReg 4).st = .live ∧ (twoHalves.me.hReg 1).val.side ≠ (twoHalves.me.hReg 4).val.side ∧
      (twoHalves.me.hReg 1).val.parent = (twoHalves.me.hReg 4).val.parent) ∧
    (CClear oneHandle (.hfree h0 1) h0 [] [] [] (some at0.me.ltkRef) 0 0 false ∧ (oneHandle.me.hReg 1).val.root = true) ∧
    CClear oneHandle (.hinfo h0 1 1 0) h0 [] [] [] (some at0.me.ltkRef) 0 0 false ∧
    CClear at0 (.hinfo h0 1 1 6) h0 [] [] [] (some at0.me.ltkRef) 0 0 false ∧
    (0 < (oneHandle.me.hReg 1).view.cells ∧ oneHandle.here.boundary ≤ (oneHandle.me.hReg 1).view.cellAddr 0 0 ∧
      (oneHandle.me.hReg 1).view.cellAddr 0 0 < 0x60000 ∧ oneHandle.lineHeld ((oneHandle.me.hReg 1).view.cellAddr 0 0) 128 = false) ∧
    CClear oneHandle (.hldv h0 63 1 3) h0 [.s 3] [63] [] (some at0.me.ltkRef) 0 0 false ∧
    CClear oneHandle (.hstv h0 63 1 3) h0 [.v 63, .s 3] [63] [] none 0 0 false ∧
    (∃ m off, classify ((windowHandle.me.hReg 1).view.cellAddr 0 0) = .window m off) ∧
    CClear windowHandle (.hldv h0 63 1 3) h0 [.s 3] [63] [] (some at0.me.ltkRef) 1 1 false ∧
    CClear windowHandle (.hstv h0 63 1 3) h0 [.v 63, .s 3] [63] [] none 1 1 false :=
  ⟨⟨cClear (by decide), by decide⟩, ⟨cClear (by decide), by decide⟩, ⟨cClear (by decide), by decide⟩, cClear (by decide), cClear (by decide),
   by decide, cClear (by decide), cClear (by decide), ⟨_, _, rfl⟩, cClear (by decide), cClear (by decide)⟩
/-- A block at 512 for each streamer word. -/
def blockAt (mode det aux opx : Nat) : State :=
  (atS [(2, 512)]).onHere (fun x => x.putLs 512 64 (mode + det * 4 + opx * 2 ^ 24 + 9 * 2 ^ 32 + 0x10000 * 2 ^ 64 + 0x400 * 2 ^ 128 +
    4 * 2 ^ 192 + 64 * 2 ^ 224 + 64 * 2 ^ 256 + 64 * 2 ^ 320 + aux * 2 ^ 352 + (if mode = 1 then 0x80 * 2 ^ 448 else 0)))
theorem witness_StreamerWordResults :
    ((blockAt 0 0 0 0).lineHeld 512 64 = false ∧ (blockAt 0 0 0 0).blockConds 512 .get = [] ∧
      CClear (blockAt 0 0 0 0) (.sget h0 2 4) h0 [.s 2] [] [4] (some (.k 4)) 1 2 false) ∧
    ((blockAt 1 0 0 0).blockConds 512 .put = [] ∧ CClear (blockAt 1 0 0 0) (.sput h0 2 4) h0 [.s 2] [] [4] (some (.k 4)) 1 2 false) ∧
    ((blockAt 1 1 0 8).blockConds 512 .red = [] ∧ CClear (blockAt 1 1 0 8) (.sred h0 2 4) h0 [.s 2] [] [4] (some (.k 4)) 1 2 false) ∧
    ((blockAt 0 0 0x800 0).blockConds 512 .gat = [] ∧ CClear (blockAt 0 0 0x800 0) (.sgat h0 2 4) h0 [.s 2] [] [4] (some (.k 4)) 1 2 false) ∧
    ((blockAt 0 0 0x10007 0).blockConds 512 .col = [] ∧ CClear (blockAt 0 0 0x10007 0) (.scol h0 2 4) h0 [.s 2] [] [4] (some (.k 4)) 1 2 false) :=
  ⟨⟨by decide, by decide, cClear (by decide)⟩, ⟨by decide, cClear (by decide)⟩, ⟨by decide, cClear (by decide)⟩,
   ⟨by decide, cClear (by decide)⟩, ⟨by decide, cClear (by decide)⟩⟩
/-- The blocks of MODE 0 keep the checks of R280 and R300 as the statement writes them. -/
theorem witness_StreamerPlainBlocks : ∀ q ∈ ([(.get, 0, 0), (.put, 0, 0), (.gat, 0x800, 0), (.red, 0, 8), (.col, 0x10007, 0)] :
      List (SKind × Nat × Nat)),
    let s := blockAt 0 0 q.2.1 q.2.2
    let raw := s.here.ls.readN 512 64
    let b := Block.ofNat raw
    let zero (lo w : Nat) : Prop := raw / 2 ^ lo % 2 ^ w = 0
    b.mode = 0 ∧ b.dk = 0 ∧ b.geom = 0 ∧ b.upc = 0 ∧ zero 3 5 ∧ zero 19 5 ∧ zero 480 32 ∧ b.va % 8 = 0 ∧ b.va < 2 ^ 52 ∧
      b.vstr % 8 = 0 ∧ b.loc % (2 ^ b.span * 16) = 0 ∧ b.lstr % 8 = 0 ∧ b.lstr ≤ 393216 ∧ 1 ≤ b.rows ∧ b.rows ≤ 65536 ∧
      8 ≤ b.rowb ∧ b.rowb ≤ 65536 ∧ b.rowb % 8 = 0 ∧ b.loc < 0x60000 ∧ b.loc + (b.rows - 1) * b.lstr + b.rowb ≤ 0x60000 ∧
      (match q.1 with
       | .gat => decide (b.opx = 0 ∧ b.aux % 4 = 0 ∧ s.here.boundary ≤ b.aux ∧ b.aux + 4 * b.rows ≤ 0x60000)
       | .red => decide (b.aux = 0 ∧ b.opx % 4 ≠ 3 ∧ b.opx / 64 = 0 ∧ (b.opx / 4 = 2 ∨ b.opx / 4 = 6 ∨ b.opx / 4 = 8 ∨ b.opx / 4 = 9))
       | .col => decide (b.opx % 4 ≠ 3 ∧ b.opx % 4 ≠ 1 ∧ b.opx / 4 = 0 ∧ b.aux / 2 ^ 28 = 0 ∧ 1 ≤ b.aux / 2 ^ 16 % 64 ∧
           b.aux / 2 ^ 22 % 64 ≤ b.aux / 2 ^ 16 % 64)
       | _ => decide (b.opx = 0 ∧ b.aux = 0)) = true := by decide
/-- A descriptor of four stages at 512, its stages in the states 2, 1, 0, 3 by two bits each. -/
def pantry (states head tail relc cmtc : Nat) : State :=
  (atS [(2, 512)]).onHere (fun x => x.putLs 512 32 (4096 + 256 * 2 ^ 32 + 4 * 2 ^ 64 + head * 2 ^ 72 + tail * 2 ^ 80 + relc * 2 ^ 88 +
    cmtc * 2 ^ 96 + states * 2 ^ 128))
def pan (s : State) : Pan := Pan.ofNat (s.here.ls.readN 512 32)
def stage (s : State) (j : Nat) : Nat := (pan s).states / 4 ^ j % 4
theorem witness_PantryWordResults : (at0.here.boundary ≤ 512 ∧ at0.lineHeld 512 32 = false) ∧
    (CClear (pantry 0xC6 0 0 0 0) (.pinit h0 2) h0 [.s 2] [] [] none 0 0 false ∧ (pan (pantry 0xC6 0 0 0 0)).shapeOk at0.here.boundary = true) ∧
    (CClear (pantry 0xB4 0 3 2 1) (.pcmt h0 2) h0 [.s 2] [] [] none 0 0 false ∧ (pan (pantry 0xB4 0 3 2 1)).ok at0.here.boundary = true ∧
      stage (pantry 0xB4 0 3 2 1) 1 = 1 ∧ at0.me.out = []) ∧
    (CClear (pantry 0xB4 0 3 2 1) (.prel h0 2) h0 [.s 2] [] [] none 0 0 false ∧ stage (pantry 0xB4 0 3 2 1) 2 = 3 ∧ at0.me.acq = []) ∧
    (CClear (pantry 0xB4 0 3 2 1) (.pres h0 1 2) h0 [.s 2] [] [] (some at0.me.ltkRef) 0 1 false ∧ stage (pantry 0xB4 0 3 2 1) 0 = 0) ∧
    (CClear (pantry 0xB4 0 3 2 1) (.pacq h0 1 2) h0 [.s 2] [] [] (some at0.me.ltkRef) 0 1 false ∧ stage (pantry 0xB4 0 3 2 1) 3 = 2) ∧
    ((pan (pantry 0xB4 1 2 2 1)).ok at0.here.boundary = true ∧ stage (pantry 0xB4 1 2 2 1) 1 ≠ 0 ∧ stage (pantry 0xB4 1 2 2 1) 2 ≠ 2) ∧
    (CClear win (.pinit h0 2) h0 [.s 2] [] [] none 1 1 false ∧ ∃ m off, classify (0x1000000 + 128 + 8192) = .window m off) ∧
    CClear win (.pcmt h0 2) h0 [.s 2] [] [] none 1 1 false ∧ CClear win (.prel h0 2) h0 [.s 2] [] [] none 1 1 false ∧
    CClear win (.pres h0 1 2) h0 [.s 2] [] [] (some at0.me.ltkRef) 1 2 false ∧ CClear win (.pacq h0 1 2) h0 [.s 2] [] [] (some at0.me.ltkRef) 1 2 false :=
  ⟨by decide, ⟨cClear (by decide), by decide⟩, ⟨cClear (by decide), by decide⟩, ⟨cClear (by decide), by decide⟩, ⟨cClear (by decide), by decide⟩,
   ⟨cClear (by decide), by decide⟩, by decide, ⟨cClear (by decide), win_classify 0⟩, cClear (by decide), cClear (by decide), cClear (by decide),
   cClear (by decide)⟩
def peatArgs : State := atS [(2, 2 ^ 52 - 1), (3, 6 * 2 ^ 16), (4, 512)]
theorem witness_PeatWordResults : (CClear peatArgs (.pmount h0 1 2 4) h0 [.s 2] [] [4] (some (.k 4)) 1 1 false ∧ (peatArgs.me.sReg 2).toNat < 2 ^ 52) ∧
    CClear peatArgs (.punmount h0 2) h0 [.s 2] [] [] none 1 1 false ∧
    (CClear peatArgs (.pinfo h0 1 3) h0 [.s 3] [] [] (some at0.me.ltkRef) 1 1 false ∧ 6 * 2 ^ 16 / 2 ^ 16 % 2 ^ 8 < 7) ∧
    (CClear peatArgs (.previve h0 1 4 4) h0 [.s 4] [] [4] (some (.k 4)) 1 1 false ∧ peatArgs.here.ls.readN 512 64 = 0 ∧
      peatArgs.here.boundary ≤ 512 ∧ peatArgs.lineHeld 512 64 = false) :=
  ⟨⟨cClear (by decide), by decide⟩, cClear (by decide), ⟨cClear (by decide), by decide⟩, ⟨cClear (by decide), by decide⟩⟩

/-- Household 1 of queue 0 in a Fen of four clusters, its low gibibyte mapped to the start of HBM. -/
def fen1 : Fen := { ident := 0, cx := 0, cy := 0, w := 2, h := 2 }
def house1 : Household := { Household.reset with alive := true, place := [(7, (0, 5))], fens := [(0, fen1)] }
def leafs (entry : Nat) : List TlbEntry :=
  [{ die := ioDie, hid := 1, va := 0, level := 1, entry := entry }, { die := 0, hid := 1, va := 0, level := 1, entry := entry }]
def mapped (pa : Memory) : State :=
  { at0 with households := [(1, house1)], tlb := leafs 7, pa := pa,
             queues := [(0, { QueueSt.reset with hid := some 1, ovfb := 65536, pvalid := true, en := true, rbase := 16 })] }
theorem bytesOf_length (n v : Nat) : (bytesOf n v).length = n := by
  induction n generalizing v with
  | zero => rfl
  | succ k ih => simp [bytesOf, ih]
/-- Household 1 lives and its low gibibyte is the start of HBM. -/
def Low (s : State) : Prop :=
  s.tlb = leafs 7 ∧ s.mounts = [] ∧ (s.household 1).alive = true ∧ s.poison = [] ∧ s.porch.pwbSize = 0
theorem low_access {s : State} (h : Low s) {va : Nat} (hv : va < 1073741824) (wr : Bool) : s.access 1 va wr = .ok (.device va) := by
  obtain ⟨h1, h2, h3, -, h5⟩ := h
  have c : isCellar va = false := by simp [isCellar]; omega
  have x : isAnnex va = false := by simp [isAnnex]; omega
  have n : ¬ 4503599627370496 ≤ va := by omega
  have w : s.porch.inWell va = false := by simp [Porch.inWell, h5]
  have t : s.translateAt ioDie 1 va wr = .ok (.device va) := by
    simp [State.translateAt, State.mountAt, State.leafFor, State.tlbHit, State.placeOf, leafs, h1, h2, h3, n, w, hv, leafBytes, levelBits, bit,
      bits, show Nat.testBit 7 2 = true from rfl, Nat.mod_eq_of_lt hv]
  simp [State.access, State.accessAt, t, State.placeRefuses, c, x]
theorem low_write {s : State} (h : Low s) (p : Place) (b : Byte) : Low (s.writePlace p b) := by
  cases p with
  | device pa =>
    obtain ⟨_, _, _, _, e⟩ := s.touch_spec pa
    simp only [State.writePlace, e, State.touchPlace]
    split <;> exact h
  | _ =>
    simp only [State.writePlace, State.touchPlace]
    split <;> exact h
theorem low_put (bs : List Byte) (s : State) (va : Nat) (h : Low s) (hv : va + bs.length ≤ 1073741824) : (s.putBytes 1 va bs).2 = none := by
  induction bs generalizing s va with
  | nil => rfl
  | cons b rest ih =>
    simp only [List.length_cons] at hv
    rw [State.putBytes, low_access h (by omega)]
    exact ih _ _ (low_write h _ _) (by omega)
theorem low_get (n : Nat) (s : State) (va : Nat) (h : Low s) (hv : va + n ≤ 1073741824) : ∃ bs, s.getBytes 1 va n = .ok bs := by
  induction n generalizing va with
  | zero => exact ⟨[], rfl⟩
  | succ k ih =>
    obtain ⟨bs, e⟩ := ih (va + 1) (by omega)
    exact ⟨_, by rw [State.getBytes, low_access h (by omega)]; simp [State.poisoned, h.2.2.2.1, e]; rfl⟩
def queue0 (f : QueueSt → QueueSt) : State := (mapped []).onQueue 0 f
def src1 : Src := { core := 1, ctx := 0, task := 0, fen := 0, hid := 1, born := 0 }
def msg1 (b : Body) : Msg :=
  { src := src1, seq := 6, pc := 0, prev := none, dst := .core 0, at_ := 0, stubs := [], tok := some (.k 2), body := b, st := .going, gts := 0,
    delivered := true, caught := false, detour := false, remote := true, behind := [], goal := none, handle := none, near := false, know := [],
    app := none }
/-- Message 9 of core 1 in flight. -/
def flying (m : Msg) : State :=
  { at0.onCore 1 (fun x => ({ x with hid := some 1 }.setCtx 0 { ctx0 with out := [6] })) with bag := [(9, m)], ctr := 20, households := [(1, house1)] }
def ent1 : Entry := { kind := 1, b1 := 0, seq := 6, src := 0, payload := 77, ctxTo := 0, placed := 0, fromCore := 1, fromCtx := 0, know := [] }

def halted : State := (at0.onMe fun c => { c with wait := .halt }).onHere (fun x => x.setCtx 3 { ctx0 with wait := .halt })
def member3 : State :=
  { at0.onHere (fun x => x.setCtx 3 { ctx0 with wait := .sync, level := 2, arr := true }) with
    doms := [(domKey 1 2 5, { phases := 4, exchange := true, members := [(0, 3)], release := some 0 })] }
/-- An exchange plan at 512 with one entry for task 7, whose core is 5. -/
def planned (loft target : Nat) : State :=
  { (at0.onHere (fun x => { x.putLs 528 32 (3 + loft * 2 ^ 16 + 7 * 2 ^ 32 + 1024 * 2 ^ 64 + target * 2 ^ 96 + 16 * 2 ^ 128) with
      xpl := 512, planTodo := [0] })).onCore 5 (fun x => ({ x with hid := some 1 }).setCtx 0 { ctx0 with task := 7 }) with
    households := [(1, house1)] }
theorem witness_TaskAndPhaseEvents : ((halted.here.ctx 3).live = true ∧ (halted.here.ctx 3).wait = .halt ∧ (halted.here.ctx 3).fatal = false ∧
      (∀ j, j < 16 → (halted.here.ctx 3).tok (.k j) = 0) ∧ (∀ j, j < 4 → (halted.here.ctx 3).tok (.t j) = 0) ∧ (halted.here.ctx 3).out = [] ∧
      halted.upcallEntry 0 3 = none ∧ halted.here.mowner ≠ some 3) ∧
    ((at0.onMe fun c => { c with wait := .halt }).me.wait = .halt ∧ at0.here.ended = false ∧ ∀ i, i < 11 → 1 ≤ i → (at0.here.ctx i).live = false) ∧
    ((tget member3.doms DomInst.reset (domKey 1 2 5)).release = some member3.gts ∧ (member3.here.ctx 3).level = 2 ∧
      (member3.here.ctx 3).wait = .sync) ∧
    (let s := at0.onMe fun c => { c with wait := .syncT 5 0, level := 1 }
     s.me.wait = .syncT 5 s.gts ∧ (tget s.doms DomInst.reset (s.keyOf 0 0)).release = none) ∧
    (let s : State := { at0.onMe fun c => { c with wait := .syncT 5 0, level := 2 } with
        doms := [(at0.keyOf 0 0, { phases := 4, exchange := true, members := [(0, 3)], release := some 0 })] }
     (0, 0) ∉ (tget s.doms DomInst.reset (at0.keyOf 0 0)).members) ∧
    ((planned 0 2048).coreOf 5).boundary ≤ 2048 ∧ ((planned 0 2048).coreOf 5).anyBusy 2048 16 = false ∧
    (planned 0 2048).here.anyBusy 1024 16 = false ∧
    ((planned 1 0).coreOf 5).loftFree (planned 1 0).gts = true ∧
    (0 ∈ (planned 0 2048).here.planTodo ∧ (planned 0 2048).taskCore 1 0 7 = some 5 ∧ (planned 0 2048).runs 5 1 7 = true ∧
      (planned 0 2048).here.ls.readN (512 + 16 + 4) 4 % 2 ^ 20 = 7) ∧ (planned 1 0).here.ls.readN (512 + 16 + 2) 1 = 1 ∧
    0 < (planned 0 0).here.boundary := by decide
theorem witness_RequestEvents :
    (let m := msg1 (.load (0x1000000 + 8192) 4 true 5)
     tfind (flying m).bag 9 = some m ∧ ((flying m).coreOf 0).lineBusy (homeOff (0x1000000 + 8192)) (some 9) = false ∧
      ((flying m).coreOf 0).regions.find? (fun r => r.2.1 == 9) = none ∧ ((flying m).coreOf 0).ended = false ∧ ((flying m).coreOf 0).hid = some 1 ∧
      (flying m).granuleFailed 0 0 (homeOff (0x1000000 + 8192)) 1 = false ∧
      ((flying m).coreOf 0).boundary ≤ homeOff (0x1000000 + 8192) ∧ homeOff (0x1000000 + 2048) < ((flying m).coreOf 0).boundary ∧
      ∀ p ∈ (flying m).bag, ¬ p.1 < 9) ∧
    (∃ p, tfind (at0.onHere (fun x => { x with pred := [(3, { contended := true, since := 0 })] })).here.pred 3 = some p ∧ p.since + 4096 ≤ 4096) ∧
    at0.agenda.any Event.adds = false ∧ settled (at0.sightLs 1 0) (at0.byteLs 0) (homeOff (0x1000000 + 8192)) 4 = true ∧
    (at0.onMe fun c => { c with wait := .ewait 5 7 0 false }).me.wait = .ewait 5 7 0 false ∧ (0 + 2 ^ 32 - 0) % 2 ^ 32 < 2 ^ 31 ∧
    2 ^ 31 ≤ (0 + 2 ^ 32 - 1) % 2 ^ 32 := by decide
/-- With an overflow box of n entries. -/
def boxed (n : Nat) : State := mapped ((Memory.writeN [] 65536 4 (1 + 65536 * n)).writeN (65536 + 32) 32 ent1.boxWord)
def input1 (s : State) : State := s.onHere (fun x => { x with input := [(ent1, 0, none)] })
theorem witness_EntryAndRouterEvents :
    (let s := (flying (msg1 (.send ent1 7))).onCluster 0 (fun k => { k with dir := [(2 ^ 20 + 7, 2)], stubs := [(2 ^ 20 + 3, 5)] })
     tfind s.bag 9 = some (msg1 (.send ent1 7)) ∧ (s.ctxOf 1 0).out.head? = some 6 ∧ tfind (s.clusterAt (clusterOf 1)).dir (2 ^ 20 + 7) = some 2 ∧
      clusterOf 2 = clusterOf 1 ∧ tfind (s.clusterAt (clusterOf 0)).stubs (2 ^ 20 + 3) = some 5 ∧ s.runs 0 1 0 = true ∧ s.entryAhead 0 9 (msg1 (.send ent1 7)) = false ∧ s.here.input = [] ∧
      s.boxCount 0 = 0 ∧ clusterOf (s.stubEnd 1 7 2 4) = clusterOf 1 ∧ ∀ o ∈ s.bag, o.1 = 9) ∧
    ((flying (msg1 (.hsend ent1 7 HVal.none))).drained 0 1024 0 = true ∧ ∀ p ∈ (flying (msg1 (.hsend ent1 7 HVal.none))).bag, ¬ p.1 < 9) ∧
    ({ msg1 (.correct 7 3) with dst := .cluster 0 }).dst = .cluster 0 ∧
    (let m := { msg1 (.load 0 4 true 5) with delivered := false, dst := .core 3 }
     (flying m).fenHolds 1 0 (clusterOf 0) = true ∧ (flying m).nextHop m 3 = some (1, false) ∧ (flying m).crossingBusy 0 1 = false ∧
      ({ flying m with removed := [(0, 1), (0, 40)] } : State).nextHop m 3 = none ∧ (flying m).fenHolds 1 4 (clusterOf 0) = false) ∧
    (let m := { msg1 (.store 0 4 5) with delivered := false, prev := some 4 }
     let s := (flying m).onCore 0 (fun x => { x with held := [9], last := [(11, 4)] })
     s.here.held = [9] ∧ s.inOrder 0 m = true) ∧
    ((at0.onMe (fun c => { c with wait := .inbxT 3 4 0 })).me.wait = .inbxT 3 4 at0.gts ∧ at0.agenda.any Event.places = false) ∧
    ((input1 (boxed 1)).here.input = [(ent1, 0, none)] ∧ (boxed 1).boxBusy 0 = false ∧ (boxed 1).boxCount 0 = 1 ∧
      ((boxed 1).boxPut 0 (32 * (boxed 1).boxSlot 0 1) 32 ent1.boxWord).isSome = true) ∧ (boxed 1).here.inbox.length < 64 ∧
    (let s := (boxed 1).onMe (fun c => { c with wait := .inbx 3 })
     s.here.inbox = [] ∧ s.boxFind 0 0 s.me.wait = some 0) ∧
    (let s := queue0 (fun q => { q with stallt := 5, ovfb := 0 })
     (s.queue (s.queueOfCore 0)).stallt ≠ 0) := by decide

def mcmd1 (zero : Bool) : MCmd :=
  { zero := zero, acc := 1, clr := false, scl := false, aaddr := 0x1000, m := 1, k := 32, boff := 0, span := 0, rstr := 0, asoff := 0, bsoff := 0,
    tok := some (.k 1), pc := 0, issued := 3 }
def commands (zero : Bool) (msa : Nat) : State := { at0.onHere (fun x => { x with mq := [mcmd1 zero], msa := msa }) with gts := 5 }
def creq1 (op : Nat) : CReq :=
  { arrive := 3, core := 1, ctx := 0, op := op, row := 2, seg := 0, lanes := List.replicate 32 0x3F800000, tile := none, form := 0, d := 3, sel := 1,
    msg := 9, tok := some (.k 2), pc := 0, no := 4 }
def groups (g : CGroup) (adds taps : List CReq) : State :=
  { mapped [] with clusters := [(0, { Cluster.reset with groups := [(2, g)], addQ := adds, tapQ := taps })], gts := 5 }
def group2 (st : GState) (holder : Option CReq) : CGroup := { CGroup.reset with st := st, n := 32, per := 1, until_ := 5, holder := holder }
/-- Handle 3 awaits the split of entry 5; entry 8 is being freed. -/
def pendingHandle : HVal := { cluster := 0, root := true, side := false, parent := 5, entry := 5 }
def lineages : State :=
  (at0.onMe (fun c => c.setHandle 3 { HReg.reset with st := .pending, val := pendingHandle })).onCluster 0 (fun k => { k with
    lineage := [(5, { LEntry.reset with st := .split, child0 := 6, child1 := 7, waiter := some (0, 0, .k 2) }),
      (8, { LEntry.reset with st := .freeing, waiter := some (0, 0, .k 2) })] })
theorem witness_UnitEvents : ((commands true 0).here.mq = [mcmd1 true] ∧ (commands true 0).here.mrun = none ∧ (commands true 0).here.mlast < 5) ∧
    ((commands false 0).here.mq = [mcmd1 false] ∧ (mcmd1 false).zero = false ∧ (commands false 0).here.startCheck (mcmd1 false) = 0) ∧
    (commands false 0).here.startCheck { mcmd1 false with boff := 524288 } ≠ 0 ∧
    (let l : MLd := { src := 512, dst := 0, lines := 16, tok := .k 1, issued := 3, started := none, wrote := 0 }
     l.started = none ∧ l.issued < 5) ∧
    (let s := groups { group2 .idle none with until_ := 0 } [creq1 0] []
     (s.clusterAt 0).addQ = [creq1 0] ∧ (creq1 0).arrive ≤ s.gts ∧ (s.cgroup 0 2).st = .idle ∧ (s.cgroup 0 2).ascrub = 0 ∧ (s.cgroup 0 2).until_ ≠ s.gts ∧ (creq1 0).tile = none ∧
      (s.clusterAt 0).addNext ≤ s.gts) ∧
    (let s := groups (group2 .spill none) [] [creq1 4]
     (s.clusterAt 0).tapQ = [creq1 4] ∧ (s.cgroup 0 2).st = .spill ∧ (s.clusterAt 0).tapNext ≤ s.gts ∧ s.agenda.any (Event.changesRows 0) = false) ∧
    (let s := groups (group2 .scrub (some (creq1 1))) [] []
     (s.cgroup 0 2).holder = some (creq1 1) ∧ (s.cgroup 0 2).until_ = s.gts) ∧
    (lineages.me.hReg 3).st = .pending ∧ (lineages.lentry 0 5).st = .split ∧ (lineages.lentry 0 5).wout = 0 ∧ (lineages.lentry 0 6).wout = 0 ∧
    (lineages.lentry 0 8).st = .freeing ∧ (lineages.lentry 0 8).waiter = some (0, 0, .k 2) := by decide
def matrixRun : MRun := { cmd := mcmd1 false, start := 0, mfa := 9, mfb := 9, msa := 0, msb := 0, steps := 0, work := [], idx := 0, suspect := false, snap := none, know := [] }
/-- An operation that writes an image, and a message that reads one into row 2. -/
def spilling (status wm : Nat) : State :=
  let b : Block := { mode := 0, det := false, dk := 0, span := 0, opx := 0, tag := 0, va := 4096, loc := 0, rows := 8, rowb := 8, vstr := 8,
                     lstr := 8, aux := 0, geom := 0, upc := 0 }
  { groups (group2 .spill (some (creq1 2))) [] [] with bag := [(9, msg1 (.spill 2 4096 true))], ops := [(9,
      { src := src1, seq := 6, pc := 0, tok := some (.k 2), kind := .spill, blk := b, idx := [], owner := 0, wm := wm, done := 0, read := [],
        sent := [], know := [], behind := [], bytes := 0, status := status, badVa := 0, issued := 0 })] }
def filling (got : List Byte) (wrote : Nat) : State :=
  { groups { group2 .fill (some (creq1 3)) with got := got, wrote := wrote } [] [] with
    bag := [(9, msg1 (.fill 2 4096 true))], pa := Memory.writeN [] 4096 4 0x01010002 }
def fills (m : Met) : Option Nat :=
  match m with
  | .ok _ v _ => some v
  | _ => none
/-- A command that ends, a load that ends, an image that is written and one that is read. -/
theorem witness_UnitEventsEnds : (∃ s : State, (s.coreOf 0).mrun = some matrixRun ∧ s.gts = matrixRun.start + 11 + matrixRun.total ∧
      s.matrixFailed 0 matrixRun = false) ∧
    (let l : MLd := { src := 512, dst := 0, lines := 16, tok := .k 1, issued := 3, started := some 5, wrote := 0 }
     l.started = some 5 ∧ 5 + 3 + l.lines ≤ 24) ∧
    (∀ p ∈ [(0, 8), (5, 3)], let s := spilling p.1 p.2
      (s.cgroup 0 2).holder = some (creq1 2) ∧ (s.cgroup 0 2).st = .spill ∧
        ((tfind s.ops 9).map (fun o => (o.status, o.blk.rows ≤ o.wm))) = some (p.1, 8 ≤ p.2)) :=
  ⟨⟨{ at0.onHere (fun x => { x with mrun := some matrixRun }) with gts := matrixRun.start + 11 + matrixRun.total }, rfl, rfl, rfl⟩, by decide,
    by simp [spilling, State.cgroup, groups, group2, State.clusterAt, tget, tfind, Cluster.reset]⟩
/-- A fill that reads its header, one that finds it bad, one that has all and writes, and one that ends. -/
theorem witness_UnitEventsFill (got : List Byte) (h : got.length = 64 + 2 * 16384) :
    (let s := filling [] 0
     tfind s.bag 9 = some (msg1 (.fill 2 4096 true)) ∧ (s.cgroup 0 2).got.length < 64 ∧
      fills (s.readBurst (s.cgroup 0 2).know (ownerDie (s.ownerOf 1 4096)) 1 [4096, 4104, 4112, 4120]) = some 0x01010002) ∧
    (let s := filling (List.replicate 32 0) 0
     (s.cgroup 0 2).got.length = 32 ∧ headerOk (s.cgroup 0 2) true ((s.cgroup 0 2).got ++ bytesOf 32 0) = false ∧
      fills (s.readBurst (s.cgroup 0 2).know (ownerDie (s.ownerOf 1 4096)) 1 [4128, 4136, 4144, 4152]) = some 0) ∧
    (∀ n, ((filling got n).cgroup 0 2).got.length = 64 + 2 * 16384 * ((filling got n).cgroup 0 2).per ∧ ((filling got n).cgroup 0 2).wrote = n) :=
  ⟨by decide, by decide, fun n => ⟨h, rfl⟩⟩
def sblock (mode : Nat) : Block :=
  { mode := mode, det := false, dk := 0, span := 0, opx := 0, tag := 9, va := 256, loc := 512, rows := 1, rowb := 8, vstr := 64, lstr := 64, aux := 0,
    geom := 0, upc := 0 }
def sop (k : SKind) (b : Block) : SOp :=
  { src := src1, seq := 6, pc := 0, tok := some (.k 2), kind := k, blk := b, idx := [], owner := 0, wm := 0, done := 0, read := [], sent := [], know := [], behind := [], bytes := 0, status := 0,
    badVa := 0, issued := 0 }
def running (o : SOp) : State :=
  ({ mapped [] with ops := [(9, o)] }).onCore 1 (fun x => ({ x with hid := some 1 }).setCtx 0 { ctx0 with out := [6] })
theorem witness_StreamerEvents :
    (let s := flying (msg1 (.command .get (sblock 0) []))
     tfind s.ops 9 = none ∧ (s.fenIndex 1 0).isSome = true) ∧
    ((sop .put (sblock 0)).open_ = [0] ∧ (sop .put (sblock 0)).localAt 0 = .ls 1 512 ∧
      (running (sop .put (sblock 0))).localRefuses (sop .put (sblock 0)) (.ls 1 512) = 0 ∧
      ((running (sop .put (sblock 0))).coreOf 1).lineBusy 512 none = false ∧
      (running (sop .put (sblock 0))).readWaits 1 512 8 = false ∧ (sop .put (sblock 0)).readsNow 0 = [0] ∧
      (running (sop .put (sblock 0))).opBehind (sop .put (sblock 0)) = false ∧
      (sop .gat (sblock 0)).needsEntry (0 / (sop .gat (sblock 0)).rowSteps) = true ∧
      (sop .put (sblock 0)).sent.contains 0 = false) ∧
    (sop .put (sblock 0)).open_[Config.choice 0 % 1]? = some 0 ∧
    ((running (sop .get (sblock 2))).stillThere src1 = true ∧ (running (sop .get (sblock 2))).stillThere { src1 with ctx := 3 } = false) ∧
    (let s := (running (sop .get { sblock 2 with aux := 1024, loc := 4096 })).onCore 1 (fun x =>
        x.putLs 1024 32 (4096 + 256 * 2 ^ 32 + 4 * 2 ^ 64 + 2 ^ 72 + 2 ^ 128))
     panHome 1 1024 = some (1, 1024) ∧ (s.coreOf 1).hid = some 1 ∧ s.hasTask 1 1 = true ∧
      (s.coreOf 1).lineBusy 1024 none = false ∧ (s.commitStage [] 1 1024 4096).2 = true) ∧
    (let c : Coll := { hid := 1, colid := 7, count := 1, kind := 2, va := 256, rows := 1, rowb := 8, ops := [(0, 9)], pos := 0, data := [] }
     let s : State := { running (sop .col { sblock 0 with aux := 7, opx := 2 }) with colls := [c] }
     s.findColl 1 7 = some c ∧ c.pos < c.nIn ∧ (s.collOp c 0).isSome = true ∧
      c.ops.any (fun p => ((tfind s.ops p.2).map s.opBehind).getD false) = false ∧
      fills (s.collIn c 0 (c.burst 0 0) (sop .col { sblock 0 with aux := 7, opx := 2 })) = some 0 ∧ c.nIn + c.count * c.nOut ≤ 2) :=
  ⟨by decide, by decide, by rw [Nat.mod_one]; decide, by decide, by decide, by decide⟩

/-- Household 1's low gibibyte is host memory. -/
def hostMapped (f : QueueSt → QueueSt) : State :=
  { queue0 f with tlb := leafs 31 }
def ready5 : Ring := { Ring.reset with base := 65536, log2n := 4, held := [(5, none)] }
theorem witness_HostRegisterEvents : at0.tickPending = false ∧
    (let x := (queue0 (fun q => { q with next := 7 })).queue 0
     let n := (9 : BitVec 64).toNat % 2 ^ 32
     (7 : BitVec 64).toNat = x.next ∧ 1 ≤ sub32 n x.next ∧ sub32 n x.next ≤ 64 ∧ sub32 n x.intk ≤ 4096 ∧
      (8 : BitVec 64).toNat ≠ x.next) ∧
    (let s := queue0 (fun q => { q with next := 10 })
     s.tickPending = false ∧ sub32 (8 % 2 ^ 32) (s.queue 0).intk < sub32 (s.queue 0).next (s.queue 0).intk ∧ 8 ∉ (s.queue 0).commits) ∧
    (let s := hostMapped (fun q => { q with comp := ready5 })
     ((s.queue 0).ring 0).held = [(5, none)] ∧ (s.queue 0).hid = some 1 ∧ s.linkDown 26 = false ∧ (s.queue 0).ringsTorn = false ∧
      (s.queue 0).hasRoom 0 = true ∧ s.vaBusy 1 ((s.queue 0).ringBase 0) = false ∧
      (s.writeVa 1 ((s.queue 0).ringBase 0 + 32 * (((s.queue 0).ring 0).tail % (s.queue 0).slots 0)) 32 (recordAt 0 5 s.gts)).toOption.isSome = true) ∧
    ({ ready5 with retryAt := some 0 } : Ring).retryAt = some at0.gts ∧
    (let s : State := { at0 with porch := { Porch.reset with mev := { Ring.reset with base := 16, log2n := 4, held := [(5, none)] } } }
     s.porch.mev.held = [(5, none)] ∧ s.linkDown 26 = false ∧ s.porch.mev.moduleRoom = true) ∧
    (let s := queue0 (fun q => { q with intk := 3 })
     (s.queue 0).waitState = 0 ∧ ticketBefore 5 (s.queue 0).intk = false ∧ (s.onQueue 0 (fun x => { x with waitTicket := 5 })).freeSlot = some 0) ∧
    (let s := hostMapped (fun q => { q with waitState := 1, waitVa := 4096, waitVal := 0, waitSlot := some 0 })
     let u := (s.touchVa 1 4096 8).onQueue 0 (fun x => { x with waitSlot := none, waitState := 0, waitFault := none })
     (s.queue 0).waitState = 1 ∧ (s.queue 0).waitFault = none ∧ (s.queue 0).pvalid = true ∧ s.absentPage (s.queue 0) = none ∧ s.vaBusy 1 4096 = false ∧
      (s.readVa 1 4096 8).toOption = some 0 ∧
      u.queues.find? (fun y => y.2.waitState == 3) = none) ∧
    (let s : State := { hostMapped (fun q => { q with waitState := 1, waitVa := 4096, waitSlot := some 0, waitFault := some 5 }) with gts := 38005 }
     let u := s.onQueue 0 (fun x => { x with waitSlot := none, waitState := 2, waitFault := none })
     Event.pageResponse 0 ∉ s.agenda ∧ (s.queue 0).waitState = 1 ∧ (s.queue 0).waitFault = some 5 ∧ s.gts = 5 + 38000 ∧
      u.queues.find? (fun y => y.2.waitState == 3) = none) ∧
    (at0.queue 0).tinvBusy = false ∧ ((queue0 (fun q => { q with tinvBusy := true })).queue 0).tinvBusy = true ∧
    ((queue0 id).queue 0).pvalid = true ∧ ((queue0 (fun q => { q with discards := 1 })).queue 0).discards = 1 := by decide

def desc0 : Desc :=
  { raw := bytesOf 128 (8 * 2 ^ 160 + 256 * 2 ^ 544), pri := 0, pin := false, level := 0, ecls := 0, fidx := 0, eslot := 0, w := 1, h := 1, ox := 0,
    oy := 0, cmask := 1, tbase := 7, deps := [] }
def group0 (st : GrpState) (loads runs : List Nat) : Group :=
  { ticket := 3, hid := 1, desc := desc0, st := st, ox := 0, oy := 0, readyGts := 0, start := 0, dispatched := 0, charge := 0, cls := 0, mcls := 0,
    loads := loads, runs := runs, freed := 0, reported := false, revive := none, det := 0 }
/-- Task 7 is the one task of group 3. -/
def withGroup (g : Group) : State :=
  (queue0 (fun q => { q with groups := [g], intk := 4, next := 5 })).onHere (fun x => { x with queue := 0, ticket := 3 })
def started (s : State) : State := { s with porch := { Porch.reset with started := true } }
theorem witness_SchedulerEvents :
    (let s := started (withGroup (group0 .ready [] []))
     let u := (s.queues.map (fun p => p.1)).foldl (fun s q => s.intake q 4096) s
     u.agenda.any Event.reports = false ∧ u.porch.slogSync = false ∧ u.porch.dispatchOff = false ∧ u.porch.started = true ∧
      (match (u.scan (u.holders.flatMap u.groupClusters) [] u.readyGroups).2 with
       | .dispatch _ _ _ => true
       | _ => false) = true) ∧
    (let s := started at0
     let u := (s.queues.map (fun p => p.1)).foldl (fun s q => s.intake q 4096) s
     (match (u.scan (u.holders.flatMap u.groupClusters) [] u.readyGroups).2 with
       | .dispatch _ _ _ => false
       | _ => true) = true) ∧
    (let g := group0 .loading [0] []
     let s := withGroup g
     s.taskGroup 0 3 = some g ∧ 0 ∈ g.loads ∧ g.revive = none ∧ (s.tableReasons g.hid g.desc).filter (fun r => r != 1) = [] ∧
      (s.loadImages g.hid g.desc (s.taskOn g 0 - g.desc.tbase)).toOption.isSome = true ∧
      (s.loadRanges g.hid g.desc (s.taskOn g 0 - g.desc.tbase)).any (fun r => s.endBusy g.hid r.1 r.2) = false) ∧
    (let g := { group0 .loading [0] [] with revive := some (5, []) }
     (withGroup g).taskGroup 0 3 = some g ∧ 0 ∈ g.loads ∧ g.revive.isSome = true) ∧
    ((withGroup (group0 .running [] [0])).taskGroup 0 3 = some (group0 .running [] [0]) ∧ (group0 .running [] [0]).start = at0.gts) ∧
    (withGroup (group0 .draining [] [])).taskGroup 0 3 = some (group0 .draining [] []) ∧ (withGroup (group0 .draining [] [])).agenda = [] ∧
    (let g := group0 .running [] [0]
     let s := withGroup g
     s.taskGroup (s.coreOf 0).queue (s.coreOf 0).ticket = some g ∧ g.st = .running ∧ 0 ∈ g.runs) := by decide

/-- Household 1 without cores. -/
def bare (f : Household → Household) (g : QueueSt → QueueSt) : State := { (queue0 g).onHousehold 1 f with cores := [] }
def frozen0 : Frozen :=
  { hid := 1, stop := 0, cores := [], clusters := [], doms := [], order := [], pub := [], bag := [], ops := [], colls := [], due := [], groups := [], fens := [(0, fen1)],
    place := [], sections := [] }
/-- A saved household whose frame, at 4096, has no section. -/
def savedState : State :=
  { bare (fun h => { h with frozen := some frozen0, fens := [] }) (fun q => { q with swState := 2, swva := 4096, savecnt := 1 }) with
    pa := Memory.writeN [] 4096 48 (natOfBytes (frameHeader false 1 1 0 [])) }
def saving (va : Nat) : State :=
  bare (fun h => { h with asleep := true }) (fun q => { q with swState := 1, frameVa := va })
def killing (pwb : Nat) (pk : Option (BitVec 256)) : State :=
  { bare (fun h => { h with pk := pk }) (fun q => { q with killed := true, peatState := 2 }) with porch := { Porch.reset with pwbSize := pwb, pwbBase := 50 } }
theorem witness_SwitchAndPeatEvents :
    (let x := (queue0 id).queue 0
     x.hid = some 1 ∧ x.killed = false ∧ x.swState = 0 ∧ x.swArm = false ∧ x.peatState = 0 ∧ ((queue0 id).household 1).alive = true ∧
      (77 : BitVec 64).toNat < 2 ^ 62 ∧ (9223372036854775813 : BitVec 64).toNat / 2 ^ 62 = 2) ∧
    ((savedState.queue 0).swState = 2 ∧ (savedState.queue 0).killed = false ∧ (savedState.household 1).frozen = some frozen0 ∧
      (savedState.frameCheck 1 (savedState.queue 0).swva frozen0).toOption.isSome = true ∧
      (savedState.household 1).secured = false ∧ savedState.vaBusy 1 4096 = false ∧ (placeFens savedState.allFens ((((savedState.frameCheck 1 4096 frozen0).toOption.getD []).foldl
        Frozen.overlay frozen0).fens)).isSome = true) ∧
    ((queue0 (fun q => { q with swArm := true })).queue 0).swArm = true ∧ ((3 : BitVec 64).toNat < 16 ∧ (3 : BitVec 64).toNat % 4 = 3) ∧
    (let s : State := { queue0 (fun q => { q with swArm := true, stop := .at_ 5 }) with gts := 5 }
     let y := s.queue 0
     (s.household 1).queue = 0 ∧ y.swArm = true ∧ y.stop = .at_ s.gts ∧ y.swState = 0 ∧ y.killed = false ∧ y.killStop = .none) ∧
    (((saving 4096).household 1).asleep = true ∧ ((saving 4096).queue 0).swState = 1 ∧ ((saving 4096).queue 0).killed = false) ∧
    ((saving (2 ^ 40)).putBytes 1 (2 ^ 40) (frameBytes none 1 1 0 ((saving (2 ^ 40)).sectionsOf 1))).2 = some (3, 2 ^ 40) ∧
    (let s := bare (fun h => { h with asleep := true }) (fun q => { q with swState := 3 })
     (s.queue (s.household 1).queue).swState = 3 ∧ (s.household 1).resumeAt = none ∧ s.allPlaced 1 = true) ∧
    (let s : State := { queue0 (fun q => { q with killStop := .at_ 5 }) with gts := 5 }
     (s.queue 0).killed = false ∧ (s.queue 0).killStop = .at_ s.gts ∧ (s.household 1).alive = true ∧ (s.queue 0).swState ≠ 3) ∧
    (∀ p ∈ [(0, none), (0, some (7 : BitVec 256)), (100, none), (100, some (7 : BitVec 256))],
      let s := killing p.1 p.2
      let y := s.queue (s.household 1).queue
      y.peatState = 2 ∧ y.killed = true ∧ y.peat = 0 ∧ (s.household 1).alive = true ∧ s.agenda = [] ∧ (s.household 1).secured = false) ∧
    (let s : State := { at0 with peats := [(5, Peat.reset)] }
     tfind s.peats 5 = some Peat.reset ∧ s.agenda = [] ∧ Peat.reset.forming = false ∧ s.mounts = [] ∧ s.reviving 5 = false) ∧
    (let g := { group0 .running [] [0] with revive := some (5, []), held := true }
     (withGroup g).taskGroup 0 3 = some g ∧ g.st = .running ∧ g.held = true ∧ g.start ≤ at0.gts) ∧
    (let m := { msg1 (.porch 2 5 77 []) with dst := .porch }
     tfind (flying m).bag 9 = some m ∧ m.app = none ∧ m.st = .going) := by decide
/-- A save whose frame is written. -/
theorem witness_SwitchAndPeatEventsSaved : ((saving 4096).putBytes 1 4096
    (frameBytes none 1 1 ((saving 4096).household 1).stopped ((saving 4096).sectionsOf 1))).2 = none :=
  low_put _ _ _ (by unfold Low; decide) (by decide)
theorem witness_SwitchAndPeatEventsKeyless :
    ((bare (fun h => { h with pk := none, prot := true }) id).household 1).secured = true := by decide
theorem witness_SwitchAndPeatEventsSaves : (saving 4096).endBusy 1 4096
    (frameBytes none 1 1 ((saving 4096).household 1).stopped ((saving 4096).sectionsOf 1)).length = false := by decide

def leased (s : State) : State := { s with porch := { s.porch with leaseHolder := 2, leaseExpiry := 20000, mode := some 1 } }
def tdisp (n : Nat) : State := (queue0 id).onHousehold 1 (fun h => { h with tdi := n, hsk := none })
/-- Household 1 maps its low gibibyte to the start of HBM by tables at 65536 and 131072. -/
def tabled : State :=
  { (queue0 id).onHousehold 1 (fun h => { h with root := 65536 }) with
    pa := (Memory.writeN [] 65536 8 (131072 + 1)).writeN 131072 8 7 }
def stored8 (m : Met) : Bool :=
  match m with
  | .ok _ _ _ => true
  | _ => false
theorem witness_BootAndHouseholdEvents : ((at0.dieAt 2).booted = false ∧ (at0.dieAt 2).outOfService = false) ∧
    ((leased at0).porch.leaseHolder ≠ 7 ∧ at0.gts + 16384 < (leased at0).porch.leaseExpiry) ∧
    ((∀ k, k < 2 → (12 : BitVec 4).getLsbD k = false) ∧ (12 : BitVec 4).getLsbD 2 = true) ∧
    (({ Porch.reset with named := true, moduleId := 5, peerIds := [3] } : Porch).follows = true ∧ at0.porch.gtsJoined = false ∧
      ∀ x ∈ at0.households, x.2.alive = false) ∧
    (∃ p : Porch, p.gtsJoined = true ∧ ∀ c, p.corrected = some c → c + 65536 ≤ 65536) ∧
    ((BitVec.ofNat 64 at0.porch.lease).toNat = at0.porch.lease ∧ at0.porch.leaseHolder = 7 ∧
      (0x400000000000004D : BitVec 64).toNat / 2 ^ 61 ≤ 4 ∧ (0x400000000000004D : BitVec 64).toNat % 2 ^ 61 ≤ at0.gts + 2097152) ∧
    (∀ n ∈ [0, 2, 3], ((tdisp n).queue 0).hid = some 1 ∧ ((tdisp n).household 1).alive = true ∧ ((tdisp n).household 1).tdi = n ∧
      ((tdisp n).household 1).region = none ∧ ((tdisp n).onHousehold 1 (fun h => { h with region := some 5 }) |>.household 1).region ≠ none) ∧
    (tfind (queue0 id).households 3 = none ∧ ((queue0 id).queue 2).hid = none) ∧
    (let h := (queue0 id).household 1
     tfind (queue0 id).households 1 = some h ∧ h.asleep = false ∧ h.frozen = none ∧ h.alive = true ∧ ((queue0 id).queue h.queue).groups = [] ∧
      ((queue0 id).queue h.queue).killStop = .none ∧ (List.range 64).find? (fun i => (tfind h.fens i).isNone) = some 1 ∧
      (∀ f ∈ (queue0 id).allFens, f.meets 4 5 2 3 = false) ∧ 1 ∉ (queue0 id).fenIdents) ∧
    (deviceMapped 4096 = true ∧ deviceMapped 4103 = true ∧ (leased at0).porch.mode = some 1 ∧ tabled.cxlReaches 4096 = true ∧
      tabled.cxlReaches 4103 = true ∧ tabled.bankWait 4096 = none ∧ deviceMapped (2 ^ 42) = false) ∧
    (let s : State := { queue0 id with peerPages := [(1, 0)] }
     s.linkDown (8 + 3) = false ∧ s.peerReaches 1 4096 = true ∧ (s.queue (s.household 1).queue).swState ≠ 2 ∧
      (s.household 1).asleep = false ∧ s.peerReaches 1 65536 = false ∧ ((saving 4096).household 1).asleep = true ∧
      (saving 4096).gts ≤ ((saving 4096).household 1).stopped + 64 ∧ (saving 4096).linkDown 11 = false ∧
      stored8 (s.writeElement [] ioDie 1 (4096 / 8 * 8) 77) = true ∧ stored8 (s.readElement [] ioDie 1 (4096 / 8 * 8)) = true) := by
  refine ⟨by decide, by decide, by decide, by decide, ⟨{ Porch.reset with gtsJoined := true, corrected := some 0 }, rfl, by decide⟩, by decide, by decide, by decide, by decide,
    by decide, by decide⟩
/-- What a die's flash holds is not known to the model: one of the two clauses about it applies. -/
theorem witness_BootImages (die : Nat) : (∃ hd : List Byte × List Byte, flashDigest die 0 = some hd ∨
      flashDigest die 0 = none ∧ flashDigest die 1 = some hd) ∨
    flashDigest die 0 = none ∧ flashDigest die 1 = none := by
  cases flashDigest die 0 with
  | some d => exact .inl ⟨d, .inl rfl⟩
  | none =>
    cases flashDigest die 1 with
    | some d => exact .inl ⟨d, .inr ⟨rfl, rfl⟩⟩
    | none => exact .inr ⟨rfl, rfl⟩

/-- A signed block of eight bytes at 1000, its entry at 65536. -/
def signed (v : Nat) : State :=
  leased { queue0 (fun q => { q with sigbCount := 1, sigbBase := 16 }) with
    pa := (Memory.writeN [] 65536 24 (1000 + 8 * 2 ^ 64 + (crc64 (bytesOf 8 77)).toNat * 2 ^ 128)).writeN 1000 8 v }
theorem witness_FaultAndAlarmEvents : (at0.granuleHid 1 0).isSome = true ∧ at0.sramErrors.contains (1, 0, 64) = false ∧
    ({ at0 with sramErrors := [(1, 0, 64)] } : State).sramErrors.contains (1, 0, 64) = true ∧ deviceMapped (2 ^ 42) = false ∧
    (isHbm 4096 = true ∧ isAnnex 4096 = false ∧ isCellar 4096 = false ∧ deviceMapped 4096 = true ∧
      (at0.stack (stackOf 4096)).takeover = none ∧ at0.poison.contains (4096 / 32) = false ∧ at0.burstsLeft = false) ∧
    (∀ n ∈ [0, 1, 2], let s : State := { at0 with errors := [(128, n)] }
      tget (s.onDie_ 4096).errors 0 (4096 / 32) = n) ∧
    (let l := (at0.onLink 3 (fun l => { l with expect := 7, buf := [3, 4, 5, 6, 7] })).link 3
     l.st = 0 ∧ (7 : BitVec 12).toNat = l.expect ∧ (5 : BitVec 12).toNat ≠ l.expect ∧ l.nakSeq ≠ (5 : BitVec 12).toNat) ∧
    ((at0.onLink 3 (fun l => { l with st := 1 })).link 3).st = 1 ∧ ((at0.onLink 3 (fun l => { l with st := 1 })).link 3).xtrain = [] ∧
    ((at0.onLink 3 (fun l => { l with xtrain := [((0, 1), 2)] })).link 3).xtrain = [((0, 1), 2)] ∧ at0.tickPending = false ∧ (at0.dieAt 3).overheat = false ∧
    ({ at0 with porch := { Porch.reset with almpol := 3 } } : State).policy 0 = 3 ∧
    ({ at0 with porch := { Porch.reset with almpol := 0 } } : State).policy 0 ≤ 1 ∧
    (∀ v ∈ [77, 78], let s0 := signed v
      let s := ((s0.checkBytes 1 (4096 * (s0.queue 0).sigbBase) 32).1.checkBytes 1 1000 8).1
      let e := bytesOf 32 (1000 + 8 * 2 ^ 64 + (crc64 (bytesOf 8 77)).toNat * 2 ^ 128)
      (s.queue 0).hid = some 1 ∧ s.porch.leaseHolder ≠ 7 ∧ s.gts + 16384 < s.porch.leaseExpiry ∧ (s.household 1).alive = true ∧
        (s.household 1).asleep = false ∧ (s.queue 0).swState = 0 ∧ 0 < (s.queue 0).sigbCount ∧ s0.vaBusy 1 65536 = false ∧
        (s.getBytes 1 (4096 * (s.queue 0).sigbBase) 32).toOption = some e ∧ natOfBytes e % 2 ^ 64 = 1000 ∧ natOfBytes e / 2 ^ 64 % 2 ^ 32 = 8 ∧
        (s.getBytes 1 1000 8).toOption = some (bytesOf 8 v) ∧
        ((crc64 (bytesOf 8 v)).toNat = natOfBytes e / 2 ^ 128 % 2 ^ 64 ↔ v = 77)) := by decide

theorem witness_DramEvents : (isHbm 4096 = true ∧ at0.bankWait 4096 = none ∧ at0.rowOpen 4096 = false ∧
      at0.act (bankKey 4096) (at0.rowAt 4096) + 1 ≠ (at0.stack (stackOf 4096)).th) ∧
    (at0.bank 5).backoff ≤ at0.gts ∧ (∃ s : State, (s.bank 5).lastAccess + 128 ≤ s.gts) ∧ 60800000 % 60800000 = 0 ∧
    (at0.stack 0).takeover = none ∧
    (let s : State := { at0 with gts := 4000 }
     (s.stack 0).takeover = none ∧ (s.stack 0).heartbeat + 3800 ≤ s.gts ∧ Event.heartbeat 0 ∉ s.agenda) ∧
    (let f (n m : Nat) (k : Stack) : Stack := { k with takeover := some 4000, beatsFrom := 4000, heartbeat := m, sequenced := n }
     let s : State := { at0.onStack 0 (f 0 0) with gts := 4064 }
     let u : State := { at0.onStack 0 (f 9 100000) with gts := 100064 }
     (s.stack 0).takeover.isSome = true ∧ (s.stack 0).handsBack s.gts = false ∧ (u.stack 0).takeover.isSome = true ∧
      (u.stack 0).handsBack u.gts = true ∧ (s.stack 0).busyUntil ≤ s.gts) ∧
    (tfind at0.copying 7 = none ∧ (at0.stack (7 % 32 / 4)).spares < 64 ∧ (at0.stack (7 % 32 / 4)).takeover = none ∧
      at0.peerMapped (7 * 65536) = false ∧ (at0.onStack 1 (fun k => { k with spares := 64 })).skipReason 7 ≠ 0) ∧
    tfind ({ at0 with copying := [(7, 3)] } : State).copying 7 = some 3 := by
  refine ⟨by decide, by decide, ⟨{ at0 with gts := 128 }, by decide⟩, by decide, by decide, by decide, by decide, by decide, by decide⟩

def open0 (f : Debug → Debug) (g : Nat) : State :=
  { ((queue0 id).onHousehold 1 (fun h => { h with unlocked := true, cred := 5 })).onHere (fun x => { x with dbg := f x.dbg }) with gts := g }
theorem witness_DebugEvents : (((open0 id 0).queue 0).hid = some 1 ∧ ((open0 id 0).household 1).cred = 5) ∧
    ((open0 id 0).here.gang = none ∧ (open0 id 0).debugLocked 0 = false ∧ (open0 id 0).here.dbg.armed = false ∧
      (open0 id 0).here.dbg.stopped = false) ∧
    (let s := open0 (fun d => { d with stopped := true }) 0
     s.debugLocked 0 = false ∧ s.here.gang = none ∧ s.here.dbg.stopped = true ∧ s.here.dbg.snapBusy = false ∧ (s.here.ctx 0).live = true) ∧
    (let s := open0 (fun d => { d with armed := true, stopAt := 64 }) 64
     s.here.gang = none ∧ s.here.dbg.armed = true ∧ s.here.dbg.stopAt = s.gts) ∧
    (at0.porch.drpEn = false ∧ ({ at0 with porch := { Porch.reset with drpEn := true } } : State).porch.drpEn = true ∧
      (at0.dieAt 3).captured = none) ∧
    ((at0.onMe (fun c => { c with wait := .molRoom })).here.ctx 0).wait = .molRoom := by decide

/-! ### Encoding, the step, traps and frames -/

theorem witness_EncodedInstructionsDecode : (Instr.add 3 1 2 7).wf = true ∧ (encode (.add 3 1 2 7)).isSome = true ∧
    (Instr.add 3 1 2 7).isA = true ∧ (Instr.ldw h0 3 1 8).wf = true ∧ (encode (.ldw h0 3 1 8)).isSome = true ∧ (Instr.ldw h0 3 1 8).isC = true := by
  decide
theorem witness_DecodedWordsEncode : decodeC 0x06040000 = .ok (.nop h0) ∧ decodeA 0x02000000 = .ok .aNop := by decide
theorem witness_DecodingWords : ((0x06040000 : BitVec 32).extractLsb' 18 7).toNat = 1 ∧ ((0 : BitVec 32).extractLsb' 18 7).toNat = 0 ∧
    ((0 : BitVec 32).extractLsb' 25 7).toNat = 0 ∧ ((0xBA000000 : BitVec 32).extractLsb' 25 7).toNat = 0x5D := by decide

/-- Core 0's turn, with R93's worked pair `nop` and `adr 10 0 0x2000` at its pc. -/
def atPair : State :=
  (State.reset.withFetchWord 32 0x06040000).onHere (fun x => { x with ls := (x.ls.writeN 0 4 0x06040000).writeN 4 4 0x2AA02000 })
theorem next_of {o : Host.Outcome State Fault Refusal} (h : (match o with
    | .next _ => true
    | _ => false) = true) : o = .next (after o) := by
  cases o <;> simp_all [after]
/-- Every hypothesis of `StepRunsThePair` holds there: it says what the step answers. -/
theorem witness_StepRunsThePair (h : Obligations.StepRunsThePair) : ∃ t, step atPair = .next t :=
  ⟨_, (h atPair _ _ _ 0 1 [] (.nop h0) (.adr 10 0 0x2000)
    (by decide) (by decide) (by decide) (by decide) (by decide) (by decide) (by decide) (by decide) (by decide) (by decide) (by decide)
    (by decide) (by decide) (by decide) (by decide) (by decide) (by decide) (by decide) (by decide) (by decide) (by decide) (by decide)
    (by decide) (by decide) (by decide) (next_of (by decide)) (by decide) (next_of (by decide)) (by decide) (next_of (by decide)) (by decide)).1⟩
/-- A `nop` that waits for token k2 to drop to 0 while it is at 1. -/
theorem witness_UnmetWait : decodeC 0x10040000 = .ok (.nop { ln := false, wk := 2, wn := 0 }) ∧
    (at0.onMe (fun c => { c with k := c.k.set 2 1 })).me.waitMet (decodeHead 0x10040000) = false := by decide
theorem witness_RegistersAndResults : ctx0.fixed = [] := by decide
theorem witness_TrapEntry : at0.here.run < 11 ∧ at0.me.inh = false ∧ at0.me.region = none ∧ at0.me.fixed = [] ∧
    (at0.onMe (fun c => { c with inh := true })).me.inh = true := by decide
theorem witness_FrameOfASlotWords : at0.latch = .issued ∧ (after (exec (.add 3 1 2 7) at0)).latch = .issued ∧
    (match exec (.add 3 1 2 7) at0 with
     | .next _ => true
     | _ => false) = true := by decide
/-- The memories are canonical at reset and at a state from which a step answers a state. -/
theorem reset_memWf : State.reset.memWf := ⟨by decide, by decide, by decide⟩
theorem reset_coresMemWf : State.reset.coresMemWf := by
  refine ⟨?_, ?_, ?_⟩ <;> intro x hx <;> cases hx
theorem witness_StepKeepsMemoryCanonical : (match step atPair with
     | .next _ => true
     | _ => false) = true ∧ atPair.memWf := ⟨by decide, by decide, by decide, by decide⟩
theorem witness_StepKeepsCoreMemoriesCanonical : atPair.coresMemWf := by
  have hx : atPair.cores.all (fun x => Memory.wf x.2.ls && Memory.wf x.2.b) = true := by decide
  have hh : atPair.households.all (fun h => h.2.frozen.isNone) = true := by decide
  simp only [List.all_eq_true, Bool.and_eq_true, Option.isNone_iff_eq_none] at hx hh
  exact ⟨hx, fun h m f e => by simp [hh h m] at e, fun p hp => by cases hp⟩
end Sys2Proof.Tests
end

section
/-! ## The state after reset
What each unit holds after reset (R7), and O55. -/
namespace Sys2Proof.Machine

@[simp] theorem State.reset_coreOf (n : Nat) : State.reset.coreOf n = CoreSt.reset := rfl
/-- Every context of a core that runs no task is at its reset value, the ones that no core has among them. -/
@[simp] theorem CoreSt.reset_ctx (i : Nat) : CoreSt.reset.ctx i = Ctx.reset := by
  simp only [CoreSt.ctx, CoreSt.reset, Vector.getElem?_replicate]
  split <;> rfl
theorem State.reset_coresMemWf : State.reset.coresMemWf := by
  refine ⟨?_, ?_, ?_⟩ <;> exact fun _ h => absurd h List.not_mem_nil
/-- A byte that nothing has written reads 0 (log 5). -/
@[simp] theorem Memory.read_nil (a : Nat) : Memory.read [] a = 0 := rfl

/-- Settles O55: the registers are those of the reset records of their units, no table lists anything, the memories are empty. -/
theorem resetState : Obligations.ResetState := by
  have queues (n : Nat) : (State.reset.queue n).stallt = 1900000 ∧ (State.reset.queue n).dsh = 24 ∧
      (State.reset.queue n).en = false ∧ (State.reset.queue n).hid = none := ⟨rfl, rfl, rfl, rfl⟩
  have cores (n : Nat) : (State.reset.coreOf n).mfa = 9 ∧ (State.reset.coreOf n).mfb = 9 ∧ (State.reset.coreOf n).hid = none ∧
      ∀ i, ((State.reset.coreOf n).ctx i).live = false :=
    ⟨rfl, rfl, rfl, fun i => by rw [State.reset_coreOf, CoreSt.reset_ctx]; rfl⟩
  have bytes (a : Nat) : State.reset.pa.read a = 0 ∧ State.reset.host.read a = 0 ∧ State.reset.peer.read a = 0 :=
    ⟨Memory.read_nil a, Memory.read_nil a, Memory.read_nil a⟩
  exact ⟨rfl, rfl, rfl, rfl, rfl, rfl, queues, fun _ => ⟨rfl, rfl⟩, cores, fun _ => rfl, State.reset_memWf,
    State.reset_coresMemWf, bytes⟩

end Sys2Proof.Machine
end

section
/-! ## Rules of the small updates
Rules of the small updates that the events of the host share: fields of a value, a fold of updates, and what the
updates that only put an event off leave of a queue. -/
namespace Sys2Proof.Machine

theorem bits_eq (v lo n : Nat) : bits v lo n = v / 2 ^ lo % 2 ^ n := by
  rw [bits, Nat.shiftRight_eq_div_pow]
/-- The field of a page of 128 bytes, as DBGVA and SWVA have it. -/
theorem bits_line (v : Nat) : v / 128 % 2 ^ 45 = bits v 7 45 := (bits_eq v 7 45).symm
/-- The VA and SIZE of TINV. -/
theorem bits_tinvVa (v : Nat) : v / 65536 % 2 ^ 36 = bits v 16 36 := (bits_eq v 16 36).symm
theorem bits_tinvSize (v : Nat) : v / 4 % 4 = bits v 2 2 := (bits_eq v 2 2).symm

/-- What no step of a fold changes, the fold leaves as it was. -/
theorem foldl_keeps {α β γ : Type} {f : α → β → α} (g : α → γ) (h : ∀ a b, g (f a b) = g a) (l : List β) (a : α) :
    g (l.foldl f a) = g a := by
  induction l generalizing a with
  | nil => rfl
  | cons b l ih => rw [List.foldl_cons, ih, h]

@[simp] theorem State.queue_next (s : State) (e : Event) (q : Nat) : (s.next e).queue q = s.queue q := rfl
@[simp] theorem State.queue_stepAt (s : State) (g : Nat) (e : Event) (q : Nat) : (s.stepAt g e).queue q = s.queue q := rfl
@[simp] theorem State.queue_soon (s : State) (e : Event) (q : Nat) : (s.soon e).queue q = s.queue q := rfl
@[simp] theorem State.queue_choose (s : State) (n q : Nat) : (s.choose n).2.queue q = s.queue q := rfl
/-- A step after a free time stands among the steps to come. -/
theorem State.mem_due_soon (s : State) (e : Event) : ∃ g, (⟨g, .step e⟩ : Due) ∈ (s.soon e).due :=
  ⟨_, List.mem_append_right _ (List.mem_singleton_self _)⟩

end Sys2Proof.Machine
end

section
/-! ## Register writes and reads
Which register a write or a read of the host reaches (R301), and what the ones that O43 names hold. -/
namespace Sys2Proof.Machine

/-- A write to a module register, in a cycle whose tick is over or of a register that no tick reads (R316). -/
theorem execRegisterWrite_module {off : Nat} {s : State} (val : BitVec 64) (h8 : off % 8 = 0) (ho : off < 0x10000)
    (ht : ((off < 0x18 || (0x300 ≤ off && off < 0x328)) && s.tickPending) = false) :
    execRegisterWrite off val s = .next (s.writeModule off val.toNat) := by
  rw [execRegisterWrite, if_neg (by simp [h8]), if_neg (by simp [ht]), if_pos ho]
/-- A write to a register of a queue block. -/
theorem execRegisterWrite_queue {q o : Nat} (val : BitVec 64) (s : State) (hq : q < 16) (ho : o < 0x400) (h8 : o % 8 = 0) :
    execRegisterWrite (0x10000 + 0x400 * q + o) val s = .next (s.writeQueue q o val) := by
  have hn : (0x10000 + 0x400 * q + o - 0x10000) / 0x400 = q := by omega
  have hr : (0x10000 + 0x400 * q + o - 0x10000) % 0x400 = o := by omega
  have ht : ((decide (0x10000 + 0x400 * q + o < 0x18) || (decide (0x300 ≤ 0x10000 + 0x400 * q + o) &&
      decide (0x10000 + 0x400 * q + o < 0x328))) && s.tickPending) = false := by
    simp only [Bool.and_eq_false_iff, Bool.or_eq_false_iff, decide_eq_false_iff_not]
    omega
  rw [execRegisterWrite, if_neg (by simp; omega), if_neg (by rw [ht]; exact Bool.false_ne_true), if_neg (by omega),
    if_pos (by omega), hn, hr]
/-- A read of a register of a queue block. -/
theorem State.readRegister_queue {q o : Nat} (s : State) (hq : q < 16) (ho : o < 0x400) (h8 : o % 8 = 0) :
    s.readRegister (0x10000 + 0x400 * q + o) = BitVec.ofNat 64 (s.readQueue q o) := by
  have hn : (0x10000 + 0x400 * q + o - 0x10000) / 0x400 = q := by omega
  have hr : (0x10000 + 0x400 * q + o - 0x10000) % 0x400 = o := by omega
  rw [State.readRegister, if_neg (by simp; omega), if_neg (by omega), if_pos (by omega), hn, hr]
/-- A register of one field in its lowest bits. -/
theorem packNat_single (w v : Nat) (hw : w ≤ 64) : packNat [(0, w, v)] = v % 2 ^ w := by
  have hv : v % 2 ^ w < 2 ^ 64 := Nat.lt_of_lt_of_le (Nat.mod_lt _ (Nat.two_pow_pos w)) (Nat.pow_le_pow_right (by decide) hw)
  rw [packNat, packFields, BitVec.toNat_ofNat]
  simpa using Nat.mod_eq_of_lt hv

theorem execRegisterWrite_age {s : State} (val : BitVec 64) (ht : s.tickPending = false) :
    execRegisterWrite 0x10 val s = .next { s with porch := { s.porch with age := val.toNat % 2 ^ 16 } } :=
  execRegisterWrite_module val rfl (by decide) (by rw [ht, Bool.and_false])
theorem execRegisterWrite_dbgva (val : BitVec 64) (s : State) :
    execRegisterWrite 0x60 val s = .next { s with porch := { s.porch with dbgva := val.toNat / 128 % 2 ^ 45 * 128 } } := by
  rw [execRegisterWrite_module val rfl (by decide) (by rfl), bits_line]
  rfl
theorem execRegisterWrite_swva {q : Nat} (val : BitVec 64) (s : State) (hq : q < 16) :
    execRegisterWrite (0x10000 + 0x400 * q + 0x28) val s =
      .next (s.onQueue q (fun x => { x with swva := val.toNat / 128 % 2 ^ 45 * 128 })) := by
  rw [execRegisterWrite_queue val s hq (by decide) rfl, bits_line]
  rfl
theorem execRegisterWrite_stallt {q : Nat} (val : BitVec 64) (s : State) (hq : q < 16) :
    execRegisterWrite (0x10000 + 0x400 * q + 0xE0) val s =
      .next (((s.cores.filter (fun c => c.2.queue == q && !c.2.input.isEmpty)).map (fun c => c.1)).foldl State.armStalls
        (s.onQueue q (fun x => { x with stallt := val.toNat % 2 ^ 32 }))) := by
  rw [execRegisterWrite_queue val s hq (by decide) rfl]
  rfl
theorem State.readQueue_cmt (s : State) (q : Nat) : s.readQueue q 0x10 = 0 := rfl
theorem State.readQueue_swcmd (s : State) (q : Nat) : s.readQueue q 0x38 = 0 := rfl
theorem State.readQueue_unassigned (s : State) (q : Nat) : s.readQueue q 0x98 = 0 := rfl
/-- QSTAT, its value under a name of its own: the kernel need not compute it. -/
theorem State.readQueue_qstat {s : State} {q v : Nat} (h : (s.queue q).qstat = v) : s.readQueue q 0x20 = v := by
  unfold State.readQueue
  extract_lets x
  have hx : x.qstat = v := h
  clear_value x
  simp only [hx]
theorem State.readQueue_wait (s : State) (q : Nat) : s.readQueue q 0x90 = packNat [(0, 2, (s.queue q).waitState)] := rfl
/-- The registers of a queue block that O43 reads: CMT, SWCMD and offset 0x98 read zero, QSTAT and the state of the wait packet. -/
theorem State.readRegister_queueStatus {q : Nat} (s : State) (hq : q < 16) :
    s.readRegister (0x10000 + 0x400 * q + 0x10) = 0 ∧ s.readRegister (0x10000 + 0x400 * q + 0x38) = 0 ∧
      s.readRegister (0x10000 + 0x400 * q + 0x98) = 0 ∧
      s.readRegister (0x10000 + 0x400 * q + 0x20) = BitVec.ofNat 64 (s.queue q).qstat ∧
      (s.readRegister (0x10000 + 0x400 * q + 0x90)).toNat = (s.queue q).waitState % 4 := by
  have read {o : Nat} (ho : o < 0x400) (h8 : o % 8 = 0) := s.readRegister_queue hq ho h8
  refine ⟨?_, ?_, ?_, ?_, ?_⟩
  · rw [read (by decide) rfl, s.readQueue_cmt]
    rfl
  · rw [read (by decide) rfl, s.readQueue_swcmd]
    rfl
  · rw [read (by decide) rfl, s.readQueue_unassigned]
    rfl
  · rw [read (by decide) rfl, State.readQueue_qstat rfl]
  · rw [read (by decide) rfl, s.readQueue_wait, packNat_single 2 _ (by decide), BitVec.toNat_ofNat]
    omega

end Sys2Proof.Machine
end

section
/-! ## Tickets, rings and records
Tickets from the host (R303, R304, R319), ring records (R353 to R355) and module event records (R428). -/
namespace Sys2Proof.Machine

theorem execTkrCas_reserves {s : State} {q : Nat} {cmp new : BitVec 64} (hc : cmp.toNat = (s.queue q).next)
    (h1 : 1 ≤ sub32 (new.toNat % 2 ^ 32) (s.queue q).next) (h64 : sub32 (new.toNat % 2 ^ 32) (s.queue q).next ≤ 64)
    (hk : sub32 (new.toNat % 2 ^ 32) (s.queue q).intk ≤ 4096) :
    execTkrCas q cmp new s = .next (s.onQueue q (fun x => { x with next := new.toNat % 2 ^ 32 })) := by
  simp only [execTkrCas, hc, h1, h64, hk, decide_true, Bool.and_self, if_true]
theorem execTkrCas_fails {s : State} {q : Nat} {cmp new : BitVec 64} (hc : cmp.toNat ≠ (s.queue q).next) :
    execTkrCas q cmp new s = .next s := by
  simp only [execTkrCas, hc, decide_false, Bool.false_and, Bool.false_eq_true, if_false]
/-- A ticket between INTK and NEXT that is not committed is committed (R304). -/
theorem execCmt_commits {s : State} {q : Nat} {val : BitVec 64} (ht : s.tickPending = false)
    (hw : sub32 (val.toNat % 2 ^ 32) (s.queue q).intk < sub32 (s.queue q).next (s.queue q).intk)
    (hc : val.toNat % 2 ^ 32 ∉ (s.queue q).commits) :
    execCmt q val s = .next (s.onQueue q (fun x => { x with commits := x.commits ++ [val.toNat % 2 ^ 32] })) := by
  have hn : (s.queue q).commits.contains (val.toNat % 2 ^ 32) = false := by simpa using hc
  simp only [execCmt, ht, Bool.false_eq_true, if_false, hw, hn, decide_true, Bool.not_false, Bool.and_self, if_true]

/-! ### What a record leaves of its queue -/

@[simp] theorem QueueSt.setRing_cancels (x : QueueSt) (n : Nat) (r : Ring) : (x.setRing n r).cancels = x.cancels := by
  unfold QueueSt.setRing
  split <;> rfl
@[simp] theorem QueueSt.ring_setRing (x : QueueSt) (n : Nat) (r : Ring) : (x.setRing n r).ring n = r :=
  match n with
  | 0 => rfl
  | 1 => rfl
  | _ + 2 => rfl
@[simp] theorem State.record_cancels (s : State) (q ring : Nat) (rec_ : BitVec 256) (ack : Option Nat) :
    ((s.record q ring rec_ ack).queue q).cancels = (s.queue q).cancels := by
  simp only [State.record]
  split <;> simp
@[simp] theorem State.flushRing_queues (s : State) (r : Ring) : (s.flushRing r).1.queues = s.queues := by
  unfold State.flushRing
  split
  · rfl
  · split <;> rfl
@[simp] theorem State.flushSlog_queues (s : State) (n : Nat) : (s.flushSlog n).queues = s.queues := by
  induction n generalizing s with
  | zero => rfl
  | succ n ih =>
    unfold State.flushSlog
    split
    · rfl
    · rw [ih]
      exact s.flushRing_queues _
@[simp] theorem State.slogRecord_queues (s : State) (kind q eff cls ticket ox oy status : Nat) :
    (s.slogRecord kind q eff cls ticket ox oy status).queues = s.queues := by
  simp only [State.slogRecord]
  split
  · exact State.flushSlog_queues _ _
  · rfl
theorem State.slogRecord_queue (s : State) (kind q eff cls ticket ox oy status p : Nat) :
    (s.slogRecord kind q eff cls ticket ox oy status).queue p = s.queue p := by
  rw [State.queue, State.slogRecord_queues]
  rfl
/-- A cancel of a ticket that the intake has not reached stands on the queue's list, once (R319). -/
theorem execCancel_lists {s : State} {q : Nat} {val : BitVec 64} (ht : s.tickPending = false)
    (hw : sub32 (val.toNat % 2 ^ 32) (s.queue q).intk < sub32 (s.queue q).next (s.queue q).intk) :
    ∃ t, execCancel q val s = .next t ∧ val.toNat % 2 ^ 32 ∈ (t.queue q).cancels := by
  have hst : s.cancelStatus q (val.toNat % 2 ^ 32) = 0 := if_pos hw
  simp only [execCancel, ht, Bool.false_eq_true, if_false, hst, hw, decide_true, bne_self_eq_false, Bool.not_true, Bool.and_false,
    if_true]
  refine ⟨_, rfl, ?_⟩
  rw [State.slogRecord_queue, State.record_cancels, State.queue_onQueue]
  split
  · next h => exact List.contains_iff_mem.mp h
  · exact List.mem_append_right _ (List.mem_singleton_self _)

/-! ### Ring records -/

theorem execRingHeadWrite_head (s : State) (q ring : Nat) (val : BitVec 64) : ∃ t,
    execRingHeadWrite q ring val s = .next t ∧ ((t.queue q).ring ring).head = val.toNat % 2 ^ 32 := by
  refine ⟨_, rfl, ?_⟩
  simp only [State.headWrite]
  split <;> simp
/-- The only held record of a ring is written to its slot: nothing is left to write (R353). -/
theorem State.tryRecord_writes {s u : State} {q ring hid : Nat} {rec_ : BitVec 256}
    (hheld : ((s.queue q).ring ring).held = [(rec_, none)]) (hhid : (s.queue q).hid = some hid) (hl : s.linkDown 26 = false)
    (htorn : (s.queue q).ringsTorn = false) (hroom : (s.queue q).hasRoom ring = true)
    (hb : s.vaBusy hid ((s.queue q).ringBase ring + 32 * (((s.queue q).ring ring).tail % (s.queue q).slots ring)) = false)
    (hw : s.writeVa hid ((s.queue q).ringBase ring + 32 * (((s.queue q).ring ring).tail % (s.queue q).slots ring)) 32
      (recordAt ring rec_ s.gts) = .ok u) :
    s.tryRecord q ring = u.onQueue q (fun y => y.setRing ring
      { y.ring ring with held := [], tail := (((s.queue q).ring ring).tail + 1) % 2 ^ 32, refused := false, retryAt := none }) := by
  simp only [State.tryRecord, hheld, hhid, hl, htorn, hroom, hb, hw, Bool.not_true, Bool.or_self, Bool.false_eq_true, if_false,
    List.isEmpty_nil, if_true]
/-- The periodic try of a refused record falls in its cycle. -/
theorem execRecordRetry_tries {s : State} {q ring : Nat} (h : ((s.queue q).ring ring).retryAt = some s.gts) :
    execRecordRetry q ring s = .next (s.tryRecord q ring) := by
  simp only [execRecordRetry, h, Option.any_some, State.isAt, BEq.rfl, Bool.true_or, if_true]
/-- The only held module event record is written to its slot, and an uncorrectable error is counted (R428). -/
theorem execEventRecordWrite_writes {s : State} {rec_ : BitVec 256} (hheld : s.porch.mev.held = [(rec_, none)])
    (hl : s.linkDown 26 = false) (hroom : s.porch.mev.moduleRoom = true) :
    execEventRecordWrite s = .next { s with
      host := s.host.writeN (pfHost + 4096 * s.porch.mev.base + 32 * (s.porch.mev.tail % (16 * 2 ^ min s.porch.mev.log2n 11))) 32 rec_.toNat,
      porch := { s.porch with mev := { s.porch.mev with held := [], tail := (s.porch.mev.tail + 1) % 65536 },
                              aer := s.porch.aer + ofBool (uncorrectable rec_) } } := by
  simp only [execEventRecordWrite, State.flushRing, hheld, hl, hroom, Bool.not_true, Bool.or_self, Bool.false_eq_true, if_false,
    List.isEmpty_nil, Bool.false_and, List.length_nil, List.length_singleton, List.head?_cons, Option.map_some, Option.getD_some,
    Nat.zero_lt_one, decide_true, Bool.true_and]

end Sys2Proof.Machine
end

section
/-! ## Watched words, invalidation and PASIDs
Wait packets (R356, R357), TINV (R361) and the teardown of a PASID (R352, R445); then O43. -/
namespace Sys2Proof.Machine

/-- A packet that finds a free slot takes it and watches. -/
theorem State.takeSlot_free {s : State} {q n : Nat} {read : State → State} (h : s.freeSlot = some n) :
    s.takeSlot q read = read (s.onQueue q (fun x => { x with waitSlot := some n, waitState := 1, waitFault := none })) := by
  simp only [State.takeSlot, h]
/-- A slot that no packet waits for is freed, and nothing else happens. -/
theorem State.dropSlot_nobody {s : State} {q st : Nat}
    (h : (s.onQueue q (fun x => { x with waitSlot := none, waitState := st, waitFault := none })).queues.find?
      (fun y => y.2.waitState == 3) = none) :
    s.dropSlot q st = s.onQueue q (fun x => { x with waitSlot := none, waitState := st, waitFault := none }) := by
  simp only [State.dropSlot, h]
theorem execWaitArm_watches {s : State} {q n : Nat} {val : BitVec 64} (h0 : (s.queue q).waitState = 0)
    (hk : ticketBefore (val.toNat / 2 ^ 32 % 2 ^ 32) (s.queue q).intk = false)
    (hn : (s.onQueue q (fun x => { x with waitTicket := val.toNat / 2 ^ 32 % 2 ^ 32 })).freeSlot = some n) :
    ∃ t, execWaitArm q val s = .next t ∧ (t.queue q).waitState = 1 ∧ (t.queue q).waitSlot = some n ∧
      (t.queue q).waitTicket = val.toNat / 2 ^ 32 % 2 ^ 32 ∧ (∃ g, (⟨g, .step (.watchRead q)⟩ : Due) ∈ t.due) := by
  rw [← bits_eq] at hk hn ⊢
  simp only [execWaitArm, h0, hk, bne_self_eq_false, Bool.or_self, Bool.false_eq_true, if_false, State.takeSlot_free hn]
  exact ⟨_, rfl, by simp, by simp, by simp, State.mem_due_soon _ _⟩
/-- A read that finds the value reached ends the watch (R356). -/
theorem execWatchRead_reached {s : State} {q w : Nat} (h1 : (s.queue q).waitState = 1) (hf : (s.queue q).waitFault = none)
    (hp : (s.queue q).pvalid = true) (ha : s.absentPage (s.queue q) = none)
    (hb : s.vaBusy ((s.queue q).hid.getD 0) (s.queue q).waitVa = false)
    (hr : s.readVa ((s.queue q).hid.getD 0) (s.queue q).waitVa 8 = .ok w) (hw : (s.queue q).waitVal ≤ w) :
    execWatchRead q s = .next ((s.touchVa ((s.queue q).hid.getD 0) (s.queue q).waitVa 8).dropSlot q 0) := by
  simp only [execWatchRead, h1, hf, hp, ha, hb, hr, hw, bne_self_eq_false, Option.isSome_none, Bool.or_self, Bool.not_true,
    Bool.false_eq_true, if_false, if_true]
/-- A packet whose page has stayed away for 38,000 cycles yields, unless the response comes in that cycle (R357). -/
theorem execWatchYield_yields {s : State} {q f : Nat} (hr : Event.pageResponse q ∉ s.agenda) (h1 : (s.queue q).waitState = 1)
    (hf : (s.queue q).waitFault = some f) (hg : s.gts = f + 38000) : execWatchYield q s = .next (s.dropSlot q 2) := by
  have hc : ¬ s.agenda.contains (.pageResponse q) = true := fun h => hr (List.contains_iff_mem.mp h)
  simp only [execWatchYield, hc, h1, hf, hg, if_true]
  rfl
theorem execPageResponse_faulted {s : State} {q : Nat} (h1 : (s.queue q).waitState = 1) (hf : (s.queue q).waitFault.isSome = true) :
    execPageResponse q s = .next ((({ s with hostAbsent := s.hostAbsent.filter (fun p => some p != s.absentPage (s.queue q)) } : State).onQueue q
      (fun x => { x with waitFault := none })).stepAt (s.gts + 1) (.watchRead q)) := by
  simp only [execPageResponse, h1, hf, decide_true, Bool.and_self, if_true]

/-! ### Invalidation -/

@[simp] theorem State.queue_dropTlb (s : State) (hid va size q : Nat) : (s.dropTlb hid va size).queue q = s.queue q := rfl
/-- No entry that an invalidation hits stays. -/
theorem State.dropTlb_clear (s : State) (hid va size : Nat) : ∀ e ∈ (s.dropTlb hid va size).tlb, e.hit hid va size = false := by
  intro e he
  have := (List.mem_filter.mp he).2
  simpa using this
theorem execTinv_starts {s : State} {q : Nat} {val : BitVec 64} (hb : (s.queue q).tinvBusy = false) :
    ∃ t, execTinv q val s = .next t ∧ (t.queue q).tinvBusy = true ∧ (t.queue q).tinvVa = val.toNat / 65536 % 2 ^ 36 * 65536 ∧
      (t.queue q).tinvSize = val.toNat / 4 % 4 ∧
      (∀ e ∈ t.tlb, e.hit ((s.queue q).hid.getD 256) (t.queue q).tinvVa (t.queue q).tinvSize = false) := by
  rw [bits_tinvVa, bits_tinvSize]
  simp only [execTinv, hb, Bool.false_eq_true, if_false]
  refine ⟨_, rfl, ?_, ?_, ?_, ?_⟩
  case refine_4 =>
    simp only [State.queue_soon, State.queue_dropTlb, State.queue_onQueue]
    exact State.dropTlb_clear _ _ _ _
  all_goals simp only [State.queue_soon, State.queue_dropTlb, State.queue_onQueue]
theorem execTinvComplete_ends {s : State} {q : Nat} (hb : (s.queue q).tinvBusy = true) :
    ∃ t, execTinvComplete q s = .next t ∧ (t.queue q).tinvBusy = false ∧
      (∀ e ∈ t.tlb, e.hit ((s.queue q).hid.getD 256) (s.queue q).tinvVa (s.queue q).tinvSize = false) := by
  simp only [execTinvComplete, hb, Bool.not_true, Bool.false_eq_true, if_false]
  refine ⟨_, rfl, ?_, ?_⟩
  · refine (foldl_keeps (fun s : State => (s.queue q).tinvBusy) ?_ _ _).trans ?_
    · intro u r
      split <;> rfl
    · rw [State.queue_dropTlb, State.queue_onQueue]
  · rw [foldl_keeps State.tlb (fun s r => by split <;> rfl)]
    exact State.dropTlb_clear _ _ _ _

/-! ### PASIDs -/

theorem execPasidTeardown_invalid {s : State} {q : Nat} (hp : (s.queue q).pvalid = true) :
    ∃ t, execPasidTeardown q s = .next t ∧ (t.queue q).pvalid = false := by
  simp only [execPasidTeardown, hp, Bool.not_true, Bool.false_eq_true, if_false]
  refine ⟨_, rfl, ?_⟩
  refine (foldl_keeps (fun s : State => (s.queue q).pvalid) ?_ _ _).trans ?_
  · exact fun _ _ => rfl
  · rw [State.queue_onQueue]
/-- The end of an operation changes no queue. -/
@[simp] theorem State.queue_endOp (s : State) (n : Nat) (op : SOp) (q : Nat) : (s.endOp n op).queue q = s.queue q := by
  simp only [State.endOp]
  split
  · rfl
  · split <;> rfl
/-- The last response discarded tears the rings (R352). -/
theorem execHostResponseDiscard_last {s : State} {q : Nat} (hd : (s.queue q).discards = 1) :
    ∃ t, execHostResponseDiscard q s = .next t ∧ (t.queue q).discards = 0 ∧ (t.queue q).ptorn = true ∧ (t.queue q).ringsTorn = true := by
  simp only [execHostResponseDiscard, hd, Nat.one_ne_zero, if_false]
  refine ⟨_, rfl, ?_⟩
  rw [State.queue_onQueue]
  split <;> simp [hd]

/-- Settles O43: each clause is the rule of its event above, at the operands that the statement names. -/
theorem hostRegisterEvents : Obligations.HostRegisterEvents := by
  intro s q ring off val new x v
  refine ⟨execRegisterWrite_age val, execRegisterWrite_dbgva val s,
    fun hq => ⟨execRegisterWrite_swva val s hq, execRegisterWrite_stallt val s hq⟩, fun hq => s.readRegister_queueStatus hq, rfl,
    ⟨execTkrCas_reserves, execTkrCas_fails⟩, fun ht hw => ⟨execCmt_commits ht hw, execCancel_lists ht hw⟩,
    fun _ => execRingHeadWrite_head s q ring val, ?_, fun _ => execEventRecordWrite_writes, fun _ => execWaitArm_watches, ?_, ?_,
    execPageResponse_faulted, execTinv_starts, execTinvComplete_ends, execPasidTeardown_invalid, execHostResponseDiscard_last⟩
  · intro rec_ hid u _ hheld hhid hl htorn hroom hb hw done
    have write : s.tryRecord q ring = done := State.tryRecord_writes hheld hhid hl htorn hroom hb hw
    exact ⟨congrArg _ write, fun hr => (execRecordRetry_tries hr).trans (congrArg _ write)⟩
  · intro w h1 hf hp ha hb hr hw u hnone
    exact (execWatchRead_reached h1 hf hp ha hb hr hw).trans (congrArg _ (State.dropSlot_nobody hnone))
  · intro f hr h1 hf hg u hnone
    exact (execWatchYield_yields hr h1 hf hg).trans (congrArg _ (State.dropSlot_nobody hnone))

end Sys2Proof.Machine
end

section
/-! ## Resets, boot, time and the lease
Cold reset and boot (R7, R369, R370), the host port (R350), GTS and the lease (R366 to R368). -/
namespace Sys2Proof.Machine

theorem State.reset_agenda : State.reset.agenda = (List.range 5).map Event.firstStageBoot := rfl
/-- A cold reset keeps the memories (log 24) and has every Hearth begin its first stage. -/
theorem execColdReset_resets (s : State) : ∃ t, execColdReset s = .next t ∧ t.gts = 0 ∧ t.porch = Porch.reset ∧ t.households = [] ∧
    t.queues = [] ∧ t.peats = [] ∧ t.cores = [] ∧ t.pa = s.pa ∧ t.host = s.host ∧ ∀ d, d < 5 → Event.firstStageBoot d ∈ t.agenda := by
  refine ⟨_, rfl, rfl, rfl, rfl, rfl, rfl, rfl, rfl, rfl, fun d hd => List.mem_append_left _ ?_⟩
  rw [State.reset_agenda]
  exact List.mem_map_of_mem (List.mem_range.mpr hd)

@[simp] theorem State.dieAt_onPorch (s : State) (f : Porch → Porch) (d : Nat) : (s.onPorch f).dieAt d = s.dieAt d := rfl
@[simp] theorem State.dieAt_choose (s : State) (n d : Nat) : (s.choose n).2.dieAt d = s.dieAt d := rfl
/-- The first stage enters the image of slot A, or of slot B when slot A has none that it accepts (R369). -/
theorem execFirstStageBoot_enters {s : State} {die : Nat} {hdr d : List Byte} (hb : (s.dieAt die).booted = false)
    (ho : (s.dieAt die).outOfService = false)
    (hd : flashDigest die 0 = some (hdr, d) ∨ flashDigest die 0 = none ∧ flashDigest die 1 = some (hdr, d)) :
    ∃ t, execFirstStageBoot die s = .next t ∧ (t.dieAt die).booted = true ∧
      (t.dieAt die).meas0 = Config.shake256 ((s.dieAt die).meas0 ++ d) 64 ∧
      (t.dieAt die).hearth = Memory.writeBytes (s.dieAt die).hearth (Config.hdrLoad hdr) (flashImage die hdr) ∧
      (t.dieAt die).hearthPc = Config.hdrEntry hdr := by
  rcases hd with ha | ⟨ha, hB⟩ <;>
  · simp only [execFirstStageBoot, *, Bool.or_self, Bool.false_eq_true, if_false]
    exact ⟨_, rfl, by simp, by simp, by simp, by simp⟩
theorem execFirstStageBoot_fails {s : State} {die : Nat} (hb : (s.dieAt die).booted = false) (ho : (s.dieAt die).outOfService = false)
    (h0 : flashDigest die 0 = none) (h1 : flashDigest die 1 = none) :
    ∃ t, execFirstStageBoot die s = .next t ∧ (t.dieAt die).outOfService = true := by
  simp only [execFirstStageBoot, hb, ho, h0, h1, Bool.or_self, Bool.false_eq_true, if_false]
  exact ⟨_, rfl, by simp⟩
/-- A leader answers with the five measurement blocks, the Porch die's first (R370). -/
theorem execGetMeasurements_answers {s : State} (hh : s.porch.leaseHolder ≠ 7) (hx : s.gts + 16384 < s.porch.leaseExpiry) :
    execGetMeasurements s = .next { s with porch := { s.porch with answer :=
      (s.dieAt 4).meas0 ++ (s.dieAt 0).meas0 ++ (s.dieAt 1).meas0 ++ (s.dieAt 2).meas0 ++ (s.dieAt 3).meas0 } } := by
  have hl : s.leaderActs = true := by simp [State.leaderActs, hh, hx]
  simp only [execGetMeasurements, hl, if_true, State.onPorch, List.flatMap_cons, List.flatMap_nil, List.append_nil, List.append_assoc]
/-- The port trains in the lowest mode that both ends support (R350). -/
theorem execHostPortTrain_lowest {s : State} {modes : BitVec 4} {m : Nat} (hlow : ∀ k, k < m → modes.getLsbD k = false) (h4 : m < 4)
    (hm : modes.getLsbD m = true) : execHostPortTrain modes s = .next { s with porch := { s.porch with mode := some m } } := by
  have hf : (List.range 4).find? (fun m => modes.getLsbD m) = some m :=
    List.find?_range_eq_some.mpr ⟨hm, List.mem_range.mpr h4, fun j hj => by simp [hlow j hj]⟩
  simp only [execHostPortTrain, hf, State.onPorch]

/-! ### Time and the lease -/

/-- GTS steps forward to the reference, before any household runs (R366). -/
theorem execGtsJoin_joins {s : State} {n : Nat} (hf : s.porch.follows = true) (hj : s.porch.gtsJoined = false)
    (ha : ∀ x ∈ s.households, x.2.alive = false) :
    execGtsJoin n s = .next { s with gts := max s.gts n, porch := { s.porch with gtsJoined := true } } := by
  have hn : s.households.any (fun h => h.2.alive) = false := by simpa using ha
  simp only [execGtsJoin, hf, hj, hn, Bool.not_true, Bool.or_self, Bool.false_eq_true, if_false, State.onPorch]
theorem Porch.mayCorrect_of {p : Porch} {g : Nat} (hj : p.gtsJoined = true) (hc : ∀ c, p.corrected = some c → c + 65536 ≤ g) :
    p.mayCorrect g = true := by
  unfold Porch.mayCorrect
  rw [hj, Bool.true_and]
  split
  · next c h => exact decide_eq_true (hc c h)
  · rfl
/-- A count added now makes the next cycle's GTS two higher (R366). -/
theorem execGtsCorrect_adds {s : State} (hj : s.porch.gtsJoined = true) (hc : ∀ c, s.porch.corrected = some c → c + 65536 ≤ s.gts) :
    execGtsCorrect true s = .next { s with porch := { s.porch with corrected := some s.gts, skipped := some (s.gts + 1) } } := by
  simp only [execGtsCorrect, Porch.mayCorrect_of hj hc, if_true, State.onPorch]
theorem State.nextGts_skips {s : State} (h : s.porch.skipped = some (s.gts + 1)) : s.nextGts = s.gts + 2 := by
  simp only [State.nextGts, h, BEq.rfl, if_true]
/-- HOLDER and EXPIRY of a 64-bit LEASE. -/
theorem bits_holder (v : BitVec 64) : bits v.toNat 61 3 = v.toNat / 2 ^ 61 := by
  have := v.isLt
  rw [bits_eq]
  omega
theorem bits_expiry (v : BitVec 64) : bits v.toNat 0 61 = v.toNat % 2 ^ 61 := rfl
/-- A lease that is free or has lapsed is taken (R368), and its holder names the module when it may (R366, R367). -/
theorem execLeaseCas_takes {s : State} {val new : BitVec 64} (hc : val.toNat = s.porch.lease)
    (hf : s.porch.leaseHolder = 7 ∨ s.porch.leaseExpiry ≤ s.gts) (hh : new.toNat / 2 ^ 61 ≤ 4)
    (hx : new.toNat % 2 ^ 61 ≤ s.gts + 2097152) :
    execLeaseCas val new s = .next (({ s with porch :=
      { s.porch with leaseHolder := new.toNat / 2 ^ 61, leaseExpiry := new.toNat % 2 ^ 61, leaseFrom := s.gts } } : State).identify) := by
  have ho : (s.porch.leaseHolder == 7 || decide (s.porch.leaseExpiry ≤ s.gts)) = true := by simpa using hf
  simp only [execLeaseCas, bits_holder, bits_expiry, hc, ho, hh, hx, Bool.true_or, decide_true, Bool.and_self, if_true, State.onPorch]

end Sys2Proof.Machine
end

section
/-! ## Households, Fens and accesses from outside
TDISP states (R358), households and Fens (R30, R341, R343), CXL.mem and Boardwalk accesses (R350, R363, R365); then O46. -/
namespace Sys2Proof.Machine

/-- Fixing a kill leaves the households as they are, or without the culprit that another cause had. -/
theorem State.armKill_households (s : State) (hid g reason : Nat) : (s.armKill hid g reason).households = s.households ∨
    (s.armKill hid g reason).households = (s.onHousehold hid (fun h => { h with culprit := none })).households := by
  unfold State.armKill
  extract_lets q x
  split
  · exact .inl rfl
  · split
    · exact .inl rfl
    · exact .inr rfl
/-- Fixing a kill changes nothing of its household but the culprit. -/
theorem State.armKill_household {α : Type} (s : State) (hid g reason : Nat) (f : Household → α)
    (hf : ∀ x, f { x with culprit := none } = f x) : f ((s.armKill hid g reason).household hid) = f (s.household hid) := by
  rcases s.armKill_households hid g reason with h | h
  · rw [State.household, h]
    rfl
  · have hh : (s.armKill hid g reason).household hid = { s.household hid with culprit := none } := by
      rw [State.household, h]
      exact s.household_onHousehold hid _
    rw [hh, hf]
@[simp] theorem State.queue_erasePeats (s : State) (q p : Nat) : (s.erasePeats q).queue p = s.queue p := rfl
@[simp] theorem State.household_erasePeats (s : State) (q h : Nat) : (s.erasePeats q).household h = s.household h := rfl
@[simp] theorem State.household_stepAt (s : State) (g : Nat) (e : Event) (h : Nat) : (s.stepAt g e).household h = s.household h := rfl
/-- The keys are made as the TDI enters CONFIG_LOCKED (R358). -/
theorem execTdiStateChange_locks {s : State} {q hid : Nat} (hq : (s.queue q).hid = some hid) (ht : (s.household hid).tdi < 3)
    (hr : (s.household hid).region = none) : ∃ t k1 k2, execTdiStateChange q 1 s = .next t ∧ (t.household hid).tdi = 2 ∧
      (t.household hid).region = some k1 ∧ (t.household hid).hsk = some k2 := by
  have h4 : (s.household hid).tdi ≠ 4 := by omega
  have h3 : (s.household hid).tdi ≠ 3 := by omega
  simp only [execTdiStateChange, Nat.reduceEqDiff, if_false, State.queue_erasePeats, State.household_erasePeats, hq, h4, h3,
    hr, Option.isNone_none, Nat.reduceLT, decide_true, Bool.and_self, if_true]
  exact ⟨_, (s.erasePeats q).newKey.1, (s.erasePeats q).newKey.2.newKey.1, rfl, by simp, by simp, by simp⟩
theorem execTdiStateChange_runs {s : State} {q hid : Nat} (hq : (s.queue q).hid = some hid) (ht : (s.household hid).tdi < 3)
    (hr : (s.household hid).region ≠ none) :
    execTdiStateChange q 2 s = .next (s.onHousehold hid (fun h => { h with tdi := 3 })) := by
  have h4 : (s.household hid).tdi ≠ 4 := by omega
  have h3 : (s.household hid).tdi ≠ 3 := by omega
  have hk : (s.household hid).region.isNone = false := by
    rwa [Option.isNone_eq_false_iff, Option.isSome_iff_ne_none]
  simp only [execTdiStateChange, if_true, hq, h4, h3, hk, if_false, Bool.and_false, Bool.false_eq_true, OfNat.ofNat_ne_zero]
  rfl
/-- A TDI that leaves RUN has its keys erased 4,096 cycles later (R358). -/
theorem execTdiStateChange_leavesRun {s : State} {q hid n : Nat} (hq : (s.queue q).hid = some hid) (ht : (s.household hid).tdi = 3)
    (hn : n ≠ 2) : ∃ t, execTdiStateChange q n s = .next t ∧ (t.household hid).tdi = 4 ∧
      (t.household hid).eraseAt = some (s.gts + 4096) := by
  simp only [execTdiStateChange, hn, if_false, State.queue_erasePeats, State.household_erasePeats, hq, ht, if_true, Nat.reduceEqDiff]
  refine ⟨_, rfl, ?_, ?_⟩ <;> rw [State.household_stepAt]
  · rw [State.armKill_household _ _ _ _ Household.tdi (fun _ => rfl), State.household_onHousehold]
  · rw [State.armKill_household _ _ _ _ Household.eraseAt (fun _ => rfl), State.household_onHousehold]
    rfl

/-! ### Households and Fens -/

theorem execHouseholdCreate_creates {s : State} {hid q : Nat} {root : BitVec 64} {prot : Bool} {cred : BitVec 64}
    (hn : tfind s.households hid = none) (hq : (s.queue q).hid = none) (hh : hid < 256) (h16 : q < 16) :
    ∃ t k, execHouseholdCreate hid q root prot cred s = .next t ∧ (t.queue q).hid = some hid ∧ (t.queue q).savecnt = 0 ∧
      (t.household hid).alive = true ∧ (t.household hid).queue = q ∧ (t.household hid).root = root.toNat ∧
      (t.household hid).prot = prot ∧ (t.household hid).cred = cred ∧ (t.household hid).fens = [] ∧
      ((t.household hid).hsk = if prot then some k else none) := by
  have hh' : ¬ 256 ≤ hid := by omega
  have h16' : ¬ 16 ≤ q := by omega
  simp only [execHouseholdCreate, hn, hq, hh', h16', Option.isSome_none, decide_false, Bool.or_self, Bool.false_eq_true, if_false]
  refine ⟨_, s.newKey.1, rfl, ?_⟩
  simp only [State.queue_onQueue, QueueSt.fresh, State.household, State.onQueue_households, tget_tput_same, Household.reset, and_self]
theorem execHouseholdDestroy_ends {s : State} {hid : Nat} (hs : tfind s.households hid = some (s.household hid))
    (ha : (s.household hid).asleep = false) (hg : ∀ g ∈ (s.queue (s.household hid).queue).groups, g.holds = false)
    (hk : (s.queue (s.household hid).queue).killStop = .none ∨ (s.household hid).alive = false) :
    execHouseholdDestroy hid s = .next (s.endHousehold hid) := by
  have hn : (tfind s.households hid).isNone = false := by rw [hs]; rfl
  have hg' : (s.queue (s.household hid).queue).groups.any Group.holds = false := by simpa using hg
  have hk' : ((s.queue (s.household hid).queue).killStop != .none && (s.household hid).alive) = false := by
    rcases hk with hk | hk <;> simp [hk]
  simp only [execHouseholdDestroy, hn, ha, hg', hk', Bool.or_self, Bool.false_eq_true, if_false]
/-- The Fen identifiers that no household uses. -/
def State.freeIdents (s : State) : List Nat :=
  ((List.range 255).map (fun i => i + 1)).filter (fun i => !s.fenIdents.contains i)
theorem State.freeIdents_eq (s : State) :
    s.freeIdents = ((List.range 255).map (fun i => i + 1)).filter (fun i => !s.fenIdents.contains i) := rfl
theorem State.mem_freeIdents (s : State) (i : Nat) : i ∈ s.freeIdents ↔ 1 ≤ i ∧ i < 256 ∧ i ∉ s.fenIdents := by
  have hr : i ∈ (List.range 255).map (fun i => i + 1) ↔ 1 ≤ i ∧ i < 256 := by
    simp only [List.mem_map, List.mem_range]
    exact ⟨by omega, fun h => ⟨i - 1, by omega⟩⟩
  simp only [State.freeIdents, List.mem_filter, hr, Bool.not_eq_true', List.contains_eq_mem, decide_eq_false_iff_not, and_assoc]
theorem State.choose_lt (s : State) {n : Nat} (h : 0 < n) : (s.choose n).1 < n := Nat.mod_lt _ h
/-- A Fen that meets no other takes the lowest free index and some free identifier (R30, R341). -/
theorem execFenCreate_makes {s : State} {hid cx cy w ht idx : Nat}
    (hi : (List.range 64).find? (fun i => (tfind (s.household hid).fens i).isNone) = some idx) (ha : (s.household hid).alive = true)
    (hs : (s.household hid).asleep = false) (hf : (s.household hid).frozen = none) (hw : 0 < w) (hht : 0 < ht) (hx : cx + w ≤ 20)
    (hy : cy + ht ≤ 16) (hm : ∀ f ∈ s.allFens, f.meets cx cy w ht = false) (hfree : ∃ i, 1 ≤ i ∧ i < 256 ∧ i ∉ s.fenIdents) :
    ∃ t f, execFenCreate hid cx cy w ht s = .next t ∧ tfind (t.household hid).fens idx = some f ∧ f.cx = cx ∧ f.cy = cy ∧
      f.w = w ∧ f.h = ht ∧ 1 ≤ f.ident ∧ f.ident < 256 ∧ f.ident ∉ s.fenIdents := by
  obtain ⟨i, hi'⟩ := hfree
  have hpos : 0 < s.freeIdents.length := List.length_pos_of_mem ((s.mem_freeIdents i).mpr hi')
  have hany : s.allFens.any (fun f => f.meets cx cy w ht) = false := by simpa using hm
  have hne : s.freeIdents.isEmpty = false := by simpa [← List.length_pos_iff] using hpos
  have hx' : ¬ 20 < cx + w := by omega
  have hy' : ¬ 16 < cy + ht := by omega
  have ident : s.freeIdents[(s.choose s.freeIdents.length).1]?.getD 0 ∈ s.freeIdents := by
    rw [List.getElem?_eq_getElem (s.choose_lt hpos)]
    exact List.getElem_mem _
  simp only [execFenCreate, hi, ← s.freeIdents_eq, ha, hs, hf, hw.ne', hht.ne', hx', hy', hany, hne, Option.isSome_none,
    Bool.not_true, Bool.or_self, decide_false, Bool.false_eq_true, if_false]
  refine ⟨_, { ident := s.freeIdents[(s.choose s.freeIdents.length).1]?.getD 0, cx := cx, cy := cy, w := w, h := ht }, rfl, ?_,
    rfl, rfl, rfl, rfl, (s.mem_freeIdents _).mp ident⟩
  refine (foldl_keeps (fun u : State => tfind (u.household hid).fens idx) ?_ _ _).trans ?_
  · exact fun _ _ => rfl
  · rw [State.household_onHousehold]
    exact tfind_tput_same _ _ _
theorem execFenEnd_ends {s : State} {hid idx : Nat} (hs : (s.household hid).asleep = false) (hf : (s.household hid).frozen = none)
    (hg : ∀ g ∈ (s.queue (s.household hid).queue).groups, g.desc.fidx = idx → g.holds = false) :
    execFenEnd hid idx s = .next (s.onHousehold hid (fun h => { h with fens := tdel h.fens idx })) := by
  have hg' : (s.queue (s.household hid).queue).groups.any (fun g => g.desc.fidx == idx && g.holds) = false := by simpa using hg
  simp only [execFenEnd, hs, hf, hg', Option.isSome_none, Bool.or_self, Bool.false_eq_true, if_false]

/-! ### Accesses from outside -/

/-- An access in a CXL mode to a mapped region whose bank is free is performed (R350). -/
theorem execHostCxlMemAccess_performs {s : State} {pa m : Nat} (wr : Bool) (val : BitVec 64) (h0 : deviceMapped pa = true)
    (h7 : deviceMapped (pa + 7) = true) (hm : s.porch.mode = some m) (h2 : m < 2) (hr : s.cxlReaches pa = true)
    (hr7 : s.cxlReaches (pa + 7) = true) (hb : s.bankWait pa = none) :
    execHostCxlMemAccess pa wr val s = .next (if wr then (s.touch pa).cxlWrite pa val.toNat else (s.touch pa).cxlRead pa) := by
  have h2' : ¬ 2 ≤ m := by omega
  simp only [execHostCxlMemAccess, h0, h7, hm, h2', hr, hr7, hb, Bool.not_true, Bool.or_self, decide_false, Bool.false_eq_true, if_false]
theorem execHostCxlMemAccess_unmapped {s : State} {pa : Nat} (wr : Bool) (val : BitVec 64) (h : deviceMapped pa = false) :
    execHostCxlMemAccess pa wr val s = .fault (.noSuchAddress pa) := by
  simp only [execHostCxlMemAccess, h, Bool.not_false, Bool.true_or, if_true]

section
variable {s : State} {port hid va : Nat} {val : BitVec 64} (hl : s.linkDown (8 + port) = false)
include hl

/-- A page that peers may not reach, and any page of a saved household, is refused with reason 11 (R348, R365). -/
theorem execBoardwalkPeerAccess_refused (wr : Bool) (hs : (s.household hid).asleep = false)
    (h : s.peerReaches hid va = false ∨ (s.queue (s.household hid).queue).swState = 2) :
    execBoardwalkPeerAccess port hid va wr val s = .next (s.answerPeer 11 0) := by
  have hr : (!s.peerReaches hid va || (s.queue (s.household hid).queue).swState == 2) = true := by
    rcases h with h | h <;> simp [h]
  simp only [execBoardwalkPeerAccess, hl, hs, hr, Bool.false_eq_true, if_false, if_true]
/-- A step of a peer that completes is answered with its value. -/
theorem execBoardwalkPeerAccess_answered {u : State} {w : Nat} {k : Seen} {wr : Bool} (hs : (s.household hid).asleep = false)
    (hp : s.peerReaches hid va = true) (hw : (s.queue (s.household hid).queue).swState ≠ 2)
    (h : (if wr then s.writeElement [] ioDie hid (va / 8 * 8) val.toNat else s.readElement [] ioDie hid (va / 8 * 8)) = .ok u w k) :
    execBoardwalkPeerAccess port hid va wr val s = .next (u.answerPeer 0 w) := by
  have hr : (!s.peerReaches hid va || (s.queue (s.household hid).queue).swState == 2) = false := by simp [hp, hw]
  simp only [execBoardwalkPeerAccess, hl, hs, hr, h, Bool.false_eq_true, if_false]
/-- One that reaches its port by 64 cycles after a stop is caught there (R331). -/
theorem execBoardwalkPeerAccess_caught (wr : Bool) (hs : (s.household hid).asleep = true) (hg : s.gts ≤ (s.household hid).stopped + 64) :
    execBoardwalkPeerAccess port hid va wr val s = .next (s.putOff hid (.step (.boardwalkPeerAccess port hid va wr val))) := by
  simp only [execBoardwalkPeerAccess, hl, hs, hg, Bool.false_eq_true, if_false, if_true]
end

/-- Settles O46: each clause is the rule of its event above, at the operands that the statement names. -/
theorem bootAndHouseholdEvents : Obligations.BootAndHouseholdEvents := by
  intro s hid q die idx pa port va n m val new prot modes h p
  refine ⟨execColdReset_resets s,
    fun hb ho => ⟨fun _ _ hd => execFirstStageBoot_enters hb ho hd, execFirstStageBoot_fails hb ho⟩,
    execGetMeasurements_answers, execHostPortTrain_lowest, execGtsJoin_joins,
    fun hj hc => ⟨execGtsCorrect_adds hj hc, State.nextGts_skips rfl⟩, execLeaseCas_takes,
    fun hq _ => ⟨execTdiStateChange_locks hq, execTdiStateChange_runs hq, execTdiStateChange_leavesRun hq⟩,
    execHouseholdCreate_creates, execHouseholdDestroy_ends, fun _ _ _ _ => execFenCreate_makes, execFenEnd_ends,
    fun h0 h7 hm h2 hr hr7 hb => ⟨execHostCxlMemAccess_performs true val h0 h7 hm h2 hr hr7 hb,
      execHostCxlMemAccess_performs false val h0 h7 hm h2 hr hr7 hb⟩,
    execHostCxlMemAccess_unmapped true val,
    fun hl hs => ⟨fun hr wr => execBoardwalkPeerAccess_refused hl wr hs hr,
      fun hp hw => ⟨fun _ _ _ hk => execBoardwalkPeerAccess_answered hl hs hp hw hk,
        fun _ _ _ hk => execBoardwalkPeerAccess_answered hl hs hp hw hk⟩⟩,
    fun wr hl hs hg => execBoardwalkPeerAccess_caught hl wr hs hg⟩

end Sys2Proof.Machine
end
section
/-! ## Traps in place of a pair
The fetch traps (R53, R71, R72), the oldest late report (R379) and the oldest upcall entry (R284), and O14. -/
namespace Sys2Proof.Machine

theorem Ctx.aboveBound_iff {c : Ctx} : c.aboveBound = true ↔ 256 * c.bound ≤ c.pc.toNat := decide_eq_true_iff
theorem State.badPosition_iff {s : State} : s.badPosition = true ↔
    s.me.pc.toNat % 4 ≠ 0 ∨ s.me.pc.toNat % 8 = 4 ∧ (s.wordAt s.me.pc.toNat).getLsbD 31 = false := by
  simp [State.badPosition]
/-- The overlay trap (R53). -/
theorem execFetchTrap_aboveBound {s : State} (h : s.me.aboveBound = true) : execFetchTrap s =
    .next (s.enterTrap 3 0 0 false (s.me.pc.toNat % 2 ^ 52 + (if s.me.jumped then 2 ^ 63 else 0)) s.me.pc) :=
  if_pos h
/-- The misaligned-pair trap (R72): the boundary is checked first (R93). -/
theorem execFetchTrap_badPosition {s : State} (hb : s.me.aboveBound = false) (h : s.badPosition = true) :
    execFetchTrap s = .next (s.enterTrap 2 0 0 false s.me.pc.toNat s.me.pc) := by
  simp only [execFetchTrap, hb, h, Bool.false_eq_true, if_false, if_true]
/-- The oldest late report of a context outside a handler (R379). -/
theorem execLateTrap_oldest {s : State} {r : LateReport} {rest : List LateReport} (hq : s.me.lateQ = r :: rest)
    (hi : s.me.inh = false) : execLateTrap s =
    .next ((s.onMe (fun c => { c.leaveSync with lateQ := rest, lost := 0 })).enterTrap r.cause r.sub 0 true
      (r.info + s.me.lost * 2 ^ 36) s.me.latePc) := by
  simp only [execLateTrap, hq, hi, Bool.false_eq_true, if_false]
/-- An upcall entry in the inbox is older than every one in the box. -/
theorem State.upcallEntry_inbox {s : State} {core ctx : Nat} {e : Entry}
    (h : (s.coreOf core).inbox.find? (fun e => e.ctxTo == ctx && e.kind == 5) = some e) : s.upcallEntry core ctx = some (e, none) := by
  rw [State.upcallEntry, h]
/-- The entry of an upcall from the inbox (R284): the handler's address is the entry's, and UPCALL and RQSEQ name it. -/
theorem execUpcall_inbox {s : State} {e : Entry}
    (h : s.here.inbox.find? (fun e => e.ctxTo == s.here.run && e.kind == 5) = some e) :
    let u := tget s.here.upcs (0, none) (65536 * s.here.run + e.seq)
    let epc := if s.me.wait = .halt then s.me.lastPc else s.me.pc
    ∃ t : State, t.latch = .trapped 27 ∧ execUpcall s = .next (t.onMe (fun c =>
      { c.trapEntry 27 0 0 false 0 epc (BitVec.ofNat 64 u.1) with
        upcall := BitVec.ofNat 64 u.1, rqseq := packFields [(32, 16, e.seq), (0, 32, bits e.payload.toNat 0 32)] })) := by
  have hu : s.upcallEntry s.focus s.here.run = some (e, none) := State.upcallEntry_inbox h
  simp only [execUpcall, hu, beq_iff_eq]
  exact ⟨_, rfl, rfl⟩

/-- Settles O14: each clause is the rule of its trap above, at the state that the statement names. -/
theorem trapsInPlaceOfAPair : Obligations.TrapsInPlaceOfAPair := fun _ =>
  ⟨fun h => execFetchTrap_aboveBound (Ctx.aboveBound_iff.2 h),
    fun hb h => execFetchTrap_badPosition (Bool.eq_false_iff.2 fun c => absurd (Ctx.aboveBound_iff.1 c) (Nat.not_le.2 hb))
      (State.badPosition_iff.2 h),
    fun _ _ => execLateTrap_oldest, fun _ => execUpcall_inbox⟩

end Sys2Proof.Machine
end
section
/-! ## `halt` with late reports
A context that halts with late reports queued turns them into records (R379), which the statement O15 leaves out. -/
namespace Sys2Proof.Machine

/-- A late refusal of a request. -/
def refusedReport : LateReport := { cause := 25, sub := 0, seq := 1, reason := 12, rkind := 8, addr := 0, tag := 0, gts := 0 }
/-- Core 0 leads a gang of two; its control context is in its handler and has a late report queued (R379). -/
def lateInGang : State :=
  { State.reset with
    agenda := [],
    cores := [(0, ({ CoreSt.reset with hid := some 1, gang := some { shape := 0, ox := 0, oy := 0, members := [0, 1] } }).setCtx 0
      { Ctx.reset with live := true, bound := 1, inh := true, lateQ := [refusedReport] })] }
/-- A head without a wait. -/
def plainHead : CHead := { ln := false, wk := 0, wn := 3 }
theorem lateInGang_clear : CClear lateInGang (.halt plainHead) plainHead [] [] [] none 0 0 false :=
  ⟨by decide, .inl rfl, rfl, nofun, fun _ _ => nofun, nofun, .inr rfl, nofun, .inl rfl, by decide⟩
/-- Its `halt` leaves no late report. -/
theorem lateInGang_halt {t : State} (h : exec (.halt plainHead) lateInGang = .next t) : t.me.lateQ = [] := by
  have e : execHalt plainHead lateInGang =
      .next ((((lateInGang.readied [] 0).orphanLate).onHere CoreSt.leaveGang).onMe (fun c => { c with wait := .halt })) :=
    issueC_eq lateInGang_clear rfl rfl rfl rfl
  obtain rfl := Host.Outcome.next.inj (e.symm.trans h)
  decide

/-- Refutes O15: where a `halt` in a gang finds late reports queued, they become records of KIND 0x01 and leave the context's queue
(R379); the last clause has the context change in nothing but its wait. -/
theorem not_contextWordResults : ¬ Obligations.ContextWordResults := by
  intro h
  obtain ⟨-, -, halt⟩ := h lateInGang plainHead 0 0 0 0
  obtain ⟨t, ht, -, -, -, kept⟩ := halt lateInGang_clear (by decide)
  have kept := congrArg (fun u : State => u.me.lateQ) (kept (by decide))
  rw [show t.me.lateQ = [] from lateInGang_halt ht] at kept
  exact absurd kept (by decide)

end Sys2Proof.Machine
end
section
/-! ## Arrivals at barriers
`sync`, `sync.t` and `gang` (R46 to R48, R116 to R118), and O16. -/
namespace Sys2Proof.Machine

/-- `sync` (R46). -/
theorem execSync_arrives {s : State} {hd : CHead} (h : CClear s (.sync hd) hd [] [] [] none 0 0 false) : execSync hd s =
    .next ((s.readied [] 0).onMe (fun c => if c.level = 0 then c else { c.arrive with wait := .sync })) :=
  issueC_eq h rfl rfl rfl rfl
/-- The context that a `sync.t` of a level above 0 leaves: arrived, its destination pending, waiting until the limit (R47). -/
def Ctx.syncTWaits (c : Ctx) (d lim : Nat) : Ctx := { c.arrive.addPending (.s d) with wait := .syncT d lim }

section
variable {s : State} {hd : CHead} {d sl : BitVec 5} (h : CClear s (.syncT hd d sl) hd [.s sl.toNat] [] [] none 0 0 false)
include h

/-- `sync.t` at LEVEL 0 (R47). -/
theorem execSyncT_level0 (hl : s.me.level = 0) :
    execSyncT hd d sl s = .next ((s.readied [.s sl.toNat] 0).fixedWrite (.s d.toNat) 1 1) :=
  issueC_eq h rfl rfl rfl (by simp only [State.readied_level, hl, if_true])
/-- `sync.t` before its limit (R47). -/
theorem execSyncT_before (hl : s.me.level ≠ 0) (hg : s.gts < (s.me.sReg sl.toNat).toNat) : execSyncT hd d sl s =
    .next (((s.readied [.s sl.toNat] 0).onMe (fun c => c.syncTWaits d.toNat (s.me.sReg sl.toNat).toNat)).stepAt
      (s.me.sReg sl.toNat).toNat (.syncTLimit s.focus s.here.run)) := by
  refine issueC_eq h rfl rfl rfl ?_
  simp only [State.readied_level, hl, if_false, State.readied_sReg, State.onMe_gts, State.readied_gts, if_neg (Nat.lt_asymm hg),
    if_neg (Nat.ne_of_gt hg), State.onMe_focus, State.readied_focus, State.here_onMe, CoreSt.setCtx_run, State.readied_run, Ctx.syncTWaits]
/-- `sync.t` behind its limit: 0 in the next cycle (log 32). -/
theorem execSyncT_behind (hl : s.me.level ≠ 0) (hg : (s.me.sReg sl.toNat).toNat < s.gts) : execSyncT hd d sl s =
    .next (((s.readied [.s sl.toNat] 0).onMe (fun c => c.syncTWaits d.toNat (s.me.sReg sl.toNat).toNat)).doneAt (s.gts + 1) s.focus
      s.here.run [.write (.s d.toNat) 0, .unpend (.s d.toNat), .ready]) := by
  refine issueC_eq h rfl rfl rfl ?_
  simp only [State.readied_level, hl, if_false, State.readied_sReg, State.onMe_gts, State.readied_gts, if_pos hg,
    State.onMe_focus, State.readied_focus, State.here_onMe, CoreSt.setCtx_run, State.readied_run, Ctx.syncTWaits]
/-- `sync.t` in the cycle of its limit (R47). -/
theorem execSyncT_at (hl : s.me.level ≠ 0) (hg : (s.me.sReg sl.toNat).toNat = s.gts) : execSyncT hd d sl s =
    .next (((s.readied [.s sl.toNat] 0).onMe (fun c => c.syncTWaits d.toNat (s.me.sReg sl.toNat).toNat)).complete s.focus s.here.run
      [.write (.s d.toNat) 0, .unpend (.s d.toNat), .ready]) := by
  refine issueC_eq h rfl rfl rfl ?_
  simp only [State.readied_level, hl, if_false, State.readied_sReg, State.onMe_gts, State.readied_gts, hg, Nat.lt_irrefl, if_true,
    State.onMe_focus, State.readied_focus, State.here_onMe, CoreSt.setCtx_run, State.readied_run, Ctx.syncTWaits]
end

/-- `gang` from a control context at cluster level, for a rectangle that holds its core (R48, R118). -/
theorem execGang_arrives {s : State} {hd : CHead} {shape ox oy : BitVec 2}
    (h : CClear s (.gang hd shape ox oy) hd [] [] [] none 0 0 false) (hc : s.me.ctxNo = 0) (hl : s.me.level = 2)
    (hm : (gangCores s.myCluster shape.toNat ox.toNat oy.toNat).contains s.focus = true) : execGang hd shape ox oy s =
    .next ((s.readied [] 0).onMe (fun c =>
      { c.arrive with wait := .sync, gangReq := some (shape.toNat, ox.toNat, oy.toNat) })) :=
  issueC_eq h (by rw [hc, hl, hm]; rfl) rfl rfl rfl

/-- Settles O16: each clause is the rule of its word above. -/
theorem barrierWordResults : Obligations.BarrierWordResults := by
  intro s hd d sl h x y lim src at1 waits cs
  exact ⟨execSync_arrives,
    fun hc => ⟨execSyncT_level0 hc, execSyncT_before hc, execSyncT_behind hc, execSyncT_at hc⟩, execGang_arrives⟩

end Sys2Proof.Machine
end
section
/-! ## How the words of a pair issue
Every A-slot word issues with no condition but those of its registers, and queues at most one result (R76, R101); every C-slot word
waits for its wait field first (R75, R93). -/
namespace Sys2Proof.Machine

/-! ### A-slot words -/

/-- An A-slot word's outcome as its issue gives it: sources, vector registers of 6-bit fields, and at most one queued result. -/
def ASlotForm (i : Instr) (s : State) (r : Host.Outcome State Fault Refusal) : Prop :=
  ∃ srcs vecs inRegion eff, r = issueA i { srcs := srcs, vecs := vecs, inRegion := inRegion } eff s ∧ (∀ v ∈ vecs, v < 64) ∧
    ∀ t : State, eff t = t ∨ ∃ d x l, eff t = t.fixedWrite d x l

section
variable {i : Instr} {s : State} {srcs : List RegId} {eff : State → State}

/-- A `nop` of the A slot. -/
theorem ASlotForm.nop : ASlotForm i s (issueA i { inRegion := true } id s) := ⟨_, _, _, _, rfl, nofun, fun _ => .inl rfl⟩
/-- A word without vector registers. -/
theorem ASlotForm.scalar (h : ∀ t, ∃ d x l, eff t = t.fixedWrite d x l) : ASlotForm i s (issueA i { srcs := srcs } eff s) :=
  ⟨_, _, _, _, rfl, nofun, fun t => .inr (h t)⟩
/-- A word whose vector registers stand in fields of 6 bits. -/
theorem ASlotForm.vector (vecs : List (BitVec 6)) (h : ∀ t, ∃ d x l, eff t = t.fixedWrite d x l) :
    ASlotForm i s (issueA i { srcs := srcs, vecs := vecs.map BitVec.toNat } eff s) := by
  refine ⟨_, _, _, _, rfl, ?_, fun t => .inr (h t)⟩
  intro n hn
  obtain ⟨v, -, rfl⟩ := List.mem_map.1 hn
  exact v.isLt
theorem issueBin_aSlotForm {f : Word → Word → Nat} {lat : Nat} {d a b : BitVec 5} : ASlotForm i s (issueBin i f lat d a b s) :=
  .scalar fun _ => ⟨_, _, _, rfl⟩
theorem issueUn_aSlotForm {f : Word → Nat} {lat : Nat} {d a : BitVec 5} : ASlotForm i s (issueUn i f lat d a s) :=
  .scalar fun _ => ⟨_, _, _, rfl⟩
theorem issueVV_aSlotForm {f : Nat → Val → Nat → Nat → Nat → Nat} {usesD : Bool} {t lat : Nat} {d a b : BitVec 6} {p : BitVec 3} :
    ASlotForm i s (issueVV i f usesD t lat d a b p s) :=
  .vector [d, a, b] fun _ => ⟨_, _, _, rfl⟩
theorem issueVS_aSlotForm {f : Nat → Val → Nat → Nat → Nat → Nat} {usesD : Bool} {t lat : Nat} {d a : BitVec 6} {b : BitVec 5}
    {p : BitVec 3} : ASlotForm i s (issueVS i f usesD t lat d a b p s) :=
  .vector [d, a] fun _ => ⟨_, _, _, rfl⟩
theorem issueV1_aSlotForm {f : Nat → Val → Nat → Nat} {t lat : Nat} {d a : BitVec 6} {p : BitVec 3} :
    ASlotForm i s (issueV1 i f t lat d a p s) :=
  .vector [d, a] fun _ => ⟨_, _, _, rfl⟩
end

/-- Every word of the A slot issues in this form. -/
theorem runWord_aSlotForm (i : Instr) (s : State) (hA : i.isA = true) : ASlotForm i s (runWord i s) := by
  cases i
  case aNop | aReservedNop => unfold runWord; exact .nop
  case add | sub | mul | mulh | div | rem | and | or | xor | shl | shr | sra | min | max | faddF32 | fmulF32 =>
    unfold runWord
    exact issueBin_aSlotForm
  case andI | orI | xorI | minI | maxI | shlI | shrI | sraI | adr | clz | popc | fcvt =>
    unfold runWord
    exact issueUn_aSlotForm
  case lih | cmp | cmpI | sel | ffmaF32 | pset | pand | por | pnot =>
    unfold runWord
    exact .scalar fun _ => ⟨_, _, _, rfl⟩
  case vadd | vsub | vmul | vfma | vfms | vmin | vmax | vand | vor | vxor | vshl | vshr | vclamp | vdotI8 =>
    unfold runWord
    exact issueVV_aSlotForm
  case vaddS | vsubS | vmulS | vfmaS | vfmsS | vminS | vmaxS | vandS | vorS | vxorS | vshlS | vshrS =>
    unfold runWord
    exact issueVS_aSlotForm
  case vabs | vneg | vrcp | vrsqrt | vexp2 | vlog2 =>
    unfold runWord
    exact issueV1_aSlotForm
  case vperm d a b _ _ | vsel d a b _ _ =>
    unfold runWord
    exact .vector [d, a, b] fun _ => ⟨_, _, _, rfl⟩
  case vcvt d a _ _ _ | vred d a _ _ _ | vbcast d a _ _ | vcmp _ _ d a _ _ =>
    unfold runWord
    exact .vector [d, a] fun _ => ⟨_, _, _, rfl⟩
  case vcmpS _ _ a _ _ _ | vext _ a _ | vsplat a _ _ _ | vins a _ _ =>
    unfold runWord
    exact .vector [a] fun _ => ⟨_, _, _, rfl⟩
  all_goals exact absurd hA Bool.false_ne_true

/-! ### C-slot words -/

/-- A C-slot word's outcome as its issue gives it, under its head (R75). -/
def CSlotForm (hd : CHead) (s : State) (r : Host.Outcome State Fault Refusal) : Prop := ∃ i q eff, r = issueC i hd q eff s

/-- A word that waits for its wait field is held (R75, R76). -/
theorem CSlotForm.unmet {hd : CHead} {s : State} {r : Host.Outcome State Fault Refusal} (h : CSlotForm hd s r)
    (hw : s.me.waitMet hd = false) : r = .next (s.hold true) := by
  obtain ⟨i, q, eff, rfl⟩ := h
  exact issueC_waits hw
theorem CSlotForm.ite {hd : CHead} {s : State} {p : Prop} [Decidable p] {x y : Host.Outcome State Fault Refusal}
    (hx : CSlotForm hd s x) (hy : CSlotForm hd s y) : CSlotForm hd s (if p then x else y) := by
  split
  · exact hx
  · exact hy

section
variable {i : Instr} {hd : CHead} {s : State}
theorem issueC_cSlotForm {q : Use} {eff : State → State} : CSlotForm hd s (issueC i hd q eff s) := ⟨_, _, _, rfl⟩
theorem issueLoad_cSlotForm {z : Nat} {sext ev : Bool} {d : BitVec 5} {srcs : List RegId} {a : Nat} :
    CSlotForm hd s (issueLoad i hd z sext ev d srcs a s) :=
  .ite issueC_cSlotForm (.ite issueC_cSlotForm issueC_cSlotForm)
theorem issueStore_cSlotForm {z : Nat} {v : BitVec 5} {srcs : List RegId} {a : Nat} : CSlotForm hd s (issueStore i hd z v srcs a s) :=
  .ite issueC_cSlotForm (.ite issueC_cSlotForm issueC_cSlotForm)
theorem issueVLoad_cSlotForm {lat : Nat} {v : BitVec 6} {srcs : List RegId} {vecs : List Nat} {whole : List Cond} {as : List Nat} :
    CSlotForm hd s (issueVLoad i hd lat v srcs vecs whole as s) :=
  .ite issueC_cSlotForm issueC_cSlotForm
theorem issueBranch_cSlotForm {p : BitVec 3} {o : BitVec 15} {taken : BitVec 32 → Bool} :
    CSlotForm hd s (issueBranch i hd p o taken s) := by
  unfold issueBranch
  exact issueC_cSlotForm
theorem issueVStore_cSlotForm {v : BitVec 6} {srcs : List RegId} {vecs : List Nat} {whole : List Cond} {as : List Nat} :
    CSlotForm hd s (issueVStore i hd v srcs vecs whole as s) := by
  unfold issueVStore
  exact issueC_cSlotForm
theorem issueAmo_cSlotForm {op : AmoOp} {d a b : BitVec 5} {w : BitVec 2} {u : BitVec 1} :
    CSlotForm hd s (issueAmo i hd op d a b w u s) := by
  unfold issueAmo
  exact issueC_cSlotForm
theorem issueRed_cSlotForm {op : AmoOp} {a b : BitVec 5} {w : BitVec 2} {u : BitVec 1} :
    CSlotForm hd s (issueRed i hd op a b w u s) := by
  unfold issueRed
  exact issueC_cSlotForm
theorem issueImage_cSlotForm {op : Nat} {c a : BitVec 5} {k : BitVec 4} {body : Nat → Nat → Body} :
    CSlotForm hd s (issueImage i hd op c a k body s) := by
  unfold issueImage
  exact issueC_cSlotForm
theorem issuePan_cSlotForm {op : PanOp} {a : BitVec 5} {waits : Bool} : CSlotForm hd s (issuePan i hd op a waits s) := by
  unfold issuePan
  exact issueC_cSlotForm
theorem issuePanTake_cSlotForm {op : PanOp} {d a : BitVec 5} : CSlotForm hd s (issuePanTake i hd op d a s) := by
  unfold issuePanTake
  exact issueC_cSlotForm
theorem issueStream_cSlotForm {kind : SKind} {a : BitVec 5} {k : BitVec 4} : CSlotForm hd s (issueStream i hd kind a k s) := by
  unfold issueStream
  exact issueC_cSlotForm
theorem execAle_cSlotForm : CSlotForm hd s (execAle hd s) := by
  unfold execAle
  extract_lets c
  split
  · exact issueC_cSlotForm
  · exact issueC_cSlotForm
end

/-- The head of an instruction's word (R75). -/
def wordHead (i : Instr) : CHead := decodeHead ((encode i).getD 0)
theorem wordHead_of_encode {i : Instr} {h : CHead} {op : BitVec 7} {ops : BitVec 18} (e : encode i = some (cWord h op ops)) :
    h = wordHead i := by
  rw [wordHead, e]
  exact (head_cWord h op ops).symm
theorem CSlotForm.of_encode {i : Instr} {s : State} {r : Host.Outcome State Fault Refusal} {h : CHead} {op : BitVec 7}
    {ops : BitVec 18} (f : CSlotForm h s r) (e : encode i = some (cWord h op ops)) : CSlotForm (wordHead i) s r :=
  wordHead_of_encode e ▸ f
/-- Every word of the C slot issues in this form. -/
theorem runWord_cSlotForm (i : Instr) (s : State) (hC : i.isC = true) : CSlotForm (wordHead i) s (runWord i s) := by
  cases i
  case ale =>
    unfold runWord
    exact execAle_cSlotForm.of_encode rfl
  case brT | brF | brAny | brNone =>
    unfold runWord
    exact issueBranch_cSlotForm.of_encode rfl
  case ldb | ldbX | ldbN | ldbNX | ldh | ldhX | ldhN | ldhNX | ldw | ldwX | ldwN | ldwNX | ldd | lddX =>
    unfold runWord
    exact issueLoad_cSlotForm.of_encode rfl
  case stb | stbX | sth | sthX | stw | stwX | std | stdX =>
    unfold runWord
    exact issueStore_cSlotForm.of_encode rfl
  case ldv | ldvs | ldvx =>
    unfold runWord
    exact issueVLoad_cSlotForm.of_encode rfl
  case stv | stvx =>
    unfold runWord
    exact issueVStore_cSlotForm.of_encode rfl
  case amoAdd | amoMin | amoMax | amoAnd | amoOr | amoXor | amoSwp | amoCas =>
    unfold runWord
    exact issueAmo_cSlotForm.of_encode rfl
  case redAdd | redMin | redMax | redAnd | redOr | redXor =>
    unfold runWord
    exact issueRed_cSlotForm.of_encode rfl
  case cspill | cfill =>
    unfold runWord
    exact issueImage_cSlotForm.of_encode rfl
  case pinit | pcmt | prel =>
    unfold runWord
    exact issuePan_cSlotForm.of_encode rfl
  case pres | pacq =>
    unfold runWord
    exact issuePanTake_cSlotForm.of_encode rfl
  case sget | sput | sgat | sred | scol =>
    unfold runWord
    exact issueStream_cSlotForm.of_encode rfl
  case take | give | feSet | alb | mxq | mma | mldB | pmount | punmount | pinfo | cadd | caddTile | ctap | cscrub | cinfo | previve |
      hnew | hsplit | hfree | hldv | hstv =>
    dsimp only [runWord, execTake, execGive, execFeSet, execAlb, execMxq, execMma, execMldB, execPmount, execPunmount, execPinfo,
      execCadd, execCaddTile, execCtap, execCscrub, execCinfo, execPrevive, execHnew, execHsplit, execHfree, execHldv, execHstv]
    exact issueC_cSlotForm.of_encode rfl
  case nop | dly | yield | halt | ret | eret | gsplit | sync | syncT | gang | kwait | ktst | spawn | rbRec | rbRun | jmp | call | jal |
      jr | trap | sig | getc | setc | gts | tmark | ewait | esig | fenceAcq | fenceRel | fenceAr | inbx | inbxT | msend | mzero | mrd |
      hmov | hjoin | hsend | hrecv | hinfo | cReservedNop =>
    unfold runWord
    exact issueC_cSlotForm.of_encode rfl
  all_goals exact absurd hC Bool.false_ne_true

/-- What a decoding gives, if anything, is an instruction of the C slot under the head of the word. -/
def HasHead (w : BitVec 32) (r : Except DecodeError Instr) : Prop := ∀ i, r = .ok i → i.isC = true ∧ decodeHead w = wordHead i
theorem ok_hasHead {w : BitVec 32} {i : Instr} {op : BitVec 7} {ops : BitVec 18} (hC : i.isC = true)
    (e : encode i = some (cWord (decodeHead w) op ops)) : HasHead w (.ok i) := by
  intro j hj
  obtain rfl := Except.ok.inj hj
  exact ⟨hC, wordHead_of_encode e⟩
theorem checked_hasHead {w : BitVec 32} {z : Bool} {i : Instr} {op : BitVec 7} {ops : BitVec 18} (hC : i.isC = true)
    (e : encode i = some (cWord (decodeHead w) op ops)) : HasHead w (checked z i) := by
  unfold checked
  split
  · exact ok_hasHead hC e
  · exact nofun
theorem decodeC_hasHead (w : BitVec 32) : HasHead w (decodeC w) := by
  unfold decodeC
  generalize (fld w 18 7).toNat = op
  unfold decodeCOp
  split
  case h_92 =>
    split
    · exact checked_hasHead rfl rfl
    · exact checked_hasHead rfl rfl
  case h_119 | h_120 | h_121 => exact ok_hasHead rfl rfl
  case h_122 => exact nofun
  all_goals exact checked_hasHead rfl rfl
/-- R75, R76: a word of the C slot whose wait field is not met is held. -/
theorem runWord_unmet {s : State} {w : BitVec 32} {i : Instr} (hi : decodeC w = .ok i) (hm : s.me.waitMet (decodeHead w) = false) :
    runWord i s = .next (s.hold true) := by
  obtain ⟨hC, hd⟩ := decodeC_hasHead w i hi
  exact (runWord_cSlotForm i s hC).unmet (hd ▸ hm)

end Sys2Proof.Machine
end
section
/-! ## The repetition buffer
`rb.rec` and `rb.run` (R119 to R121), the replayed pair (R51), and O17. -/
namespace Sys2Proof.Machine

/-! ### The words -/

/-- An idle buffer is free (R121). -/
theorem State.rbBusy_idle {s : State} (h : s.here.rbSt = .idle) : s.rbBusy = [] := by
  rw [State.rbBusy, CoreSt.rbOwner, h]
theorem execRbRec_idle {s : State} {hd : CHead} {c : BitVec 4} (h : CClear s (.rbRec hd c) hd [] [] [] none 0 0 false)
    (hi : s.here.rbSt = .idle) : execRbRec hd c s =
    .next ((s.readied [] 0).onHere (fun x => { x with rb := [], rbSt := .recording s.here.run (c.toNat + 1) })) :=
  issueC_eq h (State.rbBusy_idle hi) rfl rfl
    (State.onHere_congr (by rw [State.readied_run]))

theorem wfld_toNat (w : Word) (lo n : Nat) : wfld w lo n = w.toNat / 2 ^ lo % 2 ^ n := by
  rw [wfld, BitVec.extractLsb'_toNat, Nat.shiftRight_eq_div_pow]
/-- No bit of the stagger operand that must be 0 is 1 (R120). -/
theorem badStagger_false {w : Word} (h : ∀ j, j < 4 → w.getLsbD (16 * j + 14) = false ∧ w.extractLsb' (16 * j + 6) 2 = 0) :
    badStagger w = false := by
  refine List.any_eq_false.2 fun j hj => ?_
  obtain ⟨hbit, hbits⟩ := h j (List.mem_range.1 hj)
  have hbit : bit (wfld w (16 * j) 16) 14 = false := by
    rw [bit, wfld, ← BitVec.getLsbD, BitVec.getLsbD_extractLsb', hbit]
    rfl
  have hbits : bits (wfld w (16 * j) 16) 6 2 = 0 := by
    have := congrArg BitVec.toNat hbits
    rw [bits, wfld, BitVec.extractLsb'_toNat]
    rw [BitVec.extractLsb'_toNat, Nat.shiftRight_add] at this
    simp only [Nat.shiftRight_eq_div_pow] at this ⊢
    simp at this
    omega
  simp [hbit, hbits]

section
variable {s : State} {hd : CHead} {a b : BitVec 5} (h : CClear s (.rbRun hd a b) hd [.s a.toNat, .s b.toNat] [] [] none 0 0 false)
  (hi : s.here.rbSt = .idle) (hb : badStagger (s.me.sReg b.toNat) = false)
include h hi hb

/-- `rb.run` with a count of 0 (R120). -/
theorem execRbRun_zero (hn : (s.me.sReg a.toNat).toNat % 65536 = 0) :
    execRbRun hd a b s = .next (s.readied [.s a.toNat, .s b.toNat] 0) := by
  refine issueC_eq h (by rw [hb, State.rbBusy_idle hi]; rfl) rfl rfl ?_
  simp only [State.readied_sReg, wfld_toNat]
  exact if_pos (by simpa using hn)
/-- `rb.run` of a recorded buffer (R120). -/
theorem execRbRun_replays (hn : (s.me.sReg a.toNat).toNat % 65536 ≠ 0) (hr : s.here.rb ≠ []) : execRbRun hd a b s =
    .next ((s.readied [.s a.toNat, .s b.toNat] 0).onHere (fun x =>
      { x with rbSt := .replaying s.here.run 0 ((s.me.sReg a.toNat).toNat % 65536) 0 (s.me.sReg b.toNat) false })) := by
  refine issueC_eq h (by rw [hb, State.rbBusy_idle hi]; rfl) rfl rfl ?_
  have hf : wfld (s.me.sReg a.toNat) 0 16 = (s.me.sReg a.toNat).toNat % 65536 := by simp [wfld_toNat]
  simp only [State.readied_sReg, hf, if_neg hn]
  refine State.onHere_congr ?_
  rw [State.readied_rb, State.readied_run, if_neg (by simpa using hr)]
end

/-! ### What a pair's words keep -/

/-- What decides whether a C-slot `nop` issues, and where the sequencer stands. -/
structure SameIssue (s t : State) : Prop where
  latch : t.latch = s.latch
  rbSt : t.here.rbSt = s.here.rbSt
  rb : t.here.rb = s.here.rb
  met : t.me.waitMet = s.me.waitMet
  token : t.me.badToken = s.me.badToken

theorem SameIssue.refl (s : State) : SameIssue s s := ⟨rfl, rfl, rfl, rfl, rfl⟩
theorem SameIssue.trans {s t u : State} (h : SameIssue s t) (k : SameIssue t u) : SameIssue s u :=
  ⟨k.latch.trans h.latch, k.rbSt.trans h.rbSt, k.rb.trans h.rb, k.met.trans h.met, k.token.trans h.token⟩
theorem SameIssue.onMe {s : State} (f : Ctx → Ctx) (hm : ∀ c, (f c).waitMet = c.waitMet) (ht : ∀ c, (f c).badToken = c.badToken) :
    SameIssue s (s.onMe f) :=
  ⟨rfl, by rw [State.here_onMe]; rfl, by rw [State.here_onMe]; rfl, State.onMe_proj s f Ctx.waitMet hm,
    State.onMe_proj s f Ctx.badToken ht⟩
theorem SameIssue.setNext (s : State) (npc : Word) : SameIssue s (s.setNext npc) := .onMe _ (fun _ => rfl) fun _ => rfl
theorem SameIssue.markReads (s : State) (srcs : List RegId) : SameIssue s (s.markReads srcs) := by
  unfold State.markReads
  split
  · exact .onMe _ (fun _ => rfl) fun _ => rfl
  · exact .refl s
theorem SameIssue.fixedWrite (s : State) (r : RegId) (val lat : Nat) : SameIssue s (s.fixedWrite r val lat) := by
  refine .onMe _ (fun c => ?_) fun c => ?_
  · unfold Ctx.queueFixed
    split <;> rfl
  · unfold Ctx.queueFixed
    split <;> rfl
theorem State.readied_latch (s : State) (srcs : List RegId) (m : Nat) : (s.readied srcs m).latch = s.latch := by
  rw [State.readied, State.molReserve, State.onHere_latch, (SameIssue.markReads s srcs).latch]
theorem SameIssue.readied (s : State) (srcs : List RegId) (m : Nat) : SameIssue s (s.readied srcs m) :=
  ⟨State.readied_latch s srcs m, State.readied_rbSt s srcs m, State.readied_rb s srcs m, State.readied_proj s srcs m Ctx.waitMet fun _ _ => rfl,
    State.readied_proj s srcs m Ctx.badToken fun _ _ => rfl⟩

/-! ### The words of a replayed pair -/

/-- A `nop` issues under a wait field that is met (R105). -/
theorem execNop_issues {s : State} {hd : CHead} (hm : s.me.waitMet hd = true) (ht : hd.wn = 3 ∨ s.me.badToken hd.wk = false) :
    execNop hd s = .next (s.readied [] 0) :=
  issueC_eq ⟨hm, ht, rfl, nofun, fun _ _ => nofun, nofun, .inl rfl, nofun, .inl rfl, by simp [State.molShort, CoreSt.molFull]⟩
    rfl rfl rfl rfl

/-- A word of the A slot that meets no condition whatever its registers (R76, R107). -/
structure FreeWord (s : State) (a : Instr) : Prop where
  slot : a.isA = true
  wf : a.wf = true
  legal : illegalWord a = false
  reads : s.me.uwtrap = true → ∀ r, s.me.isPending r = false
  quota : 64 ≤ s.me.quota
  region : s.me.region = none

/-- An update of the running context that keeps its pending bits, quota and region keeps the word's conditions. -/
theorem FreeWord.onMe {s : State} {a : Instr} (h : FreeWord s a) (f : Ctx → Ctx)
    (hf : ∀ c, ((f c).uwtrap, (f c).pend, (f c).quota, (f c).region) = (c.uwtrap, c.pend, c.quota, c.region)) :
    FreeWord (s.onMe f) a := by
  have e := State.onMe_proj s f (fun c => (c.uwtrap, c.pend, c.quota, c.region)) hf
  simp only [Prod.mk.injEq] at e
  obtain ⟨huw, hp, hq, hr⟩ := e
  refine ⟨h.slot, h.wf, h.legal, fun hu r => ?_, hq ▸ h.quota, hr.trans h.region⟩
  rw [Ctx.isPending, hp]
  exact h.reads (huw ▸ hu) r
theorem FreeWord.setNext {s : State} {a : Instr} (h : FreeWord s a) (npc : Word) : FreeWord (s.setNext npc) a :=
  h.onMe _ fun _ => rfl

/-- Such a word issues, and keeps what the pair's `nop` depends on. -/
theorem FreeWord.issues {s : State} {a : Instr} (h : FreeWord s a) : ∃ t, runWord a s = .next t ∧ SameIssue s t := by
  obtain ⟨srcs, vecs, inRegion, eff, e, hv, heff⟩ := runWord_aSlotForm a s h.slot
  refine ⟨eff (s.markReads srcs), ?_, (SameIssue.markReads s srcs).trans ?_⟩
  · rw [e]
    exact issueA_next eff ⟨h.wf, fun hu r _ => h.reads hu r, fun v hm => Nat.lt_of_lt_of_le (hv v hm) h.quota, .inr h.region⟩
  · rcases heff (s.markReads srcs) with k | ⟨d, x, l, k⟩
    · rw [k]
      exact .refl _
    · rw [k]
      exact .fixedWrite _ d x l

/-- Two words that issue act one after the other, the A-slot word first (R76, log 12). -/
theorem runPair_issued {run : Instr → State → Host.Outcome State Fault Refusal} {c a : Instr} {s sc sa : State}
    (hc : run c s = .next sc) (lc : sc.latch = .issued) (ha : run a s = .next sa) (la : sa.latch = .issued)
    (hl : illegalWord a = false) (hd : sameDest c a = false) : runPair run c a s = run c sa := by
  simp [runPair, hc, lc, ha, la, hl, hd]
/-- A C-slot word that is held holds its pair (R76). -/
theorem runPair_held {run : Instr → State → Host.Outcome State Fault Refusal} {c a : Instr} {s : State}
    (hc : run c s = .next (s.hold true)) : runPair run c a s = .next (s.hold true) := by
  simp [runPair, hc, State.hold]

/-- A `nop` of the C slot and such a word of the A slot. -/
theorem FreeWord.pairWithNop {s : State} {a : Instr} {hd : CHead} (h : FreeWord s a) (hl : s.latch = .issued)
    (hm : s.me.waitMet hd = true) (ht : hd.wn = 3 ∨ s.me.badToken hd.wk = false) :
    ∃ t, runPair runWord (.nop hd) a s = .next t ∧ SameIssue s t := by
  obtain ⟨sa, ha, ka⟩ := h.issues
  have hc : runWord (.nop hd) s = .next (s.readied [] 0) := execNop_issues hm ht
  have hc' : runWord (.nop hd) sa = .next (sa.readied [] 0) := execNop_issues (ka.met ▸ hm) (ka.token ▸ ht)
  refine ⟨sa.readied [] 0, ?_, ka.trans (.readied sa [] 0)⟩
  rw [runPair_issued hc ((SameIssue.readied s [] 0).latch.trans hl) ha (ka.latch.trans hl) h.legal rfl, hc']

/-! ### The sequencer -/

theorem replayDone_issued {r : Host.Outcome State Fault Refusal} {t : State} (h : r = .next t) (hl : t.latch = .issued) :
    replayDone r = .next (t.onHere CoreSt.replayNext) := by
  simp [h, replayDone, hl]
/-- The recorded word of the pass (R51, R120). -/
def CoreSt.recorded (x : CoreSt) (idx pass : Nat) (stag : Word) : Instr :=
  mapVectors (stagger pass stag) (aInstr (x.rb.getD idx 0x02000000))
/-- The `nop` that fills the C slot of a replayed pair (R51). -/
def fillHead : CHead := CHead.mk true 0 3

section
variable {s : State} {pass passes idx : Nat} {stag : Word} {sw : Bool}
  (hr : s.here.rbSt = .replaying s.here.run pass passes idx stag sw)
include hr

/-- The recorded word under a `dly` in progress (R103). -/
theorem State.replayPair_dly {own : Bool} (hd : s.me.dlyRem ≠ 0) : s.replayPair own =
    replayDone (runPair runWord (.nop fillHead) (s.here.recorded idx pass stag)
      ((s.setNext s.me.pc).onMe (fun c => { c with dlyRem := c.dlyRem - 1 }))) := by
  simp [State.replayPair, hr, hd, fillHead, CoreSt.recorded]
/-- The recorded word with the context's own C-slot word. -/
theorem State.replayPair_own (hd : s.me.dlyRem = 0) (hb : s.me.aboveBound = false) (hp : s.badPosition = false) :
    s.replayPair true = replayDone (runPair runWord (s.pairAt s.me.pc).1 (s.here.recorded idx pass stag)
      (s.setNext (s.pairAt s.me.pc).2.2)) := by
  simp [State.replayPair, hr, hd, hb, hp, CoreSt.recorded]
/-- The recorded word with a C-slot `nop` in the place of the context's word. -/
theorem State.replayPair_fill (hd : s.me.dlyRem = 0) : s.replayPair false =
    replayDone (runPair runWord (.nop fillHead) (s.here.recorded idx pass stag) (s.setNext s.me.pc)) := by
  simp [State.replayPair, hr, hd, fillHead, CoreSt.recorded]
end

theorem execReplayedPair_issued {s t : State} (h : s.replayPair true = .next t) (hl : t.latch = .issued) :
    execReplayedPair s = .next t := by
  simp [execReplayedPair, h, hl]
/-- A held word of the context leaves the C slot to a `nop`. -/
theorem execReplayedPair_held {s t : State} (h : s.replayPair true = .next t) (hl : t.latch = .waits true) :
    execReplayedPair s = s.replayPair false := by
  simp [execReplayedPair, h, hl]
theorem State.pairAt_fst {s : State} {pc : Word} {i : Instr} (h : decodeC (s.wordAt pc.toNat) = .ok i) : (s.pairAt pc).1 = i := by
  have hc : cInstr (s.wordAt pc.toNat) = i := by rw [cInstr, h]
  dsimp only [State.pairAt]
  split
  · exact hc
  · exact hc
/-- Where the sequencer stands next depends on where it stands and on what is recorded. -/
theorem CoreSt.replayNext_rbSt {x y : CoreSt} (h : y.rbSt = x.rbSt) (hb : y.rb = x.rb) : y.replayNext.rbSt = x.replayNext.rbSt := by
  unfold CoreSt.replayNext
  rw [h, hb]
  split
  · split
    · rfl
    split <;> rfl
  · exact h

/-- A pair that issued and kept the sequencer's place moves it on. -/
theorem SameIssue.replays {s t : State} {r : Host.Outcome State Fault Refusal} (h : SameIssue s t) (hl : s.latch = .issued)
    (hr : r = .next t) :
    ∃ u, replayDone r = .next u ∧ u.latch = .issued ∧ u.here.rbSt = s.here.replayNext.rbSt := by
  refine ⟨_, replayDone_issued hr (h.latch.trans hl), h.latch.trans hl, ?_⟩
  rw [State.here_onHere]
  exact CoreSt.replayNext_rbSt h.rbSt h.rb

/-- Settles O17. A replayed pair completes with the context's own `nop`, or with the `nop` of the sequencer under a `dly` or a held
word. -/
theorem repetitionBufferResults : Obligations.RepetitionBufferResults := by
  intro s hd c a b srcs n stag
  refine ⟨execRbRec_idle, fun h hi hb => ⟨execRbRun_zero h hi (badStagger_false hb), execRbRun_replays h hi (badStagger_false hb)⟩,
    ?_, ?_⟩
  · intro pass passes idx stag sw t hr hd hb hp ht hl
    exact execReplayedPair_issued ((State.replayPair_own hr hd hb hp).trans (replayDone_issued ht hl)) hl
  · intro pass passes idx stag sw hr hl w next head hA hwf hleg huw hq hg hc
    have free : FreeWord s (s.here.recorded idx pass stag) := ⟨hA, hwf, hleg, huw, hq, hg⟩
    by_cases hd : s.me.dlyRem = 0
    · obtain ⟨hb, hp, hc⟩ := hc.resolve_left (not_not.2 hd)
      rcases hc with ⟨i, hi, hm⟩ | ⟨hi, hm, ht⟩
      · have same := SameIssue.setNext s (s.pairAt s.me.pc).2.2
        have held := runPair_held (a := s.here.recorded idx pass stag) (runWord_unmet hi (same.met.symm ▸ hm))
        have own := State.replayPair_own hr hd hb hp
        rw [State.pairAt_fst hi, held] at own
        have fill := SameIssue.setNext s s.me.pc
        obtain ⟨t, ht, k⟩ := (free.setNext s.me.pc).pairWithNop (hd := fillHead) (fill.latch.trans hl) rfl (.inl rfl)
        obtain ⟨u, hu, lu, ru⟩ := (fill.trans k).replays hl ht
        refine ⟨u, ?_, lu, ru⟩
        exact (execReplayedPair_held own rfl).trans ((State.replayPair_fill hr hd).trans hu)
      · have same := SameIssue.setNext s (s.pairAt s.me.pc).2.2
        obtain ⟨t, ht, k⟩ := (free.setNext (s.pairAt s.me.pc).2.2).pairWithNop (same.latch.trans hl) (same.met.symm ▸ hm)
          (same.token.symm ▸ ht)
        obtain ⟨u, hu, lu, ru⟩ := (same.trans k).replays hl ht
        refine ⟨u, execReplayedPair_issued ?_ lu, lu, ru⟩
        rw [State.replayPair_own hr hd hb hp, State.pairAt_fst hi, hu]
    · have same := (SameIssue.setNext s s.me.pc).trans
        (.onMe (fun c => { c with dlyRem := c.dlyRem - 1 }) (fun _ => rfl) fun _ => rfl)
      obtain ⟨t, ht, k⟩ := ((free.setNext s.me.pc).onMe (fun c => { c with dlyRem := c.dlyRem - 1 }) fun _ => rfl).pairWithNop
        (hd := fillHead) (same.latch.trans hl) rfl (.inl rfl)
      obtain ⟨u, hu, lu, ru⟩ := (same.trans k).replays hl ht
      exact ⟨u, execReplayedPair_issued ((State.replayPair_dly hr hd).trans hu) lu, lu, ru⟩

end Sys2Proof.Machine
end
section
/-! ## A core's turn
The context that has the slot runs the pair at its pc (R40, R71, R76, R92), and O53. -/
namespace Sys2Proof.Machine

/-! ### The pair at the pc -/

/-- Writing registers changes the registers alone. -/
theorem Ctx.writeRegs_eq (ws : List FixedW) (c : Ctx) :
    ∃ s v p, ws.foldl (fun c w => c.writeReg w.reg w.val) c = { c with s := s, v := v, p := p } := by
  induction ws generalizing c with
  | nil => exact ⟨_, _, _, rfl⟩
  | cons w ws ih =>
    have one : ∃ s v p, c.writeReg w.reg w.val = { c with s := s, v := v, p := p } := by
      unfold Ctx.writeReg
      split
      · split
        · exact ⟨_, _, _, rfl⟩
        · exact ⟨_, _, _, rfl⟩
      · exact ⟨_, _, _, rfl⟩
      · split
        · exact ⟨_, _, _, rfl⟩
        · exact ⟨_, _, _, rfl⟩
    obtain ⟨s, v, p, e⟩ := one
    obtain ⟨s', v', p', e'⟩ := ih { c with s := s, v := v, p := p }
    exact ⟨s', v', p', by rw [List.foldl_cons, e, e']⟩
/-- A pair that begins writes registers and changes the writes that are to come (R42). -/
theorem State.startPair_proj {α : Type} (s : State) (g : Ctx → α)
    (h : ∀ c x v p f, g { c with s := x, v := v, p := p, fixed := f } = g c) : g s.startPair.me = g s.me := by
  refine State.onMe_proj s Ctx.countDown g fun c => ?_
  unfold Ctx.countDown
  obtain ⟨x, v, p, e⟩ := Ctx.writeRegs_eq ((c.fixed.map fun w => { w with rem := w.rem - 1 }).filter (fun w => w.rem = 0))
    { c with fixed := (c.fixed.map fun w => { w with rem := w.rem - 1 }).filter (fun w => w.rem ≠ 0) }
  rw [e]
  exact h c x v p _
theorem State.startPair_pc (s : State) : s.startPair.me.pc = s.me.pc := s.startPair_proj Ctx.pc fun _ _ _ _ _ => rfl
theorem State.startPair_bound (s : State) : s.startPair.me.bound = s.me.bound := s.startPair_proj Ctx.bound fun _ _ _ _ _ => rfl
theorem State.startPair_dlyRem (s : State) : s.startPair.me.dlyRem = s.me.dlyRem := s.startPair_proj Ctx.dlyRem fun _ _ _ _ _ => rfl
/-- A core in no gang fetches from its own local store. -/
theorem State.wordAt_solo {s : State} (h : s.here.gang = none) (a : Nat) : s.wordAt a = BitVec.ofNat 32 (s.here.ls.readN a 4) := by
  rw [State.wordAt, State.fetchFrom, h]
  rfl
theorem State.startPair_wordAt {s : State} (h : s.here.gang = none) (a : Nat) : s.startPair.wordAt a = s.wordAt a := by
  have hh : s.startPair.here = s.here.setCtx s.here.run s.me.countDown := State.here_onMe s Ctx.countDown
  rw [State.wordAt_solo h, State.wordAt_solo (by rw [hh]; exact h), hh]
  rfl

/-- What a decoding gives, if anything, is an instruction of the A slot. -/
def InASlot (r : Except DecodeError Instr) : Prop := ∀ i, r = .ok i → i.isA = true
theorem ok_inASlot {i : Instr} (h : i.isA = true) : InASlot (.ok i) := by
  intro j hj
  obtain rfl := Except.ok.inj hj
  exact h
theorem checked_inASlot {z : Bool} {i : Instr} (h : i.isA = true) : InASlot (checked z i) := by
  unfold checked
  split
  · exact ok_inASlot h
  · exact nofun
theorem decodeA_inASlot (w : BitVec 32) : InASlot (decodeA w) := by
  unfold decodeA
  generalize (fld w 25 7).toNat = op
  unfold decodeAOp
  split
  case h_81 | h_82 | h_83 => exact ok_inASlot rfl
  case h_84 => exact nofun
  all_goals exact checked_inASlot rfl
theorem illegalWord_of_isA {i : Instr} (h : i.isA = true) : illegalWord i = false := by
  unfold illegalWord
  split
  · exact absurd h Bool.false_ne_true
  · rfl

/-- The words at a pc that decode, and the pc after them (R71). -/
theorem State.pairAt_eq {s : State} {pc : Word} {c a : Instr} (hc : decodeC (s.wordAt pc.toNat) = .ok c)
    (ha : if (s.wordAt pc.toNat).getLsbD 31 then a = .aNop else decodeA (s.wordAt (pc.toNat + 4)) = .ok a) :
    s.pairAt pc = (c, a, if (s.wordAt pc.toNat).getLsbD 31 then pc + 4 else pc + 8) := by
  have hcI : cInstr (s.wordAt pc.toNat) = c := by rw [cInstr, hc]
  dsimp only [State.pairAt]
  split at ha
  · rw [if_pos ‹_›, if_pos ‹_›, hcI, ha]
  · rw [if_neg ‹_›, if_neg ‹_›, hcI, aInstr, ha]
theorem State.pairTurn_pair {s : State} (hd : s.me.dlyRem = 0) (hb : s.me.aboveBound = false) (hp : s.badPosition = false) :
    s.pairTurn = runPair exec (s.pairAt s.me.pc).1 (s.pairAt s.me.pc).2.1 (s.setNext (s.pairAt s.me.pc).2.2) := by
  simp [State.pairTurn, hd, hb, hp]

/-! ### The slot -/

/-- The running context is asked first (R40). -/
theorem CoreSt.ring_running {x : CoreSt} (hd : (x.ctx x.run).dlyRem = 0) (he : (x.ctx x.run).entering = false) (hp : x.pass = false) :
    x.ring = (List.range 11).map (fun i => (x.run + i) % 11) := by
  simp [CoreSt.ring, hd, he, hp]
/-- A context that is ready and whose pair issues takes the slot (R40). -/
theorem State.offer_issued {base t : State} {i : Nat} {s : State} (hs : base.onHere (fun x => { x with run := i }) = s)
    (hl : s.me.live = true) (hp : s.me.parked = false) (hf : s.me.fatal = false) (hr : s.me.readyAt ≤ s.gts)
    (he : s.me.entering = false) (hw : s.me.wait = .none) (hg : s.me.gangFail = none) (hlate : s.me.lateDue = false)
    (hup : s.upcallDue = false) (ha : s.attempt = .next t) (ht : t.latch = .issued) : base.offer i = .yes (.next (t.retire s)) := by
  simp only [State.offer, hs]
  simp [hl, hp, hf, Nat.not_lt.2 hr, he, hw, hg, hlate, hup, ha, ht, State.waitsFor, State.instead]
/-- A live context is one of the eleven. -/
theorem CoreSt.lt_of_live {x : CoreSt} {i : Nat} (h : (x.ctx i).live = true) : i < 11 := by
  by_contra hi
  rw [CoreSt.ctx, Vector.getElem?_eq_none (by omega)] at h
  exact absurd h Bool.false_ne_true

/-- The turn of a core in no gang, not stopped, whose running context takes the slot. -/
theorem State.soloTurn_took {s : State} {r : Host.Outcome State Fault Refusal} (hres : s.here.dbg.resume = false)
    (hst : s.here.dbg.stopped = false) (hd : (s.here.ctx s.here.run).dlyRem = 0) (he : (s.here.ctx s.here.run).entering = false)
    (hp : s.here.pass = false) (hr : s.here.run < 11)
    (ho : (s.onHere (fun x => { x with pass := false })).offer s.here.run = .yes r) : s.soloTurn = finishTurns s [s.focus] none r := by
  have ring := CoreSt.ring_running hd he hp
  have first : s.here.ring = s.here.run :: ((List.range 10).map (fun i => (s.here.run + (i + 1)) % 11)) := by
    rw [ring, List.range_succ_eq_map]
    simp [Nat.mod_eq_of_lt hr]
  simp [State.soloTurn, hres, hst, first, State.firstOffer, ho]

/-! ### The pair has issued -/

theorem State.checkRead_core (t b : State) :
    (t.checkRead b).coreOf (t.checkRead b).focus = t.here ∧ (t.checkRead b).latch = t.latch ∧ (t.checkRead b).focus = t.focus := by
  unfold State.checkRead
  split
  · simp [State.headRead, State.here]
  · exact ⟨rfl, rfl, rfl⟩
theorem CoreSt.recordWord_running (x before : CoreSt) (w : BitVec 32) :
    (x.recordWord before w).ctx (x.recordWord before w).run = x.ctx x.run := by
  unfold CoreSt.recordWord
  split
  · split
    · split <;> rfl
    · rfl
  · rfl
/-- The context whose pair has issued goes on at `npc` (R92). -/
theorem State.retire_pc {t b : State} (hl : t.latch = .issued) (hr : t.here.run < 11) : (t.retire b).me.pc = t.me.npc := by
  obtain ⟨here, hlatch, -⟩ := State.checkRead_core t b
  change (t.checkRead b).here = t.here at here
  simp only [State.retire, hlatch, hl, beq_self_eq_true, if_true]
  rw [State.me, State.here_onHere]
  refine (congrArg Ctx.pc (CoreSt.recordWord_running _ _ _)).trans ?_
  refine (congrArg Ctx.pc (State.me_onMe (t.checkRead b) _ (here ▸ hr))).trans ?_
  exact congrArg (fun x : CoreSt => (x.ctx x.run).npc) here

theorem State.startPair_attempt {b t u v : State} {c a : Instr} (hrep : b.replays = false) (hg : b.here.gang = none)
    (hd : b.me.dlyRem = 0) (hb : b.me.pc.toNat < 256 * b.me.bound) (h4 : b.me.pc.toNat % 4 = 0)
    (h8 : b.me.pc.toNat % 8 = 4 → (b.wordAt b.me.pc.toNat).getLsbD 31 = true) (hc : decodeC (b.wordAt b.me.pc.toNat) = .ok c)
    (ha : if (b.wordAt b.me.pc.toNat).getLsbD 31 then a = .aNop else decodeA (b.wordAt (b.me.pc.toNat + 4)) = .ok a)
    (hs : sameDest c a = false) :
    let p := b.startPair.setNext (if (b.wordAt b.me.pc.toNat).getLsbD 31 then b.me.pc + 4 else b.me.pc + 8)
    exec c p = .next v → v.latch = .issued → exec a p = .next u → u.latch = .issued → exec c u = .next t → b.attempt = .next t := by
  intro p hv lv hu lu ht
  have word := State.startPair_wordAt (s := b) hg
  have above : b.startPair.me.aboveBound = false := by
    rw [Ctx.aboveBound, State.startPair_bound, State.startPair_pc]
    exact decide_eq_false (Nat.not_le.2 hb)
  have position : b.startPair.badPosition = false := by
    rw [Bool.eq_false_iff, Ne, State.badPosition_iff, State.startPair_pc, word]
    rintro (h | ⟨h, hw⟩)
    · exact h h4
    · exact Bool.false_ne_true (hw.symm.trans (h8 h))
  have pair : b.startPair.pairAt b.me.pc =
      (c, a, if (b.wordAt b.me.pc.toNat).getLsbD 31 then b.me.pc + 4 else b.me.pc + 8) := by
    simpa only [word] using State.pairAt_eq (s := b.startPair) (pc := b.me.pc) (word _ ▸ hc) (by rw [word, word]; exact ha)
  have legal : illegalWord a = false := by
    refine illegalWord_of_isA ?_
    split at ha
    · rw [ha]
      rfl
    · exact decodeA_inASlot _ a ha
  rw [State.attempt, hrep, if_neg Bool.false_ne_true, State.pairTurn_pair (b.startPair_dlyRem.trans hd) above position, State.startPair_pc,
    pair]
  exact (runPair_issued hv lv hu lu legal hs).trans ht

section
variable (s : State) (i : Nat)
/-- The context that is asked for its pair. -/
theorem State.asked_me : ((s.onHere (fun x => { x with pass := false })).onHere (fun x => { x with run := i })).me = s.here.ctx i := by
  rw [State.me, State.here_onHere, State.here_onHere]
  rfl
theorem State.asked_gang :
    ((s.onHere (fun x => { x with pass := false })).onHere (fun x => { x with run := i })).here.gang = s.here.gang := by
  rw [State.here_onHere, State.here_onHere]
end

theorem step_turn {s : State} {core : Nat} {rest : List Nat} (ha : s.agenda = []) (ht : s.turn = core :: rest) :
    step s = State.turnOf { s with turn := rest } core := by
  cases s
  cases ha
  cases ht
  rfl
/-- The turn of a core in no gang whose household runs. -/
theorem State.turnOf_solo {s : State} {core h : Nat} (hid : (s.coreOf core).hid = some h) (awake : (s.household h).asleep = false)
    (gang : (s.coreOf core).gang = none) : s.turnOf core = State.soloTurn { s with focus := core, latch := .issued } := by
  have gang : (State.here { s with focus := core, latch := .issued }).gang = none := gang
  rw [State.turnOf, hid]
  simp only [awake, Bool.false_eq_true, if_false]
  rw [State.coreTurn, gang]

/-- Settles O53. -/
theorem stepRunsThePair : Obligations.StepRunsThePair := by
  intro s t u v core h rest c a s0 r b me pc w p done hag hturn hhid hawake hgang hstop hres hpass hlive hpark hfatal hready hent hwait
    hfail hlate hup hrep hdly hbound h4 h8 hc ha hsame hv lv hu lu ht lt
  have hme : me = s0.here.ctx s0.here.run := State.asked_me s0 r
  have solo : b.here.gang = none := (State.asked_gang s0 r).trans hgang
  have hr : r < 11 := CoreSt.lt_of_live (hme ▸ hlive)
  have attempt := State.startPair_attempt hrep solo hdly hbound h4 h8 hc ha hsame hv lv hu lu ht
  have offer := State.offer_issued (base := s0.onHere (fun x => { x with pass := false })) (i := r) (s := b) rfl hlive hpark hfatal
    hready hent hwait hfail hlate hup attempt lt
  refine ⟨?_, fun hf hrun => ?_⟩
  · have took : s0.soloTurn = finishTurns s0 [core] none (.next done) :=
      State.soloTurn_took hres hstop (hme ▸ hdly) (hme ▸ hent) hpass hr offer
    have turn := State.turnOf_solo (s := { s with turn := rest }) (core := core) hhid hawake hgang
    exact (step_turn hag hturn).trans (turn.trans took)
  · exact State.retire_pc lt (hrun ▸ hr)

end Sys2Proof.Machine
end
section
/-! ## Events of tasks and phases
The limit of a `sync.t` and the entries of an exchange plan (R35, R47, R217), and what ends a task's contexts and a phase (R39, R46). -/
namespace Sys2Proof.Machine

/-! ### The limit of a `sync.t` -/

/-- The limit of a `sync.t` whose phase does not complete in this cycle (R47). -/
theorem execSyncTLimit_passed {s : State} {core ctx d lim : Nat} (hw : ((s.coreOf core).ctx ctx).wait = .syncT d lim)
    (hl : lim ≤ s.gts)
    (hr : (∀ g, (tget s.doms DomInst.reset (s.keyOf core ctx)).release = some g → s.isAt g = false) ∨
      (core, ctx) ∉ (tget s.doms DomInst.reset (s.keyOf core ctx)).members) :
    execSyncTLimit core ctx s = .next (s.complete core ctx [.write (.s d) 0, .unpend (.s d), .ready]) := by
  have hc : (s.ctxOf core ctx).wait = .syncT d lim := hw
  have open_ : ((tget s.doms DomInst.reset (s.keyOf core ctx)).release.any s.isAt &&
      (tget s.doms DomInst.reset (s.keyOf core ctx)).members.contains (core, ctx)) = false := by
    rcases hr with hr | hr
    · rw [Bool.and_eq_false_iff]
      left
      cases hrel : (tget s.doms DomInst.reset (s.keyOf core ctx)).release with
      | none => rfl
      | some g => exact hr g hrel
    · simp [hr]
  simp only [execSyncTLimit, hc, hl, decide_true, open_, Bool.not_false, Bool.and_self, if_true]

/-! ### The clock stands while a plan entry is copied -/

theorem State.gts_readLs (s : State) (core home a n : Nat) : (s.readLs core home a n).2.gts = s.gts := by
  obtain ⟨k, seen, e | e⟩ := s.readLs_state core home a n
  · rw [e]
    rfl
  · rw [e]
theorem State.gts_readLsMany (s : State) (core home n : Nat) (as : List Nat) : (s.readLsMany core home n as).2.gts = s.gts := by
  induction as generalizing s with
  | nil => rfl
  | cons a as ih => exact (ih _).trans (s.gts_readLs core home a n)
theorem State.gts_noteWrite (s : State) (all : Bool) (know : Seen) (loc : Nat → Loc) (byte : Nat → Nat) (a n val : Nat) :
    (s.noteWrite all know loc byte a n val).2.gts = s.gts := by
  unfold State.noteWrite
  obtain ⟨o, e⟩ := State.addNodes_state { s with ctr := s.ctr + 1 } (s.ctr + 1) all know loc byte a n val n
  rw [e]
theorem State.gts_loftLine (s : State) (know : Seen) (core a : Nat) (bs : List Byte) : (s.loftLine know core a bs).2.gts = s.gts := by
  unfold State.loftLine
  rw [State.onCore_gts, State.gts_noteWrite]
theorem State.gts_mldLines (s : State) (core src dst i n : Nat) : (s.mldLines core src dst i n).gts = s.gts := by
  induction n generalizing s i with
  | zero => rfl
  | succ k ih =>
    unfold State.mldLines
    rw [ih, State.onCore_gts, State.gts_loftLine, State.gts_readLsMany]
theorem State.gts_mldAdvance (s : State) (core g : Nat) : (s.mldAdvance core g).gts = s.gts := by
  unfold State.mldAdvance
  split
  · rfl
  split
  · rfl
  dsimp only
  split
  · rfl
  · rw [State.onCore_gts, State.gts_mldLines]
theorem State.gts_loftWrite (s : State) (know : Seen) (core a : Nat) (bs : List Byte) : (s.loftWrite know core a bs).2.gts = s.gts := by
  unfold State.loftWrite
  rw [State.onCore_gts, State.gts_loftLine, State.gts_mldAdvance]

/-! ### Entries of an exchange plan -/

/-- The words of a plan entry (R35): its task, source, target and length. -/
def CoreSt.planTask (x : CoreSt) (idx : Nat) : Nat := x.ls.readN (x.planAt idx + 4) 4 % 2 ^ 20
def CoreSt.planSource (x : CoreSt) (idx : Nat) : Nat := x.ls.readN (x.planAt idx + 8) 4
def CoreSt.planTarget (x : CoreSt) (idx : Nat) : Nat := x.ls.readN (x.planAt idx + 12) 4
def CoreSt.planLength (x : CoreSt) (idx : Nat) : Nat := x.ls.readN (x.planAt idx + 16) 4
/-- The bytes of a Loft entry that one cycle copies (R217). -/
def CoreSt.planPart (x : CoreSt) (idx : Nat) : Nat :=
  min (64 - (x.planTarget idx + tget x.planDone 0 idx) % 64) (x.planLength idx - tget x.planDone 0 idx)
/-- The state after such a cycle: the bytes read from the local store stand in the Loft of the target. -/
def State.planCopied (s : State) (core idx c : Nat) : State :=
  let x := s.coreOf core
  let at_ := tget x.planDone 0 idx
  let r := s.readLsMany core core 8 ((List.range (x.planPart idx / 8)).map (fun i => x.planSource idx + at_ + 8 * i))
  let w := r.2.loftWrite (r.2.coreOf core).seen c (x.planTarget idx + at_) (r.1.flatMap (bytesOf 8))
  w.2.onCore core (fun y => { y with seen := w.1 })
theorem State.planCopied_gts (s : State) (core idx c : Nat) : (s.planCopied core idx c).gts = s.gts := by
  unfold State.planCopied
  rw [State.onCore_gts, State.gts_loftWrite, State.gts_readLsMany]

theorem CoreSt.planFields_eq (x : CoreSt) (idx : Nat) :
    x.planFields idx = (x.planTask idx, x.planSource idx, x.planTarget idx, x.planLength idx) := rfl

section
variable {s : State} {core idx c : Nat} (hidx : idx ∈ (s.coreOf core).planTodo)
  (hc : s.taskCore ((s.coreOf core).hid.getD 0) ((s.coreOf core).ctx 0).fen ((s.coreOf core).planTask idx) = some c)
  (hr : s.runs c ((s.coreOf core).hid.getD 0) ((s.coreOf core).planTask idx) = true)
include hidx hc hr

/-- An entry between local stores (R35). -/
theorem execPlanEntry_copies (hl : (s.coreOf core).ls.readN ((s.coreOf core).planAt idx + 2) 1 ≠ 1)
    (hb : (s.coreOf c).boundary ≤ (s.coreOf core).planTarget idx)
    (hs : (s.coreOf core).anyBusy ((s.coreOf core).planSource idx) ((s.coreOf core).planLength idx) = false)
    (ht : (s.coreOf c).anyBusy ((s.coreOf core).planTarget idx) ((s.coreOf core).planLength idx) = false) :
    execPlanEntry core idx s = .next ((s.onCore core (fun y => y.planEnd idx)).copyLs core c ((s.coreOf core).planSource idx)
      ((s.coreOf core).planTarget idx) ((s.coreOf core).planLength idx / 8)) := by
  simp [execPlanEntry, CoreSt.planFields_eq, hidx, hc, hr, hl, hs, ht, Nat.not_lt.2 hb]
/-- An entry below the boundary of its target (R35, R36). -/
theorem execPlanEntry_refused (hl : (s.coreOf core).ls.readN ((s.coreOf core).planAt idx + 2) 1 ≠ 1)
    (hb : (s.coreOf core).planTarget idx < (s.coreOf c).boundary) :
    execPlanEntry core idx s =
      .next ((s.onCore core (fun y => y.planEnd idx)).refusal core 0 0 1 14 ((s.coreOf core).planAt idx) 0) := by
  simp [execPlanEntry, CoreSt.planFields_eq, hidx, hc, hr, hl, hb]

section
variable (hl : (s.coreOf core).ls.readN ((s.coreOf core).planAt idx + 2) 1 = 1)
  (hs : (s.coreOf core).anyBusy ((s.coreOf core).planSource idx) ((s.coreOf core).planLength idx) = false)
  (hf : (s.coreOf c).loftFree s.gts = true)
include hl hs hf

/-- A cycle of an entry to a Loft that leaves bytes to copy (R217). -/
theorem execPlanEntry_continues
    (hn : tget (s.coreOf core).planDone 0 idx + (s.coreOf core).planPart idx < (s.coreOf core).planLength idx) :
    execPlanEntry core idx s = .next (((s.planCopied core idx c).onCore core (fun y =>
      { y with planDone := tput y.planDone idx (tget (s.coreOf core).planDone 0 idx + (s.coreOf core).planPart idx) })).stepAt
        (s.gts + 1) (.planEntry core idx)) := by
  rw [← s.planCopied_gts core idx c]
  simp only [execPlanEntry, List.contains_iff_mem.2 hidx, CoreSt.planFields_eq, hc, hr, hl, hs, hf, beq_self_eq_true, Bool.not_true,
    Bool.false_and, Bool.false_eq_true, if_false, if_true]
  exact if_pos hn
/-- The last cycle of an entry to a Loft (R217). -/
theorem execPlanEntry_ends
    (hn : (s.coreOf core).planLength idx ≤ tget (s.coreOf core).planDone 0 idx + (s.coreOf core).planPart idx) :
    execPlanEntry core idx s = .next ((s.planCopied core idx c).onCore core (fun y => y.planEnd idx)) := by
  simp only [execPlanEntry, List.contains_iff_mem.2 hidx, CoreSt.planFields_eq, hc, hr, hl, hs, hf, beq_self_eq_true, Bool.not_true,
    Bool.false_and, Bool.false_eq_true, if_false, if_true]
  exact if_neg (Nat.not_lt.2 hn)
end
end

/-! ### Phases -/

/-- The phase that a barrier's release ends with (R46). -/
def State.phaseBegun (s : State) (key : Nat) : State :=
  s.onDom key (fun d => { phases := d.phases + 1, exchange := false, members := [], release := none })
theorem State.doms_barrierStep (s : State) (level : Nat) (ms : List (Nat × Nat)) : (s.barrierStep level ms).doms = s.doms := by
  unfold State.barrierStep
  refine (foldl_keeps State.doms (fun a m => ?_) ms _).trans (foldl_keeps State.doms (fun a m => ?_) ms s)
  · obtain ⟨e | ⟨k, e⟩, -⟩ := a.acquire_spec m.1 (a.ctxOf m.1 m.2).fen level
    · rw [e]
    · rw [e]
      rfl
  · obtain ⟨P, e, -⟩ := a.release_spec m.1 (a.ctxOf m.1 m.2).fen level
    rw [e]
theorem State.doms_completeMember (s : State) (level : Nat) (m : Nat × Nat) : (s.completeMember level m).doms = s.doms := by
  dsimp only [State.completeMember]
  split
  · rfl
  split
  · rfl
  · rfl
theorem State.doms_stopTogether (s : State) (cs : List Nat) : (s.stopTogether cs).doms = s.doms := by
  unfold State.stopTogether
  split
  · refine foldl_keeps State.doms (fun a c => ?_) cs s
    rfl
  · rfl
theorem State.doms_resolveGang (ms : List (Nat × Nat)) (s : State) (core : Nat) : (s.resolveGang ms core).doms = s.doms := by
  unfold State.resolveGang
  split
  · rfl
  dsimp only
  split
  · rw [State.doms_stopTogether]
    refine foldl_keeps State.doms (fun a c => ?_) _ s
    rfl
  · rfl

/-- The state after a phase whose members are known (R46, R48). -/
def State.phaseEnded (s : State) (level key : Nat) (ms : List (Nat × Nat)) : State :=
  let s := ms.foldl (fun s m => s.completeMember level m) ((s.phaseBegun key).barrierStep level ms)
  let cores := (ms.filter (fun m => m.2 == 0)).map (fun m => m.1)
  cores.foldl (fun s c => s.onCtx c 0 (fun x => { x with gangReq := none })) (cores.foldl (State.resolveGang ms) s)
theorem execPhaseComplete_ends {s : State} {hid level unit : Nat} {d : DomInst}
    (hd : tget s.doms DomInst.reset (domKey hid level unit) = d) (hx : d.exchange = true) (hr : d.release = some s.gts) :
    execPhaseComplete hid level unit s = .next (s.phaseEnded level (domKey hid level unit) d.members) := by
  have now : (d.exchange && d.release.any s.isAt) = true := by simp [hx, hr, State.isAt]
  subst hd
  exact if_pos now
theorem State.doms_phaseEnded (s : State) (level key : Nat) (ms : List (Nat × Nat)) :
    (s.phaseEnded level key ms).doms = (s.phaseBegun key).doms := by
  unfold State.phaseEnded
  dsimp only
  rw [foldl_keeps State.doms (f := fun s c => s.onCtx c 0 (fun x => { x with gangReq := none })) (fun _ _ => rfl),
    foldl_keeps State.doms (State.doms_resolveGang ms), foldl_keeps State.doms (fun a m => a.doms_completeMember level m),
    State.doms_barrierStep]

theorem State.ctxOf_onCtx (s : State) {core i : Nat} (f : Ctx → Ctx) (h : i < 11) :
    (s.onCtx core i f).ctxOf core i = f (s.ctxOf core i) := by
  change ((s.onCore core (fun x => x.setCtx i (f (s.ctxOf core i)))).coreOf core).ctx i = _
  rw [State.coreOf_onCore, CoreSt.ctx_setCtx _ _ h]
/-- The rules of a barrier's phase change what a core has seen and no context, and no time passes. -/
theorem State.barrierStep_one (s : State) (level core ctx : Nat) :
    (s.barrierStep level [(core, ctx)]).ctxOf core ctx = s.ctxOf core ctx ∧ (s.barrierStep level [(core, ctx)]).gts = s.gts := by
  obtain ⟨P, hP, -⟩ := s.release_spec core (s.ctxOf core ctx).fen level
  unfold State.barrierStep
  simp only [List.foldl_cons, List.foldl_nil]
  generalize (s.release core (s.ctxOf core ctx).fen level) = r at *
  obtain ⟨e | ⟨k, e⟩, -⟩ := r.acquire_spec core (r.ctxOf core ctx).fen level
  · rw [e, hP]
    exact ⟨rfl, rfl⟩
  · rw [e, hP]
    refine ⟨?_, rfl⟩
    rw [State.ctxOf, State.coreOf_onCore]
    rfl
theorem State.completeMember_helper {s : State} {level core ctx : Nat} (h0 : 0 < ctx) (hlive : (s.ctxOf core ctx).live = true)
    (hlevel : (s.ctxOf core ctx).level = level) :
    s.completeMember level (core, ctx) = s.onCtx core ctx (Ctx.phaseDone s.gts) := by
  simp [State.completeMember, hlive, hlevel, Nat.pos_iff_ne_zero.1 h0]
theorem Ctx.phaseDone_sync {c : Ctx} {g : Nat} (h : c.wait = .sync) :
    c.phaseDone g = { c with arr := false, arrOut := [], wait := .none, readyAt := g + 1 } := by
  simp only [Ctx.phaseDone, h]
/-- A helper that is the only member of its phase and waits in `sync` goes on in the next cycle (R46). -/
theorem State.phaseEnded_helper {s : State} {level key core ctx : Nat} (h0 : 0 < ctx) (h : ctx < 11)
    (hlive : (s.ctxOf core ctx).live = true) (hlevel : (s.ctxOf core ctx).level = level) (hwait : (s.ctxOf core ctx).wait = .sync) :
    (s.phaseEnded level key [(core, ctx)]).ctxOf core ctx =
      { s.ctxOf core ctx with arr := false, arrOut := [], wait := .none, readyAt := s.gts + 1 } := by
  obtain ⟨hctx, hgts⟩ := (s.phaseBegun key).barrierStep_one level core ctx
  have hctx : ((s.phaseBegun key).barrierStep level [(core, ctx)]).ctxOf core ctx = s.ctxOf core ctx := hctx
  have one : s.phaseEnded level key [(core, ctx)] =
      ((s.phaseBegun key).barrierStep level [(core, ctx)]).completeMember level (core, ctx) := by
    simp [State.phaseEnded, Nat.pos_iff_ne_zero.1 h0]
  rw [one, State.completeMember_helper h0 (hctx.symm ▸ hlive) (hctx.symm ▸ hlevel), State.ctxOf_onCtx _ _ h, hctx, hgts,
    Ctx.phaseDone_sync hwait]
  rfl

/-! ### Contexts that have ended stay ended -/

/-- Whether a core's task has ended, and which of its contexts are live. -/
def CoreSt.lives (x : CoreSt) : Bool × (Nat → Bool) := (x.ended, fun i => (x.ctx i).live)
/-- The same of every core. -/
def State.lives (s : State) (core : Nat) : Bool × (Nat → Bool) := (s.coreOf core).lives

theorem State.lives_of_cores {s t : State} (h : t.cores = s.cores) : t.lives = s.lives := by
  funext c
  simp only [State.lives, State.coreOf, h]
theorem State.lives_onCore (s : State) (core : Nat) (f : CoreSt → CoreSt) (h : ∀ x, (f x).lives = x.lives) :
    (s.onCore core f).lives = s.lives := by
  funext c
  change ((s.onCore core f).coreOf c).lives = (s.coreOf c).lives
  by_cases hc : c = core
  · rw [hc, State.coreOf_onCore, h]
  · rw [State.coreOf_onCore_ne s f hc]
theorem CoreSt.lives_setCtx (x : CoreSt) (i : Nat) (c : Ctx) (h : c.live = (x.ctx i).live) : (x.setCtx i c).lives = x.lives := by
  refine Prod.ext rfl (funext fun n => ?_)
  change ((x.setCtx i c).ctx n).live = (x.ctx n).live
  by_cases hn : n = i
  · subst hn
    by_cases hb : n < 11
    · rw [CoreSt.ctx_setCtx x c hb, h]
    · rw [CoreSt.setCtx, Vector.setIfInBounds_eq_of_size_le (by omega)]
  · rw [CoreSt.ctx_setCtx_ne x c hn]
theorem State.lives_onCtx (s : State) (core i : Nat) (f : Ctx → Ctx) (h : ∀ c, (f c).live = c.live) :
    (s.onCtx core i f).lives = s.lives := by
  funext c
  change ((s.onCore core (fun x => x.setCtx i (f (s.ctxOf core i)))).coreOf c).lives = (s.coreOf c).lives
  by_cases hc : c = core
  · rw [hc, State.coreOf_onCore]
    exact CoreSt.lives_setCtx _ i _ (h _)
  · rw [State.coreOf_onCore_ne _ _ hc]

/-! #### Refusals -/

theorem State.cores_armKill (s : State) (hid at_ reason : Nat) : (s.armKill hid at_ reason).cores = s.cores := by
  dsimp only [State.armKill]
  split
  · rfl
  split
  · split <;> rfl
  · rfl
theorem State.cores_sendBack (s : State) (id : Nat) (e : Event) : (s.sendBack id e).cores = s.cores := by
  unfold State.sendBack
  split
  · rfl
  split
  · rfl
  · exact s.cores_armKill _ _ _
theorem State.cores_onMsg (s : State) (id : Nat) (f : Msg → Msg) : (s.onMsg id f).cores = s.cores := by
  unfold State.onMsg
  split <;> rfl
theorem State.cores_corrections (s : State) (m : Msg) (task core : Nat) : (s.corrections m task core).cores = s.cores := by
  unfold State.corrections
  split <;> rfl
theorem State.cores_refuseMsg (s : State) (id reason addr : Nat) : (s.refuseMsg id reason addr).cores = s.cores := by
  rw [State.refuseMsg, State.cores_sendBack, State.cores_onMsg]
theorem State.lives_refuseInput (s : State) (core ctx task : Nat) : (s.refuseInput core ctx task).lives = s.lives := by
  unfold State.refuseInput
  dsimp only
  refine (foldl_keeps State.lives (fun a p => State.lives_of_cores ?_) _ _).trans (State.lives_onCore _ _ _ fun _ => rfl)
  split
  · rfl
  · rw [State.cores_refuseMsg]
    split
    · exact State.cores_corrections _ _ _ _
    · rfl

/-! #### Entries that arrive -/

theorem State.lives_armStalls (s : State) (core : Nat) : (s.armStalls core).lives = s.lives := by
  refine State.lives_of_cores ?_
  dsimp only [State.armStalls]
  split
  · rfl
  · refine foldl_keeps State.cores (fun a p => ?_) _ s
    split <;> rfl
theorem State.lives_arriveEntry (s : State) (core : Nat) (e : Entry) : (s.arriveEntry core e none).lives = s.lives := by
  dsimp only [State.arriveEntry]
  split
  · exact s.lives_onCore core (fun x => x.inboxAdd { e with placed := s.gts }) fun _ => rfl
  · have waits : (State.armStalls (s.onCore core (fun x => { x with input := x.input ++ [({ e with placed := s.gts }, s.gts, none)] }))
        core).lives = s.lives := (State.lives_armStalls _ _).trans (s.lives_onCore core _ fun _ => rfl)
    split
    · exact waits
    · exact waits

/-! #### Entries that are read -/

theorem State.cores_writePlace (s : State) (p : Place) (b : Byte) : (s.writePlace p b).cores = s.cores := by
  have set (u : State) : ((u.touchPlace none p b.toNat).setPlace p b).cores = u.cores := by
    have order : (u.touchPlace none p b.toNat).cores = u.cores := by
      unfold State.touchPlace
      split <;> rfl
    rw [← order]
    cases p <;> rfl
  unfold State.writePlace
  rw [set]
  split
  · obtain ⟨_, _, _, _, e⟩ := s.touch_spec ‹_›
    rw [e]
  · rfl
theorem State.cores_writeVa {s t : State} {hid va n val : Nat} (h : s.writeVa hid va n val = .ok t) : t.cores = s.cores := by
  induction n generalizing s va val with
  | zero => exact congrArg State.cores (Except.ok.inj h).symm
  | succ k ih =>
    unfold State.writeVa at h
    split at h
    · exact absurd h nofun
    · rw [ih h, State.cores_writePlace]
theorem State.lives_molFlush (s : State) (core fuel : Nat) : (s.molFlush core fuel).lives = s.lives := by
  induction fuel generalizing s with
  | zero => rfl
  | succ k ih =>
    unfold State.molFlush
    dsimp only
    split
    · rfl
    split
    · rfl
    split
    · rfl
    split
    · rfl
    · rename_i s1 h1 _ s2 h2
      refine (ih _).trans ((State.lives_onCore s2 core _ fun y => ?_).trans ?_)
      · rfl
      · rw [State.lives_of_cores (State.cores_writeVa h2), State.lives_of_cores (State.cores_writeVa h1)]
theorem State.lives_molEntry (s : State) (core ctx kind rkind seq pc w1 w2 g : Nat) :
    (s.molEntry core ctx kind rkind seq pc w1 w2 g).lives = s.lives := by
  unfold State.molEntry
  split
  · refine (State.lives_molFlush _ _ _).trans (s.lives_onCore core _ fun x => ?_)
    rfl
  · rfl
theorem State.lives_learn (s : State) (core : Nat) (know : Seen) : (s.learn core know).lives = s.lives := by
  unfold State.learn
  split
  · rfl
  · exact s.lives_onCore core _ fun _ => rfl
theorem State.lives_refill (s : State) (core : Nat) : (s.refill core).lives = s.lives := by
  unfold State.refill
  split <;> rfl
theorem State.lives_dequeued (s : State) (core ctx : Nat) (pc : Word) (e : Entry) : (s.dequeued core ctx pc e).lives = s.lives := by
  have own : (s.ownLater core ctx e).lives = s.lives := by
    unfold State.ownLater
    split <;> rfl
  refine (State.lives_onCtx _ core ctx (fun c => { c with wait := c.wait.settle }) fun _ => rfl).trans ?_
  rw [State.lives_molEntry, State.lives_learn, own]
theorem State.lives_serve (s : State) (core ctx : Nat) (pc : Word) : (s.serve core ctx pc).lives = s.lives := by
  dsimp only [State.serve]
  split
  · rw [State.lives_refill, State.lives_dequeued]
    exact s.lives_onCore core (fun x => { x with inbox := x.inbox.erase ‹_› }) fun _ => rfl
  split <;> rfl

/-! ### Retirement and the end of a task -/

/-- A halted context may end once it is quiet and no entry of an upcall waits for it (R39). -/
theorem State.mayEnd_of_quiet {s : State} {core i : Nat} (hlive : ((s.coreOf core).ctx i).live = true)
    (hwait : ((s.coreOf core).ctx i).wait = .halt) (hfatal : ((s.coreOf core).ctx i).fatal = false)
    (hk : ∀ j, j < 16 → ((s.coreOf core).ctx i).tok (.k j) = 0) (ht : ∀ j, j < 4 → ((s.coreOf core).ctx i).tok (.t j) = 0)
    (hout : ((s.coreOf core).ctx i).out = []) (hup : s.upcallEntry core i = none) (hm : (s.coreOf core).mowner ≠ some i) :
    s.mayEnd core i = true := by
  have quiet : ((s.coreOf core).ctx i).quiet = true := by
    simp only [Ctx.quiet, Bool.and_eq_true, List.all_eq_true, List.mem_range, beq_iff_eq, List.isEmpty_iff]
    exact ⟨⟨hk, ht⟩, hout⟩
  simp [State.mayEnd, hlive, hwait, hfatal, quiet, hup, hm]

theorem CoreSt.endRb_ctx (x : CoreSt) (o i : Nat) : (x.endRb o).ctx i = x.ctx i := by
  unfold CoreSt.endRb
  split
  · split <;> rfl
  · split <;> rfl
  · rfl
theorem State.lives_leaveDoms (s : State) (core ctx : Nat) : (s.leaveDoms core ctx).lives = s.lives := rfl
theorem State.lives_next (s : State) (e : Event) : (s.next e).lives = s.lives := rfl
theorem State.lives_undeclare (s : State) (cl hid : Nat) : (s.undeclare cl hid).lives = s.lives := by
  dsimp only [State.undeclare]
  split <;> rfl
/-- A helper retires once it has halted and is quiet (R39). -/
theorem execHelperRetire_retires {s : State} {core ctx : Nat} (h0 : 0 < ctx) (h : ctx < 11) (hm : s.mayEnd core ctx = true) :
    ∃ t, execHelperRetire core ctx s = .next t ∧ ((t.coreOf core).ctx ctx).live = false := by
  unfold execHelperRetire
  rw [if_neg (by simp [hm, Nat.pos_iff_ne_zero.1 h0])]
  extract_lets task flushed hs flights x mine box purged keep recorded boxed emptied refused arrived
  refine ⟨_, rfl, ?_⟩
  have dead : ((emptied.coreOf core).ctx ctx).live = false := by
    rw [State.coreOf_onCore, CoreSt.endRb_ctx, CoreSt.ctx_setCtx _ _ h]
    rfl
  clear_value emptied
  have entries : arrived.lives = refused.lives := by
    have one (u : State) (p : HVal × Entry) : (u.arriveEntry core p.2 none).lives = u.lives := u.lives_arriveEntry core p.2
    exact foldl_keeps State.lives one hs refused
  have after : ((arrived.serve core 0 (arrived.ctxOf core 0).lastPc).refill core).lives = emptied.lives := by
    rw [State.lives_refill, State.lives_serve, entries, State.lives_refuseInput, State.lives_leaveDoms]
  exact (congrFun (congrArg Prod.snd (congrFun after core)) ctx).trans dead

/-- A task ends once its control context has halted, is quiet, and has no live helper (R39). -/
theorem execTaskEnd_ends {s : State} {core : Nat} (he : (s.coreOf core).ended = false) (hm : s.mayEnd core 0 = true)
    (hh : ∀ i, 1 ≤ i → i ≤ 10 → ((s.coreOf core).ctx i).live = false) :
    ∃ t, execTaskEnd core s = .next t ∧ (t.coreOf core).ended = true ∧ ((t.coreOf core).ctx 0).live = false := by
  have alone : (List.range 10).any (fun i => ((s.coreOf core).ctx (i + 1)).live) = false := by
    rw [List.any_eq_false]
    intro i hi
    rw [hh (i + 1) (by omega) (by have := List.mem_range.1 hi; omega)]
    exact Bool.false_ne_true
  unfold execTaskEnd
  extract_lets x hid flushed r after refused
  rw [if_neg (by simp [x, he, hm, alone])]
  refine ⟨_, rfl, ?_⟩
  have dead : (after.coreOf core).ended = true ∧ ((after.coreOf core).ctx 0).live = false := by
    rw [State.coreOf_onCore, CoreSt.ctx_setCtx _ _ (by decide)]
    exact ⟨rfl, rfl⟩
  clear_value after
  have kept : ((refused.undeclare (clusterOf core) hid).next (.taskEndReport core)).lives = after.lives := by
    rw [State.lives_next, State.lives_undeclare, State.lives_refuseInput]
  obtain ⟨ended, live⟩ := dead
  have kept := congrFun kept core
  exact ⟨(congrArg Prod.fst kept).trans ended, (congrFun (congrArg Prod.snd kept) 0).trans live⟩

/-- Settles O38. -/
theorem taskAndPhaseEvents : Obligations.TaskAndPhaseEvents := by
  intro s core ctx idx hid level unit x quiet
  have may (i : Nat) (h : quiet i) : s.mayEnd core i = true := by
    obtain ⟨hlive, hwait, hfatal, hk, ht, hout, hup, hm⟩ := h
    exact State.mayEnd_of_quiet hlive hwait hfatal hk ht hout hup hm
  refine ⟨fun h0 h hq => execHelperRetire_retires h0 h (may ctx hq), fun he hq hh => execTaskEnd_ends he (may 0 hq) hh, ?_,
    fun d lim => execSyncTLimit_passed, ?_⟩
  · intro d hx hr
    refine ⟨_, execPhaseComplete_ends rfl hx hr, ?_, ?_⟩
    · rw [State.doms_phaseEnded]
      exact tget_tput_same _ _ _ _
    · intro h0 h hmem hlive hlevel hwait
      change (s.phaseEnded level (domKey hid level unit) d.members).ctxOf core ctx = _
      rw [hmem]
      exact State.phaseEnded_helper h0 h hlive hlevel hwait
  · intro hidx a task loft source target n ended at_ part c hc hr
    refine ⟨fun hl hb hs ht => execPlanEntry_copies hidx hc hr hl hb hs ht, fun hl hs hf => ?_,
      fun hl hb => execPlanEntry_refused hidx hc hr hl hb⟩
    exact ⟨execPlanEntry_continues hidx hc hr hl hs hf, execPlanEntry_ends hidx hc hr hl hs hf⟩

end Sys2Proof.Machine
end
section
/-! ## The word of every instruction decodes to it
The round trips of the constructors together (R75, R78, R84 to R87), and O50. -/
namespace Sys2Proof.Laws.RoundTrip

theorem all_hold (i : Instr) : Statement i := by
  cases i
  case
      illegalOpcode | replayedPair | lateTrap | upcall | helperRetire | taskEnd | phaseComplete | syncTLimit | planEntry |
      remoteRequestPerform | takeRetry | replyReceive | requestAck | refusalReceive | predictorDecay | esigAdd |
      ewaitAnswer | msendDepart | entryPlace | inbxTLimit | boxWrite | boxMoveBack | stallTimeout | matrixCommandStart |
      matrixCommit | mldBStart | mldBDone | cisternAddPath | cisternTapPath | scrubEnd | spillComplete | fillComplete |
      hsendDepart | hjoinComplete | hfreeComplete | streamerAccept | streamerStep | streamerComplete | pantryCommit |
      collectiveRun | registerWrite | tkrCas | cmt | cancel | schedulerTick | coreLoadAck | groupStart | taskEndReport |
      groupFree | recordWrite | recordRetry | ringHeadWrite | swcmdSave | swcmdRestore | swcmdDisarm | switchStop |
      sluiceClose | saveComplete | restoreResume | reinject | stubForward | stubCorrection | pasidTeardown |
      hostResponseDiscard | waitArm | watchRead | watchYield | pageResponse | tdiStateChange | tinv | tinvComplete |
      gtsJoin | gtsCorrect | leaseCas | coldReset | firstStageBoot | getMeasurements | hostPortTrain | kill | warmReset |
      killStop | peatAllocate | peatFormed | pwrel | reviveResume | sramUe | patrolScrub | flitReceive | nakReplay |
      retrainEnd | eventRecordWrite | rowActivate | backoffEnd | rowClose | refreshWindow | bankRefresh | heartbeat |
      refreshTakeover | sequencerRefresh | refreshHandback | pageMigrate | sensorRead | routerReceive |
      orderRestoreDeliver | securityAlarm | alarmAction | signatureCheck | dbgunlk | debugStop | debugStopTake | debugRun |
      debugStep | debugSnapshot | snapshotDone | traceGtsTrigger | droopDetect | molHeadReread | fetchTrap |
      householdCreate | householdDestroy | fenCreate | fenEnd | hostCxlMemAccess | boardwalkPeerAccess |
      unsupportedAtomicop | porchAnswer | boxFetch | allBankRefreshEnd | migrationDone =>
    exact ofNone rfl
  all_goals simp only [
      nop, dly, yield, halt, ret, eret, gsplit, sync, syncT, gang, kwait, ktst, spawn, rbRec, rbRun, brT, brF, brAny,
      brNone, jmp, call, jal, jr, trap, sig, getc, setc, gts, tmark, ewait, esig, ldb, ldbN, ldh, ldhN, ldw, ldwN, ldd, stb,
      sth, stw, std, take, give, feSet, ldbX, ldbNX, ldhX, ldhNX, ldwX, ldwNX, lddX, stbX, sthX, stwX, stdX, ldv, stv, ldvs,
      ldvx, stvx, alb, ale, fenceAcq, fenceRel, fenceAr, inbx, inbxT, amoAdd, amoMin, amoMax, amoAnd, amoOr, amoXor, amoSwp,
      amoCas, redAdd, redMin, redMax, redAnd, redOr, redXor, msend, mxq, mma, mzero, mrd, mldB, pmount, punmount, pinfo,
      cadd, caddTile, ctap, cscrub, cspill, cfill, cinfo, previve, hnew, hmov, hsplit, hjoin, hsend, hrecv, hinfo, hfree,
      hldv, hstv, sget, sput, sgat, sred, scol, pinit, pres, pcmt, pacq, prel, aNop, add, sub, mul, mulh, div, rem, and, or,
      xor, shl, shr, sra, min, max, cmp, sel, clz, popc, lih, adr, andI, orI, xorI, shlI, shrI, sraI, minI, maxI, cmpI,
      faddF32, fmulF32, ffmaF32, fcvt, pset, pand, por, pnot, vadd, vsub, vmul, vfma, vfms, vmin, vmax, vand, vor, vxor,
      vshl, vshr, vclamp, vperm, vdotI8, vsel, vcmp, vabs, vneg, vrcp, vrsqrt, vexp2, vlog2, vcvt, vred, vbcast, vsplat,
      vext, vins, vaddS, vsubS, vmulS, vfmaS, vfmsS, vminS, vmaxS, vandS, vorS, vxorS, vshlS, vshrS, vcmpS, cReservedNop,
      aReservedNop]
end Sys2Proof.Laws.RoundTrip
namespace Sys2Proof.Machine

/-- Settles O50, constructor by constructor. -/
theorem encodedInstructionsDecode : Obligations.EncodedInstructionsDecode :=
  fun i w hwf he => Laws.RoundTrip.all_hold i hwf w he

end Sys2Proof.Machine
end
section
/-! ## A word that decodes is the word of its instruction
A word is its fields put together again, and the ranges that the decoder checks are the zeros of the encoder (R75, R78, R85, R87);
O51. -/
namespace Sys2Proof

/-! ### Fields put together -/

/-- Two fields that lie side by side are one field. -/
theorem append_eq_fld {w : BitVec 32} {n m lo : Nat} {x : BitVec n} {y : BitVec m} (hx : x = fld w (lo + m) n)
    (hy : y = fld w lo m) : x ++ y = fld w lo (n + m) := by
  subst hx hy
  exact BitVec.extractLsb'_append_extractLsb'_eq_extractLsb' rfl
theorem bits_decodeHead (w : BitVec 32) : (decodeHead w).bits = fld w 25 7 := by
  have hl : BitVec.ofBool (fld w 31 1 == 1) = fld w 31 1 := by
    generalize fld w 31 1 = b
    revert b
    decide
  exact append_eq_fld (append_eq_fld hl rfl) rfl
theorem cWord_of_fields {w : BitVec 32} {op : BitVec 7} {ops : BitVec 18} (ho : (fld w 18 7).toNat = op.toNat)
    (hs : ops = fld w 0 18) : cWord (decodeHead w) op ops = w :=
  (append_eq_fld (append_eq_fld (bits_decodeHead w) (BitVec.eq_of_toNat_eq ho.symm)) hs).trans BitVec.extractLsb'_eq_self
theorem aWord_of_fields {w : BitVec 32} {op : BitVec 7} {ops : BitVec 25} (ho : (fld w 25 7).toNat = op.toNat)
    (hs : ops = fld w 0 25) : aWord op ops = w :=
  (append_eq_fld (BitVec.eq_of_toNat_eq ho.symm) hs).trans BitVec.extractLsb'_eq_self

end Sys2Proof
namespace Sys2Proof.Machine

/-! ### Decoded words -/

/-- What a decoding of `w` gives, if anything, is a well-formed instruction whose word is `w`. -/
def GivesWord (w : BitVec 32) (r : Except DecodeError Instr) : Prop := ∀ i, r = .ok i → i.wf = true ∧ encode i = some w
theorem ok_givesWord {w w' : BitVec 32} {i : Instr} (hwf : i.wf = true) (e : encode i = some w') (h : w' = w) :
    GivesWord w (.ok i) := by
  intro j hj
  obtain rfl := Except.ok.inj hj
  exact ⟨hwf, h ▸ e⟩
/-- The check that a row of the map makes gives well-formedness and the row's zero ranges (R91). -/
theorem checked_givesWord {w w' : BitVec 32} {z : Bool} {i : Instr} (e : encode i = some w') (h : z = true → w' = w) :
    GivesWord w (checked z i) := by
  unfold checked
  split
  case isTrue hc =>
    obtain ⟨hz, hwf⟩ := Bool.and_eq_true_iff.1 hc
    exact ok_givesWord hwf e (h hz)
  case isFalse => exact nofun
/-- Row by row: each operand is its field of the word, and each range between them is zero by the row's check, which leaves one
equation for each field. -/
theorem decodeC_givesWord (w : BitVec 32) : GivesWord w (decodeC w) := by
  unfold decodeC
  generalize ho : (fld w 18 7).toNat = op
  unfold decodeCOp
  split
  case h_119 | h_120 | h_121 =>
    exact ok_givesWord (by rw [Instr.wf, reservedNopOpcode, ho]; decide) rfl (cWord_of_fields rfl rfl)
  case h_122 => exact nofun
  case' h_92 => split
  all_goals
    refine checked_givesWord rfl fun hz => cWord_of_fields ho ?_
    repeat' with_reducible apply append_eq_fld
    all_goals simp_all
/-- The same for the A-slot map. -/
theorem decodeA_givesWord (w : BitVec 32) : GivesWord w (decodeA w) := by
  unfold decodeA
  generalize ho : (fld w 25 7).toNat = op
  unfold decodeAOp
  split
  case h_81 | h_82 | h_83 =>
    exact ok_givesWord (by rw [Instr.wf, reservedNopOpcode, ho]; decide) rfl (aWord_of_fields rfl rfl)
  case h_84 => exact nofun
  all_goals
    refine checked_givesWord rfl fun hz => aWord_of_fields ho ?_
    repeat' with_reducible apply append_eq_fld
    all_goals simp_all

/-- Settles O51, row by row of the two maps. -/
theorem decodedWordsEncode : Obligations.DecodedWordsEncode := by
  intro w i
  refine ⟨fun h => ?_, fun h => ?_⟩
  · obtain ⟨hwf, he⟩ := decodeC_givesWord w i h
    exact ⟨hwf, (decodeC_hasHead w i h).1, he⟩
  · obtain ⟨hwf, he⟩ := decodeA_givesWord w i h
    exact ⟨hwf, decodeA_inASlot w i h, he⟩

/-! ### Illegal opcodes -/

/-- The illegal opcodes of the C-slot map (R89). -/
theorem decodeCOp_illegal {op : Nat} (w : BitVec 32) (h : op ∈ [0x00, 0x27, 0x2F, 0x37, 0x57, 0x67, 0x7F]) :
    decodeCOp op w = .error .illegalOpcode := by
  fin_cases h <;> rfl
/-- The illegal opcodes of the A-slot map (R89). -/
theorem decodeAOp_illegal {op : Nat} (w : BitVec 32)
    (h : op ∈ [0x00, 0x16, 0x17, 0x25, 0x26, 0x27, 0x2C, 0x2D, 0x2E, 0x2F, 0x4D, 0x4E, 0x4F, 0x7F] ∨ 0x5D ≤ op ∧ op ≤ 0x7B) :
    decodeAOp op w = .error .illegalOpcode := by
  rcases h with h | ⟨lo, hi⟩
  · fin_cases h <;> rfl
  · interval_cases op <;> rfl

/-- Settles O52: the worked words are evaluated, the illegal opcodes have no row. -/
theorem decodingWords : Obligations.DecodingWords :=
  ⟨⟨by decide, by decide⟩, ⟨by decide, by decide⟩, ⟨by decide, by decide⟩, by decide, by decide, ⟨by decide, by decide⟩,
    fun w => ⟨decodeCOp_illegal w, decodeAOp_illegal w⟩⟩

end Sys2Proof.Machine
end
section
/-! ## Plain words and words that wait
A C-slot word whose wait field is not met (R75, R76), the plain words (R103, R105, R106, R116); O54 and O10. -/
namespace Sys2Proof.Machine

/-- `exec` gives a word of either slot the meaning that the repetition buffer uses. -/
theorem exec_cSlot {i : Instr} (h : i.isC = true) (s : State) : exec i s = runWord i s := by
  cases i <;> cases h
  all_goals rfl
theorem exec_aSlot {i : Instr} (h : i.isA = true) (s : State) : exec i s = runWord i s := by
  cases i <;> cases h
  all_goals rfl
/-- A wait field that is not met names a bound below its token's count (R75). -/
theorem Ctx.bound_lt_of_unmet {c : Ctx} {hd : CHead} (h : c.waitMet hd = false) :
    hd.wn ≠ 3 ∧ hd.wn.toNat < c.tok (c.tokRef hd.wk.toNat) := by
  simp only [Ctx.waitMet, Bool.or_eq_false_iff, beq_eq_false_iff_ne, decide_eq_false_iff_not, Nat.not_le] at h
  obtain ⟨⟨hwn, -⟩, htok⟩ := h
  exact ⟨hwn, htok⟩

/-- Settles O54: every word of the C slot asks its wait field first. -/
theorem unmetWaitHoldsThePair : Obligations.UnmetWaitHoldsThePair := by
  intro s w i hi hm
  rw [exec_cSlot (decodeC_hasHead w i hi).1]
  exact ⟨runWord_unmet hi hm, Ctx.bound_lt_of_unmet hm⟩

theorem execDly_next {s : State} {hd : CHead} {n : BitVec 6} (h : CClear s (.dly hd n) hd [] [] [] none 0 0 true) :
    execDly hd n s = .next ((s.readied [] 0).onMe (fun c => { c with dlyRem := n.toNat - 1 })) := by
  unfold execDly
  exact issueC_eq h rfl rfl rfl rfl
theorem execYield_next {s : State} {hd : CHead} (h : CClear s (.yield hd) hd [] [] [] none 0 0 false) (plain : s.plainSlot) :
    execYield hd s = .next (s.readied [] 0).passed := by
  obtain ⟨hg, hr⟩ := plain
  exact issueC_eq h rfl rfl rfl (State.switching_plain (by rwa [State.readied_gang]) (by rwa [State.readied_replays]))
theorem execKtst_next {s : State} {hd : CHead} {d : BitVec 5} {k : BitVec 4}
    (h : CClear s (.ktst hd d k) hd [] [] [k] none 0 0 false) :
    execKtst hd d k s = .next ((s.readied [] 0).fixedWrite (.s d.toNat) (s.me.tok (s.me.tokRef k.toNat)) 1) := by
  unfold execKtst
  refine issueC_eq h rfl rfl rfl ?_
  rw [State.readied_tokRef, State.readied_tok]

/-- Settles O10. -/
theorem plainWordResults : Obligations.PlainWordResults := by
  intro s hd d k n op cr ar done
  have kwait (h : CClear s (.kwait hd k n) hd [] [] [k] none 0 0 false) :
      (s.me.tok (s.me.tokRef k.toNat) ≤ n.toNat → exec (.kwait hd k n) s = .next done) ∧
        (n.toNat < s.me.tok (s.me.tokRef k.toNat) → exec (.kwait hd k n) s = .next (s.hold false)) :=
    ⟨fun ht => issueC_eq h rfl (decide_eq_false (Nat.not_lt.2 ht)) rfl rfl, fun ht => issueC_holds h (decide_eq_true ht) rfl⟩
  exact ⟨fun h => issueC_eq h rfl rfl rfl rfl, fun h => issueC_eq h rfl rfl rfl rfl, fun h => issueA_next id h,
    fun h => issueA_next id h, execDly_next, execYield_next, kwait, execKtst_next⟩

end Sys2Proof.Machine
end
section
/-! ## Registers and queued results
Reads after writes (R80), and a queued result as the pairs of its latency begin (R42, R61, R102); O56. -/
namespace Sys2Proof.Machine

/-! ### Reads after writes -/

theorem getD_setIfInBounds {α : Type} {size : Nat} (v : Vector α size) {n : Nat} (h : n < size) (x d : α) (m : Nat) :
    (v.setIfInBounds n x)[m]?.getD d = if m = n then x else v[m]?.getD d := by
  rw [Vector.getElem?_setIfInBounds]
  by_cases hm : m = n
  · rw [if_pos hm.symm, if_pos h, if_pos hm]
    rfl
  · rw [if_neg (Ne.symm hm), if_neg hm]
/-- The same where the register 0 reads `z` whatever it holds (R80). -/
theorem wired_setIfInBounds {α : Type} {size : Nat} (v : Vector α size) {n : Nat} (h0 : 0 < n) (h : n < size) (x d z : α) (m : Nat) :
    (if m = 0 then z else (v.setIfInBounds n x)[m]?.getD d) = if m = n then x else if m = 0 then z else v[m]?.getD d := by
  rw [getD_setIfInBounds v h]
  by_cases hm : m = n
  · rw [if_pos hm, if_pos hm, if_neg (by omega)]
  · rw [if_neg hm, if_neg hm]
theorem Ctx.sReg_writeReg (c : Ctx) {n : Nat} (h0 : 0 < n) (h : n < 32) (x m : Nat) :
    (c.writeReg (.s n) x).sReg m = if m = n then BitVec.ofNat 64 x else c.sReg m := by
  simp only [Ctx.writeReg, if_neg (Nat.ne_of_gt h0)]
  exact wired_setIfInBounds c.s h0 h _ _ _ m
theorem Ctx.pReg_writeReg (c : Ctx) {n : Nat} (h0 : 0 < n) (h : n < 8) (x m : Nat) :
    (c.writeReg (.p n) x).pReg m = if m = n then BitVec.ofNat 32 x else c.pReg m := by
  simp only [Ctx.writeReg, if_neg (Nat.ne_of_gt h0)]
  exact wired_setIfInBounds c.p h0 h _ _ _ m
theorem Ctx.vReg_writeReg (c : Ctx) {n : Nat} (h : n < 64) (x m : Nat) :
    (c.writeReg (.v n) x).vReg m = if m = n then BitVec.ofNat 1024 x else c.vReg m :=
  getD_setIfInBounds c.v h _ _ m

/-! ### A queued result -/

/-- A context that waits for one result alone. -/
def Ctx.owing (c : Ctx) (r : RegId) (x lat : Nat) : Ctx := { c with fixed := [FixedW.mk r x lat] }
/-- The context once that result has been written. -/
def Ctx.paid (c : Ctx) (r : RegId) (x : Nat) : Ctx := Ctx.writeReg { c with fixed := [] } r x

theorem Ctx.queueFixed_first {c : Ctx} {r : RegId} (h : c.fixed = []) (hr : r.fixed = false) (x lat : Nat) :
    c.queueFixed r x lat = c.owing r x lat := by
  rw [Ctx.queueFixed, hr, h]
  rfl
theorem Ctx.countDown_owing (c : Ctx) (r : RegId) (x lat : Nat) : (c.owing r x (lat + 2)).countDown = c.owing r x (lat + 1) := by
  simp [Ctx.countDown, Ctx.owing]
theorem Ctx.countDown_owing_one (c : Ctx) (r : RegId) (x : Nat) : (c.owing r x 1).countDown = c.paid r x := by
  simp [Ctx.countDown, Ctx.owing, Ctx.paid]
theorem Ctx.countDown_of_idle {c : Ctx} (h : c.fixed = []) : c.countDown = c := by
  rcases c
  subst h
  rfl
theorem Ctx.paid_fixed (c : Ctx) (r : RegId) (x : Nat) : (c.paid r x).fixed = [] := by
  obtain ⟨s, v, p, e⟩ := Ctx.writeRegs_eq [FixedW.mk r x 0] { c with fixed := [] }
  exact congrArg Ctx.fixed e
/-- Before the last pair of its latency the result is still to come. -/
theorem Ctx.iterate_countDown_owing (c : Ctx) (r : RegId) (x : Nat) {k lat : Nat} (h : k < lat) :
    Nat.iterate Ctx.countDown k (c.owing r x lat) = c.owing r x (lat - k) := by
  induction k with
  | zero => rfl
  | succ k ih =>
    obtain ⟨j, rfl⟩ : ∃ j, lat = k + j + 2 := ⟨lat - k - 2, by omega⟩
    rw [Function.iterate_succ_apply', ih (by omega), show k + j + 2 - k = j + 2 by omega, Ctx.countDown_owing]
    congr 1
    omega
/-- From then on it has been written, and nothing is left to count. -/
theorem Ctx.iterate_countDown_paid (c : Ctx) (r : RegId) (x : Nat) {k lat : Nat} (h : 0 < lat) (hk : lat ≤ k) :
    Nat.iterate Ctx.countDown k (c.owing r x lat) = c.paid r x := by
  induction k, hk using Nat.le_induction with
  | base =>
    obtain ⟨l, rfl⟩ : ∃ l, lat = l + 1 := ⟨lat - 1, by omega⟩
    rw [Function.iterate_succ_apply', Ctx.iterate_countDown_owing c r x (by omega), show l + 1 - l = 1 by omega,
      Ctx.countDown_owing_one]
  | succ k _ ih => rw [Function.iterate_succ_apply', ih, Ctx.countDown_of_idle (c.paid_fixed r x)]

/-- Settles O56: a result is owed while fewer pairs than its latency have begun, and written once they have. -/
theorem registersAndResults : Obligations.RegistersAndResults := by
  intro c n m x lat
  refine ⟨⟨rfl, rfl, rfl, rfl⟩, fun h0 h => c.sReg_writeReg h0 h x m, fun h0 h => c.pReg_writeReg h0 h x m,
    fun h => c.vReg_writeReg h x m, ?_⟩
  intro hc h0 h hlat q
  have hq : q = c.owing (.s n) x lat := Ctx.queueFixed_first hc (by simp [RegId.fixed]; omega) x lat
  have before (k j : Nat) (hk : k < lat) : (Nat.iterate Ctx.countDown k q).sReg j = c.sReg j := by
    rw [hq, Ctx.iterate_countDown_owing c _ x hk]
    rfl
  have after (k j : Nat) (hk : lat ≤ k) :
      (Nat.iterate Ctx.countDown k q).sReg j = if j = n then BitVec.ofNat 64 x else c.sReg j := by
    rw [hq, Ctx.iterate_countDown_paid c _ x hlat hk, Ctx.paid, Ctx.sReg_writeReg _ h0 h]
    rfl
  refine ⟨fun k hk => before k n hk, by rw [after lat n le_rfl, if_pos rfl], fun k hm => ?_⟩
  rcases Nat.lt_or_ge k lat with hk | hk
  · exact before k m hk
  · rw [after k m hk, if_neg hm]

end Sys2Proof.Machine
end
section
/-! ## The frame of an A-slot word
A word that issues has not trapped (R374), so it has marked its reads (R107) and queued at most one result (R101); O58. -/
namespace Sys2Proof.Machine

/-! ### A trap shows in the latch -/

theorem State.armKill_latch (s : State) (hid at_ reason : Nat) : (s.armKill hid at_ reason).latch = s.latch := by
  dsimp only [State.armKill]
  split
  · rfl
  split
  · split <;> rfl
  · rfl
theorem State.record_latch (s : State) (q ring : Nat) (rec : BitVec 256) (ack : Option Nat) :
    (s.record q ring rec ack).latch = s.latch := by
  dsimp only [State.record]
  split <;> rfl
theorem State.fatal_latch (s : State) (cause sub info : Nat) (epc : Word) : (s.fatal cause sub info epc).latch = s.latch := by
  unfold State.fatal
  extract_lets src q k epc stopped recorded armed
  have h : armed.latch = s.latch := by rw [State.armKill_latch, State.record_latch, State.onMe_latch]
  split
  · exact h
  · exact h
theorem State.enterTrap_latch (s : State) (cause sub slot : Nat) (late : Bool) (info : Nat) (epc : Word) :
    (s.enterTrap cause sub slot late info epc).latch = .trapped cause := by
  dsimp only [State.enterTrap]
  split
  · exact State.fatal_latch _ _ _ _ _
  · rfl
/-- An A-slot word that has issued has had its effect. -/
theorem issueA_issued {s t : State} {i : Instr} {u : Use} {eff : State → State} (h : issueA i u eff s = .next t)
    (hl : t.latch = .issued) : t = eff (s.markReads u.srcs) := by
  have noTrap (cause sub info : Nat) (epc : Word) : s.enterTrap cause sub 2 false info epc ≠ t := by
    rintro rfl
    rw [State.enterTrap_latch] at hl
    cases hl
  dsimp only [issueA] at h
  split at h
  · exact absurd (Host.Outcome.next.inj h) (noTrap _ _ _ _)
  · split at h
    · exact absurd (Host.Outcome.next.inj h) (noTrap _ _ _ _)
    · exact (Host.Outcome.next.inj h).symm

/-! ### The running context -/

/-- `d` is `c` but for at most `n` results more in its queue and CSTAT.UW, which stays set. -/
structure Ctx.AddsResults (n : Nat) (c d : Ctx) : Prop where
  queue : ∃ f, d = { c with fixed := c.fixed ++ f, uw := d.uw } ∧ f.length ≤ n
  uw : c.uw = true → d.uw = true

theorem Ctx.AddsResults.refl (n : Nat) (c : Ctx) : Ctx.AddsResults n c c := ⟨⟨[], by simp⟩, id⟩
theorem Ctx.AddsResults.trans {m n : Nat} {c d e : Ctx} (h : Ctx.AddsResults m c d) (k : Ctx.AddsResults n d e) :
    Ctx.AddsResults (m + n) c e := by
  obtain ⟨⟨f, hd, hf⟩, hu⟩ := h
  obtain ⟨⟨g, he, hg⟩, hv⟩ := k
  refine ⟨⟨f ++ g, ?_, by simp; omega⟩, hv ∘ hu⟩
  rw [he, hd, List.append_assoc]
theorem Ctx.queueFixed_addsResults (c : Ctx) (r : RegId) (val lat : Nat) : Ctx.AddsResults 1 c (c.queueFixed r val lat) := by
  unfold Ctx.queueFixed
  split
  · exact .refl 1 c
  · exact ⟨⟨[_], rfl, le_rfl⟩, id⟩
/-- An update of the running context changes it, or no context where none of that number stands. -/
theorem State.me_onMe_cases (s : State) (f : Ctx → Ctx) : (s.onMe f).me = f s.me ∨ (s.onMe f).me = s.me := by
  by_cases hr : s.here.run < 11
  · exact .inl (s.me_onMe f hr)
  · right
    change (s.onMe f).here.ctx (s.onMe f).here.run = _
    rw [State.here_onMe, CoreSt.setCtx, Vector.setIfInBounds_eq_of_size_le (by omega)]
    rfl

/-! ### The rest of the state -/

/-- The running context of the core in turn is all that differs. -/
structure State.MeOnly (s t : State) : Prop where
  rest : t = { s with cores := t.cores }
  cores : ∀ n, n ≠ s.focus → t.coreOf n = s.coreOf n
  here : t.here = { s.here with ctxs := t.here.ctxs }
  ctxs : ∀ j, j ≠ s.here.run → t.here.ctx j = s.here.ctx j

theorem State.MeOnly.refl (s : State) : s.MeOnly s := ⟨rfl, fun _ _ => rfl, rfl, fun _ _ => rfl⟩
theorem State.MeOnly.focus {s t : State} (h : s.MeOnly t) : t.focus = s.focus := by rw [h.rest]
theorem State.MeOnly.run {s t : State} (h : s.MeOnly t) : t.here.run = s.here.run := by rw [h.here]
theorem State.MeOnly.trans {s t u : State} (h : s.MeOnly t) (k : t.MeOnly u) : s.MeOnly u where
  rest := by rw [k.rest, h.rest]
  cores n hn := (k.cores n (by rwa [h.focus])).trans (h.cores n hn)
  here := by rw [k.here, h.here]
  ctxs j hj := (k.ctxs j (by rwa [h.run])).trans (h.ctxs j hj)
theorem State.MeOnly.onMe (s : State) (f : Ctx → Ctx) : s.MeOnly (s.onMe f) where
  rest := rfl
  cores n hn := State.coreOf_setCore_ne s _ hn
  here := by rw [State.here_onMe]; rfl
  ctxs j hj := by rw [State.here_onMe, CoreSt.ctx_setCtx_ne _ _ hj]

/-! ### What an A-slot word may do -/

/-- At most `n` results more are queued, and CSTAT.UW may be set. -/
structure State.AddsResults (n : Nat) (s t : State) : Prop where
  only : s.MeOnly t
  me : Ctx.AddsResults n s.me t.me

theorem State.AddsResults.refl (n : Nat) (s : State) : s.AddsResults n s := ⟨.refl s, .refl n s.me⟩
theorem State.AddsResults.trans {m n : Nat} {s t u : State} (h : s.AddsResults m t) (k : t.AddsResults n u) : s.AddsResults (m + n) u :=
  ⟨h.only.trans k.only, h.me.trans k.me⟩
theorem State.AddsResults.onMe {n : Nat} {s : State} {f : Ctx → Ctx} (h : ∀ c, Ctx.AddsResults n c (f c)) :
    s.AddsResults n (s.onMe f) := by
  refine ⟨.onMe s f, ?_⟩
  rcases s.me_onMe_cases f with e | e
  · rw [e]
    exact h s.me
  · rw [e]
    exact .refl n s.me
theorem State.fixedWrite_addsResults (s : State) (r : RegId) (val lat : Nat) : s.AddsResults 1 (s.fixedWrite r val lat) :=
  .onMe fun c => c.queueFixed_addsResults r val lat
theorem State.markReads_addsResults (s : State) (srcs : List RegId) : s.AddsResults 0 (s.markReads srcs) := by
  unfold State.markReads
  split
  · exact .onMe fun c => ⟨⟨[], by simp⟩, fun _ => rfl⟩
  · exact .refl 0 s
/-- An A-slot word that issues marks its reads and queues its result, if it has one. -/
theorem exec_aSlot_addsResults {s t : State} {i : Instr} (hA : i.isA = true) (h : exec i s = .next t) (hl : t.latch = .issued) :
    s.AddsResults 1 t := by
  obtain ⟨srcs, vecs, inRegion, eff, e, -, heff⟩ := runWord_aSlotForm i s hA
  rw [exec_aSlot hA, e] at h
  rw [issueA_issued h hl]
  have result : (s.markReads srcs).AddsResults 1 (eff (s.markReads srcs)) := by
    rcases heff (s.markReads srcs) with e | ⟨d, x, l, e⟩
    · rw [e]
      exact .refl 1 _
    · rw [e]
      exact (s.markReads srcs).fixedWrite_addsResults d x l
  exact (s.markReads_addsResults srcs).trans result

/-- Settles O58. -/
theorem frameOfASlotWords : Obligations.FrameOfASlotWords := by
  intro s t i hA h hl _
  obtain ⟨⟨rest, cores, here, ctxs⟩, ⟨f, hme, hf⟩, huw⟩ := exec_aSlot_addsResults hA h hl
  exact ⟨⟨f, hme, hf, huw⟩, cores, ctxs, rest, here⟩

end Sys2Proof.Machine
end
section
/-! ## Scalar arithmetic
The typed results of the register forms (R94), the 64-bit results of the immediate forms (R95, R96), and O1 and O2. -/
namespace Sys2Proof.Machine

theorem isIntType_iff {t : BitVec 4} : isIntType t = true ↔ t.toNat < 8 := decide_eq_true_iff

/-! ### Typed results -/

/-- A typed operand is its register modulo 2^w, whatever its sign. -/
theorem typedOperand_emod (t : Nat) (x : Word) :
    typedOperand t x % ((2 ^ (8 * typeBytes t) : Nat) : Int) = (x.toNat : Int) % ((2 ^ (8 * typeBytes t) : Nat) : Int) := by
  unfold typedOperand
  split
  · rw [BitVec.toInt_eq_toNat_bmod, Int.bmod_emod, BitVec.toNat_setWidth, Int.natCast_mod, Int.emod_emod]
  · rw [BitVec.toNat_setWidth, Int.natCast_mod, Int.emod_emod]

section
variable (t : Nat) (x y : Word)

theorem sAdd_eq : sAdd t x y = (typedResult t (typedOperand t x + typedOperand t y)).toNat := by
  rw [sAdd, extended_eq, typed_eq, typed_eq]
theorem sSub_eq : sSub t x y = (typedResult t (typedOperand t x - typedOperand t y)).toNat := by
  rw [sSub, extended_eq, typed_eq, typed_eq]
theorem sMul_eq : sMul t x y = (typedResult t (typedOperand t x * typedOperand t y)).toNat := by
  rw [sMul, extended_eq, typed_eq, typed_eq]
theorem sMulh_eq : sMulh t x y = (typedResult t (typedOperand t x * typedOperand t y / 2 ^ (8 * typeBytes t))).toNat := by
  rw [sMulh, extended_eq, typed_eq, typed_eq, Int.fdiv_eq_ediv_of_nonneg _ (Int.natCast_nonneg _), Nat.cast_pow]
  rfl
theorem sDiv_eq : sDiv t x y =
    (typedResult t (if typedOperand t y = 0 then -1 else (typedOperand t x).tdiv (typedOperand t y))).toNat := by
  rw [sDiv, extended_eq, typed_eq, typed_eq, intDiv]
theorem sRem_eq : sRem t x y = (typedResult t (if typedOperand t y = 0 then typedOperand t x
    else typedOperand t x - typedOperand t y * (typedOperand t x).tdiv (typedOperand t y))).toNat := by
  rw [sRem, extended_eq, typed_eq, typed_eq, intRem, Int.tmod_def]
theorem sAnd_eq : sAnd t x y = (typedResult t ((x &&& y).toNat : Int)).toNat := extended_eq t _
theorem sOr_eq : sOr t x y = (typedResult t ((x ||| y).toNat : Int)).toNat := extended_eq t _
theorem sXor_eq : sXor t x y = (typedResult t ((x ^^^ y).toNat : Int)).toNat := extended_eq t _
/-- A shift to the left keeps the low w bits of the number that its operand reads as. -/
theorem sShl_eq : sShl t x y = (typedResult t (typedOperand t x * 2 ^ (y.toNat % (8 * typeBytes t)))).toNat := by
  rw [sShl, extended_eq, Nat.shiftLeft_eq, Nat.cast_mul, Nat.cast_pow]
  exact congrArg BitVec.toNat (typedResult_congr (Int.ModEq.mul_right _ (typedOperand_emod t x).symm))
theorem sShr_eq : sShr t x y =
    (typedResult t (((x.setWidth (8 * typeBytes t)).toNat : Int) / 2 ^ (y.toNat % (8 * typeBytes t)))).toNat := by
  rw [sShr, extended_eq, Nat.shiftRight_eq_div_pow, BitVec.toNat_setWidth, Int.natCast_ediv, Nat.cast_pow]
  rfl
theorem sSra_eq : sSra t x y =
    (typedResult t ((x.setWidth (8 * typeBytes t)).toInt / 2 ^ (y.toNat % (8 * typeBytes t)))).toNat := by
  have hw : 0 < typeWidth t := Nat.mul_pos (by decide) (typeBytes_pos t)
  rw [sSra, extended_eq, readInt_signed hw, Int.fdiv_eq_ediv_of_nonneg _ (Int.natCast_nonneg _), Nat.cast_pow]
  rfl
theorem sMin_eq : sMin t x y = (typedResult t (min (typedOperand t x) (typedOperand t y))).toNat := by
  rw [sMin, extended_eq, typed_eq, typed_eq]
theorem sMax_eq : sMax t x y = (typedResult t (max (typedOperand t x) (typedOperand t y))).toNat := by
  rw [sMax, extended_eq, typed_eq, typed_eq]
end

/-- A register form: its type codes, and the state that it leaves (R94, R101). -/
theorem registerForm {i : Instr} {s : State} {d a b : BitVec 5} {t : BitVec 4} {f : Nat → Word → Word → Nat} {z : Int} {lat : Nat}
    (hw : i.wf = isIntType t) (he : exec i s = issueBin i (f t.toNat) lat d a b s)
    (hf : f t.toNat (s.me.sReg a.toNat) (s.me.sReg b.toNat) = (typedResult t.toNat z).toNat) :
    (i.wf = true ↔ t.toNat < 8) ∧ (AClear s i [.s a.toNat, .s b.toNat] [] false → exec i s =
      .next ((s.markReads [.s a.toNat, .s b.toNat]).fixedWrite (.s d.toNat) (typedResult t.toNat z).toNat lat)) := by
  refine ⟨by rw [hw, isIntType_iff], fun h => ?_⟩
  rw [he, issueBin_next h, hf]

/-- Settles O1: each form is `registerForm` with the typed result of its operation. -/
theorem scalarArithmeticResults : Obligations.ScalarArithmeticResults := by
  intro s d a b t T w u v x y
  simp only [List.forall_mem_cons]
  exact ⟨registerForm rfl rfl (sAdd_eq T u v), registerForm rfl rfl (sSub_eq T u v), registerForm rfl rfl (sMul_eq T u v),
    registerForm rfl rfl (sMulh_eq T u v), registerForm rfl rfl (sDiv_eq T u v), registerForm rfl rfl (sRem_eq T u v),
    registerForm rfl rfl (sAnd_eq T u v), registerForm rfl rfl (sOr_eq T u v), registerForm rfl rfl (sXor_eq T u v),
    registerForm rfl rfl (sShl_eq T u v), registerForm rfl rfl (sShr_eq T u v), registerForm rfl rfl (sSra_eq T u v),
    registerForm rfl rfl (sMin_eq T u v), registerForm rfl rfl (sMax_eq T u v), nofun⟩

/-! ### Results of 64 bits -/

/-- Code 3 reads a register as its signed value, and keeps every bit of a result. -/
theorem typedResult_dword (z : Int) : typedResult 3 z = BitVec.ofInt 64 z := BitVec.signExtend_eq _
theorem typedResult_dword_toNat (x : Word) : typedResult 3 (x.toNat : Int) = x := by
  rw [typedResult_dword, BitVec.ofInt_natCast, BitVec.ofNat_toNat, BitVec.setWidth_eq]
theorem typedResult_dword_toInt (x : Word) : typedResult 3 x.toInt = x := by
  rw [typedResult_dword, BitVec.ofInt_toInt]
theorem typedOperand_dword (x : Word) : typedOperand 3 x = x.toInt := congrArg BitVec.toInt (BitVec.setWidth_eq x)

section
variable (x y : Word)

theorem sAnd_dword : sAnd 3 x y = (x &&& y).toNat := by rw [sAnd_eq, typedResult_dword_toNat]
theorem sOr_dword : sOr 3 x y = (x ||| y).toNat := by rw [sOr_eq, typedResult_dword_toNat]
theorem sXor_dword : sXor 3 x y = (x ^^^ y).toNat := by rw [sXor_eq, typedResult_dword_toNat]
theorem sMin_dword : sMin 3 x y = (if x.sle y then x else y).toNat := by
  rw [sMin_eq, typedOperand_dword, typedOperand_dword, min_def, ← apply_ite BitVec.toInt, typedResult_dword_toInt]
  simp only [BitVec.sle_iff_toInt_le]
theorem sMax_dword : sMax 3 x y = (if x.sle y then y else x).toNat := by
  rw [sMax_eq, typedOperand_dword, typedOperand_dword, max_def, ← apply_ite BitVec.toInt, typedResult_dword_toInt]
  simp only [BitVec.sle_iff_toInt_le]
end

section
variable (x : Word) (k : BitVec 6)

/-- A shift amount of 6 bits is below the width of 64. -/
theorem shiftBy_dword : shiftBy 3 (k.zeroExtend 64) = k.toNat := by
  have := k.isLt
  simp [shiftBy, typeWidth, typeBytes]
  omega
theorem sShl_dword : sShl 3 x (k.zeroExtend 64) = (x <<< k.toNat).toNat := by
  rw [sShl, shiftBy_dword, extended_eq, typedResult_dword, BitVec.ofInt_natCast, BitVec.toNat_shiftLeft, BitVec.toNat_ofNat]
theorem sShr_dword : sShr 3 x (k.zeroExtend 64) = (x >>> k.toNat).toNat := by
  have hx : x.toNat % 2 ^ typeWidth 3 = x.toNat := Nat.mod_eq_of_lt x.isLt
  rw [sShr, shiftBy_dword, extended_eq, hx, ← BitVec.toNat_ushiftRight, typedResult_dword_toNat]
theorem sSra_dword : sSra 3 x (k.zeroExtend 64) = (x.sshiftRight k.toNat).toNat := by
  have hx : readInt true (typeWidth 3) x.toNat = x.toInt := (typed_eq 3 x).trans (typedOperand_dword x)
  rw [sSra, shiftBy_dword, extended_eq, hx, Int.fdiv_eq_ediv_of_nonneg _ (Int.natCast_nonneg _), typedResult_dword,
    ← Int.shiftRight_eq_div_pow, BitVec.sshiftRight_eq]
end
theorem lih_toNat (hi : BitVec 20) : (hi.setWidth 64 <<< 12).toNat = hi.toNat * 4096 := by
  have := hi.isLt
  simp [BitVec.toNat_shiftLeft, Nat.shiftLeft_eq]
  omega

/-- An immediate form queues the result for sD with latency 1 (R95, R101). -/
theorem immediateForm {i : Instr} {s : State} {d a : BitVec 5} {f : Word → Word → Nat} {y z : Word}
    (he : exec i s = issueUn i (f · y) 1 d a s) (hf : f (s.me.sReg a.toNat) y = z.toNat) (h : AClear s i [.s a.toNat] [] false) :
    exec i s = .next ((s.markReads [.s a.toNat]).fixedWrite (.s d.toNat) z.toNat 1) := by
  rw [he, issueUn_next h, hf]
/-- `lih` (R96). -/
theorem execLih_next {s : State} {d : BitVec 5} {hi : BitVec 20} (h : AClear s (.lih d hi) [] [] false) :
    execLih d hi s = .next (s.fixedWrite (.s d.toNat) (hi.setWidth 64 <<< 12).toNat 1) :=
  issueA_eq h rfl rfl rfl (by rw [lih_toNat]; rfl)

/-- Settles O2: each form is `immediateForm` with the 64-bit result of its operation; `lih` reads no register. -/
theorem scalarImmediateResults : Obligations.ScalarImmediateResults := by
  intro s d a imm k hi x y
  refine ⟨?_, execLih_next⟩
  simp only [List.forall_mem_cons]
  exact ⟨immediateForm rfl (sAnd_dword x y), immediateForm rfl (sOr_dword x y), immediateForm rfl (sXor_dword x y),
    immediateForm rfl (sMin_dword x y), immediateForm rfl (sMax_dword x y), immediateForm rfl (sShl_dword x k),
    immediateForm rfl (sShr_dword x k), immediateForm rfl (sSra_dword x k), immediateForm (f := fun x y => (x + y).toNat) rfl rfl, nofun⟩

end Sys2Proof.Machine
end
section
/-! ## Scalar comparisons, counts and floating point
The conditions of R83 and R97, the counts of R98, the floating-point words of R99 and R100, and O3 and O4. -/
namespace Sys2Proof.Machine

/-! ### Comparisons -/

/-- The conditions of R83. -/
theorem iCompare_iff {c : Nat} (hc : c < 6) (x y : Int) : iCompare c x y = true ↔ holdsOf c x y := by
  interval_cases c
  all_goals simp [iCompare, holdsOf]
/-- A comparison by an integer type code (R97). -/
theorem sCmp_iff {c t : Nat} (hc : c < 6) (ht : t < 8) (x y : Word) :
    sCmp c t x y = true ↔ holdsOf c (typedOperand t x) (typedOperand t y) := by
  rw [sCmp, if_neg (Nat.ne_of_lt ht), iCompare_iff hc, typed_eq, typed_eq]
/-- The comparison of FP32 values (R97). -/
theorem sCmp_f32 (c : Nat) (x y : Word) : sCmp c 8 x y = fCompare .f32 c (x.toNat % 2 ^ 32) (y.toNat % 2 ^ 32) := rfl
/-- All lanes hold a condition's truth. -/
theorem allLanes_eq {b : Bool} {p : Prop} {n : Nat} (hb : b = true ↔ p) (hn : n = 0xFFFFFFFF ∧ p ∨ n = 0 ∧ ¬ p) :
    allLanes b = n := by
  rcases hn with ⟨rfl, hp⟩ | ⟨rfl, hp⟩
  · exact if_pos (hb.2 hp)
  · exact if_neg (mt hb.1 hp)

theorem ccOk_iff {c : BitVec 3} : ccOk c = true ↔ c.toNat < 6 := decide_eq_true_iff.trans Nat.lt_succ_iff.symm
theorem cmp_wf_iff {p c : BitVec 3} {a b : BitVec 5} {t : BitVec 4} :
    (Instr.cmp p c a b t).wf = true ↔ c.toNat < 6 ∧ t.toNat < 9 := by
  rw [Instr.wf, Bool.and_eq_true, ccOk_iff, decide_eq_true_iff, Nat.lt_succ_iff (m := t.toNat)]
theorem cmpI_wf_iff {p c : BitVec 3} {a : BitVec 5} {t : BitVec 4} {imm : BitVec 10} :
    (Instr.cmpI p c a t imm).wf = true ↔ c.toNat < 6 ∧ t.toNat < 8 := by
  rw [Instr.wf, Bool.and_eq_true, ccOk_iff, isIntType_iff]

/-- `cmp` (R97). -/
theorem execCmp_next {s : State} {p c : BitVec 3} {a b : BitVec 5} {t : BitVec 4}
    (h : AClear s (.cmp p c a b t) [.s a.toNat, .s b.toNat] [] false) :
    execCmp p c a b t s = .next ((s.markReads [.s a.toNat, .s b.toNat]).fixedWrite (.p p.toNat)
      (allLanes (sCmp c.toNat t.toNat (s.me.sReg a.toNat) (s.me.sReg b.toNat))) 1) :=
  issueA_eq h rfl rfl rfl (by rw [State.markReads_sReg, State.markReads_sReg])
/-- `cmp` with an immediate (R97). -/
theorem execCmpI_next {s : State} {p c : BitVec 3} {a : BitVec 5} {t : BitVec 4} {imm : BitVec 10}
    (h : AClear s (.cmpI p c a t imm) [.s a.toNat] [] false) :
    execCmpI p c a t imm s = .next ((s.markReads [.s a.toNat]).fixedWrite (.p p.toNat)
      (allLanes (sCmp c.toNat t.toNat (s.me.sReg a.toNat) (imm.signExtend 64))) 1) :=
  issueA_eq h rfl rfl rfl (by rw [State.markReads_sReg])
/-- `sel` (R98). -/
theorem execSel_next {s : State} {d a b : BitVec 5} {p : BitVec 3}
    (h : AClear s (.sel d a b p) [.p p.toNat, .s a.toNat, .s b.toNat] [] false) :
    execSel d a b p s = .next ((s.markReads [.p p.toNat, .s a.toNat, .s b.toNat]).fixedWrite (.s d.toNat)
      (if (s.me.pReg p.toNat).getLsbD 0 then s.me.sReg a.toNat else s.me.sReg b.toNat).toNat 1) :=
  issueA_eq h rfl rfl rfl (by rw [State.markReads_pReg, State.markReads_sReg, State.markReads_sReg])

/-! ### Counts -/

/-- The bits above the highest set one of the low w are the leading zeros (R98). -/
theorem sClz_spec (t : Nat) (x : Word) : sClz t x ≤ typeWidth t ∧
    (∀ i, i < sClz t x → x.getLsbD (typeWidth t - 1 - i) = false) ∧
    (sClz t x < typeWidth t → x.getLsbD (typeWidth t - 1 - sClz t x) = true) := by
  have low {i : Nat} (hi : i < typeWidth t) : x.getLsbD i = (x.toNat % 2 ^ typeWidth t).testBit i := by
    rw [Nat.testBit_mod_two_pow, decide_eq_true hi, Bool.true_and]
    rfl
  unfold sClz
  extract_lets v
  split
  case isTrue hv =>
    refine ⟨le_rfl, fun i hi => ?_, fun h => absurd h (Nat.lt_irrefl _)⟩
    rw [low (by omega), show x.toNat % 2 ^ typeWidth t = 0 from hv, Nat.zero_testBit]
  case isFalse hv =>
    have hlog : Nat.log2 v < typeWidth t := (Nat.log2_lt hv).2 (Nat.mod_lt _ (Nat.two_pow_pos _))
    refine ⟨by omega, fun i hi => ?_, fun _ => ?_⟩
    · rw [low (by omega)]
      exact Nat.testBit_lt_two_pow ((Nat.log2_lt hv).1 (by omega))
    · rw [show typeWidth t - 1 - (typeWidth t - 1 - Nat.log2 v) = Nat.log2 v by omega, low hlog]
      exact Nat.testBit_log2 hv
theorem sPopc_eq (t : Nat) (x : Word) : sPopc t x = (List.range (8 * typeBytes t)).countP (fun i => x.getLsbD i) :=
  List.countP_eq_length_filter.symm

/-- Settles O3. The count that `clz` gives is `sClz`, which `sClz_spec` describes by the bits around it. -/
theorem scalarCompareAndSelectResults : Obligations.ScalarCompareAndSelectResults := by
  intro s d a b p c t imm T w u
  refine ⟨cmp_wf_iff, cmpI_wf_iff, isIntType_iff, isIntType_iff, ?cmp, ?cmpF32, ?cmpI, execSel_next, ?clz, ?popc⟩
  case cmp =>
    intro n h ht hn
    exact (execCmp_next h).trans (by rw [allLanes_eq (sCmp_iff (cmp_wf_iff.1 h.wf).1 ht u _) hn])
  case cmpF32 => exact execCmp_next
  case cmpI =>
    intro n h hn
    obtain ⟨hc, ht⟩ := cmpI_wf_iff.1 h.wf
    exact (execCmpI_next h).trans (by rw [allLanes_eq (sCmp_iff hc ht u _) hn])
  case clz =>
    intro h
    obtain ⟨hle, zeros, one⟩ := sClz_spec T u
    exact ⟨sClz T u, hle, zeros, one, issueUn_next h⟩
  case popc =>
    intro h
    exact (issueUn_next h).trans (by rw [sPopc_eq])

/-! ### Floating point -/

theorem fcvt_wf_iff {d a : BitVec 5} {td ts : BitVec 4} : (Instr.fcvt d a td ts).wf = true ↔ td.toNat < 13 ∧ ts ≠ 14 := by
  rw [Instr.wf, Bool.and_eq_true, fcvtTdOk, decide_eq_true_iff, Nat.lt_succ_iff, fcvtTsOk, bne_iff_ne]
section
variable {s : State} {d a b c : BitVec 5}

/-- `fadd.f32` (R99). -/
theorem execFaddF32_next (h : AClear s (.faddF32 d a b) [.s a.toNat, .s b.toNat] [] false) :
    execFaddF32 d a b s = .next ((s.markReads [.s a.toNat, .s b.toNat]).fixedWrite (.s d.toNat)
      (fAdd .f32 s.genF32 (f32Of (s.me.sReg a.toNat)) (f32Of (s.me.sReg b.toNat))) 4) :=
  issueBin_next h
/-- `fmul.f32` (R99). -/
theorem execFmulF32_next (h : AClear s (.fmulF32 d a b) [.s a.toNat, .s b.toNat] [] false) :
    execFmulF32 d a b s = .next ((s.markReads [.s a.toNat, .s b.toNat]).fixedWrite (.s d.toNat)
      (fMul .f32 s.genF32 (f32Of (s.me.sReg a.toNat)) (f32Of (s.me.sReg b.toNat))) 4) :=
  issueBin_next h
/-- `ffma.f32` (R99). -/
theorem execFfmaF32_next (h : AClear s (.ffmaF32 d a b c) [.s a.toNat, .s b.toNat, .s c.toNat] [] false) :
    execFfmaF32 d a b c s = .next ((s.markReads [.s a.toNat, .s b.toNat, .s c.toNat]).fixedWrite (.s d.toNat)
      (fFma .f32 s.genF32 (f32Of (s.me.sReg a.toNat)) (f32Of (s.me.sReg b.toNat)) (f32Of (s.me.sReg c.toNat))) 4) :=
  issueA_eq h rfl rfl rfl (by simp only [State.markReads_genF32, State.markReads_sReg])
/-- `fcvt` (R100). -/
theorem execFcvt_next {td ts : BitVec 4} (h : AClear s (.fcvt d a td ts) [.s a.toNat] [] false) :
    execFcvt d a td ts s = .next ((s.markReads [.s a.toNat]).fixedWrite (.s d.toNat)
      (sFcvt td.toNat ts.toNat (s.me.sReg a.toNat)) 2) :=
  issueUn_next h
end

/-- Settles O4: the words round by `fAdd`, `fMul`, `fFma` and `sFcvt`, whose definitions the statement writes out. -/
theorem scalarFloatResults : Obligations.ScalarFloatResults := by
  intro s d a b c td ts x y z gen f
  exact ⟨fcvt_wf_iff, execFaddF32_next, execFmulF32_next, execFfmaF32_next, execFcvt_next⟩

end Sys2Proof.Machine
end
section
/-! ## Transfers and traps
A word whose own condition or whose place is what stops it (R93), the transfers of R109 to R111, and the trap words of R89, R112 and
R114; O11, O12 and O13. -/
namespace Sys2Proof.Machine

/-! ### A word that its own rule stops -/

/-- A word whose own precise condition is all that stops it takes that condition's trap (R93). -/
theorem issueC_traps {s : State} {i : Instr} {hd : CHead} {u : Use} {eff : State → State} {k : Cond}
    (h : CClear s i hd u.srcs u.vecs u.kfields u.tok u.reqs u.mol u.inRegion) (hc : u.conds = [k]) (hw : u.waits = false)
    (hi : u.illegal = false) : issueC i hd u eff s = .next (s.enterTrap k.cause k.sub 1 false k.info s.me.pc) := by
  have hk : u.kfields.any s.me.badToken = false := List.any_eq_false.2 fun k hk => by simp [h.fields k hk]
  have hh : (hd.wn != 3 && s.me.badToken hd.wk) = false := by
    rcases h.head with h | h
    · simp [h]
    · simp [h]
  have conds : u.all s.me ++ s.molCond u.mol = [k] := by
    simp only [Use.all, hc, underWaited_nil h.reads, tokenOverflow_nil h.raised, requestOverflow_nil h.room,
      overQuota_nil h.quota, outsideRegion_nil h.region, State.molCond, h.log, Bool.false_and, condIf_false, List.append_nil]
  simp only [issueC, h.met, h.wf, hi, hh, hk, hw, conds, firstCond, Bool.not_true, Bool.or_false, Bool.false_eq_true, if_false]
/-- A word that is illegal where it stands traps once its wait is met (R93). -/
theorem issueC_illegal {s : State} {i : Instr} {hd : CHead} {u : Use} {eff : State → State} (hm : s.me.waitMet hd = true)
    (hi : u.illegal = true) : issueC i hd u eff s = .next (s.enterTrap 1 0 1 false (wordOf i) s.me.pc) := by
  simp [issueC, hm, hi]

/-! ### Branches -/

theorem relTarget_eq {n : Nat} (pc : Word) (o : BitVec n) : relTarget pc o = pc + 4 * o.signExtend 64 := by
  rw [relTarget, BitVec.mul_comm]
theorem returnAddr_eq (pc : Word) (ln : Bool) : returnAddr pc ln = pc + (if ln then 4 else 8) := (apply_ite (pc + ·) _ _ _).symm

section
variable {i : Instr} {s : State} {hd : CHead} {p : BitVec 3} {o : BitVec 15} {taken : BitVec 32 → Bool}
  (h : CClear s i hd [.p p.toNat] [] [] none 0 0 false)
include h

/-- A branch whose condition holds goes to its target (R110). -/
theorem issueBranch_taken (ht : taken (s.me.pReg p.toNat) = true) (hc : s.traceCond none = []) :
    issueBranch i hd p o taken s = .next ((s.readied [.p p.toNat] 0).transfer (s.me.pc + 4 * o.signExtend 64)) := by
  unfold issueBranch
  refine issueC_eq h (by simp only [ht, if_true, hc]) rfl rfl ?_
  simp only [ht, if_true, State.readied_pc, relTarget_eq]
/-- A branch whose condition does not hold changes nothing (R110). -/
theorem issueBranch_untaken (ht : taken (s.me.pReg p.toNat) = false) :
    issueBranch i hd p o taken s = .next (s.readied [.p p.toNat] 0) :=
  issueC_eq h (by simp only [ht, Bool.false_eq_true, if_false]) rfl rfl (by simp only [ht, Bool.false_eq_true, if_false])
end

/-- Both outcomes of a branch. -/
theorem branchForm {i : Instr} {s : State} {hd : CHead} {p : BitVec 3} {o : BitVec 15} (taken : BitVec 32 → Bool)
    (he : exec i s = issueBranch i hd p o taken s) (h : CClear s i hd [.p p.toNat] [] [] none 0 0 false)
    (hc : s.traceCond none = []) :
    (taken (s.me.pReg p.toNat) = true →
        exec i s = .next ((s.readied [.p p.toNat] 0).transfer (s.me.pc + 4 * o.signExtend 64))) ∧
      (taken (s.me.pReg p.toNat) = false → exec i s = .next (s.readied [.p p.toNat] 0)) :=
  ⟨fun ht => he.trans (issueBranch_taken h ht hc), fun ht => he.trans (issueBranch_untaken h ht)⟩

/-- Settles O11: each branch is `branchForm` with its condition on the predicate. -/
theorem branchResults : Obligations.BranchResults := by
  intro s hd p o P
  simp only [List.forall_mem_cons]
  exact ⟨branchForm (·.getLsbD 0) rfl, branchForm (!·.getLsbD 0) rfl, branchForm (· != 0) rfl, branchForm (· == 0) rfl, nofun⟩

/-! ### Jumps -/

/-- The mask of the counts of k0 to k(n-1) that are above 0: EINFO of the token-ownership trap for n = 8 (R373). -/
def Ctx.ownedMask (c : Ctx) (n : Nat) : Nat := (List.range n).foldl (fun acc j => if c.tok (.k j) = 0 then acc else acc + 2 ^ j) 0

theorem Ctx.ownedMask_succ (c : Ctx) (n : Nat) :
    c.ownedMask (n + 1) = if c.tok (.k n) = 0 then c.ownedMask n else c.ownedMask n + 2 ^ n := by
  rw [Ctx.ownedMask, List.range_succ, List.foldl_append]
  rfl
theorem Ctx.ownedMask_lt (c : Ctx) (n : Nat) : c.ownedMask n < 2 ^ n := by
  induction n with
  | zero => exact Nat.one_pos
  | succ n ih =>
    rw [Ctx.ownedMask_succ, Nat.pow_succ]
    split
    · omega
    · omega
theorem Ctx.testBit_ownedMask (c : Ctx) {n j : Nat} (hj : j < n) : (c.ownedMask n).testBit j = true ↔ c.tok (.k j) ≠ 0 := by
  induction n with
  | zero => exact absurd hj (Nat.not_lt_zero j)
  | succ n ih =>
    rw [Ctx.ownedMask_succ]
    rcases Nat.lt_succ_iff_lt_or_eq.1 hj with hlt | rfl
    · split
      · exact ih hlt
      · rw [Nat.add_comm, Nat.testBit_two_pow_add_gt hlt, ih hlt]
    · have top : (c.ownedMask j).testBit j = false := Nat.testBit_lt_two_pow (c.ownedMask_lt j)
      split
      case isTrue h => simp [top, h]
      case isFalse h => simp [Nat.add_comm, Nat.testBit_two_pow_add_eq, top, h]
/-- The mask is the number below 256 whose bits are the counts above 0. -/
theorem Ctx.ownedTokens_eq {c : Ctx} {m : Nat} (hm : m < 2 ^ 8) (h : ∀ j, j < 8 → (m.testBit j = true ↔ c.tok (.k j) ≠ 0)) :
    c.ownedTokens = m := by
  refine Nat.eq_of_testBit_eq fun j => ?_
  by_cases hj : j < 8
  · exact Bool.eq_iff_iff.2 ((c.testBit_ownedMask hj).trans (h j hj).symm)
  · have high : 2 ^ 8 ≤ 2 ^ j := Nat.pow_le_pow_right (by decide) (Nat.not_lt.1 hj)
    rw [Nat.testBit_lt_two_pow (hm.trans_le high)]
    exact Nat.testBit_lt_two_pow ((c.ownedMask_lt 8).trans_le high)
theorem Ctx.ownedTokens_zero {c : Ctx} (h : ∀ j, j < 8 → c.tok (.k j) = 0) : c.ownedTokens = 0 :=
  Ctx.ownedTokens_eq (by decide) fun j hj => by simp [h j hj]

section
variable {s : State} {hd : CHead} (hc : s.traceCond none = [])
include hc

/-- `jmp` (R110). -/
theorem execJmp_next {o : BitVec 18} (h : CClear s (.jmp hd o) hd [] [] [] none 0 0 false) :
    execJmp hd o s = .next ((s.readied [] 0).transfer (s.me.pc + 4 * o.signExtend 64)) :=
  issueC_eq h hc rfl rfl (by rw [State.readied_pc, relTarget_eq])
/-- A `call` that owns no token, or stands in a handler (R109). -/
theorem execCall_next {o : BitVec 18} (h : CClear s (.call hd o) hd [] [] [] none 0 0 false)
    (hk : s.me.inh = true ∨ ∀ j, j < 8 → s.me.tok (.k j) = 0) :
    execCall hd o s = .next (((s.readied [] 0).fixedWrite (.s 31) (s.me.pc + (if hd.ln then 4 else 8)).toNat 1).transfer
      (s.me.pc + 4 * o.signExtend 64)) := by
  have free : (!s.me.inh && s.me.ownedTokens != 0) = false := by
    rcases hk with hk | hk
    · rw [hk]
      rfl
    · rw [Ctx.ownedTokens_zero hk]
      exact Bool.and_false _
  exact issueC_eq h (by simp only [free, hc, condIf_false, List.append_nil]) rfl rfl
    (by rw [State.readied_pc, relTarget_eq, returnAddr_eq])
/-- A `call` outside a handler that owns tokens (R109, R373). -/
theorem execCall_owning {o : BitVec 18} (h : CClear s (.call hd o) hd [] [] [] none 0 0 false) (hi : s.me.inh = false)
    (hk : s.me.ownedTokens ≠ 0) : execCall hd o s = .next (s.enterTrap 9 0 1 false s.me.ownedTokens s.me.pc) :=
  issueC_traps h (k := ⟨9, 0, s.me.ownedTokens⟩) (by simp [hi, hk, hc, condIf]) rfl rfl
/-- `jal` (R110, R111). -/
theorem execJal_next {d : BitVec 5} {n : BitVec 13} (h : CClear s (.jal hd d n) hd [] [] [] none 0 0 false) :
    execJal hd d n s = .next (((s.readied [] 0).fixedWrite (.s d.toNat) (s.me.pc + (if hd.ln then 4 else 8)).toNat 1).transfer
      (s.me.pc + 4 * n.signExtend 64)) :=
  issueC_eq h hc rfl rfl (by rw [State.readied_pc, relTarget_eq, returnAddr_eq])
/-- `jr` (R110). -/
theorem execJr_next {a : BitVec 5} (h : CClear s (.jr hd a) hd [.s a.toNat] [] [] none 0 0 false) :
    execJr hd a s = .next ((s.readied [.s a.toNat] 0).transfer (s.me.sReg a.toNat)) :=
  issueC_eq h hc rfl rfl (by rw [State.readied_sReg])
/-- `ret` (R110, R111). -/
theorem execRet_next (h : CClear s (.ret hd) hd [.s 31] [] [] none 0 0 false) :
    execRet hd s = .next ((s.readied [.s 31] 0).transfer (s.me.sReg 31)) :=
  issueC_eq h hc rfl rfl (by rw [State.readied_sReg])
end

/-- Settles O12: each clause is the rule of its word above; the mask of the trap is the one whose bits the statement gives. -/
theorem jumpResults : Obligations.JumpResults := by
  intro s hd d a o n pc link go hc
  refine ⟨execJmp_next hc, execCall_next hc, ?_, execJal_next hc, execJr_next hc, execRet_next hc⟩
  intro owned h hi hm h0 hb
  obtain rfl := Ctx.ownedTokens_eq hm hb
  exact execCall_owning hc h hi h0

/-! ### Trap words -/

/-- `trap` (R112). -/
theorem execTrap_next {s : State} {hd : CHead} {code : BitVec 8} (h : CClear s (.trap hd code) hd [] [] [] none 0 0 false) :
    execTrap hd code s = .next ((s.readied [] 0).trapAfter 26 0 code.toNat s.me.npc) :=
  issueC_eq h rfl rfl rfl (by rw [State.readied_npc])
theorem Ctx.trapTokensZero_iff {c : Ctx} : c.trapTokensZero = true ↔ ∀ j, j < 4 → c.tok (.t j) = 0 := by
  simp [Ctx.trapTokensZero]

section
variable {s : State} {hd : CHead} (h : CClear s (.eret hd) hd [] [] [] none 0 0 false) (hi : s.me.inh = true)
include h hi

/-- `eret` once t0 to t3 are zero (R114). -/
theorem execEret_next (hz : s.me.trapTokensZero = true) : execEret hd s = .next (s.readied [] 0).leaveTrap :=
  issueC_eq h rfl (by rw [hz]; rfl) (by rw [hi]; rfl) rfl
/-- `eret` before that (R114). -/
theorem execEret_holds (hz : s.me.trapTokensZero = false) : execEret hd s = .next (s.hold false) :=
  issueC_holds h (by rw [hz]; rfl) (by rw [hi]; rfl)
end
/-- `eret` outside a handler (R375). -/
theorem execEret_illegal {s : State} {hd : CHead} (hm : s.me.waitMet hd = true) (hi : s.me.inh = false) :
    execEret hd s = .next (s.enterTrap 1 0 1 false (wordOf (.eret hd)) s.me.pc) :=
  issueC_illegal hm (by rw [hi]; rfl)
/-- An illegal opcode of the A slot, or of a C-slot word whose wait is met (R89, R93). -/
theorem execIllegalOpcode_traps {s : State} {slot : Nat} {w : BitVec 32} (h : slot ≠ 1 ∨ s.me.waitMet (decodeHead w) = true) :
    execIllegalOpcode slot w s = .next (s.enterTrap 1 0 slot false w.toNat s.me.pc) :=
  if_neg (by simpa [← imp_iff_not_or] using h)
theorem execIllegalOpcode_holds {s : State} {slot : Nat} {w : BitVec 32} (h1 : slot = 1)
    (hm : s.me.waitMet (decodeHead w) = false) : execIllegalOpcode slot w s = .next (s.hold true) :=
  if_pos (by simp [h1, hm])

/-- Settles O13: each clause is the rule of its word above, with the trap tokens read one by one. -/
theorem trapWordResults : Obligations.TrapWordResults := by
  intro s hd code slot w
  refine ⟨execTrap_next, fun h hi hz => execEret_next h hi (Ctx.trapTokensZero_iff.2 hz), ?_, execEret_illegal,
    execIllegalOpcode_traps, execIllegalOpcode_holds⟩
  rintro h hi ⟨j, hj, hne⟩
  exact execEret_holds h hi (Bool.eq_false_iff.2 fun hz => hne (Ctx.trapTokensZero_iff.1 hz j hj))

end Sys2Proof.Machine
end

section
/-! ## Addresses of own and window accesses
What the address of an access makes of it (R132, R134), and the readied state as an update of its own core. -/
namespace Sys2Proof.Machine

theorem classify_own {a : Nat} (h : a < lsBytes) : classify a = .own a := if_pos h
theorem isRemote_own {a : Nat} (h : a < lsBytes) : isRemote a = false := by
  rw [isRemote, classify_own h]
theorem isRemote_window {a : Nat} (h : ∃ m off, classify a = .window m off) : isRemote a = true := by
  obtain ⟨m, off, e⟩ := h
  rw [isRemote, e]
theorem isRemote_event {a : Nat} (h : ∃ off, classify a = .event off) : isRemote a = true := by
  obtain ⟨off, e⟩ := h
  rw [isRemote, e]
/-- An address that a scalar access of the running core may name (R132, R134): at or above the boundary of the own local store, or in
the cluster window. -/
def State.mayAccess (s : State) (a : Nat) : Prop := s.here.boundary ≤ a ∧ a < lsBytes ∨ ∃ m off, classify a = .window m off
theorem misaligned_nil {a z : Nat} (h : a % z = 0) : misaligned a z = [] := by
  simp [misaligned, h, condIf]
theorem scalarBad_nil {s : State} {a : Nat} (h : s.mayAccess a) (ev : Bool) : scalarBad s a ev = [] := by
  rcases h with ⟨hb, ha⟩ | ⟨m, off, e⟩
  · simp [scalarBad, classify_own ha, condIf, Nat.not_lt.2 hb]
  · rw [scalarBad, e]
/-- The event window, for a form that it allows (R152). -/
theorem scalarBad_event {s : State} {a : Nat} (h : ∃ off, classify a = .event off) : scalarBad s a true = [] := by
  obtain ⟨off, e⟩ := h
  rw [scalarBad, e]
  rfl

theorem State.onHere_onHere (s : State) (f g : CoreSt → CoreSt) : (s.onHere f).onHere g = s.onHere (fun x => g (f x)) :=
  s.onCore_onCore s.focus f g
/-- An update of the running core that leaves a ready core as it is leaves the ready state as it is. -/
theorem State.readied_onHere_self {s : State} {srcs : List RegId} {m : Nat} {f : CoreSt → CoreSt}
    (h : f (s.readied srcs m).here = (s.readied srcs m).here) : (s.readied srcs m).onHere f = s.readied srcs m := by
  unfold State.readied State.molReserve at h ⊢
  rw [State.here_onHere] at h
  rw [State.onHere_onHere]
  exact State.onHere_congr h
/-- An update of the running context depends only on what it makes of that context. -/
theorem State.onMe_congr {s : State} {f g : Ctx → Ctx} (h : f s.me = g s.me) : s.onMe f = s.onMe g := by
  change s.setCtx s.focus s.here.run (f s.me) = s.setCtx s.focus s.here.run (g s.me)
  rw [h]
/-- The ready state's own core, under the focus of the state before. -/
theorem State.readied_coreOf (s : State) (srcs : List RegId) (m : Nat) : (s.readied srcs m).coreOf s.focus = (s.readied srcs m).here := by
  rw [State.here, State.readied_focus]
@[simp] theorem State.readied_byteOwn (s : State) (srcs : List RegId) (m : Nat) :
    (s.readied srcs m).byteLs s.focus = s.byteLs s.focus := by
  simpa only [State.readied_focus] using s.readied_byteLs srcs m
@[simp] theorem State.readied_sightOwn (s : State) (srcs : List RegId) (m : Nat) :
    (s.readied srcs m).sightLs s.focus s.focus = s.sightLs s.focus s.focus := by
  simpa only [State.readied_focus] using s.readied_sightLs srcs m
@[simp] theorem State.readied_pub (s : State) (srcs : List RegId) (m : Nat) : (s.readied srcs m).pub = s.pub := by
  unfold State.readied State.molReserve State.markReads
  split <;> rfl

end Sys2Proof.Machine
end
section
/-! ## Scalar loads and stores
The loads and stores of R136 on the own local store, through the cluster window and of the event window; O19, O20, O21 and O22. -/
namespace Sys2Proof.Machine

/-! ### The forms -/

section
variable {s : State} {hd : CHead} {d a b : BitVec 5} {o : BitVec 8}

/-- Every form of a load is a load of its size at its address. -/
theorem exec_loadForm : ∀ q ∈ loadForms s hd d a b o, exec q.i s = issueLoad q.i hd q.z q.sext q.event d q.srcs q.addr s := by
  simp only [loadForms, List.forall_mem_cons]
  exact ⟨rfl, rfl, rfl, rfl, rfl, rfl, rfl, rfl, rfl, rfl, rfl, rfl, rfl, rfl, nofun⟩
/-- Every form of a store is a store of its size at its address; its sources are the value's register and those of the address. -/
theorem exec_storeForm : ∀ q ∈ storeForms s hd d a b o, ∃ srcs, q.srcs = .s d.toNat :: srcs ∧
    exec q.i s = issueStore q.i hd q.z d srcs q.addr s := by
  simp only [storeForms, List.forall_mem_cons]
  exact ⟨⟨_, rfl, rfl⟩, ⟨_, rfl, rfl⟩, ⟨_, rfl, rfl⟩, ⟨_, rfl, rfl⟩, ⟨_, rfl, rfl⟩, ⟨_, rfl, rfl⟩, ⟨_, rfl, rfl⟩, ⟨_, rfl, rfl⟩, nofun⟩
/-- A load reads 1 to 8 bytes. -/
theorem loadForm_size : ∀ q ∈ loadForms s hd d a b o, 0 < q.z ∧ q.z ≤ 8 := by
  simp [loadForms]
end

/-- A value of 1 to 8 bytes extended to 64 bits (R136). -/
theorem extendTo64_eq {z : Nat} (h0 : 0 < z) (h8 : z ≤ 8) (sext : Bool) (v : Nat) : extendTo64 z sext v =
    (if sext then (BitVec.ofNat (8 * z) v).signExtend 64 else (BitVec.ofNat (8 * z) v).setWidth 64).toNat := by
  have hw : 2 ^ (8 * z) ≤ 2 ^ 64 := Nat.pow_le_pow_right (by decide) (by omega)
  have hv : v % 2 ^ (8 * z) < 2 ^ (8 * z) := Nat.mod_lt _ (Nat.two_pow_pos _)
  have zext : ((BitVec.ofNat (8 * z) v).setWidth 64).toNat = v % 2 ^ (8 * z) := by
    rw [BitVec.toNat_setWidth, BitVec.toNat_ofNat, Nat.mod_eq_of_lt (hv.trans_le hw)]
  cases sext
  case false => simp [extendTo64, zext]
  case true =>
    have hm : (BitVec.ofNat (8 * z) v).msb = decide (2 ^ (8 * z - 1) ≤ v % 2 ^ (8 * z)) := by
      rw [BitVec.msb_eq_decide, BitVec.toNat_ofNat]
    simp only [extendTo64, if_true, Bool.true_and, BitVec.toNat_signExtend, zext, hm, decide_eq_true_eq]
    split
    · rfl
    · rfl

/-! ### On the own local store -/

theorem State.readsOne_iff {s : State} {a n : Nat} :
    s.readsOne a n ↔ settled (s.sightLs s.focus s.focus) (s.byteLs s.focus) a n = true := by
  simp [State.readsOne, State.ownSight, settled]

section
variable {i : Instr} {s : State} {hd : CHead} {z a : Nat} {srcs : List RegId}
  (hr : s.me.region = none)
include hr

/-- A load from the own local store is a read step of the core (R136, R167). -/
theorem issueLoad_own {sext ev : Bool} {d : BitVec 5} (ha : s.ownAccess a z z) (h : CClear s i hd srcs [] [] none 0 0 false) :
    issueLoad i hd z sext ev d srcs a s =
      .next (((s.readied srcs 0).readLs s.focus s.focus a z).2.fixedWrite (.s d.toNat)
        (extendTo64 z sext ((s.readied srcs 0).readLs s.focus s.focus a z).1) 3) := by
  obtain ⟨hal, hlt, hb, hl⟩ := ha
  rw [issueLoad]
  simp only [hr, Option.isSome_none, Bool.false_eq_true, if_false, isRemote_own hlt]
  refine issueC_eq h ?_ hl rfl ?_
  · rw [misaligned_nil hal, scalarBad_nil (.inl ⟨hb, hlt⟩)]
    rfl
  · simp only [State.readied_focus, classify_own hlt, Bool.and_true]
/-- A store to the own local store (R135, R136). -/
theorem issueStore_own {v : BitVec 5} (ha : s.ownAccess a z z) (h : CClear s i hd (.s v.toNat :: srcs) [] [] none 0 0 false) :
    issueStore i hd z v srcs a s =
      .next ((s.readied (.s v.toNat :: srcs) 0).storeLs s.focus s.focus a z (s.me.sReg v.toNat).toNat) := by
  obtain ⟨hal, hlt, hb, hl⟩ := ha
  have hk : s.lineLocked a z = false := (Bool.or_eq_false_iff.1 hl).1
  rw [issueStore]
  simp only [hr, Option.isSome_none, Bool.false_eq_true, if_false, isRemote_own hlt]
  refine issueC_eq h ?_ ?_ rfl ?_
  · rw [misaligned_nil hal, scalarBad_nil (.inl ⟨hb, hlt⟩)]
    rfl
  · simp only [hl, hk, ite_self]
  · simp only [State.readied_focus, State.readied_sReg]
end

/-- Settles O19. -/
theorem ownLoadResults : Obligations.OwnLoadResults := by
  intro s hd d a b o hr q hq ha h u r n
  obtain ⟨h0, h8⟩ := loadForm_size q hq
  have sight : u.sightLs s.focus s.focus = s.sightLs s.focus s.focus := s.readied_sightOwn q.srcs 0
  have byte : u.byteLs s.focus = s.byteLs s.focus := s.readied_byteOwn q.srcs 0
  have ls : (u.coreOf s.focus).ls = s.here.ls := (congrArg CoreSt.ls (s.readied_coreOf q.srcs 0)).trans (s.readied_ls q.srcs 0)
  refine ⟨?_, fun one => ?_, fun choice hne j hj => ?_⟩
  · rw [exec_loadForm q hq, issueLoad_own hr ha h, extendTo64_eq h0 h8]
  · rw [← ls]
    exact State.readLs_settled (by rw [sight, byte]; exact State.readsOne_iff.1 one)
  · rw [State.readsOne_iff, Bool.not_eq_true, ← sight, ← byte] at choice
    obtain ⟨w, hw, e⟩ := State.readLs_byte choice (by rw [sight]; exact hne) hj
    rw [sight] at hw
    exact ⟨w, hw, e⟩

end Sys2Proof.Machine
end

section
/-! ## The bytes that a store leaves
What a store to the own local store changes, and that it changes no more (R136, R166); O20. -/
namespace Sys2Proof.Machine

/-! ### Bytes of a value -/

/-- Byte j of a value written stands at byte j of its address (R11). -/
theorem Memory.read_writeN (m : Memory) (a n v : Nat) (h : Memory.wf m = true) {j : Nat} (hj : j < n) :
    (Memory.writeN m a n v).read (a + j) = BitVec.ofNat 8 (v / 256 ^ j) := by
  induction n generalizing m a v j with
  | zero => exact absurd hj (Nat.not_lt_zero j)
  | succ n ih =>
    rw [Memory.writeN]
    cases j with
    | zero =>
      change (Memory.writeN _ _ _ _).read a = _
      rw [Memory.read_writeN_ne _ _ (.inl (Nat.lt_add_one a)), Memory.read_write_same _ _ _ h, pow_zero, Nat.div_one]
    | succ j =>
      rw [show a + (j + 1) = a + 1 + j by omega, ih _ _ _ (Memory.write_wf h) (by omega), Nat.div_div_eq_div_mul, ← Nat.pow_succ']
/-- Byte j of a register. -/
theorem byteOf_eq (x : Word) (j : Nat) : x.extractLsb' (8 * j) 8 = BitVec.ofNat 8 (x.toNat / 256 ^ j) := by
  apply BitVec.eq_of_toNat_eq
  rw [BitVec.extractLsb'_toNat, BitVec.toNat_ofNat, Nat.shiftRight_eq_div_pow, Nat.pow_mul]
theorem contains_seenAt (k : Seen) (l : Loc) (n : Nat) : (seenAt k l).contains n = k.contains (l, n) := by
  rw [Bool.eq_iff_iff, List.contains_iff_mem, List.contains_iff_mem]
  simp only [seenAt, List.mem_map, List.mem_filter, beq_iff_eq]
  constructor
  · rintro ⟨⟨l', n'⟩, ⟨h, rfl⟩, rfl⟩
    exact h
  · exact fun h => ⟨(l, n), ⟨h, rfl⟩, rfl⟩
/-- A state that a step of the running core on its local store leaves: of that core only bytes, their marks and Seen differ, and of
the rest only the graphs and the model's counter. -/
theorem State.bytesOnly {u t : State} {f : CoreSt → CoreSt} {G : List (Loc × Graph)} {c : Nat}
    (ht : t = { u.onHere f with order := G, ctr := c })
    (hf : f u.here = { u.here with ls := (f u.here).ls, pages := (f u.here).pages, seen := (f u.here).seen }) :
    t.here = f u.here ∧
      t = { u.onHere (fun x => { x with ls := t.here.ls, pages := t.here.pages, seen := t.here.seen }) with
            order := t.order, ctr := c } := by
  have e : t.here = f u.here := by
    rw [ht, State.here_graphs, State.here_onHere]
  refine ⟨e, ?_⟩
  have g : u.onHere f = u.onHere (fun x => { x with ls := t.here.ls, pages := t.here.pages, seen := t.here.seen }) :=
    State.onHere_congr (by rw [e]; exact hf)
  rw [← g, ht]

/-- Settles O20: the store is `storeLs` of the ready state, whose graphs `storeLs_own` describes. -/
theorem ownStoreResults : Obligations.OwnStoreResults := by
  intro s hd v a b o hr q hq ha h byte loc was known
  obtain ⟨srcs, hs, he⟩ := exec_storeForm q hq
  have he := he.trans (issueStore_own hr ha (hs ▸ h))
  rw [← hs] at he
  obtain ⟨G, k, e, other, node⟩ := (s.readied q.srcs 0).storeLs_own q.addr q.z (s.me.sReg v.toNat).toNat
  simp only [State.readied_focus, State.readied_order, State.readied_byteOwn, State.readied_seen, State.readied_ctr] at e other node
  obtain ⟨here, only⟩ := State.bytesOnly e rfl
  have ls := (congrArg CoreSt.ls here).trans (congrArg (Memory.writeN · _ _ _) (s.readied_ls q.srcs 0))
  refine ⟨_, he, fun wf => ⟨?_, fun j hj => ?_⟩, fun x hx => ?_, fun l hl => ?_, fun j hj => ?_, only⟩
  · rw [ls]
    exact Memory.writeN_wf wf
  · rw [ls, Memory.read_writeN _ _ _ _ wf hj, ← byteOf_eq]
  · rw [ls, Memory.read_writeN_ne _ _ hx]
  · rw [e]
    exact other l hl
  · obtain ⟨before, hl, rfl⟩ := node j hj
    simp only [contains_seenAt] at hl
    rw [e]
    refine hl.trans ?_
    simp only [byte, byteOf_eq, BitVec.toNat_ofNat]
    rfl

end Sys2Proof.Machine
end

section
/-! ## Remote requests and the two windows
What a remote request leaves at its core, and the accesses through the windows (R133, R136, R152); O21 and O22. -/
namespace Sys2Proof.Machine

/-! ### Remote requests -/

@[simp] theorem CoreSt.setCtx_ls (x : CoreSt) (i : Nat) (c : Ctx) : (x.setCtx i c).ls = x.ls := rfl
@[simp] theorem CoreSt.setCtx_b (x : CoreSt) (i : Nat) (c : Ctx) : (x.setCtx i c).b = x.b := rfl
@[simp] theorem CoreSt.setCtx_seen (x : CoreSt) (i : Nat) (c : Ctx) : (x.setCtx i c).seen = x.seen := rfl
@[simp] theorem CoreSt.setCtx_hid (x : CoreSt) (i : Nat) (c : Ctx) : (x.setCtx i c).hid = x.hid := rfl
@[simp] theorem CoreSt.setCtx_det (x : CoreSt) (i : Nat) (c : Ctx) : (x.setCtx i c).det = x.det := rfl
@[simp] theorem CoreSt.setCtx_inbox (x : CoreSt) (i : Nat) (c : Ctx) : (x.setCtx i c).inbox = x.inbox := rfl

section
variable (s : State) (dst : Dst) (tok : Option TokRef) (body : Body) (handle : Option Nat) (near : Bool) (know : Seen)

@[simp] theorem State.request_focus : (s.request dst tok body handle near know).focus = s.focus := rfl
@[simp] theorem State.request_gts : (s.request dst tok body handle near know).gts = s.gts := rfl
@[simp] theorem State.request_order : (s.request dst tok body handle near know).order = s.order := rfl
/-- A request takes a sequence number of its context and leaves the rest of its core alone. -/
@[simp] theorem State.request_here :
    (s.request dst tok body handle near know).here = s.here.setCtx s.here.run s.me.takeSeq :=
  s.here_onMe Ctx.takeSeq
end

/-- Settles O21. -/
theorem remoteRequestTakesTheNextNumber : Obligations.RemoteRequestTakesTheNextNumber := by
  intro s dst tok body hrun t
  refine ⟨s.me_onMe Ctx.takeSeq hrun, ⟨_, tfind_tput_same _ _ _, rfl, rfl, rfl, rfl, rfl, rfl, rfl, rfl, rfl⟩,
    fun k hk => tfind_tput_ne _ _ hk, ⟨_, rfl, ?_, rfl⟩, rfl, rfl, rfl, fun c hc => ?_⟩
  · change s.gts < s.gts + 1 + _
    omega
  · exact State.coreOf_setCore_ne _ _ hc

/-! ### Switching events -/

/-- What decides whether a switching event passes the slot at once (R41, R49, R51): a core's gang, its repetition buffer's state and its
running context. -/
def CoreSt.slot (x : CoreSt) : Option Gang × RbSt × Nat := (x.gang, x.rbSt, x.run)
@[simp] theorem CoreSt.slot_setCtx (x : CoreSt) (i : Nat) (c : Ctx) : (x.setCtx i c).slot = x.slot := rfl
@[simp] theorem State.readied_slot (s : State) (srcs : List RegId) (m : Nat) : (s.readied srcs m).here.slot = s.here.slot :=
  s.readied_here srcs m CoreSt.slot fun _ _ _ _ => rfl
/-- A word that leaves the slot alone passes it where its core is in no gang and its context replays nothing. -/
theorem State.switching_passed {s t : State} (plain : s.plainSlot) (h : t.here.slot = s.here.slot) : t.switching = t.passed := by
  obtain ⟨hg, hr⟩ := plain
  simp only [CoreSt.slot, Prod.mk.injEq] at h
  obtain ⟨gang, rb, run⟩ := h
  refine State.switching_plain (gang.trans hg) ?_
  rw [← hr]
  simp only [State.replays, rb, run]

/-! ### Through the windows -/

section
variable {i : Instr} {s : State} {hd : CHead} {z a : Nat} {srcs : List RegId}
  (hr : s.me.region = none) (hal : a % z = 0)
include hr hal

section
variable {sext ev : Bool} {d : BitVec 5} (h : CClear s i hd srcs [] [] (some s.me.ltkRef) 1 1 false) (plain : s.plainSlot)
include h plain

/-- A load through the cluster window (R136). -/
theorem issueLoad_window (hw : ∃ m off, classify a = .window m off) : issueLoad i hd z sext ev d srcs a s =
    .next (((s.readied srcs 1).onMe (fun c => (c.raise s.me.ltkRef).startDest (.s d.toNat))).request (s.dstOf a) (some s.me.ltkRef)
      (.load a z sext d.toNat)).passed := by
  have conds : misaligned a z ++ scalarBad s a ev = [] := by
    rw [misaligned_nil hal, scalarBad_nil (.inr hw)]
    rfl
  obtain ⟨m, off, e⟩ := id hw
  simp only [issueLoad, hr, Option.isSome_none, Bool.false_eq_true, if_false, isRemote_window hw, if_true, conds, e, Bool.and_true]
  refine issueC_eq h rfl rfl rfl ?_
  simp only [State.readied_ltkRef, State.readied_dstOf]
  exact State.switching_passed plain (by simp)
/-- A load of the event window reads a counter, which is zero-extended (R152). -/
theorem issueLoad_event (hev : ev = true) (hw : ∃ off, classify a = .event off) : issueLoad i hd z sext ev d srcs a s =
    .next (((s.readied srcs 1).onMe (fun c => (c.raise s.me.ltkRef).startDest (.s d.toNat))).request (s.dstOf a) (some s.me.ltkRef)
      (.load a z false d.toNat)).passed := by
  subst hev
  have conds : misaligned a z ++ scalarBad s a true = [] := by
    rw [misaligned_nil hal, scalarBad_event hw]
    rfl
  obtain ⟨off, e⟩ := id hw
  simp only [issueLoad, hr, Option.isSome_none, Bool.false_eq_true, if_false, isRemote_event hw, if_true, conds, e, Bool.and_false]
  refine issueC_eq h rfl rfl rfl ?_
  simp only [State.readied_ltkRef, State.readied_dstOf]
  exact State.switching_passed plain (by simp)
end

/-- A store through the cluster window (R136). -/
theorem issueStore_window {v : BitVec 5} (h : CClear s i hd (.s v.toNat :: srcs) [] [] none 1 1 false)
    (hw : ∃ m off, classify a = .window m off) : issueStore i hd z v srcs a s =
    .next ((s.readied (.s v.toNat :: srcs) 1).request (s.dstOf a) none (.store a z (s.me.sReg v.toNat).toNat)) := by
  have conds : misaligned a z ++ scalarBad s a false = [] := by
    rw [misaligned_nil hal, scalarBad_nil (.inr hw)]
    rfl
  simp only [issueStore, hr, Option.isSome_none, Bool.false_eq_true, if_false, isRemote_window hw, if_true, conds]
  refine issueC_eq h rfl rfl rfl ?_
  simp only [State.readied_dstOf, State.readied_sReg]
end

/-- Settles O22: each clause is the rule of its window above. -/
theorem remoteScalarAccessResults : Obligations.RemoteScalarAccessResults := by
  intro s hd d a b o hr t loads
  refine ⟨fun q hq hal h plain => ⟨fun hw => ?_, fun hev hw => ?_⟩, fun q hq hal hw h => ?_⟩
  · exact (exec_loadForm q hq).trans (issueLoad_window hr hal h plain hw)
  · exact (exec_loadForm q hq).trans (issueLoad_event hr hal h plain hev hw)
  · obtain ⟨srcs, hs, he⟩ := exec_storeForm q hq
    rw [hs] at h ⊢
    exact he.trans (issueStore_window hr hal h hw)

end Sys2Proof.Machine
end

section
/-! ## The own local store as a step finds it
What of a state the steps of a core on its own local store depend on (R163, R167, R168), and what an atomic step leaves. -/
namespace Sys2Proof.Machine

/-! ### States with one local store -/

/-- A state whose running core finds the same local store: its bytes, the graphs, and what the core has seen. -/
structure State.SameStore (s t : State) : Prop where
  focus : t.focus = s.focus
  order : t.order = s.order
  ls : t.here.ls = s.here.ls
  seen : t.here.seen = s.here.seen

theorem State.SameStore.trans {s t u : State} (h : s.SameStore t) (k : t.SameStore u) : s.SameStore u :=
  ⟨k.focus.trans h.focus, k.order.trans h.order, k.ls.trans h.ls, k.seen.trans h.seen⟩
theorem State.readied_sameStore (s : State) (srcs : List RegId) (m : Nat) : s.SameStore (s.readied srcs m) :=
  ⟨s.readied_focus srcs m, s.readied_order srcs m, s.readied_ls srcs m, s.readied_seen srcs m⟩
theorem State.onMe_sameStore (s : State) (f : Ctx → Ctx) : s.SameStore (s.onMe f) := ⟨rfl, rfl, by simp, by simp⟩
theorem State.request_sameStore (s : State) (dst : Dst) (tok : Option TokRef) (body : Body) : s.SameStore (s.request dst tok body) :=
  ⟨rfl, rfl, by simp, by simp⟩

section
variable {s t : State} (h : s.SameStore t)
include h

theorem State.SameStore.coreOf : t.coreOf s.focus = t.here := by rw [State.here, h.focus]
theorem State.SameStore.byte : t.byteLs s.focus = s.byteLs s.focus := by
  funext x
  rw [State.byteLs, h.coreOf, h.ls]
  rfl
theorem State.SameStore.sight : t.sightLs s.focus s.focus = s.sightLs s.focus s.focus := by
  funext x
  simp only [State.sightLs, State.sightAt, h.order, h.byte, h.coreOf, h.seen]
  rfl
theorem State.SameStore.top (byte : Nat → Nat) : t.topAt (Loc.ls s.focus) byte = s.topAt (Loc.ls s.focus) byte := by
  funext x
  simp only [State.topAt, h.order]
theorem State.SameStore.readsOne {a n : Nat} (one : s.readsOne a n) : t.readsOne a n := by
  simpa only [State.readsOne_iff, h.focus, h.sight, h.byte] using one
end
theorem State.topsOne_iff {s : State} {a n : Nat} :
    s.topsOne a n ↔ settled (s.topAt (Loc.ls s.focus) (s.byteLs s.focus)) (s.byteLs s.focus) a n = true := by
  simp [State.topsOne, State.ownTop, settled]
theorem State.SameStore.topsOne {s t : State} (h : s.SameStore t) {a n : Nat} (one : s.topsOne a n) : t.topsOne a n := by
  simpa only [State.topsOne_iff, h.focus, h.top, h.byte] using one

/-! ### Other graphs -/

/-- The state with other graphs and another count of choices. -/
def State.ordered (s : State) (G : List (Loc × Graph)) (c : Nat) : State := { s with order := G, ctr := c }

section
variable (s : State) (G : List (Loc × Graph)) (c : Nat)
@[simp] theorem State.ordered_here : (s.ordered G c).here = s.here := rfl
end
/-- The nodes of a write change the graphs and the model's counter. -/
theorem State.noteWrite_state (s : State) (all : Bool) (know : Seen) (loc : Nat → Loc) (byte : Nat → Nat) (a n val : Nat) :
    ∃ G, (s.noteWrite all know loc byte a n val).2 = s.ordered G (s.ctr + 1) :=
  State.addNodes_state { s with ctr := s.ctr + 1 } _ all know loc byte a n val n

/-! ### Before and after an atomic step -/

/-- Before an atomic step the bytes take the values of nodes without a successor: those that memory holds, where these leave no
choice (R168). -/
theorem State.settleLs_spec (s : State) (a n : Nat) : s.settleLs s.focus a n = s ∧ s.topsOne a n ∨
    ∃ c v, s.settleLs s.focus a n = (s.ordered s.order c).onHere (fun x => { x with ls := x.ls.writeN a n v }) ∧ ¬ s.topsOne a n := by
  rw [State.topsOne_iff]
  unfold State.settleLs
  extract_lets cand
  split
  · exact .inl ⟨rfl, ‹_›⟩
  · obtain ⟨c, e⟩ := s.pickFrom_state cand a n n []
    let v := pickedVal (s.pickFrom cand a n n []).1
    exact .inr ⟨c, v, congrArg (fun u : State => u.onCore s.focus (fun x => { x with ls := x.ls.writeN a n v })) e, ‹_›⟩
theorem State.settleLs_here (s : State) (a n : Nat) : ∃ start, (s.settleLs s.focus a n).here = { s.here with ls := start } ∧
    (s.topsOne a n → start = s.here.ls) ∧ ∃ v, start = s.here.ls ∨ start = s.here.ls.writeN a n v := by
  obtain ⟨e, -⟩ | ⟨c, v, e, choice⟩ := s.settleLs_spec a n
  · exact ⟨s.here.ls, by rw [e], fun _ => rfl, 0, .inl rfl⟩
  · exact ⟨_, by rw [e, State.here_onHere]; rfl, fun one => absurd one choice, v, .inr rfl⟩
/-- It changes no more than the bytes and the model's counter. -/
theorem State.settleLs_keeps {α : Type} (g : State → α) (h : ∀ u : State, ∀ c f, g ((u.ordered u.order c).onHere f) = g u) (s : State)
    (a n : Nat) : g (s.settleLs s.focus a n) = g s := by
  obtain ⟨e, -⟩ | ⟨c, v, e, -⟩ := s.settleLs_spec a n
  · rw [e]
  · rw [e, h]
@[simp] theorem State.settleLs_focus (s : State) (a n : Nat) : (s.settleLs s.focus a n).focus = s.focus :=
  State.settleLs_keeps State.focus (fun _ _ _ => rfl) s a n
@[simp] theorem State.settleLs_gts (s : State) (a n : Nat) : (s.settleLs s.focus a n).gts = s.gts :=
  State.settleLs_keeps State.gts (fun _ _ _ => rfl) s a n
@[simp] theorem State.settleLs_due (s : State) (a n : Nat) : (s.settleLs s.focus a n).due = s.due :=
  State.settleLs_keeps State.due (fun _ _ _ => rfl) s a n

end Sys2Proof.Machine
end
section
/-! ## Single-line regions
`alb`, the accesses of an open region, and `ale` (R148, R149, R168); O23. -/
namespace Sys2Proof.Machine

/-! ### Opening and filling -/

theorem execAlb_opens {s : State} {hd : CHead} {a : BitVec 5} (h : CClear s (.alb hd a) hd [.s a.toNat] [] [] none 0 0 false)
    (hl : s.mayAccess ((s.me.sReg a.toNat).toNat / 128 * 128)) : execAlb hd a s = .next ((s.readied [.s a.toNat] 0).onMe (fun c =>
      { c with region := some { line := (s.me.sReg a.toNat).toNat / 128 * 128, pc := c.pc.toNat, accs := [] } })) := by
  unfold execAlb
  exact issueC_eq h (scalarBad_nil hl false) rfl rfl rfl
/-- The access is one of the first eight of the region and lies in its line (R149). -/
theorem Ctx.regionBad_nil {c : Ctx} {r : Region} {a z : Nat} (hr : c.region = some r) (h8 : r.accs.length < 8) (hl : r.line ≤ a)
    (hu : a + z ≤ r.line + 128) : c.regionBad a z = [] := by
  simp only [Ctx.regionBad, hr]
  rw [show (decide (8 ≤ r.accs.length) || decide (a < r.line) || decide (r.line + 128 < a + z)) = false by simp; omega]
  rfl

section
variable {i : Instr} {s : State} {hd : CHead} {z a : Nat} {r : Region} {srcs : List RegId} (hr : s.me.region = some r)
  (h8 : r.accs.length < 8) (hal : a % z = 0) (hl : r.line ≤ a) (hu : a + z ≤ r.line + 128) (hm : s.mayAccess a)
include hr h8 hal hl hu hm

theorem regionConds_nil (ev : Bool) : misaligned a z ++ scalarBad s a ev ++ s.me.regionBad a z = [] := by
  rw [misaligned_nil hal, scalarBad_nil hm, Ctx.regionBad_nil hr h8 hl hu]
  rfl
/-- A load of an open region (R148). -/
theorem issueLoad_region {sext ev : Bool} {d : BitVec 5} (h : CClear s i hd srcs [] [] none 0 0 true) :
    issueLoad i hd z sext ev d srcs a s = .next ((s.readied srcs 0).onMe (fun c => (c.regionAdd
      { store := false, addr := a, z := z, val := 0, d := d.toNat, sext := sext }).startDest (.s d.toNat))) := by
  have conds := regionConds_nil hr h8 hal hl hu hm ev
  rcases hm with ⟨-, hlt⟩ | ⟨m, off, e⟩
  · simp only [issueLoad, hr, Option.isSome_some, if_true, conds, classify_own hlt, Bool.and_true]
    exact issueC_eq h rfl rfl rfl rfl
  · simp only [issueLoad, hr, Option.isSome_some, if_true, conds, e, Bool.and_true]
    exact issueC_eq h rfl rfl rfl rfl
/-- A store of an open region keeps the value that its register holds as it issues (R148). -/
theorem issueStore_region {v : BitVec 5} (h : CClear s i hd (.s v.toNat :: srcs) [] [] none 0 0 true) :
    issueStore i hd z v srcs a s = .next ((s.readied (.s v.toNat :: srcs) 0).onMe (fun c => c.regionAdd
      { store := true, addr := a, z := z, val := (s.me.sReg v.toNat).toNat, d := 0, sext := false })) := by
  simp only [issueStore, hr, Option.isSome_some, if_true]
  refine issueC_eq h (regionConds_nil hr h8 hal hl hu hm false) rfl rfl (State.onMe_congr ?_)
  rw [State.readied_sReg]
end

/-! ### Performing -/

/-- Opening a line changes nothing but its bytes' values and graphs (R168). -/
theorem State.openLine_spec (s : State) (home line : Nat) :
    ∃ G, s.openLine home line = (s.settleLs home line 128).ordered G (s.settleLs home line 128).ctr := by
  have graphs (l : List Nat) (u : State) : ∃ G, l.foldl (fun s i =>
      let l := Loc.ls home (line + i)
      match lfind s.order l with
      | some _ => s
      | none => { s with order := lput s.order l { init := s.byteLs home (line + i), nodes := [] } }) u = u.ordered G u.ctr := by
    induction l generalizing u with
    | nil => exact ⟨u.order, rfl⟩
    | cons i l ih =>
      rw [List.foldl_cons]
      dsimp only
      split
      · exact ih u
      · obtain ⟨G, e⟩ := ih { u with order := lput u.order (.ls home (line + i)) { init := u.byteLs home (line + i), nodes := [] } }
        exact ⟨G, e⟩
  exact graphs _ _
/-- Closing a line changes the graphs and what the core has seen (R168). -/
theorem State.closeLine_spec (s : State) (core home line : Nat) : ∃ G k,
    s.closeLine core home line = (s.ordered G (s.ctr + 1)).onCore core (fun x => { x with seen := k }) := by
  unfold State.closeLine
  extract_lets r
  obtain ⟨G, e⟩ := s.noteWrite_state true (s.coreOf core).seen (Loc.ls home) (s.byteLs home) line 128 ((s.coreOf home).ls.readN line 128)
  exact ⟨G, r.1, congrArg (fun u : State => u.onCore core (fun x => { x with seen := r.1 })) e⟩

/-- The state in which an `ale` performs its accesses (R148): its token is raised and its region closed. -/
def State.aleIssued (s : State) (m : Nat) : State := (s.readied [] m).onMe (fun c => { c.raise s.me.ltkRef with region := none })
theorem State.aleIssued_run (s : State) (m : Nat) : (s.aleIssued m).here.run = s.here.run := by simp [State.aleIssued]
/-- A core once the accesses of a region have left the memory m in its local store (R148, R337). -/
def CoreSt.regionPut (x : CoreSt) (r : Region) (m : Memory) : CoreSt :=
  { x with ls := m, pages := x.pages ||| (if r.accs.any (fun a => a.store) then reach 4096 r.line 128 else 0) }
/-- The state that the accesses of a region on the own local store leave, from the state with an open line (R148, R168). -/
def State.regionDone (w : State) (r : Region) (m : Memory) : State :=
  (w.onHere (fun y => y.regionPut r m)).closeLine w.focus w.focus r.line
theorem State.regionDone_spec (w : State) (r : Region) (m : Memory) :
    (w.regionDone r m).due = w.due ∧ ∃ k, (w.regionDone r m).here = { w.here.regionPut r m with seen := k } := by
  obtain ⟨G, k, e⟩ := (w.onHere (fun y => y.regionPut r m)).closeLine_spec w.focus w.focus r.line
  rw [State.regionDone, e]
  refine ⟨rfl, k, (State.here_onHere _ _).trans ?_⟩
  rw [State.ordered_here, State.here_onHere]
/-- The state with an open line is the state before, but for the graphs, the model's counter and the bytes of the line, which keep
their values where its nodes leave no choice (R168). -/
theorem State.openLine_own (u : State) (line : Nat) : let w := u.openLine u.focus line
    w.gts = u.gts ∧ w.due = u.due ∧ w.focus = u.focus ∧ ∃ start, w.here = { u.here with ls := start } ∧
      (u.topsOne line 128 → start = u.here.ls) ∧ ∃ v, start = u.here.ls ∨ start = u.here.ls.writeN line 128 v := by
  obtain ⟨G, e⟩ := u.openLine_spec u.focus line
  intro w
  have ew : w = _ := e
  rw [ew]
  exact ⟨u.settleLs_gts line 128, u.settleLs_due line 128, u.settleLs_focus line 128, u.settleLs_here line 128⟩

/-- `ale` of a region on the own local store: its accesses are performed on the settled line and answered four cycles later (R148). -/
theorem execAle_own {s : State} {hd : CHead} {r : Region} (hr : s.me.region = some r) (hown : isRemote r.line = false)
    (hl : s.lineHeld r.line 128 = false) (h : CClear s (.ale hd) hd [] [] [] (some s.me.ltkRef) 0 0 true) :
    let u := s.aleIssued 0
    let w := u.openLine u.focus r.line
    let p := applyRegion w.here.ls id r.accs
    execAle hd s = .next ((w.regionDone r p.2).doneAt (s.gts + 4) s.focus s.here.run (regionActs r.accs p.1 ++ [.lower s.me.ltkRef])) := by
  intro u w p
  obtain ⟨hg, -, hf, start, hh, -⟩ := u.openLine_own r.line
  have hgts : w.gts = s.gts := hg.trans rfl
  have hfocus : w.focus = s.focus := hf.trans rfl
  have hrun : w.here.run = s.here.run := (congrArg CoreSt.run hh).trans (s.aleIssued_run 0)
  simp only [execAle, hr, hown, Bool.false_eq_true, if_false]
  refine issueC_eq h rfl hl rfl ?_
  rw [State.readied_ltkRef]
  change (w.regionDone r p.2).doneAt (w.gts + 4) w.focus w.here.run _ = _
  rw [hgts, hfocus, hrun]
  rfl
/-- `ale` of a region in the cluster window is one remote request (R148). -/
theorem execAle_window {s : State} {hd : CHead} {r : Region} (hr : s.me.region = some r) (hrem : isRemote r.line = true)
    (hl : s.lineHeld r.line 128 = false) (h : CClear s (.ale hd) hd [] [] [] (some s.me.ltkRef) 1 1 true) :
    execAle hd s = .next ((s.aleIssued 1).request (s.dstOf r.line) (some s.me.ltkRef) (.region r.line r.accs)) := by
  simp only [execAle, hr, hrem, if_true]
  refine issueC_eq h rfl hl rfl ?_
  simp only [State.readied_ltkRef]
  rfl
/-- An `ale` without a region (R149). -/
theorem execAle_stray {s : State} {hd : CHead} (hr : s.me.region = none) (h : CClear s (.ale hd) hd [] [] [] none 0 0 false) :
    execAle hd s = .next (s.enterTrap 15 0 1 false s.me.pc.toNat s.me.pc) := by
  simp only [execAle, hr]
  exact issueC_traps h (k := ⟨15, 0, s.me.pc.toNat⟩) rfl rfl rfl

/-- Settles O23: each clause is the rule of its word above; the step of an `ale` starts from the settled line. -/
theorem regionResults : Obligations.RegionResults := by
  intro s hd d a b o line reaches
  refine ⟨execAlb_opens, fun r hr => ⟨?_, ?_, ?own, execAle_window hr⟩, execAle_stray⟩
  · rintro q hq ⟨h8, hal, hl, hu, hm⟩ h
    exact (exec_loadForm q hq).trans (issueLoad_region hr h8 hal hl hu hm h)
  · rintro q hq ⟨h8, hal, hl, hu, hm⟩ h
    obtain ⟨srcs, hs, he⟩ := exec_storeForm q hq
    rw [hs] at h ⊢
    exact he.trans (issueStore_region hr h8 hal hl hu hm h)
  case own =>
    intro hown hl h
    have same : s.SameStore (s.aleIssued 0) := (s.readied_sameStore [] 0).trans (State.onMe_sameStore _ _)
    obtain ⟨-, due, -, start, here, one, n, hn⟩ := (s.aleIssued 0).openLine_own r.line
    have he := execAle_own hr hown hl h
    dsimp only at he
    generalize (s.aleIssued 0).openLine (s.aleIssued 0).focus r.line = w at he due here
    rw [here] at he
    rw [same.ls] at one hn
    obtain ⟨due', k, here'⟩ := w.regionDone_spec r (applyRegion start id r.accs).2
    rw [here] at here'
    refine ⟨_, (applyRegion start id r.accs).1, start, he, ?_, fun t1 => one (same.topsOne t1), ⟨n, hn⟩, fun hrun => ?_, ?_⟩
    · exact congrArg (Prod.mk _) (congrArg CoreSt.ls here')
    · have region : (s.aleIssued 0).me.region = none := by
        rw [State.aleIssued, State.me_onMe _ _ (by rwa [State.readied_run])]
      exact (congrArg (fun x : CoreSt => (x.ctx x.run).region) here').trans region
    · exact congrArg (· ++ _) (due'.trans (due.trans rfl))

end Sys2Proof.Machine
end

section
/-! ## Vector loads and stores
The lanes of a vector access, the window lines that they touch, and their steps in lane order (R137, R165 to R167); O24. -/
namespace Sys2Proof.Machine

/-! ### Lines -/

/-- A line takes its place among the lines of a vector access, rising. -/
def insertLine (acc : List Nat) (l : Nat) : List Nat :=
  if acc.contains l then acc else acc.filter (fun x => x < l) ++ [l] ++ acc.filter (fun x => l < x)
theorem insertLine_ne_nil (acc : List Nat) (l : Nat) : insertLine acc l ≠ [] := by
  unfold insertLine
  split
  · rintro rfl
    contradiction
  · simp
theorem foldl_insertLine_ne_nil {acc : List Nat} (h : acc ≠ []) (ls : List Nat) : ls.foldl insertLine acc ≠ [] := by
  induction ls generalizing acc with
  | nil => exact h
  | cons l ls ih => exact ih (insertLine_ne_nil acc l)
theorem windowLines_eq (as : List Nat) : windowLines as = ((as.filter isRemote).map (fun a => a / 128)).foldl insertLine [] := rfl
/-- An access touches no window line exactly if each lane lies in the own local store. -/
theorem windowLines_eq_nil {as : List Nat} : windowLines as = [] ↔ ∀ a ∈ as, isRemote a = false := by
  rw [windowLines_eq]
  cases e : as.filter isRemote with
  | nil => simpa using e
  | cons a rest =>
    have ha : a ∈ as ∧ isRemote a = true := List.mem_filter.1 (e ▸ List.mem_cons_self)
    refine iff_of_false (foldl_insertLine_ne_nil (insertLine_ne_nil _ _) _) fun none => ?_
    rw [none a ha.1] at ha
    exact absurd ha.2 Bool.false_ne_true

/-! ### Lanes -/

/-- Each lane address is a multiple of 4, in a line that no region holds, and one that the core may name (R137, R148). -/
def State.lanesFree (s : State) (f : Nat → Nat) : Prop := ∀ n, n < 32 → f n % 4 = 0 ∧ s.lineHeld (f n) 4 = false ∧ s.mayAccess (f n)
/-- The lane addresses in lane order. -/
def laneList (f : Nat → Nat) : List Nat := (List.range 32).map f
theorem forall_laneList {f : Nat → Nat} {P : Nat → Prop} : (∀ a ∈ laneList f, P a) ↔ ∀ n, n < 32 → P (f n) := by simp [laneList]

section
variable {s : State} {f : Nat → Nat} (free : s.lanesFree f)
include free

theorem State.lanesFree.conds : lanesMisaligned (laneList f) ++ lanesBad s (laneList f) = [] := by
  have hm : lanesMisaligned (laneList f) = [] :=
    List.flatMap_eq_nil_iff.2 (forall_laneList.2 fun n hn => misaligned_nil (free n hn).1)
  have hb : lanesBad s (laneList f) = [] := List.flatMap_eq_nil_iff.2 (forall_laneList.2 fun n hn => scalarBad_nil (free n hn).2.2 false)
  rw [hm, hb]
  rfl
theorem State.lanesFree.waits : (laneList f).any (fun a => s.lineHeld a 4) = false := by
  rw [List.any_eq_false]
  exact forall_laneList.2 fun n hn => Bool.eq_false_iff.1 (free n hn).2.1
theorem State.lanesFree.remote_iff {n : Nat} (hn : n < 32) : isRemote (f n) = false ↔ f n < lsBytes := by
  refine ⟨fun h => ?_, isRemote_own⟩
  obtain ⟨-, hlt⟩ | hw := (free n hn).2.2
  · exact hlt
  · rw [isRemote_window hw] at h
    contradiction
theorem State.lanesFree.lines : windowLines (laneList f) = [] ↔ ∀ n, n < 32 → f n < lsBytes := by
  rw [windowLines_eq_nil, forall_laneList]
  exact forall₂_congr fun n hn => free.remote_iff hn
end
/-- The lanes of the own local store are lane addresses below its end. -/
theorem laneAddrs_own {f : Nat → Nat} {p : Nat × Nat} (free : ∀ n, n < 32 → isRemote (f n) = false → f n < lsBytes)
    (h : p ∈ (laneAddrs (laneList f)).filter (fun p => !isRemote p.2)) : ∃ n, n < 32 ∧ p.2 = f n ∧ f n < lsBytes := by
  obtain ⟨hp, hr⟩ := List.mem_filter.1 h
  obtain ⟨n, hn, e⟩ := List.mem_map.1 (List.of_mem_zip hp).2
  rw [List.mem_range] at hn
  rw [Bool.not_eq_true', ← e] at hr
  exact ⟨n, hn, e.symm, free n hn hr⟩
/-- A register of 32 given lanes. -/
theorem lanesAre_ofLanes (g : Nat → Nat) : lanesAre (ofLanes ((List.range 32).map g)).toNat (fun n => BitVec.ofNat 32 (g n)) := by
  intro n hn
  rw [BitVec.ofNat_toNat, BitVec.setWidth_eq]
  refine (vlane_ofPacked hn).trans ?_
  rw [List.getD_eq_getElem?_getD, List.getElem?_map, List.getElem?_range hn]
  rfl

/-! ### Read steps and write steps in lane order -/

/-- Read steps whose bytes leave no choice find what memory holds and change nothing. -/
theorem State.readLsMany_one {s : State} {n : Nat} {as : List Nat} (one : ∀ a ∈ as, s.readsOne a n) :
    s.readLsMany s.focus s.focus n as = (as.map (fun a => s.here.ls.readN a n), s) := by
  induction as with
  | nil => rfl
  | cons a as ih =>
    rw [List.forall_mem_cons] at one
    rw [State.readLsMany, State.readLs_settled (State.readsOne_iff.1 one.1), ih one.2]
    rfl
/-- Read steps change the model's counter and what the core has seen. -/
theorem State.readLsMany_keeps {α : Type} {core : Nat} (g : State → α) (hc : ∀ (u : State) k, g { u with ctr := k } = g u)
    (hk : ∀ (u : State) k, g (u.onCore core (fun x => { x with seen := k })) = g u) (s : State) (home n : Nat) (as : List Nat) :
    g (s.readLsMany core home n as).2 = g s := by
  induction as generalizing s with
  | nil => rfl
  | cons a as ih =>
    refine (ih _).trans ?_
    obtain ⟨k, seen, e | e⟩ := s.readLs_state core home a n
    · rw [e, hk, hc]
    · rw [e, hc]
@[simp] theorem State.storeLs_focus (s : State) (a n v : Nat) : (s.storeLs s.focus s.focus a n v).focus = s.focus := by
  obtain ⟨o, k, e, -⟩ := s.storeLs_own a n v
  rw [e]
  rfl
theorem State.storeLs_here_ls (s : State) (a n v : Nat) : (s.storeLs s.focus s.focus a n v).here.ls = s.here.ls.writeN a n v := by
  obtain ⟨o, k, e, -⟩ := s.storeLs_own a n v
  rw [e, State.here_graphs, State.here_onHere]
  rfl
/-- Stores of the lanes in lane order. -/
theorem State.storeLanes_spec (n : Nat) (val : Nat → Nat) (ps : List (Nat × Nat)) (u : State) {c : Nat} (hc : u.focus = c) :
    ps.foldl (fun u p => u.storeLs u.focus u.focus p.2 n (val p.1)) u = ps.foldl (fun u p => u.storeLs c c p.2 n (val p.1)) u ∧
      (ps.foldl (fun u p => u.storeLs c c p.2 n (val p.1)) u).focus = c ∧
      (ps.foldl (fun u p => u.storeLs c c p.2 n (val p.1)) u).here.ls =
        ps.foldl (fun m p => m.writeN p.2 n (val p.1)) u.here.ls := by
  subst hc
  induction ps generalizing u with
  | nil => exact ⟨rfl, rfl, rfl⟩
  | cons p ps ih =>
    have step := ih (u.storeLs u.focus u.focus p.2 n (val p.1))
    rwa [State.storeLs_focus, State.storeLs_here_ls] at step

/-- A change of a core that keeps a fact about it keeps the fact about the running core. -/
theorem State.onCore_here_keeps {β : Type} (g : CoreSt → β) {f : CoreSt → CoreSt} (h : ∀ x, g (f x) = g x) (u : State) (core : Nat) :
    g (u.onCore core f).here = g u.here := by
  change g ((u.onCore core f).coreOf u.focus) = g u.here
  by_cases e : u.focus = core
  · rw [e, State.coreOf_onCore, h, State.here, e]
  · rw [State.coreOf_onCore_ne _ _ e]
    rfl

/-! ### One request for each line -/

theorem State.dstOf_congr {s t : State} (h : t.focus = s.focus) (a : Nat) : t.dstOf a = s.dstOf a := by
  simp only [State.dstOf, State.myCluster, h]
/-- The requests of a vector access, one for each line (R137). -/
def State.lineRequests (s u : State) (lines : List Nat) (tok : Option TokRef) (body : Nat → Body) : State :=
  lines.foldl (fun u l => u.request (s.dstOf (128 * l)) tok (body l)) u
theorem State.lineRequests_keeps {α : Type} (g : State → α) (h : ∀ (u : State) dst tok body, g (u.request dst tok body) = g u) (s u : State)
    (lines : List Nat) (tok : Option TokRef) (body : Nat → Body) : g (s.lineRequests u lines tok body) = g u :=
  foldl_keeps g (fun _ _ => h _ _ _ _) lines u
/-- Each finds the destination of its line from its core's cluster. -/
theorem State.lineRequests_eq {s u : State} (h : u.focus = s.focus) (lines : List Nat) (tok : Option TokRef) (body : Nat → Body) :
    lines.foldl (fun u l => u.request (u.dstOf (128 * l)) tok (body l)) u = s.lineRequests u lines tok body := by
  induction lines generalizing u with
  | nil => rfl
  | cons l lines ih =>
    rw [List.foldl_cons, State.dstOf_congr h]
    exact ih h
theorem State.lineRequests_sameStore (s u : State) (lines : List Nat) (tok : Option TokRef) (body : Nat → Body) :
    u.SameStore (s.lineRequests u lines tok body) :=
  ⟨s.lineRequests_keeps State.focus (fun _ _ _ _ => rfl) u lines tok body,
    s.lineRequests_keeps State.order (fun _ _ _ _ => rfl) u lines tok body,
    s.lineRequests_keeps (fun u => u.here.ls) (fun u _ _ _ => by simp) u lines tok body,
    s.lineRequests_keeps (fun u => u.here.seen) (fun u _ _ _ => by simp) u lines tok body⟩

@[simp] theorem State.readied_nseq (s : State) (srcs : List RegId) (m : Nat) : (s.readied srcs m).me.nseq = s.me.nseq :=
  State.readied_proj s srcs m (fun c => c.nseq) (fun _ _ => rfl)

/-- The state in which a vector load with window lines reads its own lanes: a request is out for each line (R137). -/
def State.linesLoaded (s : State) (srcs : List RegId) (v : Nat) (as : List Nat) : State :=
  s.lineRequests ((s.readied srcs (windowLines as).length).onMe (fun c =>
      { ((c.raise s.me.ltkRef).startDest (.v v)) with vloads := tput c.vloads s.me.nseq (windowLines as).length }))
    (windowLines as) (some s.me.ltkRef)
    (fun l => .loadLine (128 * l) ((laneAddrs as).filter (fun p => isRemote p.2 && p.2 / 128 == l)) v s.me.nseq)
/-- The same from a readied state, where each request finds its destination anew. -/
def State.loadLines (r : State) (v : Nat) (as : List Nat) : State :=
  (windowLines as).foldl (fun u l => u.request (u.dstOf (128 * l)) (some r.me.ltkRef)
      (.loadLine (128 * l) ((laneAddrs as).filter (fun p => isRemote p.2 && p.2 / 128 == l)) v r.me.nseq))
    (r.onMe (fun c => { ((c.raise r.me.ltkRef).startDest (.v v)) with vloads := tput c.vloads r.me.nseq (windowLines as).length }))
theorem State.loadLines_readied (s : State) (srcs : List RegId) (v : Nat) (as : List Nat) :
    (s.readied srcs (windowLines as).length).loadLines v as = s.linesLoaded srcs v as := by
  rw [State.loadLines, State.readied_ltkRef, State.readied_nseq]
  refine State.lineRequests_eq ?_ _ _ (fun l =>
    .loadLine (128 * l) ((laneAddrs as).filter (fun p => isRemote p.2 && p.2 / 128 == l)) v s.me.nseq)
  exact s.readied_focus srcs (windowLines as).length
theorem State.linesLoaded_keeps {α : Type} (s : State) (g : State → α) (hf : ∀ (u : State) f, g (u.onMe f) = g u)
    (h : ∀ (u : State) dst tok body, g (u.request dst tok body) = g u) (srcs : List RegId) (v : Nat) (as : List Nat) :
    g (s.linesLoaded srcs v as) = g (s.readied srcs (windowLines as).length) :=
  (s.lineRequests_keeps g h _ _ _ _).trans (hf _ _)
/-- The read steps of the own lanes of such a load; their values are due in the next cycle (R137, log 16). -/
def State.ownLanes (u : State) (v : Nat) (own : List (Nat × Nat)) : State :=
  let r := u.readLsMany u.focus u.focus 4 (own.map (fun p => p.2))
  r.2.doneAt (u.gts + 1) u.focus u.here.run ((own.zip r.1).map (fun p => Act.lane v p.1.1 p.2))
theorem State.ownLanes_slot (u : State) (v : Nat) (own : List (Nat × Nat)) : (u.ownLanes v own).here.slot = u.here.slot :=
  State.readLsMany_keeps (fun u => u.here.slot) (fun _ _ => rfl)
    (fun w k => w.onCore_here_keeps CoreSt.slot (f := fun x => { x with seen := k }) (fun _ => rfl) u.focus) u _ _ _

/-! ### The words -/

section
variable {i : Instr} {s : State} {hd : CHead} {v : BitVec 6} {srcs : List RegId} {vecs : List Nat} {whole : List Cond} {f : Nat → Nat}
  (hw : whole = []) (free : s.lanesFree f)
include hw free

theorem issueVLoad_own {lat : Nat} (own : ∀ n, n < 32 → f n < lsBytes) (h : CClear s i hd srcs (v.toNat :: vecs) [] none 0 0 false) :
    let r := (s.readied srcs 0).readLsMany s.focus s.focus 4 (laneList f)
    issueVLoad i hd lat v srcs vecs whole (laneList f) s = .next (r.2.fixedWrite (.v v.toNat) (ofLanes r.1).toNat lat) := by
  simp only [issueVLoad, hw, List.nil_append, free.conds, free.waits, free.lines.2 own, List.isEmpty_nil, if_true]
  exact issueC_eq h rfl rfl rfl (by simp only [State.readied_focus])

theorem issueVLoad_window {lat : Nat} (far : ¬ ∀ n, n < 32 → f n < lsBytes) (plain : s.plainSlot)
    (h : CClear s i hd srcs (v.toNat :: vecs) [] (some s.me.ltkRef) (windowLines (laneList f)).length
      (windowLines (laneList f)).length false) :
    let here := (laneAddrs (laneList f)).filter (fun p => !isRemote p.2)
    let u := s.linesLoaded srcs v.toNat (laneList f)
    let r := u.readLsMany s.focus s.focus 4 (here.map (fun p => p.2))
    issueVLoad i hd lat v srcs vecs whole (laneList f) s =
      .next ((r.2.doneAt (s.gts + 1) s.focus s.here.run ((here.zip r.1).map (fun p => Act.lane v.toNat p.1.1 p.2))).passed) := by
  intro here u r
  have nonempty : (windowLines (laneList f)).isEmpty = false := by
    rw [Bool.eq_false_iff, Ne, List.isEmpty_iff]
    exact fun e => far (free.lines.1 e)
  have slot : u.here.slot = s.here.slot :=
    (s.linesLoaded_keeps (fun u => u.here.slot) (fun u f => by simp) (fun u _ _ _ => by simp) srcs _ _).trans (s.readied_slot _ _)
  have focus : u.focus = s.focus :=
    (s.linesLoaded_keeps State.focus (fun _ _ => rfl) (fun _ _ _ _ => rfl) srcs _ _).trans (s.readied_focus _ _)
  have gts : u.gts = s.gts := (s.linesLoaded_keeps State.gts (fun _ _ => rfl) (fun _ _ _ _ => rfl) srcs _ _).trans (s.readied_gts _ _)
  have run : u.here.run = s.here.run := congrArg (fun p => p.2.2) slot
  simp only [issueVLoad, hw, List.nil_append, free.conds, free.waits, nonempty, Bool.false_eq_true, if_false]
  refine issueC_eq h rfl rfl rfl ?_
  change (((s.readied srcs _).loadLines v.toNat (laneList f)).ownLanes v.toNat here).switching = _
  rw [State.loadLines_readied]
  refine (State.switching_passed plain ((u.ownLanes_slot v.toNat here).trans slot)).trans ?_
  rw [State.ownLanes, focus, gts, run]
theorem issueVStore_lanes 
    (h : CClear s i hd (.v v.toNat :: srcs) (v.toNat :: vecs) [] none (windowLines (laneList f)).length
      (windowLines (laneList f)).length false) :
    let lines := windowLines (laneList f)
    let lane (n : Nat) : Nat := (vlane (s.me.vReg v.toNat) n).toNat
    let here := (laneAddrs (laneList f)).filter (fun p => !isRemote p.2)
    let u := here.foldl (fun u p => u.storeLs s.focus s.focus p.2 4 (lane p.1)) (s.readied (.v v.toNat :: srcs) lines.length)
    issueVStore i hd v srcs vecs whole (laneList f) s = .next (s.lineRequests u lines none (fun l => .storeLine (128 * l)
      (((laneAddrs (laneList f)).filter (fun p => isRemote p.2 && p.2 / 128 == l)).map (fun p => (p.2, lane p.1))) none)) := by
  intro lines lane here u
  obtain ⟨same, focus, -⟩ := State.storeLanes_spec 4 lane here (s.readied (.v v.toNat :: srcs) lines.length) (c := s.focus) (by simp)
  simp only [issueVStore, hw, List.nil_append, free.conds, free.waits]
  refine issueC_eq h rfl rfl rfl ?_
  rw [State.readied_vReg]
  exact (congrArg (lines.foldl _) same).trans (State.lineRequests_eq focus _ _ _)
end

/-- Settles O24: every lane finds what memory holds where its read leaves no choice; the rest is the rule of the word above. -/
theorem vectorMemoryResults : Obligations.VectorMemoryResults := by
  intro s hd v x a b o hr sa whole flat strided indexed as t ok own lone
  constructor
  · intro q hq hwhole free
    obtain ⟨ws, vecs, hws, hvecs, he⟩ : ∃ ws vecs, ws = [] ∧ q.2.2.1 = v.toNat :: vecs ∧
        exec q.1 s = issueVLoad q.1 hd q.2.2.2.2 v q.2.1 vecs ws (laneList q.2.2.2.1) s := by
      simp only [List.mem_cons, List.not_mem_nil, or_false] at hq
      obtain rfl | rfl | rfl := hq
      · exact ⟨_, _, misaligned_nil (hwhole rfl), rfl, rfl⟩
      · exact ⟨[], _, rfl, rfl, rfl⟩
      · exact ⟨[], _, rfl, rfl, rfl⟩
    rw [hvecs, he]
    refine ⟨fun hown h => ⟨issueVLoad_own hws free hown h, fun one => ?_⟩,
      fun far plain h => ⟨issueVLoad_window hws free far plain h, fun one => ?_⟩⟩
    · have same := s.readied_sameStore q.2.1 0
      have reads := State.readLsMany_one (s := s.readied q.2.1 0) (n := 4)
        (forall_laneList.2 fun n hn => same.readsOne (one n hn (hown n hn)))
      rw [State.readied_focus, same.ls] at reads
      rw [show as q.2.2.2.1 = laneList q.2.2.2.1 from rfl, reads, laneList, List.map_map]
      exact ⟨rfl, lanesAre_ofLanes _⟩
    · have same : s.SameStore (s.linesLoaded q.2.1 v.toNat (laneList q.2.2.2.1)) :=
        ((s.readied_sameStore _ _).trans (State.onMe_sameStore _ _)).trans (s.lineRequests_sameStore _ _ _ _)
      have reads := State.readLsMany_one (s := s.linesLoaded q.2.1 v.toNat (laneList q.2.2.2.1)) (n := 4)
        (as := ((laneAddrs (laneList q.2.2.2.1)).filter (fun p => !isRemote p.2)).map (fun p => p.2)) (List.forall_mem_map.2 fun p hp => by
          obtain ⟨n, hn, e, hlt⟩ := laneAddrs_own (fun n hn => (State.lanesFree.remote_iff free hn).1) hp
          exact e ▸ same.readsOne (one n hn hlt))
      rw [same.focus, same.ls, List.map_map] at reads
      exact reads
  · intro q hq hwhole free lines lane here h
    obtain ⟨ws, srcs, vecs, hws, hsrcs, hvecs, he⟩ : ∃ ws srcs vecs, ws = [] ∧ q.2.1 = .v v.toNat :: srcs ∧ q.2.2.1 = v.toNat :: vecs ∧
        exec q.1 s = issueVStore q.1 hd v srcs vecs ws (laneList q.2.2.2) s := by
      simp only [List.mem_cons, List.not_mem_nil, or_false] at hq
      obtain rfl | rfl := hq
      · exact ⟨_, _, _, misaligned_nil (hwhole rfl), rfl, rfl, rfl⟩
      · exact ⟨[], _, _, rfl, rfl, rfl, rfl⟩
    rw [hsrcs, hvecs] at h
    rw [hsrcs, he]
    obtain ⟨-, -, hls⟩ := State.storeLanes_spec 4 lane here (s.readied (.v v.toNat :: srcs) lines.length) (s.readied_focus _ _)
    rw [State.readied_ls] at hls
    exact ⟨_, issueVStore_lanes hws free h, rfl, hls⟩

end Sys2Proof.Machine
end

section
/-! ## Full/empty words
What an entry of the memory-order log leaves alone, an atomic step on the own local store, and `take`, `give` and `fe.set`
(R138 to R141, R168, R468); O25. -/
namespace Sys2Proof.Machine

/-! ### The memory-order log -/

/-- What a write of device, host or peer memory leaves alone: the time, the core whose turn it is, the messages and the cores. -/
def State.steady (s : State) : Nat × Nat × Table Msg × Table CoreSt := (s.gts, s.focus, s.bag, s.cores)

theorem State.steady_writePlace (s : State) (p : Place) (b : Byte) : (s.writePlace p b).steady = s.steady := by
  have set (u : State) : ((u.touchPlace none p b.toNat).setPlace p b).steady = u.steady := by
    have order : (u.touchPlace none p b.toNat).steady = u.steady := by
      unfold State.touchPlace
      split <;> rfl
    rw [← order]
    cases p <;> rfl
  unfold State.writePlace
  rw [set]
  split
  · obtain ⟨_, _, _, _, e⟩ := s.touch_spec ‹_›
    rw [e]
    rfl
  · rfl
theorem State.steady_writeVa {s t : State} {hid va n val : Nat} (h : s.writeVa hid va n val = .ok t) : t.steady = s.steady := by
  induction n generalizing s va val with
  | zero => exact congrArg State.steady (Except.ok.inj h).symm
  | succ k ih =>
    unfold State.writeVa at h
    split at h
    · exact absurd h nofun
    · rw [ih h, State.steady_writePlace]

section
variable {α : Type} (g : Nat × Nat × Table Msg → CoreSt → α)
  (hg : ∀ p x q tl r, g p { x with molQ := q, molTail := tl, molRes := r } = g p x)
include hg

/-- An update of the log's fields of a core. -/
theorem State.keeps_molFields (s : State) (core c : Nat) {f : CoreSt → CoreSt}
    (hf : ∀ x, ∃ q tl r, f x = { x with molQ := q, molTail := tl, molRes := r }) :
    g (s.gts, s.focus, s.bag) ((s.onCore core f).coreOf c) = g (s.gts, s.focus, s.bag) (s.coreOf c) := by
  by_cases e : c = core
  · obtain ⟨q, tl, r, ef⟩ := hf (s.coreOf core)
    rw [e, State.coreOf_onCore, ef, hg]
  · rw [State.coreOf_onCore_ne _ _ e]
omit hg in
theorem State.keeps_steady {s t : State} (h : t.steady = s.steady) (c : Nat) :
    g (t.gts, t.focus, t.bag) (t.coreOf c) = g (s.gts, s.focus, s.bag) (s.coreOf c) := by
  simp only [State.steady, Prod.mk.injEq] at h
  obtain ⟨hgts, hfocus, hbag, hcores⟩ := h
  simp only [State.coreOf, hgts, hfocus, hbag, hcores]
/-- Writing entries of the log out leaves the rest of every core, the messages and the time alone (R468). -/
theorem State.keeps_molFlush (s : State) (core fuel c : Nat) :
    g ((s.molFlush core fuel).gts, (s.molFlush core fuel).focus, (s.molFlush core fuel).bag) ((s.molFlush core fuel).coreOf c) =
      g (s.gts, s.focus, s.bag) (s.coreOf c) := by
  induction fuel generalizing s with
  | zero => rfl
  | succ k ih =>
    unfold State.molFlush
    dsimp only
    split
    · rfl
    split
    · rfl
    split
    · rfl
    split
    · rfl
    · rename_i s1 h1 _ s2 h2
      refine (ih _).trans ((State.keeps_molFields g hg s2 core c fun y => ⟨_, _, _, rfl⟩).trans ?_)
      exact State.keeps_steady g ((State.steady_writeVa h2).trans (State.steady_writeVa h1)) c
/-- So does a new entry. -/
theorem State.keeps_molEntry (s : State) (core ctx kind rkind seq pc w1 w2 time c : Nat) :
    let t := s.molEntry core ctx kind rkind seq pc w1 w2 time
    g (t.gts, t.focus, t.bag) (t.coreOf c) = g (s.gts, s.focus, s.bag) (s.coreOf c) := by
  dsimp only
  unfold State.molEntry
  split
  · refine (State.keeps_molFlush g hg _ _ _ _).trans ?_
    exact State.keeps_molFields g hg s core c fun x => ⟨_, _, _, rfl⟩
  · rfl
end
/-- No entry is made where the core's log is off. -/
theorem State.molEntry_off {s : State} {core : Nat} (h : bit (s.coreOf core).det 1 = false) (ctx kind rkind seq pc w1 w2 time : Nat) :
    s.molEntry core ctx kind rkind seq pc w1 w2 time = s := by
  rw [State.molEntry, if_neg (Bool.eq_false_iff.1 h)]

/-! ### Atomic steps -/

/-- The replacement of an atomic step, from bytes that have their values (R168). -/
def State.replaceLs (w : State) (core home a n : Nat) (f : Nat → Nat) : Nat × State :=
  let old := (w.coreOf home).ls.readN a n
  let r := w.noteWrite true (w.coreOf core).seen (Loc.ls home) (w.byteLs home) a n (f old)
  (old, (r.2.onCore core (fun x => { x with seen := r.1 })).onCore home (fun x => x.putLs a n (f old)))
theorem State.replaceLs_spec (w : State) (a n : Nat) (f : Nat → Nat) : let old := w.here.ls.readN a n
    ∃ G k, w.replaceLs w.focus w.focus a n f =
      (old, (w.onHere (fun x => { x.putLs a n (f old) with seen := k })).ordered G (w.ctr + 1)) := by
  intro old
  obtain ⟨G, e⟩ := w.noteWrite_state true w.here.seen (Loc.ls w.focus) (w.byteLs w.focus) a n (f old)
  let k := (w.noteWrite true w.here.seen (Loc.ls w.focus) (w.byteLs w.focus) a n (f old)).1
  refine ⟨G, k, Prod.ext rfl ?_⟩
  refine (congrArg (fun u : State =>
    (u.onCore w.focus (fun x => { x with seen := k })).onCore w.focus (fun x => x.putLs a n (f old))) e).trans ?_
  exact congrArg (fun u : State => u.ordered G (w.ctr + 1)) (w.onHere_onHere (fun x => { x with seen := k }) (fun x => x.putLs a n (f old)))
/-- An atomic step of the running core on its own local store: it starts from bytes that it has found, and leaves their new values and
what the core has seen. -/
theorem State.atomicLs_spec (s : State) (a n : Nat) (f : Nat → Nat) : let p := s.atomicLs s.focus s.focus a n f
    p.2.focus = s.focus ∧ p.2.gts = s.gts ∧ ∃ start k, p.1 = start.readN a n ∧ (s.topsOne a n → start = s.here.ls) ∧
      (∃ v, start = s.here.ls ∨ start = s.here.ls.writeN a n v) ∧
      p.2.here = { ({ s.here with ls := start } : CoreSt).putLs a n (f p.1) with seen := k } := by
  obtain ⟨start, here, one, some⟩ := s.settleLs_here a n
  have focus := s.settleLs_focus a n
  obtain ⟨G, k, e⟩ := (s.settleLs s.focus a n).replaceLs_spec a n f
  rw [focus] at e
  intro p
  have hp : p = _ := e
  rw [hp, here]
  refine ⟨focus, s.settleLs_gts a n, start, k, rfl, one, some, ?_⟩
  rw [State.ordered_here, State.here_onHere, here]

/-! ### FE bits -/

theorem CoreSt.fe_setFe (x : CoreSt) (w : Nat) (full : Bool) : (x.setFe w full).fe w = full := by
  unfold CoreSt.setFe
  extract_lets y
  rw [apply_ite (fun z : CoreSt => z.fe w), apply_ite (fun z : CoreSt => z.fe w)]
  cases full
  · by_cases h : w ∈ y.feEmpty <;> simp [CoreSt.fe, h]
  · simp [CoreSt.fe]
/-- Beside the bit it may set the mark of a page. -/
theorem CoreSt.setFe_spec (x : CoreSt) (w : Nat) (full : Bool) : ∃ pg l, x.setFe w full = { x with pages := pg, feEmpty := l } := by
  unfold CoreSt.setFe
  extract_lets y
  split
  · exact ⟨y.pages, _, rfl⟩
  split
  · exact ⟨y.pages, x.feEmpty, rfl⟩
  · exact ⟨y.pages, _, rfl⟩
/-- Nothing is granted at a word that no deferred `take` waits for (R140). -/
theorem State.grantWord_unwanted {s : State} {home off : Nat}
    (h : (s.coreOf home).deferred.any (fun e => e.op == 0 && e.addr == off) = false) : s.grantWord home off = s := by
  have none : (s.coreOf home).deferred.find? (fun e => e.op == 0 && e.addr == off) = none := by
    rw [List.find?_eq_none]
    exact List.any_eq_false.1 h
  unfold State.grantWord
  simp only [none]
  split <;> rfl

/-- An atomic step of the running core on a word of its own, which sets the word's FE bit (R139, R140, R168). -/
def State.wordStep (s : State) (a : Nat) (f : Nat → Nat) (full : Bool) : State :=
  (s.atomicLs s.focus s.focus a 8 f).2.onCore s.focus (fun x => x.setFe (a / 8) full)
theorem State.wordStep_spec (s : State) (a : Nat) (f : Nat → Nat) (full : Bool) : let old := (s.atomicLs s.focus s.focus a 8 f).1
    let t := s.wordStep a f full
    t.focus = s.focus ∧ t.gts = s.gts ∧ t.here.fe (a / 8) = full ∧ (s.topsOne a 8 → old = s.here.ls.readN a 8) ∧
      ∃ start pg l k, (∃ v, start = s.here.ls ∨ start = s.here.ls.writeN a 8 v) ∧
        t.here = { s.here with ls := start.writeN a 8 (f old), pages := pg, feEmpty := l, seen := k } := by
  intro old t
  obtain ⟨focus, gts, start, k, hold, one, some, here⟩ := s.atomicLs_spec a 8 f
  have ht : t.here = (s.atomicLs s.focus s.focus a 8 f).2.here.setFe (a / 8) full := by
    change ((s.atomicLs s.focus s.focus a 8 f).2.onCore s.focus _).coreOf (s.atomicLs s.focus s.focus a 8 f).2.focus = _
    rw [focus, State.coreOf_onCore, State.here, focus]
  refine ⟨focus, gts, ?_, fun h => ?_, start, ?_⟩
  · rw [ht, CoreSt.fe_setFe]
  · exact one h ▸ hold
  · obtain ⟨pg, l, e⟩ := ((s.atomicLs s.focus s.focus a 8 f).2.here).setFe_spec (a / 8) full
    exact ⟨pg, l, k, some, by rw [ht, e, here]; rfl⟩

/-! ### The words -/

/-- The state in which a `take` looks at its word (R139). -/
def State.takes (s : State) (src : List RegId) (m x d : Nat) : State :=
  (s.readied src m).onMe (fun c => { ((c.raise s.me.ltkRef).startDest (.s d)) with wait := .take x })
theorem State.takes_takeable (s : State) (src : List RegId) (m x d : Nat) : (s.takes src m x d).here.takeable x = s.here.takeable x := by
  rw [State.takes, State.here_onMe]
  exact s.readied_here src m (fun y => y.takeable x) fun _ _ _ _ => rfl
theorem State.takes_sameStore (s : State) (src : List RegId) (m x d : Nat) : s.SameStore (s.takes src m x d) :=
  (s.readied_sameStore src m).trans (State.onMe_sameStore _ _)

/-- What a `take` that finds its word full leaves: it has taken it, counted the grant, and is answered three cycles later (R139, R468). -/
def State.takesFull (w : State) (x d : Nat) (t : TokRef) : State :=
  let p := w.takeStep w.focus w.focus x
  let u := p.2.countApplied w.focus
  let u := u.molEntry u.focus u.here.run 5 2 0 u.me.pc.toNat u.focus u.here.appIdx u.gts
  u.doneAt (u.gts + 3) u.focus u.here.run ([Act.write (.s d) p.1] ++ endDest (.s d) ++ [.lower t, .readyNext])
theorem State.takesFull_spec (w : State) (x d : Nat) (t : TokRef) : let p := w.takeStep w.focus w.focus x
    ∃ u : State, w.takesFull x d t = u.doneAt (w.gts + 3) w.focus w.here.run
        ([.write (.s d) p.1] ++ endDest (.s d) ++ [.lower t, .readyNext]) ∧
      (bit w.here.det 1 = false → u = p.2.countApplied w.focus) ∧ p.2.here.fe (x / 8) = false ∧
      (w.topsOne x 8 → p.1 = w.here.ls.readN x 8) := by
  intro p
  obtain ⟨focus, gts, fe, one, start, pg, l, k, -, here⟩ := w.wordStep_spec x id false
  change p.2.focus = _ at focus
  change p.2.gts = _ at gts
  change p.2.here = _ at here
  let v := p.2.countApplied w.focus
  have counted : v.here = { p.2.here with appIdx := (p.2.here.appIdx + 1) % 2 ^ 32 } := by
    change (p.2.countApplied w.focus).here = _
    rw [← focus]
    exact State.here_onHere _ _
  have det : v.here.det = w.here.det := by
    rw [counted, here]
  have run : v.here.run = w.here.run := by
    rw [counted, here]
  let u := v.molEntry v.focus v.here.run 5 2 0 v.me.pc.toNat v.focus v.here.appIdx v.gts
  have logged : (u.gts, u.focus, (u.coreOf v.focus).run) = (v.gts, v.focus, v.here.run) :=
    State.keeps_molEntry (fun p x => (p.1, p.2.1, x.run)) (fun _ _ _ _ _ => rfl) v v.focus v.here.run 5 2 0 v.me.pc.toNat v.focus
      v.here.appIdx v.gts v.focus
  simp only [Prod.mk.injEq] at logged
  obtain ⟨ugts, ufocus, urun⟩ := logged
  refine ⟨u, ?_, fun off => State.molEntry_off (det ▸ off) _ _ _ _ _ _ _ _, fe, one⟩
  change u.doneAt (u.gts + 3) u.focus (u.coreOf u.focus).run _ = _
  rw [ufocus, urun, ugts, run, show v.gts = w.gts from gts, show v.focus = w.focus from focus]

/-- What a `take` that finds its word empty leaves: it waits as a message of its own core (R141). -/
def State.takesEmpty (w : State) (x d : Nat) (t : TokRef) : State :=
  (w.localMsg t (.take x d)).2.joinDeferred w.focus { op := 0, addr := x, msg := some w.ctr, ctx := w.here.run, d := d, tok := t } w.ctr

section
variable {s : State} {hd : CHead} {d a : BitVec 5} {o : BitVec 8} {x : Nat} (hx : offAddr (s.me.sReg a.toNat) o 8 = x)
  (hl : s.lineHeld x 8 = false) (hal : x % 8 = 0) (hm : s.mayAccess x) 
include hx hl hal hm

omit hx hl in
theorem feConds_nil : feConds s x = [] := by
  rw [feConds, misaligned_nil hal, scalarBad_nil hm]
  rfl
theorem execTake_full (hown : isRemote x = false) (hf : s.here.takeable x = true)
    (h : CClear s (.take hd d a o) hd [.s a.toNat] [] [] (some s.me.ltkRef) 0 1 false) :
    execTake hd d a o s = .next ((s.takes [.s a.toNat] 1 x d.toNat).takesFull x d.toNat s.me.ltkRef) := by
  simp only [execTake, hx, hown, feConds_nil hal hm, hl, Bool.false_eq_true, if_false]
  refine issueC_eq h rfl rfl rfl ?_
  rw [State.readied_ltkRef]
  change (if (s.takes [.s a.toNat] 1 x d.toNat).here.takeable x then (s.takes [.s a.toNat] 1 x d.toNat).takesFull x d.toNat s.me.ltkRef
    else _) = _
  rw [if_pos ((s.takes_takeable _ _ _ _).trans hf)]
theorem execTake_empty (hown : isRemote x = false) (hf : s.here.takeable x = false)
    (h : CClear s (.take hd d a o) hd [.s a.toNat] [] [] (some s.me.ltkRef) 0 1 false) :
    execTake hd d a o s = .next (State.joinDeferred ((s.takes [.s a.toNat] 1 x d.toNat).localMsg s.me.ltkRef (.take x d.toNat)).2 s.focus
      { op := 0, addr := x, msg := some s.ctr, ctx := s.here.run, d := d.toNat, tok := s.me.ltkRef } s.ctr) := by
  simp only [execTake, hx, hown, feConds_nil hal hm, hl, Bool.false_eq_true, if_false]
  refine issueC_eq h rfl rfl rfl ?_
  rw [State.readied_ltkRef]
  change (if (s.takes [.s a.toNat] 1 x d.toNat).here.takeable x then _
    else (s.takes [.s a.toNat] 1 x d.toNat).takesEmpty x d.toNat s.me.ltkRef) = _
  rw [if_neg (Bool.eq_false_iff.1 ((s.takes_takeable _ _ _ _).trans hf))]
  have focus : (s.takes [.s a.toNat] 1 x d.toNat).focus = s.focus := (s.takes_sameStore _ _ _ _).focus
  have run : (s.takes [.s a.toNat] 1 x d.toNat).here.run = s.here.run := by simp [State.takes]
  have ctr : (s.takes [.s a.toNat] 1 x d.toNat).ctr = s.ctr := s.readied_ctr [.s a.toNat] 1
  rw [State.takesEmpty, focus, run, ctr]
theorem execGive_own (hown : isRemote x = false) (h : CClear s (.give hd d a o) hd [.s d.toNat, .s a.toNat] [] [] none 0 0 false) :
    execGive hd d a o s = .next ((s.readied [.s d.toNat, .s a.toNat] 0).giveAt s.focus s.focus x (s.me.sReg d.toNat).toNat) := by
  simp only [execGive, hx, hown, feConds_nil hal hm, hl, Bool.false_eq_true, if_false]
  refine issueC_eq h rfl rfl rfl ?_
  simp only [State.readied_sReg, State.readied_focus]
theorem execFeSet_own {f : BitVec 1} (hown : isRemote x = false) (h : CClear s (.feSet hd f a o) hd [.s a.toNat] [] [] none 0 0 false) :
    execFeSet hd f a o s = .next ((s.readied [.s a.toNat] 0).feSetAt s.focus s.focus x (f == 1)) := by
  simp only [execFeSet, hx, hown, feConds_nil hal hm, hl, Bool.false_eq_true, if_false]
  refine issueC_eq h rfl rfl rfl ?_
  simp only [State.readied_focus]
theorem execTake_window (hrem : isRemote x = true) (h : CClear s (.take hd d a o) hd [.s a.toNat] [] [] (some s.me.ltkRef) 1 2 false) :
    execTake hd d a o s = .next ((s.takes [.s a.toNat] 2 x d.toNat).request (s.dstOf x) (some s.me.ltkRef) (.take x d.toNat)) := by
  simp only [execTake, hx, hrem, feConds_nil hal hm, hl, if_true]
  refine issueC_eq h rfl rfl rfl ?_
  simp only [State.readied_ltkRef]
  exact congrArg (fun dst => State.request (s.takes [.s a.toNat] 2 x d.toNat) dst (some s.me.ltkRef) (.take x d.toNat))
    (State.dstOf_congr (s.takes_sameStore _ _ _ _).focus x)
theorem execGive_window (hrem : isRemote x = true) (h : CClear s (.give hd d a o) hd [.s d.toNat, .s a.toNat] [] [] none 1 1 false) :
    execGive hd d a o s = .next ((s.readied [.s d.toNat, .s a.toNat] 1).request (s.dstOf x) none (.give x (s.me.sReg d.toNat).toNat)) := by
  simp only [execGive, hx, hrem, feConds_nil hal hm, hl, if_true]
  refine issueC_eq h rfl rfl rfl ?_
  simp only [State.readied_sReg, State.readied_dstOf]
theorem execFeSet_window {f : BitVec 1} (hrem : isRemote x = true) (h : CClear s (.feSet hd f a o) hd [.s a.toNat] [] [] none 1 1 false) :
    execFeSet hd f a o s = .next ((s.readied [.s a.toNat] 1).request (s.dstOf x) none (.feSet x (f == 1))) := by
  simp only [execFeSet, hx, hrem, feConds_nil hal hm, hl, if_true]
  refine issueC_eq h rfl rfl rfl ?_
  simp only [State.readied_dstOf]
end

theorem State.readied_unwanted (s : State) (srcs : List RegId) (m : Nat) {a : Nat}
    (h : s.here.deferred.any (fun e => e.op == 0 && e.addr == a) = false) :
    (s.readied srcs m).here.deferred.any (fun e => e.op == 0 && e.addr == a) = false :=
  (s.readied_here srcs m (fun x => x.deferred.any fun e => e.op == 0 && e.addr == a) fun _ _ _ _ => rfl).trans h
/-- The word that a `give` or an `fe.set` leaves where no deferred `take` waits for it (R140). -/
theorem State.wordStep_granted {w : State} {a : Nat} {f : Nat → Nat} {full : Bool}
    (h : w.here.deferred.any (fun e => e.op == 0 && e.addr == a) = false) :
    let u := (w.wordStep a f full).grantWord w.focus a
    u.here.fe (a / 8) = full ∧ (Memory.wf w.here.ls = true → ∃ old, u.here.ls.readN a 8 = f old % 2 ^ 64) := by
  obtain ⟨focus, -, fe, -, start, pg, l, k, ⟨v, some⟩, here⟩ := w.wordStep_spec a f full
  have core : (w.wordStep a f full).coreOf w.focus = (w.wordStep a f full).here := by rw [State.here, focus]
  intro u
  have hu : u = w.wordStep a f full := State.grantWord_unwanted (by rw [core, here]; exact h)
  rw [hu]
  refine ⟨fe, fun wf => ⟨(w.atomicLs w.focus w.focus a 8 f).1, ?_⟩⟩
  have wf' : Memory.wf start = true := by
    obtain rfl | rfl := some
    · exact wf
    · exact Memory.writeN_wf wf
  rw [here]
  exact Memory.readN_writeN _ _ _ _ wf'

/-- Settles O25: each clause is the rule of its word above. -/
theorem fullEmptyResults : Obligations.FullEmptyResults := by
  intro s hd d a o f x t src two val starts unwanted hl hal hr
  constructor
  · intro hb hlt
    have hm : s.mayAccess x := .inl ⟨hb, hlt⟩
    have hown := isRemote_own hlt
    refine ⟨?take, ?wait, ?give, ?set⟩
    case take =>
      intro h hf p
      have same := s.takes_sameStore src 1 x d.toNat
      obtain ⟨u, he, off, fe, one⟩ := (s.takes src 1 x d.toNat).takesFull_spec x d.toNat t
      have gts : (s.takes src 1 x d.toNat).gts = s.gts := s.readied_gts src 1
      have run : (s.takes src 1 x d.toNat).here.run = s.here.run := by simp [State.takes]
      have det : (s.takes src 1 x d.toNat).here.det = s.here.det := by simp [State.takes]
      rw [gts, same.focus, run] at he
      rw [same.focus, det] at off
      rw [same.focus] at fe one
      rw [same.ls] at one
      exact ⟨u, (execTake_full rfl hl hal hm hown hf h).trans (congrArg _ he), off, fe, fun h1 => one (same.topsOne h1)⟩
    case wait => exact fun h hf => ⟨_, _, execTake_empty rfl hl hal hm hown hf h, rfl, rfl⟩
    case give =>
      intro h
      refine ⟨_, execGive_own rfl hl hal hm hown h, rfl, fun unwanted => ?_⟩
      obtain ⟨fe, word⟩ := State.wordStep_granted (f := fun _ => val) (full := true) (s.readied_unwanted two 0 unwanted)
      rw [State.wordStep, s.readied_focus two 0] at fe word
      rw [s.readied_ls two 0] at word
      refine ⟨fe, fun wf => ?_⟩
      obtain ⟨-, value⟩ := word wf
      exact value.trans (Nat.mod_eq_of_lt (s.me.sReg d.toNat).isLt)
    case set =>
      intro h
      refine ⟨_, execFeSet_own rfl hl hal hm hown h, rfl, fun unwanted => ?_⟩
      obtain ⟨fe, -⟩ := State.wordStep_granted (f := id) (full := f == 1) (s.readied_unwanted src 0 unwanted)
      rwa [State.wordStep, s.readied_focus src 0] at fe
  · intro hw
    have hrem := isRemote_window hw
    exact ⟨execTake_window rfl hl hal (.inr hw) hrem, execGive_window rfl hl hal (.inr hw) hrem, execFeSet_window rfl hl hal (.inr hw) hrem⟩

end Sys2Proof.Machine
end

section
/-! ## Window atomics in deterministic mode
A window atomic of a core in deterministic atomic mode is executed at its home (R144, R145, R147); O26. -/
namespace Sys2Proof.Machine

/-- Core 0 is in deterministic atomic mode (R467), at LEVEL 0, with a window address in s2 whose line its predictor calls quiet. -/
def detReducing : State :=
  { State.reset with
    agenda := [],
    cores := [(0, ({ CoreSt.reset with hid := some 1, det := 1 }).setCtx 0
      (({ Ctx.reset with live := true, bound := 1 } : Ctx).writeReg (.s 2) 0x1002080))] }
theorem detReducing_clear : CClear detReducing (.redAdd plainHead 2 3 0 0) plainHead [.s 2, .s 3] [] [] none 1 1 false :=
  ⟨by decide, .inl rfl, rfl, nofun, fun h => absurd h (by decide), nofun, .inr rfl, nofun, .inr (by decide), by decide⟩
/-- Whether the message that a word has issued from this state is near. -/
def firstNear (o : Host.Outcome State Fault Refusal) : Option Bool :=
  match o with
  | .next u => (tfind u.bag detReducing.ctr).map (fun m => m.near)
  | _ => none
/-- Its reduction goes to the home. -/
theorem detReducing_home : firstNear (exec (.redAdd plainHead 2 3 0 0) detReducing) = some false := by decide

/-- Refutes O26: at LEVEL 0 no superstep holds an atomic, so the last clause has a window atomic whose line the predictor calls quiet go
near; in deterministic atomic mode it is executed at its home (R145, R147). -/
theorem not_atomicResults : ¬ Obligations.AtomicResults := by
  intro h
  obtain ⟨-, -, window⟩ := h detReducing plainHead 0 2 3 0 0 (by decide) (by decide) rfl
  obtain ⟨-, red⟩ := window ⟨1, 512, by decide⟩
  have e := congrArg firstNear (red (.add, .redAdd plainHead 2 3 0 0) (List.mem_cons_self ..) detReducing_clear)
  rw [detReducing_home] at e
  exact absurd e (by decide)

end Sys2Proof.Machine
end

section
/-! ## Fences
The conditions of a fence, and the sets that its release and its acquire change (R150, R169, R170); O27. -/
namespace Sys2Proof.Machine

theorem State.readied_hid (s : State) (srcs : List RegId) (m : Nat) : (s.readied srcs m).here.hid = s.here.hid :=
  s.readied_here srcs m (fun x => x.hid) fun _ _ _ _ => rfl

/-- The levels of the units that a scope names (R169). -/
def scopeLevels (sc : BitVec 3) : List Nat :=
  ([[], [1], [1, 2], [1, 2, 3], [1, 2, 3, 4], [1, 2, 3, 4, 5, 6], [1, 2, 6]] : List (List Nat))[sc.toNat]?.getD []
theorem releaseScopes_perm : ∀ sc : BitVec 3, (releaseScopes sc.toNat).Perm (scopeLevels sc) := by decide

/-- The state with other published sets. -/
def State.published (s : State) (P : Table Seen) : State := { s with pub := P }

section
variable (s : State) (sc : BitVec 3)

/-- A release of a readied core at a scope (R169, R170). -/
theorem State.release_readied : let done := s.readied [] 0
    ∃ P, done.release done.focus done.me.fen sc.toNat = done.published P ∧ ∀ k p, p ∈ tget P [] k ↔ p ∈ tget s.pub [] k ∨
      (∃ n ∈ scopeLevels sc, k = domKey (s.here.hid.getD 0) n (unitOf n s.focus s.me.fen)) ∧ p ∈ s.here.seen := by
  intro done
  obtain ⟨P, e, h⟩ := done.release_spec done.focus done.me.fen sc.toNat
  refine ⟨P, e, fun k p => (h k p).trans ?_⟩
  simp only [(releaseScopes_perm sc).mem_iff]
  rw [← s.readied_hid [] 0, ← s.readied_fen [] 0, ← s.readied_focus [] 0, ← s.readied_pub [] 0, ← s.readied_seen [] 0]
  rfl
/-- An acquire of a readied core at a scope, when the published sets are those of P (R169, R170). -/
theorem State.acquire_readied (P : Table Seen) : let done := s.readied [] 0
    let t := (done.published P).acquire done.focus done.me.fen sc.toNat
    t = (done.onHere (fun x => { x with seen := t.here.seen })).published P ∧ (sc = 0 → t = done.published P) ∧
      (sc ≠ 0 → ∀ p, p ∈ t.here.seen ↔
        p ∈ s.here.seen ∨ p ∈ tget P [] (domKey (s.here.hid.getD 0) sc.toNat (unitOf sc.toNat s.focus s.me.fen))) := by
  intro done t
  obtain ⟨change, sees⟩ := (done.published P).acquire_spec done.focus done.me.fen sc.toNat
  have focus : t.focus = done.focus := by
    obtain e | ⟨k, e⟩ := change
    · exact (congrArg State.focus e :)
    · exact (congrArg State.focus e :)
  have seen : ∀ p, p ∈ t.here.seen ↔ p ∈ done.here.seen ∨
      sc.toNat ≠ 0 ∧ p ∈ tget P [] (domKey (done.here.hid.getD 0) sc.toNat (unitOf sc.toNat done.focus done.me.fen)) := by
    rw [State.here, focus]
    exact sees
  refine ⟨?_, fun h => if_pos (congrArg BitVec.toNat h), fun h p => ?_⟩
  · obtain e | ⟨k, e⟩ := change
    · have same : done.onHere (fun x => { x with seen := done.here.seen }) = done := State.readied_onHere_self rfl
      have ht : t = done.published P := e
      rw [ht]
      exact congrArg (fun u : State => u.published P) same.symm
    · have here : t.here.seen = k := (congrArg (fun u : State => u.here.seen) e).trans
        (congrArg CoreSt.seen ((done.published P).here_onHere (fun x => { x with seen := k })))
      rw [here]
      exact e
  · have hsc : sc.toNat ≠ 0 := fun e => h (BitVec.eq_of_toNat_eq e)
    rw [seen p, ← s.readied_hid [] 0, ← s.readied_fen [] 0, ← s.readied_focus [] 0, ← s.readied_seen [] 0]
    exact or_congr Iff.rfl ⟨And.right, fun hp => ⟨hsc, hp⟩⟩
end

/-! ### The words -/

section
variable {s : State} {hd : CHead} {sc : BitVec 3}

theorem execFenceAcq_issues (acq : s.me.acq = []) (h : CClear s (.fenceAcq hd sc) hd [] [] [] none 0 0 false) :
    execFenceAcq hd sc s = .next ((s.readied [] 0).acquire (s.readied [] 0).focus (s.readied [] 0).me.fen sc.toNat) :=
  issueC_eq h rfl (by rw [acq]; rfl) rfl rfl
theorem execFenceAcq_holds (acq : s.me.acq ≠ []) (h : CClear s (.fenceAcq hd sc) hd [] [] [] none 0 0 false) :
    execFenceAcq hd sc s = .next (s.hold false) :=
  issueC_holds h (by simpa using acq) rfl

section
variable (h : CClear s (.fenceRel hd sc) hd [] [] [] none 0 0 false)
include h

theorem execFenceRel_marks (h0 : sc = 0) : execFenceRel hd sc s = .next ((s.readied [] 0).onMe Ctx.mark) :=
  issueC_eq h rfl (by rw [h0]; rfl) rfl (if_pos h0)
theorem execFenceRel_releases (h0 : sc ≠ 0) (out : s.me.out = []) :
    execFenceRel hd sc s = .next ((s.readied [] 0).release (s.readied [] 0).focus (s.readied [] 0).me.fen sc.toNat) :=
  issueC_eq h rfl (by simp [out]) rfl (if_neg h0)
theorem execFenceRel_holds (h0 : sc ≠ 0) (out : s.me.out ≠ []) : execFenceRel hd sc s = .next (s.hold false) :=
  issueC_holds h (by simpa using And.intro h0 out) rfl
end

section
variable (h : CClear s (.fenceAr hd sc) hd [] [] [] none 0 0 false) (acq : s.me.acq = [])
include h acq

theorem execFenceAr_marks (h0 : sc = 0) : execFenceAr hd sc s = .next ((s.readied [] 0).onMe Ctx.mark) :=
  issueC_eq h rfl (by simp [h0, acq]) rfl (if_pos h0)
theorem execFenceAr_issues (h0 : sc ≠ 0) (out : s.me.out = []) : let done := s.readied [] 0
    execFenceAr hd sc s =
      .next ((done.release done.focus done.me.fen sc.toNat).acquire done.focus done.me.fen sc.toNat) :=
  issueC_eq h rfl (by simp [acq, out]) rfl (if_neg h0)
omit acq in
theorem execFenceAr_holds (waits : s.me.acq ≠ [] ∨ sc ≠ 0 ∧ s.me.out ≠ []) : execFenceAr hd sc s = .next (s.hold false) :=
  issueC_holds h (by simpa using waits) rfl
end
end

/-- Settles O27: the sets are those of the release and of the acquire above. -/
theorem fenceResults : Obligations.FenceResults := by
  intro s hd sc done marked hid fen key units released
  refine ⟨fun h => ⟨fun acq => ?acquire, fun acq => execFenceAcq_holds acq h⟩,
    fun h => ⟨fun h0 => execFenceRel_marks h h0, fun h0 out => ?release, fun h0 out => execFenceRel_holds h h0 out⟩,
    fun h => ⟨fun h0 acq => execFenceAr_marks h acq h0, fun h0 acq out => ?both, execFenceAr_holds h⟩⟩
  case acquire =>
    obtain ⟨change, ctx, sees⟩ := s.acquire_readied sc done.pub
    refine ⟨_, execFenceAcq_issues acq h, ?_, ctx, fun h0 p => ?_, change⟩
    · exact (congrArg State.pub change).trans (s.readied_pub [] 0)
    · rw [← s.readied_pub [] 0]
      exact sees h0 p
  case release =>
    obtain ⟨P, e, adds⟩ := s.release_readied sc
    exact ⟨done.published P, (execFenceRel_releases h h0 out).trans (congrArg _ e), adds, rfl⟩
  case both =>
    obtain ⟨P, e, adds⟩ := s.release_readied sc
    obtain ⟨change, -, sees⟩ := s.acquire_readied sc P
    have he := execFenceAr_issues h acq h0 out
    dsimp only at he
    rw [e] at he
    refine ⟨_, he, ?_⟩
    generalize (done.published P).acquire done.focus done.me.fen sc.toNat = t at change sees
    have pub : t.pub = P := (congrArg State.pub change :)
    subst pub
    exact ⟨adds, sees h0, change⟩

end Sys2Proof.Machine
end

section
/-! ## The event unit and sends
`esig`, `ewait` and `msend` (R152 to R155, R160, R172); O28 and O30. -/
namespace Sys2Proof.Machine

/-! ### The event unit -/

/-- `esig` leaves with a snapshot of what its core has seen (R153, R172). -/
theorem execEsig_issues {s : State} {hd : CHead} {a b : BitVec 5}
    (h : CClear s (.esig hd a b) hd [.s a.toNat, .s b.toNat] [] [] none 1 1 false)
    (out : s.me.out = []) : execEsig hd a b s = .next ((s.readied [.s a.toNat, .s b.toNat] 1).request (.event s.myCluster) none
      (.esig (wfld (s.me.sReg a.toNat) 0 8) (wfld (s.me.sReg b.toNat) 0 32)) (know := s.here.seen)) := by
  refine issueC_eq h rfl (by simp [out]) rfl ?_
  simp only [State.readied_sReg, State.readied_seen, State.myCluster, State.readied_focus]
theorem execEsig_holds {s : State} {hd : CHead} {a b : BitVec 5}
    (h : CClear s (.esig hd a b) hd [.s a.toNat, .s b.toNat] [] [] none 1 1 false)
    (out : s.me.out ≠ []) : execEsig hd a b s = .next (s.hold false) :=
  issueC_holds h (by simpa using out) rfl
/-- An `ewait` on its way to the unit is a switching event (R41, R154). -/
theorem State.ewaitSent_passed {s u : State} (plain : s.plainSlot) (slot : u.here.slot = s.here.slot) (focus : u.focus = s.focus) :
    (u.soon (.ewaitAnswer u.focus u.here.run)).switching = (u.soon (.ewaitAnswer s.focus s.here.run)).passed := by
  have run : u.here.run = s.here.run := congrArg (fun p => p.2.2) slot
  rw [State.switching_passed plain (t := u.soon _) slot, focus, run]
/-- `ewait` waits for the event unit (R154). -/
theorem execEwait_issues {s : State} {hd : CHead} {d a : BitVec 5}
    (h : CClear s (.ewait hd d a) hd [.s a.toNat] [] [] (some s.me.ltkRef) 0 0 false)
    (plain : s.plainSlot) : execEwait hd d a s = .next (((s.readied [.s a.toNat] 0).onMe (fun c =>
      { (c.raise s.me.ltkRef).addPending (.s d.toNat) with
        wait := .ewait d.toNat (wfld (s.me.sReg a.toNat) 0 8) (wfld (s.me.sReg a.toNat) 32 32) false })).soon
        (.ewaitAnswer s.focus s.here.run)).passed := by
  refine issueC_eq h rfl rfl rfl ?_
  simp only [State.readied_sReg, State.readied_ltkRef]
  exact State.ewaitSent_passed plain (by simp) (s.readied_focus [.s a.toNat] 0)

/-- Settles O28. -/
theorem eventUnitWordResults : Obligations.EventUnitWordResults := by
  intro s hd d a b two one w t
  have low : wfld (s.me.sReg a.toNat) 0 8 = w % 256 := by simp [wfld_toNat, w]
  have high : wfld (s.me.sReg a.toNat) 32 32 = w / 2 ^ 32 := by
    rw [wfld_toNat, Nat.mod_eq_of_lt]
    have := (s.me.sReg a.toNat).isLt
    omega
  have add : wfld (s.me.sReg b.toNat) 0 32 = (s.me.sReg b.toNat).toNat % 2 ^ 32 := by simp [wfld_toNat]
  rw [← low, ← high, ← add]
  exact ⟨fun h => ⟨execEsig_issues h, execEsig_holds h⟩, execEwait_issues⟩

/-! ### Sends -/

theorem State.srcOf_here (s : State) : s.srcOf s.focus s.here.run =
    ⟨s.focus, s.here.run, s.me.task, s.me.fen, s.here.hid.getD 0, s.me.born⟩ := rfl
/-- The source of a request that the running context makes depends on what names the context. -/
theorem State.srcOf_congr {s u : State} (focus : u.focus = s.focus) (run : u.here.run = s.here.run) (hid : u.here.hid = s.here.hid)
    (me : (u.me.task, u.me.fen, u.me.born) = (s.me.task, s.me.fen, s.me.born)) :
    u.srcOf u.focus u.here.run = s.srcOf s.focus s.here.run := by
  simp only [Prod.mk.injEq] at me
  obtain ⟨task, fen, born⟩ := me
  rw [State.srcOf_here, State.srcOf_here, focus, run, hid, task, fen, born]
/-- The entry that an `msend` of the running context sends (R155, R160). -/
def State.sentEntry (s : State) (dst : Word) (payload : BitVec 192) : Entry :=
  { kind := 1, b1 := 0, seq := s.me.nseq, src := (s.srcOf s.focus s.here.run).field, payload := payload,
    ctxTo := wfld dst 20 4, placed := 0, fromCore := s.focus, fromCtx := s.here.run, know := [] }
/-- A readied state differs in the running context of the running core, and in what that core has reserved. -/
theorem State.readied_ctx_ne (s : State) (srcs : List RegId) (m : Nat) {j : Nat} (h : j ≠ s.here.run) :
    (s.readied srcs m).here.ctx j = s.here.ctx j := by
  obtain ⟨b, n, k, e⟩ := s.readied_here_eq srcs m
  rw [e]
  exact CoreSt.ctx_setCtx_ne _ _ h
theorem State.readied_coreOf_ne (s : State) (srcs : List RegId) (m : Nat) {n : Nat} (h : n ≠ s.focus) :
    (s.readied srcs m).coreOf n = s.coreOf n := by
  unfold State.readied State.molReserve State.markReads
  split
  · exact (State.coreOf_onCore_ne _ _ h).trans (State.coreOf_setCore_ne _ _ h)
  · exact State.coreOf_onCore_ne _ _ h
/-- Raising a token changes its counter only. -/
theorem Ctx.raise_keeps {α : Type} (g : Ctx → α) (h : ∀ c k t, g { c with k := k, t := t } = g c) (c : Ctx) (t : TokRef) :
    g (c.raise t) = g c := by
  cases t <;> exact h c _ _
/-- What an `msend` leaves (R160). -/
def State.sent (r : State) (t : TokRef) (dst : Word) (payload : BitVec 192) : State :=
  let p := (r.onMe (fun c => c.raise t)).requestHeld none (some t) (wfld dst 0 20) (.send (r.sentEntry dst payload) (wfld dst 0 20))
  p.2.soon (.msendDepart p.1)

section
variable (r : State) (t : TokRef) (dst : Word) (payload : BitVec 192)
theorem State.sent_due :
    (r.sent t dst payload).due = r.due ++ [⟨r.gts + 1 + Config.latency (r.ctr + 1), .step (.msendDepart r.ctr)⟩] := rfl
theorem State.sent_pa : (r.sent t dst payload).pa = r.pa := rfl
theorem State.sent_host : (r.sent t dst payload).host = r.host := rfl
theorem State.sent_peer : (r.sent t dst payload).peer = r.peer := rfl
theorem State.sent_coreOf_ne {n : Nat} (h : n ≠ r.focus) : (r.sent t dst payload).coreOf n = r.coreOf n :=
  (State.coreOf_setCore_ne _ _ h).trans (State.coreOf_setCore_ne _ _ h)
end
theorem execMsend_sends {s : State} {hd : CHead} {e : BitVec 5} {v : BitVec 6} {k : BitVec 4}
    (h : CClear s (.msend hd e v k) hd [.s e.toNat, .v v.toNat] [v.toNat] [k] (some (s.me.tokRef k.toNat)) 1 1 false) :
    execMsend hd e v k s =
      .next ((s.readied [.s e.toNat, .v v.toNat] 1).sent (s.me.tokRef k.toNat) (s.me.sReg e.toNat)
        ((s.me.vReg v.toNat).extractLsb' 0 192)) := by
  refine issueC_eq h rfl rfl rfl ?_
  rw [← s.readied_sReg [.s e.toNat, .v v.toNat] 1, ← s.readied_vReg [.s e.toNat, .v v.toNat] 1,
    ← s.readied_tokRef [.s e.toNat, .v v.toNat] 1]
  rfl

/-- Settles O30. -/
theorem sendResults : Obligations.SendResults := by
  intro s hd e v k hrun t dst h
  let r := s.readied [.s e.toNat, .v v.toNat] 1
  let q := r.onMe (fun c => c.raise t)
  let ent := r.sentEntry (s.me.sReg e.toNat) ((s.me.vReg v.toNat).extractLsb' 0 192)
  let task := wfld (s.me.sReg e.toNat) 0 20
  let m : Msg := { q.newMsg (.task q.myCluster task) none (some t) (.send ent task) with know := [] }
  have run : r.here.run = s.here.run := s.readied_run _ _
  have qrun : q.here.run = s.here.run := by rw [State.here_onMe, CoreSt.setCtx_run, run]
  have me : q.me = r.me.raise t := State.me_onMe _ _ (by rwa [run])
  have src : r.srcOf r.focus r.here.run = s.srcOf s.focus s.here.run :=
    State.srcOf_congr (s.readied_focus _ _) run (s.readied_hid _ _) (s.readied_proj _ _ (fun c => (c.task, c.fen, c.born)) fun _ _ => rfl)
  have qsrc : q.srcOf q.focus q.here.run = r.srcOf r.focus r.here.run := by
    refine State.srcOf_congr rfl (qrun.trans run.symm) ?_ ?_
    · rw [State.here_onMe, CoreSt.setCtx_hid]
    · rw [me]
      exact Ctx.raise_keeps (fun c => (c.task, c.fen, c.born)) (fun _ _ _ => rfl) r.me t
  generalize hu : r.sent t (s.me.sReg e.toNat) ((s.me.vReg v.toNat).extractLsb' 0 192) = u
  have uhere : u.here = (r.here.setCtx s.here.run (r.me.raise t)).setCtx s.here.run (r.me.raise t).takeSeq := by
    refine (congrArg State.here hu.symm).trans ((State.here_onMe q Ctx.takeSeq).trans ?_)
    rw [qrun, me, State.here_onMe, run]
  have fields : (r.me.raise t).nseq = s.me.nseq ∧ (r.me.raise t).out = s.me.out ∧ (r.me.raise t).pc = s.me.pc := by
    have raised := Ctx.raise_keeps (fun c => (c.nseq, c.out, c.pc)) (fun _ _ _ => rfl) r.me t
    have ready := s.readied_proj [.s e.toNat, .v v.toNat] 1 (fun c => (c.nseq, c.out, c.pc)) fun _ _ => rfl
    simpa only [Prod.mk.injEq] using raised.trans ready
  obtain ⟨nseq, out, pc⟩ := fields
  refine ⟨u, m, ent, (execMsend_sends h).trans (congrArg _ hu), ?bag, ?me, ?due, ?body, ?seq, rfl, qsrc.trans src, ?pc, rfl,
    ?eseq, ?ctxTo, rfl, ?esrc, ?ls, ?b, ?pa, ?host, ?peer, ?ctxs, ?cores⟩
  case bag =>
    rw [← hu, ← s.readied_bag [.s e.toNat, .v v.toNat] 1, ← s.readied_ctr [.s e.toNat, .v v.toNat] 1]
    rfl
  case me =>
    have umerun : u.here.run = s.here.run := by rw [uhere]; exact run
    rw [State.me, umerun, uhere, CoreSt.ctx_setCtx _ _ hrun, ← nseq, ← out]
    rfl
  case due =>
    refine ⟨r.gts + 1 + Config.latency (r.ctr + 1), ?_, ?_⟩
    · rw [show r.gts = s.gts from s.readied_gts _ _]
      omega
    · rw [← hu, State.sent_due, show r.due = s.due from s.readied_due _ _, show r.ctr = s.ctr from s.readied_ctr _ _]
  case body => exact congrArg (Body.send ent) ((wfld_toNat _ 0 20).trans (by rw [Nat.pow_zero, Nat.div_one]))
  case seq => exact (congrArg Ctx.nseq me).trans nseq
  case pc => exact congrArg BitVec.toNat ((congrArg Ctx.pc me).trans pc)
  case eseq => exact s.readied_nseq _ _
  case ctxTo => exact wfld_toNat _ 20 4
  case esrc => exact congrArg Src.field src
  case ls =>
    rw [uhere, CoreSt.setCtx_ls, CoreSt.setCtx_ls]
    exact s.readied_ls [.s e.toNat, .v v.toNat] 1
  case b =>
    rw [uhere, CoreSt.setCtx_b, CoreSt.setCtx_b]
    exact s.readied_here [.s e.toNat, .v v.toNat] 1 CoreSt.b fun _ _ _ _ => rfl
  case pa =>
    rw [← hu, State.sent_pa]
    exact s.readied_pa [.s e.toNat, .v v.toNat] 1
  case host =>
    rw [← hu, State.sent_host]
    exact s.readied_host [.s e.toNat, .v v.toNat] 1
  case peer =>
    rw [← hu, State.sent_peer]
    exact s.readied_peer [.s e.toNat, .v v.toNat] 1
  case ctxs =>
    intro j hj
    rw [uhere, CoreSt.ctx_setCtx_ne _ _ hj, CoreSt.ctx_setCtx_ne _ _ hj]
    exact s.readied_ctx_ne _ _ hj
  case cores =>
    intro n hn
    have hn' : n ≠ r.focus := by rwa [s.readied_focus]
    rw [← hu, State.sent_coreOf_ne _ _ _ _ hn']
    exact s.readied_coreOf_ne [.s e.toNat, .v v.toNat] 1 hn

end Sys2Proof.Machine
end

section
/-! ## Inbox words
What a read of a box depends on, and `inbx` and `inbx.t` (R155 to R159, R174, R442, R468); O29. -/
namespace Sys2Proof.Machine

/-! ### Overflow boxes -/

/-- The state with other cores. -/
def State.withCores (s : State) (cs : Table CoreSt) : State := { s with cores := cs }
theorem State.access_withCores (s : State) (cs : Table CoreSt) (hid va : Nat) (wr : Bool) :
    (s.withCores cs).access hid va wr = s.access hid va wr := rfl
theorem State.readPlace_withCores (s : State) (cs : Table CoreSt) (p : Place) : (s.withCores cs).readPlace p = s.readPlace p := by
  cases p <;> rfl
/-- A read of household-virtual memory does not depend on the cores. -/
theorem State.readVa_withCores (s : State) (cs : Table CoreSt) (hid va n : Nat) : (s.withCores cs).readVa hid va n = s.readVa hid va n := by
  induction n generalizing va with
  | zero => rfl
  | succ n ih => simp only [State.readVa, State.access_withCores, State.readPlace_withCores, ih]
/-- What names the box of a core's task (R441). -/
def CoreSt.boxKey (x : CoreSt) : Nat × Nat × Option Nat := (x.queue, (x.ctx 0).task, x.hid)
theorem State.boxCount_congr {s t : State} {core : Nat} (h : t = s.withCores t.cores)
    (k : (t.coreOf core).boxKey = (s.coreOf core).boxKey) :
    t.boxCount core = s.boxCount core := by
  simp only [CoreSt.boxKey, Prod.mk.injEq] at k
  obtain ⟨queue, task, hid⟩ := k
  have base : t.boxBase core = s.boxBase core := by
    simp only [State.boxBase, State.queueOfCore, queue, task]
    rw [h]
    rfl
  unfold State.boxCount State.boxRead
  rw [base, hid, h]
  simp only [State.readVa_withCores]
/-- A fact about a context that the update of a context of the core keeps. -/
theorem CoreSt.ctx_setCtx_proj {α : Type} (x : CoreSt) {i : Nat} (hi : i < 11) (j : Nat) {c : Ctx} (g : Ctx → α) (h : g c = g (x.ctx i)) :
    g ((x.setCtx i c).ctx j) = g (x.ctx j) := by
  by_cases e : j = i
  · rw [e, CoreSt.ctx_setCtx _ _ hi, h]
  · rw [CoreSt.ctx_setCtx_ne _ _ e]
theorem State.readied_withCores (s : State) (srcs : List RegId) (m : Nat) : s.readied srcs m = s.withCores (s.readied srcs m).cores := by
  unfold State.readied State.molReserve State.markReads
  split <;> rfl
theorem State.readied_boxKey (s : State) (srcs : List RegId) (m : Nat) : (s.readied srcs m).here.boxKey = s.here.boxKey := by
  have task : (((s.readied srcs m).here.ctx 0).task) = (s.here.ctx 0).task :=
    s.readied_here srcs m (fun x => (x.ctx 0).task) fun x b _ _ => CoreSt.ctx_setUw x b 0 (fun c => c.task) fun _ _ => rfl
  have core : ((s.readied srcs m).here.queue, (s.readied srcs m).here.hid) = (s.here.queue, s.here.hid) :=
    s.readied_here srcs m (fun x => (x.queue, x.hid)) fun _ _ _ _ => rfl
  simp only [Prod.mk.injEq] at core
  rw [CoreSt.boxKey, task, core.1, core.2, CoreSt.boxKey]

/-! ### Dequeues -/

/-- The two waits of R156 and R159: for an entry of the inbox, without and with a limit. -/
def Wait.awaits (w : Wait) : Prop := (∃ v, w = .inbx v) ∨ ∃ v d lim, w = .inbxT v d lim
/-- What a dequeue by such a wait writes one cycle later (R156, R159). -/
def Wait.inboxActs (w : Wait) (t : TokRef) (e : Entry) : List Act :=
  match w with
  | .inbx v => [Act.write (.v v) e.word] ++ endDest (.v v) ++ [.lower t, .ready]
  | .inbxT v d _ => [Act.write (.v v) e.word] ++ endDest (.v v) ++ [Act.write (.s d) 1, .unpend (.s d), .lower t, .ready]
  | _ => []
/-- The entries that such a wait takes (R156). -/
def Entry.plain (e : Entry) : Bool := e.kind != 2 && e.kind != 3 && e.kind != 5

section
variable {w : Wait} (hw : w.awaits)
include hw
theorem Wait.awaits.takes (e : Entry) : w.takes e = e.plain := by
  have same : w.takes e = (!(e.kind == 2 || e.kind == 3) && e.kind != 5) := by
    obtain ⟨v, rfl⟩ | ⟨v, d, lim, rfl⟩ := hw
    · rfl
    · rfl
  rw [same, Bool.not_or]
  rfl
variable {s : State} {core ctx : Nat} (h : (s.ctxOf core ctx).wait = w) (e : Entry)
include h
theorem Wait.awaits.acts : s.dequeueActs core ctx e = w.inboxActs (s.ctxOf core ctx).ltkRef e := by
  obtain ⟨v, rfl⟩ | ⟨v, d, lim, rfl⟩ := hw
  · simp only [State.dequeueActs, h, Wait.inboxActs]
  · simp only [State.dequeueActs, h, Wait.inboxActs]
theorem Wait.awaits.ownLater : s.ownLater core ctx e = s := by
  obtain ⟨v, rfl⟩ | ⟨v, d, lim, rfl⟩ := hw
  · simp only [State.ownLater, h]
  · simp only [State.ownLater, h]
end
theorem State.dequeueKnow_plain (s : State) {e : Entry} (h : e.plain = true) : s.dequeueKnow e = e.know := by
  simp only [Entry.plain, Bool.and_eq_true, bne_iff_ne, ne_eq] at h
  obtain ⟨⟨h2, h3⟩, -⟩ := h
  simp [State.dequeueKnow, h2, h3]

/-- An entry leaves the inbox of the running core. -/
def State.drawn (u : State) (e : Entry) : State := u.onHere (fun x => { x with inbox := x.inbox.erase e })
theorem State.drawn_here (u : State) (e : Entry) : (u.drawn e).here = { u.here with inbox := u.here.inbox.erase e } := State.here_onHere _ _
theorem State.drawn_run (u : State) (e : Entry) : (u.drawn e).here.run = u.here.run := by rw [State.drawn_here]
theorem State.drawn_ctxOf (u : State) (e : Entry) : (u.drawn e).ctxOf u.focus u.here.run = u.me := by
  change (u.drawn e).here.ctx u.here.run = _
  rw [State.drawn_here]
  rfl
/-- The running context has taken an entry of its inbox: what it acquires, the entry of the log, and its writes one cycle later
(R156, R174, R468). -/
def State.hasTaken (u : State) (pc : Word) (e : Entry) (acts : List Act) : State :=
  (((((u.drawn e).learn u.focus e.know).molEntry u.focus u.here.run 2 0 0 pc.toNat e.src e.seq
    u.gts).onMe (fun c => { c with wait := c.wait.settle })).doneAt (u.gts + 1) u.focus u.here.run acts).refill u.focus

/-- Learning and the entry of the log leave the time, the running core and its running context in place. -/
theorem State.learnt_frame (u : State) (core : Nat) (k : Seen) (c i pc a b g : Nat) :
    let t := (u.learn core k).molEntry c i 2 0 0 pc a b g
    t.gts = u.gts ∧ t.focus = u.focus ∧ t.here.run = u.here.run := by
  intro t
  have learnt : ((u.learn core k).gts, (u.learn core k).focus, ((u.learn core k).coreOf u.focus).run) = (u.gts, u.focus, u.here.run) := by
    unfold State.learn
    split
    · rfl
    · exact congrArg (fun r => (u.gts, u.focus, r))
        (u.onCore_here_keeps CoreSt.run (f := fun x => { x with seen := joinSeen x.seen k }) (fun _ => rfl) core)
  have logged := State.keeps_molEntry (fun p x => (p.1, p.2.1, x.run)) (fun _ _ _ _ _ => rfl) (u.learn core k) c i 2 0 0 pc a b g u.focus
  have both := logged.trans learnt
  simp only [Prod.mk.injEq] at both
  obtain ⟨gts, focus, run⟩ := both
  exact ⟨gts, focus, (congrArg (fun c => (t.coreOf c).run) focus).trans run⟩

section
variable {u : State} (hw : u.me.wait.awaits)
include hw

theorem State.awaits_find : (fun e : Entry => e.ctxTo == u.here.run && u.me.wait.takes e) = fun e => e.ctxTo == u.here.run && e.plain := by
  funext e
  rw [hw.takes]
/-- An entry of the inbox is dequeued (R156). -/
theorem State.serve_found {pc : Word} {e : Entry} (hf : u.here.inbox.find? (fun e => e.ctxTo == u.here.run && e.plain) = some e) :
    u.serve u.focus u.here.run pc = u.hasTaken pc e (u.me.wait.inboxActs u.me.ltkRef e) := by
  have plain : e.plain = true := by
    have := List.find?_some hf
    rw [Bool.and_eq_true] at this
    exact this.2
  have served : u.serve u.focus u.here.run pc = ((u.drawn e).dequeued u.focus u.here.run pc e).refill u.focus := by
    rw [← State.awaits_find hw] at hf
    have hf' : (u.coreOf u.focus).inbox.find?
        (fun e => e.ctxTo == u.here.run && ((u.coreOf u.focus).ctx u.here.run).wait.takes e) = some e := hf
    rw [State.serve]
    simp only [hf']
    rfl
  have ctx := u.drawn_ctxOf e
  obtain ⟨gts, focus, run⟩ := (u.drawn e).learnt_frame u.focus e.know u.focus u.here.run pc.toNat e.src e.seq u.gts
  rw [served, State.dequeued, hw.acts (congrArg Ctx.wait ctx) e, hw.ownLater (congrArg Ctx.wait ctx) e,
    State.dequeueKnow_plain _ plain, ctx, State.hasTaken, State.onMe, focus, run, u.drawn_run]
  exact congrArg (fun g => State.refill (State.doneAt _ (g + 1) _ _ _) _) gts
/-- Nothing is, where neither the inbox nor the box holds one (R156). -/
theorem State.serve_none {pc : Word} (hf : u.here.inbox.find? (fun e => e.ctxTo == u.here.run && e.plain) = none)
    (hb : u.boxCount u.focus = 0) : u.serve u.focus u.here.run pc = u := by
  rw [← State.awaits_find hw] at hf
  have hf' : (u.coreOf u.focus).inbox.find?
      (fun e => e.ctxTo == u.here.run && ((u.coreOf u.focus).ctx u.here.run).wait.takes e) = none := hf
  have box : u.boxFind u.focus u.here.run ((u.coreOf u.focus).ctx u.here.run).wait = none := by
    rw [State.boxFind, hb]
    rfl
  rw [State.serve]
  simp only [hf', box]
end
/-- The wait of a context that has taken an entry is decided (R156). -/
theorem State.hasTaken_settled {u : State} (hrun : u.here.run < 11) (pc : Word) (e : Entry) (acts : List Act) :
    (u.hasTaken pc e acts).me.wait.isSettled = true := by
  obtain ⟨-, -, run⟩ := (u.drawn e).learnt_frame u.focus e.know u.focus u.here.run pc.toNat e.src e.seq u.gts
  rw [u.drawn_run] at run
  unfold State.hasTaken
  generalize ((u.drawn e).learn u.focus e.know).molEntry u.focus u.here.run 2 0 0 pc.toNat e.src e.seq u.gts = t at run ⊢
  have refill (w : State) (c : Nat) : (w.refill c).me = w.me := by
    unfold State.refill
    split <;> rfl
  rw [refill]
  change (t.onMe (fun c => { c with wait := c.wait.settle })).me.wait.isSettled = true
  rw [State.me_onMe _ _ (by rwa [run])]
  rfl

/-! ### The words -/

/-- The outcome of a word that waits for an entry (R156, R41). -/
def State.servedWait (u : State) (pc : Word) (idle : State → State) : State :=
  let w := u.serve u.focus u.here.run pc
  if w.me.wait.isSettled then w else idle w

section
variable {s : State} {hd : CHead} {v : BitVec 6} {d sl : BitVec 5}

/-- The state in which an `inbx` waits (R156). -/
def State.inbxWaits (s : State) (v : Nat) : State :=
  (s.readied [] 1).onMe (fun c => { ((c.raise s.me.ltkRef).startDest (.v v)) with wait := .inbx v })
/-- The state in which an `inbx.t` waits (R159). -/
def State.inbxTWaits (s : State) (src : List RegId) (v d lim : Nat) : State :=
  (s.readied src 1).onMe (fun c => { (((c.raise s.me.ltkRef).startDest (.v v)).addPending (.s d)) with wait := .inbxT v d lim })

theorem execInbx_serves (h : CClear s (.inbx hd v) hd [] [v.toNat] [] (some s.me.ltkRef) 0 1 false) :
    execInbx hd v s = .next ((s.inbxWaits v.toNat).servedWait s.me.pc State.switching) := by
  refine issueC_eq h rfl rfl rfl ?_
  have run : (s.inbxWaits v.toNat).here.run = (s.readied [] 1).here.run := by
    rw [State.inbxWaits, State.here_onMe, CoreSt.setCtx_run]
  have waits : (s.readied [] 1).onMe (fun c => { ((c.raise c.ltkRef).startDest (.v v.toNat)) with wait := .inbx v.toNat }) =
      s.inbxWaits v.toNat := State.onMe_congr (by rw [State.readied_ltkRef])
  rw [State.servedWait, run, ← waits, ← s.readied_pc [] 1]
theorem execInbxT_serves (h : CClear s (.inbxT hd v d sl) hd [.s sl.toNat] [v.toNat] [] (some s.me.ltkRef) 0 1 false) :
    let lim := (s.me.sReg sl.toNat).toNat
    execInbxT hd v d sl s = .next ((s.inbxTWaits [.s sl.toNat] v.toNat d.toNat lim).servedWait s.me.pc (fun w =>
      if lim ≤ w.gts then w.next (.inbxTLimit w.focus s.here.run) else (w.stepAt lim (.inbxTLimit w.focus s.here.run)).switching)) := by
  intro lim
  refine issueC_eq h rfl rfl rfl ?_
  have run : (s.inbxTWaits [.s sl.toNat] v.toNat d.toNat lim).here.run = (s.readied [.s sl.toNat] 1).here.run := by
    rw [State.inbxTWaits, State.here_onMe, CoreSt.setCtx_run]
  have waits : (s.readied [.s sl.toNat] 1).onMe (fun c =>
      { (((c.raise c.ltkRef).startDest (.v v.toNat)).addPending (.s d.toNat)) with wait := .inbxT v.toNat d.toNat lim }) =
      s.inbxTWaits [.s sl.toNat] v.toNat d.toNat lim := State.onMe_congr (by rw [State.readied_ltkRef])
  rw [State.servedWait, run, ← waits, ← s.readied_pc [.s sl.toNat] 1, ← s.readied_run [.s sl.toNat] 1,
    show lim = ((s.readied [.s sl.toNat] 1).me.sReg sl.toNat).toNat by rw [State.readied_sReg]]
end

section
variable {u : State} (hw : u.me.wait.awaits) (pc : Word) (idle : State → State)
include hw

theorem State.servedWait_found (hrun : u.here.run < 11) {e : Entry}
    (hf : u.here.inbox.find? (fun e => e.ctxTo == u.here.run && e.plain) = some e) :
    u.servedWait pc idle = u.hasTaken pc e (u.me.wait.inboxActs u.me.ltkRef e) := by
  rw [State.servedWait, State.serve_found hw hf]
  exact if_pos (State.hasTaken_settled hrun pc e _)
theorem State.servedWait_none (hf : u.here.inbox.find? (fun e => e.ctxTo == u.here.run && e.plain) = none)
    (hb : u.boxCount u.focus = 0) : u.servedWait pc idle = idle u := by
  rw [State.servedWait, State.serve_none hw hf hb]
  refine if_neg ?_
  obtain ⟨v, e⟩ | ⟨v, d, lim, e⟩ := hw
  · rw [e]
    exact Bool.false_ne_true
  · rw [e]
    exact Bool.false_ne_true
end

/-- Pending marks of destinations change nothing else. -/
theorem Ctx.addPending_keeps {α : Type} (g : Ctx → α) (h : ∀ c p, g { c with pend := p } = g c) (c : Ctx) (r : RegId) :
    g (c.addPending r) = g c := by
  unfold Ctx.addPending
  split
  · rfl
  · exact h c _
theorem Ctx.startDest_keeps {α : Type} (g : Ctx → α) (h : ∀ c p, g { c with pend := p } = g c) (ha : ∀ c a, g { c with acq := a } = g c)
    (c : Ctx) (r : RegId) : g (c.startDest r) = g c :=
  (ha _ _).trans (Ctx.addPending_keeps g h c r)
/-- Of a context: the token that its long-latency words raise, and its task. -/
def Ctx.raises (c : Ctx) : TokRef × Nat := (c.ltkRef, c.task)
theorem Ctx.raises_started (c : Ctx) (t : TokRef) (r : RegId) : ((c.raise t).startDest r).raises = c.raises :=
  (Ctx.startDest_keeps Ctx.raises (fun _ _ => rfl) (fun _ _ => rfl) _ r).trans (Ctx.raise_keeps Ctx.raises (fun _ _ _ => rfl) c t)
/-- What the state in which a context waits for an entry has of the state before. -/
structure State.Waits (s u : State) (w : Wait) : Prop where
  focus : u.focus = s.focus
  gts : u.gts = s.gts
  slot : u.here.slot = s.here.slot
  inbox : u.here.inbox = s.here.inbox
  box : u.boxCount u.focus = s.boxCount s.focus
  wait : u.me.wait = w
  token : u.me.ltkRef = s.me.ltkRef

/-- A readied context that waits. -/
theorem State.waits_onMe {s : State} (hrun : s.here.run < 11) (srcs : List RegId) (m : Nat) {f : Ctx → Ctx} {w : Wait}
    (hw : ∀ c, (f c).wait = w) (hf : ∀ c, (f c).raises = c.raises) : s.Waits ((s.readied srcs m).onMe f) w := by
  have run : (s.readied srcs m).here.run = s.here.run := s.readied_run srcs m
  have me := State.me_onMe (s.readied srcs m) f (by rwa [run])
  have wait := hw (s.readied srcs m).me
  have hf := hf (s.readied srcs m).me
  simp only [Ctx.raises, Prod.mk.injEq] at hf
  obtain ⟨token, task⟩ := hf
  have key : ((s.readied srcs m).onMe f).here.boxKey = (s.readied srcs m).here.boxKey := by
    rw [State.here_onMe, CoreSt.boxKey, CoreSt.ctx_setCtx_proj _ (by rwa [run]) 0 (fun c => c.task) task]
    rfl
  refine ⟨s.readied_focus srcs m, s.readied_gts srcs m, ?_, ?_, ?_, ?_, ?_⟩
  · rw [State.here_onMe, CoreSt.slot_setCtx, State.readied_slot]
  · rw [State.here_onMe, CoreSt.setCtx_inbox]
    exact s.readied_here srcs m (fun x => x.inbox) fun _ _ _ _ => rfl
  · let u := (s.readied srcs m).onMe f
    have cores : u = s.withCores u.cores := by
      change (s.readied srcs m).withCores u.cores = s.withCores u.cores
      rw [s.readied_withCores srcs m]
      rfl
    have focus : u.focus = s.focus := s.readied_focus srcs m
    change u.boxCount u.focus = _
    rw [focus]
    refine State.boxCount_congr cores ?_
    rw [← focus]
    refine key.trans ((s.readied_boxKey srcs m).trans ?_)
    rw [focus]
    rfl
  · rw [me, wait]
  · rw [me, token, State.readied_ltkRef]

section
variable {s u : State} {w : Wait} (h : s.Waits u w) (hw : w.awaits) (pc : Word) (idle : State → State)
include h hw

theorem State.Waits.found (hrun : s.here.run < 11) {e : Entry}
    (hf : s.here.inbox.find? (fun e => e.ctxTo == s.here.run && e.plain) = some e) : u.servedWait pc idle =
    (((((u.drawn e).learn s.focus e.know).molEntry s.focus s.here.run 2 0 0 pc.toNat e.src e.seq s.gts).onMe (fun c =>
      { c with wait := c.wait.settle })).doneAt (s.gts + 1) s.focus s.here.run (w.inboxActs s.me.ltkRef e)).refill s.focus := by
  have run : u.here.run = s.here.run := congrArg (fun p => p.2.2) h.slot
  rw [← h.inbox, ← run] at hf
  rw [State.servedWait_found (h.wait ▸ hw) pc idle (by rwa [run]) hf, State.hasTaken, h.focus, h.gts, run, h.wait, h.token]
theorem State.Waits.unserved (hf : s.here.inbox.find? (fun e => e.ctxTo == s.here.run && e.plain) = none)
    (hb : s.boxCount s.focus = 0) : u.servedWait pc idle = idle u := by
  have run : u.here.run = s.here.run := congrArg (fun p => p.2.2) h.slot
  rw [← h.inbox, ← run] at hf
  exact State.servedWait_none (h.wait ▸ hw) pc idle hf (h.box.trans hb)
end

/-- Settles O29: a wait for an entry is served at once where the inbox holds one that it takes. -/
theorem inboxWordResults : Obligations.InboxWordResults := by
  intro s hd v d sl hrun t lim src mine waits waitsT taken word
  have plain (e : Entry) : mine e = (e.ctxTo == s.here.run && e.plain) := by
    simp only [mine, Entry.plain, Bool.and_assoc]
  have hm : mine = fun e => e.ctxTo == s.here.run && e.plain := funext plain
  have w1 : s.Waits (s.inbxWaits v.toNat) (.inbx v.toNat) :=
    State.waits_onMe hrun [] 1 (fun _ => rfl) fun c => c.raises_started t (.v v.toNat)
  have w2 : s.Waits (s.inbxTWaits src v.toNat d.toNat lim) (.inbxT v.toNat d.toNat lim) :=
    State.waits_onMe hrun src 1 (fun _ => rfl) fun c =>
      (Ctx.addPending_keeps Ctx.raises (fun _ _ => rfl) _ (.s d.toNat)).trans (c.raises_started t (.v v.toNat))
  have a1 : (Wait.inbx v.toNat).awaits := .inl ⟨_, rfl⟩
  have a2 : (Wait.inbxT v.toNat d.toNat lim).awaits := .inr ⟨_, _, _, rfl⟩
  rw [hm]
  constructor
  · intro h
    have he := execInbx_serves h
    refine ⟨fun e hf => he.trans (congrArg _ (w1.found a1 _ _ hrun hf)), fun hf hb plain => he.trans (congrArg _ ?_)⟩
    rw [w1.unserved a1 _ _ hf hb, State.switching_passed plain w1.slot]
    rfl
  · intro h
    have he := execInbxT_serves h
    refine ⟨fun e hf => he.trans (congrArg _ (w2.found a2 _ _ hrun hf)), fun hf hb later plain => he.trans (congrArg _ ?_),
      fun hf hb past => he.trans (congrArg _ ?_)⟩
    · rw [w2.unserved a2 _ _ hf hb, if_neg (by rw [w2.gts]; exact Nat.not_le.2 later), w2.focus]
      exact State.switching_passed plain w2.slot
    · rw [w2.unserved a2 _ _ hf hb, if_pos (by rw [w2.gts]; exact past), w2.focus]
      rfl

end Sys2Proof.Machine
end

section
/-! ## An acknowledgement without a route
What answers a request goes back over the mesh; where no route is left its household is killed instead (R438); O39. -/
namespace Sys2Proof.Machine

/-- An `esig` of core 1 that stands at core 0, on its way to event counter 0 of cluster 0. -/
def cutOffEsig : Msg :=
  { src := { core := 1, ctx := 0, task := 0, fen := 0, hid := 1, born := 0 }, seq := 6, pc := 0, prev := none, dst := .event 0, at_ := 0,
    stubs := [], tok := none, body := .esig 0 1, st := .going, gts := 0, delivered := true, caught := false, detour := false, remote := true,
    behind := [], goal := none, handle := none, near := false, know := [], app := none }
/-- Both links of core 0 have been removed from the mesh while the signal was under way. -/
def cutOff : State :=
  { State.reset with
    agenda := [], due := [], bag := [(9, cutOffEsig)], ctr := 20, removed := [(0, 1), (0, 40)],
    households := [(1, { Household.reset with alive := true, fens := [(0, { ident := 0, cx := 0, cy := 0, w := 2, h := 2 })] })] }
/-- The acknowledgements that are due once a step has been made. -/
def acksDue (o : Host.Outcome State Fault Refusal) : List Due :=
  match o with
  | .next t => t.due.filter (fun d => d.ev == .step (.requestAck 9))
  | _ => []
set_option maxRecDepth 6000 in
/-- No acknowledgement of the signal is under way once it has been counted. -/
theorem cutOff_unanswered : acksDue (exec (.esigAdd 9) cutOff) = [] := by decide

/-- Refutes O39: the clause on a signal has its acknowledgement due in every state; where the mesh holds no route back to the issuing
core, the signal is counted and the household killed (R438). -/
theorem not_requestEvents : ¬ Obligations.RequestEvents := by
  intro h
  obtain ⟨-, answers, -⟩ := h cutOff 9 0 0 0
  obtain ⟨-, -, -, -, -, signal⟩ := answers cutOffEsig rfl
  obtain ⟨t, ht, -, g, due⟩ := signal 0 1 0 rfl rfl
  have none := cutOff_unanswered
  rw [ht] at none
  exact List.filter_eq_nil_iff.1 none _ due (beq_self_eq_true _)

end Sys2Proof.Machine
end

section
/-! ## Entries at their destination
What acknowledgements and reports leave alone at a core: its inbox and its input (R133, R160, R379, R442). -/
namespace Sys2Proof.Machine

/-- The entries that stand at a core: those of its inbox and those that wait at its input. -/
def CoreSt.entries (x : CoreSt) : List Entry × List (Entry × Nat × Option Nat) := (x.inbox, x.input)
def State.entries (s : State) (core : Nat) : List Entry × List (Entry × Nat × Option Nat) := (s.coreOf core).entries

theorem State.entries_of_cores {s t : State} (h : t.cores = s.cores) : t.entries = s.entries := by
  funext c
  simp only [State.entries, State.coreOf, h]
/-- A change of a core that keeps a fact about it keeps the fact about every core. -/
theorem State.onCore_keeps {α : Type} (g : CoreSt → α) (s : State) (core : Nat) {f : CoreSt → CoreSt} (h : ∀ x, g (f x) = g x) (c : Nat) :
    g ((s.onCore core f).coreOf c) = g (s.coreOf c) := by
  by_cases e : c = core
  · rw [e, State.coreOf_onCore, h]
  · rw [State.coreOf_onCore_ne _ _ e]
theorem State.entries_onCore (s : State) (core : Nat) (f : CoreSt → CoreSt) (h : ∀ x, (f x).entries = x.entries) :
    (s.onCore core f).entries = s.entries :=
  funext (s.onCore_keeps CoreSt.entries core h)
theorem State.entries_onCtx (s : State) (core i : Nat) (f : Ctx → Ctx) : (s.onCtx core i f).entries = s.entries :=
  s.entries_onCore core (fun x => x.setCtx i (f (s.ctxOf core i))) fun _ => rfl
theorem State.entries_refill (s : State) (core : Nat) : (s.refill core).entries = s.entries := by
  unfold State.refill
  split <;> rfl
theorem State.entries_learn (s : State) (core : Nat) (know : Seen) : (s.learn core know).entries = s.entries := by
  unfold State.learn
  split
  · rfl
  · exact s.entries_onCore core _ fun _ => rfl
theorem State.entries_actOutside (core ctx : Nat) (s : State) (a : Act) : (State.actOutside core ctx s a).entries = s.entries := by
  cases a with
  | cisDone => exact s.entries_onCore core (fun x => { x with cisOut := x.cisOut - 1 }) fun _ => rfl
  | tileRow v tile row => exact s.entries_onCtx core ctx _
  | learn know => exact s.entries_learn core know
  | _ => rfl
/-- The acts of a completion reach registers, counters and the lineage table. -/
theorem State.entries_complete (s : State) (core ctx : Nat) (acts : List Act) : (s.complete core ctx acts).entries = s.entries :=
  (foldl_keeps State.entries (State.entries_actOutside core ctx) acts _).trans (s.entries_onCtx core ctx _)
theorem State.entries_molEntry (s : State) (core ctx kind rkind seq pc w1 w2 g : Nat) :
    (s.molEntry core ctx kind rkind seq pc w1 w2 g).entries = s.entries :=
  funext fun c => s.keeps_molEntry (fun _ x => x.entries) (fun _ _ _ _ _ => rfl) core ctx kind rkind seq pc w1 w2 g c
theorem State.entries_ackNow (s : State) (id : Nat) : (s.ackNow id).entries = s.entries := by
  unfold State.ackNow
  split
  · rfl
  · rename_i m _
    refine (State.entries_complete _ _ _ _).trans ?_
    split
    · exact s.entries_molEntry _ _ _ _ _ _ _ _ _
    · rfl
theorem State.entries_acknowledge (s : State) (id : Nat) : (s.acknowledge id).entries = s.entries :=
  State.entries_of_cores (s.cores_sendBack id _)
theorem State.entries_countApplied (s : State) (core : Nat) : (s.countApplied core).entries = s.entries :=
  s.entries_onCore core _ fun _ => rfl
/-- The acknowledgement of an entry that has been placed. -/
theorem State.entries_placedAck (s : State) (core : Nat) (msg : Option Nat) : (s.placedAck core msg).entries = s.entries := by
  unfold State.placedAck
  cases msg with
  | none => rfl
  | some id =>
    dsimp only
    split
    · rfl
    · rename_i m hm
      split
      · exact s.entries_ackNow id
      · refine (State.entries_acknowledge _ _).trans ?_
        have counted : ((s.countApplied core).onMsg id (fun m => { m with app := some (core, ((s.countApplied core).coreOf core).appIdx,
            (s.countApplied core).gts) })).entries = s.entries :=
          (State.entries_of_cores (State.cores_onMsg _ _ _)).trans (s.entries_countApplied core)
        split
        · exact (State.entries_of_cores (State.cores_corrections _ _ _ _)).trans counted
        · exact (State.entries_of_cores (State.cores_corrections _ _ _ _)).trans counted
        · exact counted
theorem State.entries_record (s : State) (q ring : Nat) (rec : BitVec 256) (ack : Option Nat) :
    (s.record q ring rec ack).entries = s.entries := by
  unfold State.record
  dsimp only
  split <;> rfl
/-- A late report stands in its context or becomes a record (R379). -/
theorem State.entries_lateReport (s : State) (core ctx : Nat) (r : LateReport) : (s.lateReport core ctx r).entries = s.entries := by
  unfold State.lateReport
  dsimp only
  split
  · exact s.entries_record _ _ _ _
  split
  · exact (State.entries_record _ _ _ _ _).trans (s.entries_onCtx _ _ _)
  · exact s.entries_onCtx _ _ _
theorem State.entries_refuseMsg (s : State) (id reason addr : Nat) : (s.refuseMsg id reason addr).entries = s.entries :=
  State.entries_of_cores (s.cores_refuseMsg id reason addr)

end Sys2Proof.Machine
end

section
/-! ## The way of an entry
Departures, routers, the order guard, stubs, the inbox and its box (R32, R160, R266, R346, R349, R438 to R444); O40. -/
namespace Sys2Proof.Machine

theorem State.onMsg_eq {s : State} {id : Nat} {m : Msg} (h : tfind s.bag id = some m) (f : Msg → Msg) :
    s.onMsg id f = { s with bag := tput s.bag id (f m) } := by
  simp only [State.onMsg, h]
theorem State.tfind_onMsg {s : State} {id : Nat} {m : Msg} (h : tfind s.bag id = some m) (f : Msg → Msg) :
    tfind (s.onMsg id f).bag id = some (f m) := by
  rw [State.onMsg_eq h]
  exact tfind_tput_same _ _ _

/-! ### Departures -/

/-- An entry leaves for the core that its sender has found (R160, R266). -/
theorem State.departTo_found {s : State} {id : Nat} {m m' : Msg} {task ctx c : Nat} {near : Bool} (hb : tfind s.bag id = some m')
    (hc : (if near then s.nearCore m.src task else s.lookup m.src task) = some c) (h10 : ctx ≤ 10) :
    (tfind (s.departTo id m task ctx near).bag id).map (fun m => m.dst) = some (.core c) ∧
      ∃ g, (⟨g, .step (.routerReceive id)⟩ : Due) ∈ (s.departTo id m task ctx near).due := by
  simp only [State.departTo, hc, if_neg (Nat.not_lt.2 h10)]
  refine ⟨?_, State.mem_due_soon _ _⟩
  exact congrArg (Option.map (fun m : Msg => m.dst)) (State.tfind_onMsg (s := s.onCluster _ _) hb _)
theorem State.lookup_dir {s : State} {src : Src} {task c : Nat}
    (h : tfind (s.clusterAt (clusterOf src.core)).dir (src.hid * 2 ^ 20 + task) = some c) : s.lookup src task = some c := by
  unfold State.lookup dirKey
  rw [h]
/-- `msend` (R160, R173). -/
theorem execMsendDepart_found {s : State} {id task c : Nat} {m : Msg} {e : Entry}
    (hm : tfind s.bag id = some m) (hb : m.body = .send e task)
    (head : (s.ctxOf m.src.core m.src.ctx).out.head? = some m.seq) (hc : s.lookup m.src task = some c) (h10 : e.ctxTo ≤ 10) :
    ∃ t, execMsendDepart id s = .next t ∧ (tfind t.bag id).map (fun m => m.dst) = some (.core c) ∧
      ∃ g, (⟨g, .step (.routerReceive id)⟩ : Due) ∈ t.due := by
  simp only [execMsendDepart, hm, hb, head, beq_self_eq_true, if_true]
  refine ⟨_, rfl, State.departTo_found (State.tfind_onMsg hm _) ?_ h10⟩
  rw [State.onMsg_eq hm]
  exact hc
theorem execMsendDepart_waits {s : State} {id task : Nat} {m : Msg} {e : Entry} (hm : tfind s.bag id = some m) (hb : m.body = .send e task)
    (head : (s.ctxOf m.src.core m.src.ctx).out.head? ≠ some m.seq) : execMsendDepart id s = .next (s.soon (.msendDepart id)) := by
  simp only [execMsendDepart, hm, hb, beq_eq_false_iff_ne.2 head, Bool.false_eq_true, if_false]
/-- A change of a cluster that keeps a fact about it keeps the fact about every cluster. -/
theorem State.onCluster_keeps {α : Type} (g : Cluster → α) {f : Cluster → Cluster} (h : ∀ k, g (f k) = g k) (s : State) (cl c : Nat) :
    g ((s.onCluster cl f).clusterAt c) = g (s.clusterAt c) := by
  change g (tget (tput s.clusters cl (f (s.clusterAt cl))) Cluster.reset c) = _
  by_cases e : c = cl
  · rw [e, tget_tput_same, h]
  · rw [tget_tput_ne _ _ _ e]
    rfl
section
variable (s : State) (cl entry : Nat) (k : Seen)
theorem State.entryLearns_keeps {α : Type} (g : Cluster → α) (h : ∀ k l, g { k with lineage := l } = g k) (c : Nat) :
    g ((s.entryLearns cl entry k).clusterAt c) = g (s.clusterAt c) :=
  State.onCluster_keeps g (fun _ => h _ _) s cl c
/-- What handles know decides no route: the stubs that an entry meets, and the directories, stay. -/
theorem State.stubEnd_entryLearns (hid task c fuel : Nat) :
    (s.entryLearns cl entry k).stubEnd hid task c fuel = s.stubEnd hid task c fuel := by
  induction fuel generalizing c with
  | zero => rfl
  | succ n ih =>
    have stubs := s.entryLearns_keeps cl entry k (fun x => x.stubs) (fun _ _ => rfl) (clusterOf c)
    unfold State.stubEnd
    rw [stubs]
    simp only [ih]
    rfl
theorem State.lookup_entryLearns {src : Src} {task c : Nat}
    (h : tfind (s.clusterAt (clusterOf src.core)).dir (src.hid * 2 ^ 20 + task) = some c) :
    (s.entryLearns cl entry k).lookup src task = some c :=
  State.lookup_dir ((congrArg (fun d => tfind d _) (s.entryLearns_keeps cl entry k (fun x => x.dir) (fun _ _ => rfl) _)).trans h)
end
/-- `hsend` (R266). -/
theorem execHsendDepart_found {s : State} {id task c : Nat} {m : Msg} {e : Entry} {h : HVal}
    (hm : tfind s.bag id = some m) (hb : m.body = .hsend e task h) (drained : s.drained h.cluster 1024 h.entry = true) (first : ∀ p ∈ s.bag, p.1 < id → p.2.src ≠ m.src)
    (hc : tfind (s.clusterAt (clusterOf m.src.core)).dir (m.src.hid * 2 ^ 20 + task) = some c) (h10 : e.ctxTo ≤ 10)
    (near : clusterOf (s.stubEnd m.src.hid task c 4) = clusterOf m.src.core) :
    ∃ t, execHsendDepart id s = .next t ∧ (tfind t.bag id).map (fun m => m.dst) = some (.core c) := by
  have other : ∀ p ∈ s.bag, (decide (p.1 < id) && p.2.src == m.src) = false := by
    intro p hp
    by_cases hlt : p.1 < id
    · simp [beq_eq_false_iff_ne.2 (first p hp hlt)]
    · simp [hlt]
  simp only [execHsendDepart, hm, hb, drained, Bool.true_and]
  let u := s.entryLearns h.cluster h.entry (s.ancestorsKnow h.cluster 1024 h.entry)
  refine ⟨_, if_pos ?_, (State.departTo_found (s := u) (m' := m) hm ?_ h10).1⟩
  · rw [Bool.not_eq_true', List.any_eq_false]
    intro p hp
    simp [other p hp]
  · rw [if_pos rfl, State.nearCore, State.lookup_entryLearns _ _ _ _ hc]
    simp only [u, State.stubEnd_entryLearns, near, if_true]

/-! ### Stubs and routers -/

/-- A task that has moved is reached through its stub (R349). -/
theorem execStubForward_follows {s : State} {id task core c : Nat} {m : Msg} {e : Entry} (hm : tfind s.bag id = some m)
    (hb : m.body = .send e task) (hd : m.dst = .core core)
    (hs : tfind (s.clusterAt (clusterOf core)).stubs (m.src.hid * 2 ^ 20 + task) = some c) (h3 : m.stubs.length < 3) :
    execStubForward id s = .next ((s.onMsg id (fun m =>
      { m with stubs := m.stubs ++ [clusterOf core], dst := .core c, at_ := core, prev := none, delivered := false })).soon
        (.routerReceive id)) := by
  have body : (Body.send e task).task = some task := rfl
  simp only [execStubForward, hm, hd, hb, body, dirKey, hs, Bool.false_eq_true, if_false, if_neg (Nat.not_le.2 h3)]
theorem execStubCorrection_learns {s : State} {id task c cl : Nat} {m : Msg} (hm : tfind s.bag id = some m) (hd : m.dst = .cluster cl)
    (hb : m.body = .correct task c) : execStubCorrection id s = .next ((s.onCluster cl (fun k =>
      { k with dir := tput k.dir (m.src.hid * 2 ^ 20 + task) c })).dropMsg id) := by
  simp only [execStubCorrection, hm, hd, hb]
  rfl
theorem execReinject_alone {s : State} {id : Nat} {m : Msg} (hm : tfind s.bag id = some m)
    (alone : ∀ o ∈ s.bag, o.1 ≠ id → o.2.src ≠ m.src) :
    execReinject id s = .next ((s.onMsg id (fun m => { m with caught := false })).soon (.routerReceive id)) := by
  have ahead : s.bag.any (fun o => o.1 != id && o.2.src == m.src && o.2.dst == m.dst &&
      decide ((m.seq + 65536 - o.2.seq) % 65536 < 32768 ∧ o.2.seq ≠ m.seq) && !s.inPlace o.1 o.2) = false := by
    rw [List.any_eq_false]
    intro o ho
    by_cases hid : o.1 = id
    · simp [hid]
    · simp [beq_eq_false_iff_ne.2 (alone o ho hid)]
  simp only [execReinject, hm, ahead, Bool.false_eq_true, if_false]

section
variable {s : State} {id n : Nat} {m : Msg} (hm : tfind s.bag id = some m) (going : m.st = .going)
include hm going

section
variable (fen : s.fenHolds m.src.hid m.src.fen (clusterOf m.at_) = true) (hd : m.dst = .core n)
include fen hd
theorem execRouterReceive_here (h : m.at_ = n) : execRouterReceive id s = .next (s.atInterface n id m) := by
  subst h
  simp [execRouterReceive, hm, going, fen, Msg.target, hd]
theorem execRouterReceive_hop {c : Nat} {y : Bool} (h : m.at_ ≠ n) (hop : s.nextHop m n = some (c, y))
    (free : s.crossingBusy m.at_ c = false) : execRouterReceive id s = .next ((s.onMsg id (fun m => { m with at_ := c, detour := y })).soon (.routerReceive id)) := by
  simp [execRouterReceive, hm, going, fen, Msg.target, hd, h, hop, free]
theorem execRouterReceive_lost (h : m.at_ ≠ n) (hop : s.nextHop m n = none) :
    execRouterReceive id s = .next (s.armKill m.src.hid (s.gts + 4096) 256) := by
  simp [execRouterReceive, hm, going, fen, Msg.target, hd, h, hop, State.killNow]
end
theorem execRouterReceive_outside {a z v : Nat} (fen : s.fenHolds m.src.hid m.src.fen (clusterOf m.at_) = false)
    (hb : m.body = .store a z v) :
    execRouterReceive id s = .next ((s.onDie (dieOf m.at_) (fun d => { d with fenx := min 65535 (d.fenx + 1) })).refuseMsg id 6 a) := by
  simp [execRouterReceive, hm, going, fen, State.discard, hb, Body.addrs]
end

/-! ### The order guard -/

section
variable {s : State} {core id : Nat} {m : Msg}

/-- A delivery marks its message, and its source at the guard; the guard's list of held messages stays (R439). -/
theorem State.deliver_spec (hm : tfind s.bag id = some m) : ((s.deliver core id m).coreOf core).held = (s.coreOf core).held ∧
    (tfind (s.deliver core id m).bag id).map (fun m => m.delivered) = some true := by
  unfold State.deliver
  extract_lets a b
  have ha : (a.coreOf core).held = (s.coreOf core).held := by
    simp only [a, State.coreOf, State.cores_onMsg]
  have hb : (b.coreOf core).held = (s.coreOf core).held ∧ (tfind b.bag id).map (fun m => m.delivered) = some true := by
    have marked : (tfind a.bag id).map (fun m => m.delivered) = some true :=
      congrArg (Option.map (fun m : Msg => m.delivered)) (State.tfind_onMsg hm _)
    simp only [b]
    split
    · have kept := a.onCore_keeps CoreSt.held core (f := fun x => { x with last := tput x.last (lastKey m) m.seq }) (fun _ => rfl) core
      exact ⟨kept.trans ha, marked⟩
    · exact ⟨ha, marked⟩
  split
  · exact hb
  · exact hb
  · exact hb
/-- A message that the guard holds is delivered once it is in order (R439). -/
theorem execOrderRestoreDeliver_frees (hm : tfind s.bag id = some m) (held : (s.coreOf core).held = [id])
    (order : s.inOrder core m = true) : ∃ t, execOrderRestoreDeliver core s = .next t ∧ (t.coreOf core).held = [] ∧
      (tfind t.bag id).map (fun m => m.delivered) = some true := by
  let u := s.onCore core (fun x => { x with held := x.held.erase id })
  have freed : (u.coreOf core).held = [] := by
    simp [u, held]
  obtain ⟨kept, marked⟩ := State.deliver_spec (s := u) (core := core) hm
  have empty : ((u.deliver core id m).coreOf core).held.isEmpty = true := by
    rw [kept, freed]
    rfl
  refine ⟨u.deliver core id m, ?_, kept.trans freed, marked⟩
  have hm' : tfind (s.onCore core (fun x => { x with held := x.held.erase id })).bag id = some m := hm
  simp only [execOrderRestoreDeliver, held, List.find?_cons, hm, order, hm']
  rw [if_pos empty]
end

/-! ### Waits at their limit, and the box -/

theorem execInbxTLimit_ends {s : State} {core ctx v d lim : Nat} (hw : (s.ctxOf core ctx).wait = .inbxT v d lim) (hl : lim ≤ s.gts)
    (none : s.agenda.any Event.places = false) : execInbxTLimit core ctx s = .next (((s.onCtx core ctx (fun c =>
      { c with wait := c.wait.settle })).onCore core (fun x => { x with molRes := x.molRes - 1 })).doneAt (s.gts + 1) core ctx
        ([Act.write (.s d) 0, .unpend (.s d)] ++ endDest (.v v) ++ [.lower (s.ctxOf core ctx).ltkRef, .ready])) := by
  simp only [execInbxTLimit, hw, if_neg (Nat.not_lt.2 hl), none, Bool.false_eq_true, if_false]

section
variable {s : State} {core : Nat}

theorem execBoxMoveBack_box (hc : s.boxCount core ≠ 0) (h64 : (s.coreOf core).inbox.length < 64) (free : s.boxBusy core = false) :
    execBoxMoveBack core s = .next ((((s.boxRemove core 0).onCore core (fun x =>
      { x with inbox := x.inbox ++ [s.boxEntry core 0] })).next (.inboxServe core (s.boxEntry core 0).ctxTo)).refill core) := by
  simp [execBoxMoveBack, Nat.not_le.2 h64, free, hc]
theorem execBoxFetch_takes {ctx j : Nat}
    (hn : (s.coreOf core).inbox.find? (fun e => e.ctxTo == ctx && ((s.coreOf core).ctx ctx).wait.takes e) = none)
    (hj : s.boxFind core ctx ((s.coreOf core).ctx ctx).wait = some j) (free : s.boxBusy core = false) :
    execBoxFetch core ctx s =
      .next (((s.boxRemove core j).dequeued core ctx ((s.coreOf core).ctx ctx).lastPc (s.boxEntry core j)).refill core) := by
  simp only [execBoxFetch, hn, hj, free, Bool.false_eq_true, if_false]

/-- An entry that the inbox takes stands there in its place, and its context is served (R442). -/
theorem State.intoInbox_spec (s : State) (core : Nat) (e : Entry) (msg : Option Nat) :
    ((s.intoInbox core e msg).coreOf core).entries = ((s.coreOf core).inboxAdd e).entries ∧
      Event.inboxServe core e.ctxTo ∈ (s.intoInbox core e msg).agenda := by
  refine ⟨?_, List.mem_append_right _ (List.mem_singleton_self _)⟩
  have acked := congrFun ((s.onCore core (fun x => x.inboxAdd e)).entries_placedAck core msg) core
  refine acked.trans ?_
  rw [State.entries, State.coreOf_onCore]

/-- `ENTRY_PLACE` of an entry that the inbox takes (R442). -/
theorem execEntryPlace_inbox {id task : Nat} {m : Msg} {e : Entry} (hm : tfind s.bag id = some m) (hb : m.body = .send e task)
    (hd : m.dst = .core core) (behind : m.behind = []) (first : s.entryAhead core id m = false) (runs : s.runs core m.src.hid task = true)
    (h10 : e.ctxTo ≤ 10) (live : ((s.coreOf core).ctx e.ctxTo).live = true) (h64 : (s.coreOf core).inbox.length < 64)
    (input : (s.coreOf core).input = []) (box : s.boxCount core = 0) :
    execEntryPlace id s = .next (s.intoInbox core { e with placed := s.gts } (some id)) := by
  have free : s.heldBehind m = false := by
    rw [State.heldBehind, behind]
    rfl
  have arrive : s.arriveEntry core e (some id) = s.intoInbox core { e with placed := s.gts } (some id) := by
    simp [State.arriveEntry, State.inboxTakes, h64, box, input]
  have live' : (s.ctxOf core e.ctxTo).live = true := live
  simp only [execEntryPlace, hm, hd, free, first, hb, runs, live', Bool.or_false, Bool.false_eq_true, if_false, if_true, Bool.not_true,
    decide_eq_true_eq, Nat.not_lt.2 h10, arrive]
/-- `BOX_WRITE` of the entry at the head of the input (R442). -/
theorem execBoxWrite_stores {e : Entry} {g : Nat} {msg : Option Nat} {rest : List (Entry × Nat × Option Nat)} {u : State}
    (input : (s.coreOf core).input = (e, g, msg) :: rest) (full : 64 ≤ (s.coreOf core).inbox.length ∨ s.boxCount core ≠ 0)
    (room : s.boxCount core < 2047) (free : s.boxBusy core = false)
    (put : s.boxPut core (32 * s.boxSlot core (s.boxCount core)) 32 e.boxWord = some u) :
    ∃ t, execBoxWrite core s = .next t ∧ (t.coreOf core).input = rest := by
  have takes : s.inboxTakes core = false := by
    simp only [State.inboxTakes, Bool.and_eq_false_iff, decide_eq_false_iff_not, Nat.not_lt, beq_eq_false_iff_ne]
    exact full
  have store : s.boxStore core (s.boxSlot core (s.boxCount core)) e.boxWord e.know = some (u.onCore core (fun x =>
      { x with boxKnow := tput x.boxKnow (s.boxSlot core (s.boxCount core)) e.know })) := by
    rw [State.boxStore, put]
    rfl
  simp only [execBoxWrite, input, takes, free, Bool.false_eq_true, if_false, if_pos room, store]
  refine ⟨_, rfl, (congrArg Prod.snd (congrFun (State.entries_placedAck _ core msg) core)).trans ?_⟩
  split
  · exact congrArg CoreSt.input (State.coreOf_onCore _ core (fun x => { x with input := rest }))
  · exact congrArg CoreSt.input (State.coreOf_onCore _ core (fun x => { x with input := rest }))
/-- `BOX_MOVE_BACK` of the oldest entry at the input, where the box is empty (R442). -/
theorem execBoxMoveBack_input {e : Entry} {g : Nat} {msg : Option Nat} {rest : List (Entry × Nat × Option Nat)}
    (input : (s.coreOf core).input = (e, g, msg) :: rest) (h0 : s.boxCount core = 0) (h64 : (s.coreOf core).inbox.length < 64) :
    ∃ t, execBoxMoveBack core s = .next t ∧ (t.coreOf core).input = rest := by
  simp only [execBoxMoveBack, if_neg (Nat.not_le.2 h64), h0, input, bne_self_eq_false, Bool.false_and, Bool.false_eq_true, if_false]
  refine ⟨_, rfl, (congrArg Prod.snd (congrFun (State.entries_refill _ core) core)).trans ?_⟩
  refine (congrArg Prod.snd (State.intoInbox_spec _ core _ msg).1).trans ?_
  rw [State.coreOf_setCore]
  rfl
/-- `STALL_TIMEOUT` withdraws the sends that have waited too long, and no other entry (R443). -/
theorem execStallTimeout_withdraws (limit : (s.queue (s.queueOfCore core)).stallt ≠ 0) :
    let cyc := (s.queue (s.queueOfCore core)).stallt
    ∃ t, execStallTimeout core s = .next t ∧
      (t.coreOf core).input =
        (s.coreOf core).input.filter (fun p => !(p.1.kind == 1 && (s.stallable p && decide (p.2.1 + cyc ≤ s.gts)))) := by
  intro cyc
  simp only [execStallTimeout, if_neg limit]
  refine ⟨_, rfl, (congrArg Prod.snd (congrFun (foldl_keeps State.entries (fun u p => ?_) _ _) core)).trans ?_⟩
  · split
    · rfl
    split
    · rfl
    split
    · exact u.entries_refuseMsg _ _ _
    · exact (State.entries_lateReport _ _ _ _).trans (State.entries_of_cores (State.cores_onMsg _ _ _))
  · exact congrArg CoreSt.input (State.coreOf_onCore _ core _)
end

/-- Settles O40: each clause is the rule of its event above. -/
theorem entryAndRouterEvents : Obligations.EntryAndRouterEvents := by
  intro s id core ctx x dirOf
  refine ⟨fun m e task hm hb => ⟨?depart, ?waits, ?place, ?stub⟩, ?hsend, ?correct, fun m hm => ⟨?reinject, ?router, ?outside, ?guard⟩,
    ?limit, fun e g msg rest input => ⟨?write, ?move⟩, ?box, ?fetch, ?stall⟩
  case depart => exact fun c head hc h10 => execMsendDepart_found hm hb head (State.lookup_dir hc) h10
  case waits => exact execMsendDepart_waits hm hb
  case place =>
    intro hd behind first runs h10 live h64 input box
    obtain ⟨entries, serve⟩ := s.intoInbox_spec core { e with placed := s.gts } (some id)
    exact ⟨_, execEntryPlace_inbox hm hb hd behind first runs h10 live h64 input box, congrArg Prod.fst entries, serve⟩
  case stub => exact fun c hd hs h3 => execStubForward_follows hm hb hd hs h3
  case hsend => exact fun m e task h c hm hb drained first hc h10 near => execHsendDepart_found hm hb drained first hc h10 near
  case correct => exact fun m task c cl hm hd hb => execStubCorrection_learns hm hd hb
  case reinject => exact execReinject_alone hm
  case router =>
    exact fun going fen n hd => ⟨execRouterReceive_here hm going fen hd,
      fun c y h hop free => execRouterReceive_hop hm going fen hd h hop free, execRouterReceive_lost hm going fen hd⟩
  case outside => exact fun going fen a z v hb => execRouterReceive_outside hm going fen hb
  case guard => exact execOrderRestoreDeliver_frees hm
  case limit => exact fun v d lim hw hl idle => execInbxTLimit_ends hw hl idle
  case write => exact fun u full room free put => execBoxWrite_stores input full room free put
  case move => exact execBoxMoveBack_input input
  case box => exact execBoxMoveBack_box
  case fetch => exact fun j hn hj free => execBoxFetch_takes hn hj free
  case stall => exact execStallTimeout_withdraws

end Sys2Proof.Machine
end

section
/-! ## An add behind a cycle that was stepped over
A scrub's last cycle may be the one that an added count steps over (R248, R366); O41. -/
namespace Sys2Proof.Machine

/-- A `cadd` of form 0 by core 1 to group 2, which has arrived. -/
def arrivedAdd : CReq :=
  { arrive := 3, core := 1, ctx := 0, op := 0, row := 2, seg := 0, lanes := [], tile := none, form := 0, d := 0, sel := 0, msg := 0,
    tok := some (.k 2), pc := 0, no := 4 }
/-- Cluster 0 in cycle 5, which follows cycle 3: a count was added to GTS (R366) and stepped over 4, the last cycle of the scrub of
group 2; the scrub has ended in this cycle. -/
def scrubStepped : State :=
  { State.reset with
    gts := 5, porch := { Porch.reset with skipped := some 4 },
    clusters := [(0, { Cluster.reset with
      groups := [(2, { CGroup.reset with st := .idle, n := 32, per := 1, until_ := 4 })], addQ := [arrivedAdd] })] }
/-- This cycle is the scrub's last and still holds the group: the add is not ready (R248). -/
theorem scrubStepped_addReady : scrubStepped.addReady 0 arrivedAdd = false := by decide
/-- The add path applies nothing. -/
theorem execCisternAddPath_scrubStepped : execCisternAddPath 0 scrubStepped = .next scrubStepped := by
  have none : (scrubStepped.clusterAt 0).addQ.find? (scrubStepped.addReady 0) = none := by
    change [arrivedAdd].find? (scrubStepped.addReady 0) = none
    rw [List.find?_cons, scrubStepped_addReady, List.find?_nil]
  rw [execCisternAddPath, none]

/-- Refutes O41: the clause on the add path has an add applied in every cycle whose GTS is not the scrub's last; where an added count
steps over that value (R366), the scrub's last cycle is the one behind it, and the add waits there. -/
theorem not_unitEvents : ¬ Obligations.UnitEvents := by
  intro h
  obtain ⟨-, -, -, add, -⟩ := h scrubStepped 0 0 0 0 2 0
  obtain ⟨t, ht, -, queue⟩ := add arrivedAdd rfl rfl rfl (by decide) rfl rfl (by decide) rfl (by decide)
  obtain rfl := Host.Outcome.next.inj (execCisternAddPath_scrubStepped.symm.trans ht)
  exact absurd queue (List.cons_ne_nil arrivedAdd [])

end Sys2Proof.Machine
end

section
/-! ## Streamer operations
Acceptance, steps, completion, stage commits and collectives (R175, R278 to R299); O42. -/
namespace Sys2Proof.Machine

/-! ### Acceptance -/

/-- The operation that a command makes (R278, R282). -/
def State.commandOp (s : State) (m : Msg) (kind : SKind) (b : Block) (idx : Table Nat) : SOp :=
  { src := m.src, seq := m.seq, pc := m.pc, tok := m.tok, kind := kind, blk := b, idx := idx,
    owner := s.ownerOf m.src.hid (b.rowVa 0 idx kind), wm := 0, done := 0, read := [], sent := [], bytes := 0, status := 0, badVa := 0,
    issued := m.gts, know := m.know, behind := m.behind }
/-- A command of a Fen that its household holds enters its owner's queue (R282); a `scol` joins its collective instead. -/
theorem execStreamerAccept_queues {s : State} {n : Nat} {m : Msg} {kind : SKind} {b : Block} {idx : Table Nat}
    (hm : tfind s.bag n = some m) (hb : m.body = .command kind b idx) (new : tfind s.ops n = none) (plain : b.det = false)
    (fen : (s.fenIndex m.src.hid m.src.fen).isSome = true) (hk : kind ≠ .col) :
    let u := s.onMsg n (fun m => { m with delivered := true })
    execStreamerAccept n s = .next ((u.setOp n (u.commandOp m kind b idx)).soon (.streamerStep n)) := by
  intro u
  have held : (u.fenIndex m.src.hid m.src.fen).isNone = false := by
    simp only [u, State.onMsg_eq hm]
    exact Option.isNone_eq_false_iff.2 fen
  simp only [u] at held
  simp only [execStreamerAccept, hm, hb, new, plain, held, hk, Option.isSome_none, Bool.false_eq_true, if_false]
  rfl

/-! ### Steps -/

/-- The next step of operation n is taken at element e: nothing holds the operation, and e, chosen among those that are open,
awaits no acknowledgement (R287, R398). -/
structure State.StepsAt (s : State) (n : Nat) (op : SOp) (e : Nat) : Prop where
  found : tfind s.ops n = some op
  going : op.status = 0
  single : op.kind ≠ .col
  free : s.opBehind op = false
  chosen : op.open_[(s.choose op.open_.length).1]? = some e
  unsent : op.sent.contains e = false

section
variable {s : State} {n e : Nat} {op : SOp} (h : s.StepsAt n op e)
include h

theorem State.StepsAt.running : (decide (op.status ≠ 0) || op.kind == .col) = false := by
  rw [h.going, beq_eq_false_iff_ne.2 h.single]
  rfl
/-- An entry of a `sgat`'s index table is read (R290). -/
theorem execStreamerStep_table (entry : op.needsEntry (e / op.rowSteps) = true)
    (ready : s.readWaits op.src.core (op.blk.aux + 4 * (e / op.rowSteps)) 4 = false) :
    let r := (s.choose op.open_.length).2.tableEntry op.know op.src.core op.blk (e / op.rowSteps)
    execStreamerStep n s =
      .next ((r.2.2.setOp n { op with idx := tput op.idx (e / op.rowSteps) r.1, know := r.2.1 }).soon (.streamerStep n)) := by
  have ready' : (s.choose op.open_.length).2.readWaits op.src.core (op.blk.aux + 4 * (e / op.rowSteps)) 4 = false := ready
  simp only [execStreamerStep, h.found, h.running, h.free, h.chosen, h.unsent, entry, ready', Bool.false_eq_true, if_false, if_true]
/-- Read steps that are taken stand in the operation. -/
theorem execStreamerStep_reads (known : op.needsEntry (e / op.rowSteps) = false) {x : Nat} {xs : List Nat}
    (reads : op.readsNow e = x :: xs) {t : State} {v : Nat} {know : Seen} (step : (s.choose op.open_.length).2.stepRead op
    (x :: xs) = .ok t v know) :
    execStreamerStep n s = .next ((t.setOp n (op.took (x :: xs) v know)).soon (.streamerStep n)) := by
  simp only [execStreamerStep, h.found, h.running, h.free, h.chosen, h.unsent, known, reads, step, Bool.false_eq_true, if_false]
/-- Write steps that are taken make the operation go on, or end. -/
theorem execStreamerStep_writes (known : op.needsEntry (e / op.rowSteps) = false) (reads : op.readsNow e = [])
    {t : State} {v : Nat} {know : Seen} (step : (s.choose op.open_.length).2.stepWrite op (op.writesNow e) = .ok t v know) :
    execStreamerStep n s = .next (t.opOn n (t.wroteAll op (op.writesNow e) know)) := by
  simp only [execStreamerStep, h.found, h.running, h.free, h.chosen, h.unsent, known, reads, step, Bool.false_eq_true, if_false]
end

/-- Only a `sgat` has an index table (R290). -/
theorem SOp.needsEntry_of_ne {op : SOp} (h : op.kind ≠ .gat) (row : Nat) : op.needsEntry row = false := by
  rw [SOp.needsEntry, beq_eq_false_iff_ne.2 h, Bool.false_and]

/-! #### The local side -/

section
variable {s : State} {op : SOp} {core a : Nat} (accepts : s.localRefuses op (.ls core a) = 0)
include accepts

theorem State.readLocal_ls (ready : s.readWaits core a 8 = false) :
    let r := s.readStep op.know (Loc.ls core) (s.byteLs core) a 8
    s.readLocal op (.ls core a) = .ok r.2.2 r.1 r.2.1 := by
  simp [State.readLocal, accepts, ready]
theorem State.writeLocal_ls (free : (s.coreOf core).lineBusy a none = false) (val : Nat) :
    let r := s.noteWrite false op.know (Loc.ls core) (s.byteLs core) a 8 val
    s.writeLocal op (.ls core a) val = .ok (r.2.onCore core (fun x => x.putLs a 8 val)) 0 r.1 := by
  simp [State.writeLocal, accepts, free]
end

theorem State.cores_noteWrite (s : State) (all : Bool) (know : Seen) (loc : Nat → Loc) (byte : Nat → Nat) (a n val : Nat) :
    (s.noteWrite all know loc byte a n val).2.cores = s.cores := by
  obtain ⟨G, e⟩ := s.noteWrite_state all know loc byte a n val
  rw [e]
  rfl
theorem State.cores_endOp (s : State) (n : Nat) (op : SOp) : (s.endOp n op).cores = s.cores := by
  unfold State.endOp
  dsimp only
  split
  · rfl
  split <;> rfl
/-- That an operation goes on, or ends, changes no core. -/
theorem State.cores_opOn (s : State) (n : Nat) (op : SOp) : (s.opOn n op).cores = s.cores := by
  unfold State.opOn
  split
  · rfl
  · exact s.cores_endOp n op

section
variable {s : State} {n e core a : Nat} {op : SOp} (h : s.StepsAt n op e)
include h

/-- A `sput` reads an element of the local side (R289). -/
theorem execStreamerStep_put {x : Nat} (hk : op.kind = .put) (reads : op.readsNow e = [x]) (hx : op.localAt x = .ls core a)
    (accepts : s.localRefuses op (.ls core a) = 0) (ready : s.readWaits core a 8 = false) :
    let r := (s.choose op.open_.length).2.readStep op.know (Loc.ls core) (s.byteLs core) a 8
    execStreamerStep n s = .next ((r.2.2.setOp n (op.took [x] r.1 r.2.1)).soon (.streamerStep n)) := by
  refine execStreamerStep_reads h (SOp.needsEntry_of_ne (by rw [hk]; decide) _) reads ?_
  simp only [State.stepRead, hk, List.headD_cons, hx]
  exact State.readLocal_ls (s := (s.choose op.open_.length).2) accepts ready
/-- A `sget` writes an element to the local side (R288). -/
theorem execStreamerStep_get {v : Nat} (hk : op.kind = .get) (he : op.localAt e = .ls core a)
    (accepts : s.localRefuses op (.ls core a) = 0) (free : (s.coreOf core).lineBusy a none = false) (read : tfind op.read e = some v) :
    ∃ t, execStreamerStep n s = .next t ∧ (t.coreOf core).ls = (s.coreOf core).ls.writeN a 8 v := by
  have toLocal : op.writesMem = false := by
    simp [SOp.writesMem, hk]
  have reads : op.readsNow e = [] := by
    simp [SOp.readsNow, toLocal, SOp.hasRead, read]
  have writes : op.writesNow e = [e] := by
    simp [SOp.writesNow, toLocal]
  have val : tget op.read 0 e = v := by
    rw [tget, read]
    rfl
  let u := (s.choose op.open_.length).2
  let r := u.noteWrite false op.know (Loc.ls core) (u.byteLs core) a 8 v
  let w := r.2.onCore core (fun x => x.putLs a 8 v)
  have step : u.stepWrite op (op.writesNow e) = .ok w 0 r.1 := by
    simp only [State.stepWrite, hk, writes, List.headD_cons, val, he]
    exact State.writeLocal_ls (s := u) accepts free v
  refine ⟨_, execStreamerStep_writes h (SOp.needsEntry_of_ne (by rw [hk]; decide) _) reads step, ?_⟩
  have kept : r.2.coreOf core = s.coreOf core := by
    simp only [r, State.coreOf, State.cores_noteWrite]
    rfl
  have stored : w.coreOf core = (s.coreOf core).putLs a 8 v := by
    simp only [w, State.coreOf_onCore, kept]
  rw [State.coreOf, State.cores_opOn]
  exact congrArg CoreSt.ls stored
end

/-! ### Completion and the commit of a stage -/

/-- What a completion finds: its operation gone, and logged where the core still runs the task (R468). -/
def State.opLogged (s : State) (n : Nat) (op : SOp) : State :=
  let u : State := { s with ops := tdel s.ops n }
  if (s.coreOf op.src.core).hid = some op.src.hid ∧ ((s.coreOf op.src.core).ctx 0).task = op.src.task then
    u.molEntry op.src.core op.src.ctx 4 10 op.seq op.pc op.owner op.bytes s.gts
  else u
/-- A log entry ends no context. -/
theorem State.stillThere_opLogged (s : State) (n : Nat) (op : SOp) : (s.opLogged n op).stillThere op.src = s.stillThere op.src := by
  unfold State.opLogged
  extract_lets u
  split
  · exact u.keeps_molEntry (fun _ x => (x.ctx op.src.ctx).live && (x.ctx op.src.ctx).born == op.src.born && x.hid == some op.src.hid)
      (fun _ _ _ _ _ => rfl) _ _ _ _ _ _ _ _ _ op.src.core
  · rfl

section
variable {s : State} {n : Nat} {op : SOp} (hop : tfind s.ops n = some op)
include hop

/-- `STREAMER_COMPLETE` (R281, R282): a context that is still there gets its report and what MODE gives, the queue of one that has
retired a record. -/
theorem execStreamerComplete_eq : execStreamerComplete n s =
    let u := s.opLogged n op
    let q := (s.household op.src.hid).queue
    if s.stillThere op.src then
      let w := if op.status = 0 then u else u.lateReport op.src.core op.src.ctx op.report
      if op.blk.mode ≤ 1 then .next (w.arriveEntry op.src.core (op.entry w.gts) (some n)) else .next (w.ackNow n)
    else if op.status = 0 then .next (u.record q 1 (op.notice u.gts) none)
    else .next (u.record q 2 (lateRecord 1 op.src.field op.report) none) := by
  have logged : (if ((s.coreOf op.src.core).hid == some op.src.hid && ((s.coreOf op.src.core).ctx 0).task == op.src.task) = true then
      State.molEntry { s with ops := tdel s.ops n } op.src.core op.src.ctx 4 10 op.seq op.pc op.owner op.bytes s.gts
    else { s with ops := tdel s.ops n }) = s.opLogged n op := by
    simp only [State.opLogged, Bool.and_eq_true, beq_iff_eq]
  dsimp only
  rw [← s.stillThere_opLogged n op, ← logged]
  simp only [execStreamerComplete, hop]
  rfl
section
variable (there : s.stillThere op.src = true) (ok : op.status = 0)
include there ok
/-- MODE 0 and 1 place an entry (R283, R284). -/
theorem execStreamerComplete_places (mode : op.blk.mode ≤ 1) : execStreamerComplete n s =
    .next ((s.opLogged n op).arriveEntry op.src.core (op.entry (s.opLogged n op).gts) (some n)) := by
  simp only [execStreamerComplete_eq hop, there, ok, mode, if_true]
/-- MODE 2, whose stage has been committed (R297). -/
theorem execStreamerComplete_acknowledges (mode : op.blk.mode = 2) : execStreamerComplete n s = .next ((s.opLogged n op).ackNow n) := by
  simp only [execStreamerComplete_eq hop, there, ok, mode, Nat.reduceLeDiff, if_true, if_false]
end
section
variable (gone : s.stillThere op.src = false)
include gone
/-- The detached notice (R355). -/
theorem execStreamerComplete_notice (ok : op.status = 0) : execStreamerComplete n s =
    .next ((s.opLogged n op).record (s.household op.src.hid).queue 1 (op.notice (s.opLogged n op).gts) none) := by
  simp only [execStreamerComplete_eq hop, gone, ok, Bool.false_eq_true, if_true, if_false]
/-- A refusal that no context is left to take becomes a fault record (R386). -/
theorem execStreamerComplete_fault (refused : op.status ≠ 0) : execStreamerComplete n s =
    .next ((s.opLogged n op).record (s.household op.src.hid).queue 2 (lateRecord 1 op.src.field op.report) none) := by
  simp only [execStreamerComplete_eq hop, gone, refused, Bool.false_eq_true, if_false]
end
/-- `PANTRY_COMMIT` of a stage that is Reserved, at an address of a local store (R297). -/
theorem execPantryCommit_commits {home a : Nat} {u : State} (at_ : panHome op.src.core op.blk.aux = some (home, a))
    (runs : s.hasTask home op.src.hid = true) (own : op.blk.loc < 0x60000) (free : (s.coreOf home).lineBusy a none = false)
    (commit : s.commitStage op.know home a op.blk.loc = (u, true)) :
    execPantryCommit n s = .next ((u.setOp n op).next (.streamerComplete n)) := by
  simp only [execPantryCommit, hop, at_, classify_own own, runs, commit, free, Bool.false_eq_true, if_false, if_true]
end

/-! ### Collectives -/

section
variable {s : State} {hid colid : Nat} {c : Coll} (hc : s.findColl hid colid = some c) (full : c.count ≤ c.ops.length)
  (free : c.ops.any (fun p => ((tfind s.ops p.2).map s.opBehind).getD false) = false)
include hc full free

/-- The next elements of a contribution are read and stored (R292). -/
theorem execCollectiveRun_reads {i : Nat} {op : SOp} {u : State} {v : Nat} {know : Seen} (more : c.pos < c.nIn)
    (hop : s.collOp c (c.pos / c.part) = some (i, op)) :
    let qs := c.burst (c.pos / c.part) (c.pos % c.part)
    s.collIn c (c.pos / c.part) qs op = .ok u v know →
      execCollectiveRun hid colid s = .next (((u.setOp i { op with know := know }).putColl
        { c with pos := c.pos + qs.length, data := c.data ++ (List.range qs.length).map (eightOf v) }).soon (.collectiveRun hid colid)) := by
  intro qs read
  simp only [qs] at read
  simp only [execCollectiveRun, hc, if_neg (Nat.not_lt.2 full), free, if_pos more, hop, read, Bool.false_eq_true, if_false, qs]
/-- A collective ends once every result is written (R292). -/
theorem execCollectiveRun_ends (last : c.nIn + c.count * c.nOut ≤ c.pos) :
    execCollectiveRun hid colid s = .next (s.endColl c 0 0) := by
  have read : ¬ c.pos < c.nIn := by omega
  have written : c.count * c.nOut ≤ c.pos - c.nIn := by omega
  simp only [execCollectiveRun, hc, if_neg (Nat.not_lt.2 full), free, if_neg read, if_pos written, Bool.false_eq_true, if_false]
end

/-- Settles O42: each clause is the rule of its event above. -/
theorem streamerEvents : Obligations.StreamerEvents := by
  intro s n hid colid
  refine ⟨?accept, fun op hop => ⟨?steps, ?completes, ?commits⟩, fun c hc full free => ⟨?reads, ?ends⟩⟩
  case accept =>
    intro m kind b idx hm hb new plain fen hk
    refine ⟨_, _, execStreamerAccept_queues hm hb new plain fen hk, tfind_tput_same _ _ _, rfl, rfl, rfl, rfl, rfl, rfl,
      rfl, rfl, rfl, ?_⟩
    exact State.mem_due_soon _ _
  case steps =>
    intro e going single free chosen unsent
    have h : s.StepsAt n op e := ⟨hop, going, single, free, chosen, unsent⟩
    refine ⟨execStreamerStep_table h, ?_, fun core a v hk he accepts free read => execStreamerStep_get h hk he accepts free read⟩
    intro x core a hk reads hx accepts ready
    exact ⟨_, execStreamerStep_put h hk reads hx accepts ready, tfind_tput_same _ _ _⟩
  case completes =>
    exact ⟨fun there ok => ⟨execStreamerComplete_places hop there ok, execStreamerComplete_acknowledges hop there ok⟩,
      fun gone => ⟨execStreamerComplete_notice hop gone, execStreamerComplete_fault hop gone⟩⟩
  case commits => exact fun home a u at_ runs own free commit => execPantryCommit_commits hop at_ runs own free commit
  case reads => exact fun i op u v know more hop => execCollectiveRun_reads hc full free more hop
  case ends => exact execCollectiveRun_ends hc full free

end Sys2Proof.Machine
end
section
/-! ## Lanes as bit vectors
The lane operations of the vector words, on lanes of 32 bits (R202 to R205, R210). -/
namespace Sys2Proof.Machine

/-! ### Lanes read as numbers -/

/-- A signed element of at most 64 bits is its low bits read as a signed number (R94). -/
theorem readInt_signed_lane {w : Nat} (hw : 0 < w) (hle : w ≤ 64) (x : BitVec 32) :
    readInt true w x.toNat = (x.setWidth w).toInt := by
  have wide : (x.setWidth 64).toNat = x.toNat := BitVec.toNat_setWidth_of_le (by decide)
  rw [← wide, readInt_signed hw, BitVec.setWidth_setWidth_of_le x hle]
/-- A type code is `.f32` or `.i32` as its field is (R82). -/
theorem toNat_eq_f32_iff {t : BitVec 4} : t.toNat = 8 ↔ (t == 8) = true := by
  rw [beq_iff_eq, ← BitVec.toNat_inj]; rfl
theorem toNat_beq_i32 (t : BitVec 4) : (t.toNat == 2) = (t == 2) := by
  rw [Bool.eq_iff_iff, beq_iff_eq, beq_iff_eq, ← BitVec.toNat_inj]; rfl
/-- A lane is a signed number under `.i32` and an unsigned one under every other code (R202). -/
theorem laneInt_toNat (t : BitVec 4) (x : BitVec 32) : laneInt t.toNat x.toNat = if t == 2 then x.toInt else x.toNat := by
  rw [laneInt, toNat_beq_i32]
  split
  case isTrue h => rw [h, readInt_signed_lane (by decide) (by decide), BitVec.setWidth_eq]
  case isFalse h => rw [Bool.eq_false_iff.2 h, readInt, Bool.false_and, if_neg Bool.false_ne_true, Nat.mod_eq_of_lt x.isLt]
/-- The order of two lanes under an integer type (R202). -/
def laneLess (t : BitVec 4) (x y : BitVec 32) : Bool := if t == 2 then x.slt y else x.ult y
theorem laneInt_lt_iff (t : BitVec 4) (x y : BitVec 32) :
    laneInt t.toNat x.toNat < laneInt t.toNat y.toNat ↔ laneLess t x y = true := by
  rw [laneInt_toNat, laneInt_toNat, laneLess]
  split
  · exact BitVec.slt_iff_toInt_lt.symm
  · rw [Int.ofNat_lt, BitVec.ult_iff_toNat_lt]
/-- The latency by the type code (R101). -/
theorem vLat_toNat (t : BitVec 4) (int fp : Nat) : vLat t.toNat int fp = if t == 8 then fp else int := by
  simp only [vLat, toNat_eq_f32_iff]

/-! ### Integer and floating lanes -/

section
variable (t : BitVec 4) (gen : Val) (x y z : BitVec 32)

theorem lAdd_lane : BitVec.ofNat 32 (lAdd t.toNat gen x.toNat y.toNat z.toNat) =
    if t == 8 then BitVec.ofNat 32 (fAdd .f32 gen x.toNat y.toNat) else x + y := by
  simp only [lAdd, toNat_eq_f32_iff]
  split
  · rfl
  · rw [← BitVec.toNat_add, BitVec.ofNat_toNat, BitVec.setWidth_eq]
theorem lSub_lane : BitVec.ofNat 32 (lSub t.toNat gen x.toNat y.toNat z.toNat) =
    if t == 8 then BitVec.ofNat 32 (fSub .f32 gen x.toNat y.toNat) else x - y := by
  simp only [lSub, toNat_eq_f32_iff]
  split
  · rfl
  · apply BitVec.eq_of_toNat_eq
    rw [BitVec.toNat_sub, BitVec.toNat_ofNat, Nat.mod_mod]
    congr 1
    omega
theorem lMul_lane : BitVec.ofNat 32 (lMul t.toNat gen x.toNat y.toNat z.toNat) =
    if t == 8 then BitVec.ofNat 32 (fMul .f32 gen x.toNat y.toNat) else x * y := by
  simp only [lMul, toNat_eq_f32_iff]
  split
  · rfl
  · rw [← BitVec.toNat_mul, BitVec.ofNat_toNat, BitVec.setWidth_eq]
theorem lAnd_lane : BitVec.ofNat 32 (lAnd t.toNat gen x.toNat y.toNat z.toNat) = x &&& y := by
  rw [lAnd, ← BitVec.toNat_and, BitVec.ofNat_toNat, BitVec.setWidth_eq]
theorem lOr_lane : BitVec.ofNat 32 (lOr t.toNat gen x.toNat y.toNat z.toNat) = x ||| y := by
  rw [lOr, ← BitVec.toNat_or, BitVec.ofNat_toNat, BitVec.setWidth_eq]
theorem lXor_lane : BitVec.ofNat 32 (lXor t.toNat gen x.toNat y.toNat z.toNat) = x ^^^ y := by
  rw [lXor, ← BitVec.toNat_xor, BitVec.ofNat_toNat, BitVec.setWidth_eq]
theorem lShl_lane : BitVec.ofNat 32 (lShl t.toNat gen x.toNat y.toNat z.toNat) = x <<< (y.toNat % 32) := by
  rw [lShl, ← Nat.shiftLeft_eq, ← BitVec.toNat_shiftLeft, BitVec.ofNat_toNat, BitVec.setWidth_eq]
/-- A shift to the right carries the sign in under `.i32` (R202). -/
theorem lShr_lane : BitVec.ofNat 32 (lShr t.toNat gen x.toNat y.toNat z.toNat) =
    if t == 2 then x.sshiftRight (y.toNat % 32) else x >>> (y.toNat % 32) := by
  rw [lShr, wrapInt_eq, BitVec.ofNat_toNat, BitVec.setWidth_eq, Int.fdiv_eq_ediv_of_nonneg _ (Int.natCast_nonneg _),
    ← Int.shiftRight_eq_div_pow, laneInt_toNat]
  split
  · exact BitVec.sshiftRight_eq.symm
  · rw [← Int.natCast_shiftRight, BitVec.ofInt_natCast, ← BitVec.toNat_ushiftRight, BitVec.ofNat_toNat, BitVec.setWidth_eq]
theorem lAbs_lane : BitVec.ofNat 32 (lAbs t.toNat gen x.toNat) =
    if t == 8 then BitVec.ofNat 32 (fAbs .f32 x.toNat) else if x.slt 0 then -x else x := by
  simp only [lAbs, toNat_eq_f32_iff]
  split
  · rfl
  · rw [wrapInt_eq, BitVec.ofNat_toNat, BitVec.setWidth_eq, readInt_signed_lane (by decide) (by decide), BitVec.setWidth_eq]
    by_cases neg : x.toInt < 0
    · rw [if_pos (BitVec.slt_iff_toInt_lt.2 neg), Int.ofNat_natAbs_of_nonpos (Int.le_of_lt neg), BitVec.ofInt_neg, BitVec.ofInt_toInt]
    · rw [if_neg (mt BitVec.slt_iff_toInt_lt.1 neg), Int.natAbs_of_nonneg (Int.not_lt.1 neg), BitVec.ofInt_toInt]
theorem lNeg_lane : BitVec.ofNat 32 (lNeg t.toNat gen x.toNat) =
    if t == 8 then BitVec.ofNat 32 (fNeg .f32 x.toNat) else -x := by
  simp only [lNeg, toNat_eq_f32_iff]
  split
  · rfl
  · rw [← BitVec.toNat_neg, BitVec.ofNat_toNat, BitVec.setWidth_eq]
end

/-! ### The lesser and the greater of two lanes -/

/-- An FP32 result fits into a lane (R183, R190). -/
theorem pack_f32_lt (v : Val) : pack .f32 v < 2 ^ 32 := by
  have sign (b : Bool) : signBits .f32 b ≤ 2 ^ 31 := by cases b <;> decide
  cases v with
  | nan b p =>
    have fields : 2 ^ 31 + (2 ^ 8 - 1) <<< 23 + 2 ^ 22 + p % 2 ^ 22 < 2 ^ 32 := by omega
    exact Nat.lt_of_le_of_lt (Nat.add_le_add_right (Nat.add_le_add_right (Nat.add_le_add_right (sign b) _) _) _) fields
  | inf b => exact Nat.lt_of_le_of_lt (Nat.add_le_add_right (sign b) _) (by decide)
  | fin b m e =>
    simp only [pack, roundFin]
    split
    · exact Nat.lt_of_le_of_lt (sign b) (by decide)
    · rw [if_neg (by decide)]
      exact Nat.lt_of_le_of_lt (Nat.add_le_add (sign b) (Nat.min_le_right _ _)) (by decide)

/-- The lesser and the greater of two lanes (R204). -/
def laneMin (t : BitVec 4) (gen : Val) (x y : BitVec 32) : BitVec 32 :=
  if t == 8 then BitVec.ofNat 32 (fMin .f32 gen x.toNat y.toNat) else if laneLess t y x then y else x
def laneMax (t : BitVec 4) (gen : Val) (x y : BitVec 32) : BitVec 32 :=
  if t == 8 then BitVec.ofNat 32 (fMax .f32 gen x.toNat y.toNat) else if laneLess t x y then y else x

section
variable (t : BitVec 4) (gen : Val) (x y z : BitVec 32) (n : Nat)

theorem lMin_eq : lMin t.toNat gen x.toNat y.toNat n = (laneMin t gen x y).toNat := by
  simp only [lMin, laneMin, toNat_eq_f32_iff, laneInt_lt_iff]
  split
  · exact (Nat.mod_eq_of_lt (pack_f32_lt _)).symm
  · exact (apply_ite BitVec.toNat _ _ _).symm
theorem lMax_eq : lMax t.toNat gen x.toNat y.toNat n = (laneMax t gen x y).toNat := by
  simp only [lMax, laneMax, toNat_eq_f32_iff, laneInt_lt_iff]
  split
  · exact (Nat.mod_eq_of_lt (pack_f32_lt _)).symm
  · exact (apply_ite BitVec.toNat _ _ _).symm
theorem lMin_lane : BitVec.ofNat 32 (lMin t.toNat gen x.toNat y.toNat n) = laneMin t gen x y := by
  rw [lMin_eq, BitVec.ofNat_toNat, BitVec.setWidth_eq]
theorem lMax_lane : BitVec.ofNat 32 (lMax t.toNat gen x.toNat y.toNat n) = laneMax t gen x y := by
  rw [lMax_eq, BitVec.ofNat_toNat, BitVec.setWidth_eq]
theorem lClamp_lane : BitVec.ofNat 32 (lClamp t.toNat gen x.toNat y.toNat z.toNat) = laneMin t gen (laneMax t gen z x) y := by
  rw [lClamp, lMax_eq, lMin_lane]
end

/-! ### The dot product -/

/-- Byte j of a lane as a signed number (R210). -/
theorem readInt_byte (x : BitVec 32) (j : Nat) : readInt true 8 (x.toNat >>> (8 * j)) = (x.extractLsb' (8 * j) 8).toInt := by
  rw [← BitVec.toNat_ushiftRight, readInt_signed_lane (by decide) (by decide), BitVec.setWidth_ushiftRight_eq_extractLsb]
theorem lDot_lane (t : Nat) (gen : Val) (x y z : BitVec 32) : BitVec.ofNat 32 (lDot t gen x.toNat y.toNat z.toNat) =
    z + BitVec.ofInt 32 ((List.range 4).map (fun j =>
      (x.extractLsb' (8 * j) 8).toInt * (y.extractLsb' (8 * j) 8).toInt)).sum := by
  rw [lDot, wrapInt_eq, BitVec.ofNat_toNat, BitVec.setWidth_eq, BitVec.ofInt_add, BitVec.ofInt_natCast, BitVec.ofNat_toNat,
    BitVec.setWidth_eq, ← List.sum_eq_foldl]
  simp only [readInt_byte]

end Sys2Proof.Machine
end
section
/-! ## Governed vector words
The words that give each governed lane its operation and keep the others (R201), and O5 and O6. -/
namespace Sys2Proof.Machine

/-- A governed result whose lane operation is g on lanes (R201). -/
theorem lanesAre_governed {p : BitVec 32} {old : VReg} {f : Nat → Nat} {g : Nat → BitVec 32} (h : ∀ n, BitVec.ofNat 32 (f n) = g n) :
    lanesAre (governed p old f) (fun n => if p.getLsbD n then g n else vlane old n) := by
  intro n hn
  rw [vlane_governed p old f hn, h]

/-! ### Two sources -/

/-- What a two-source word and its scalar form do: the operation on a governed lane of vA, of the second source and of vD, whether
it uses d, and the latency (R201, R101). -/
def TwoSourceForm (s : State) (d a b : BitVec 6) (c : BitVec 5) (p : BitVec 3)
    (q : Instr × Option Instr × (BitVec 32 → BitVec 32 → BitVec 32 → BitVec 32) × Bool × Nat) : Prop :=
  let va := vlane (s.me.vReg a.toNat)
  let vb := vlane (s.me.vReg b.toNat)
  let vd := vlane (s.me.vReg d.toNat)
  let x := (s.me.sReg c.toNat).setWidth 32
  (AClear s q.1 (governedReads [.v a.toNat, .v b.toNat] p d q.2.2.2.1) [d.toNat, a.toNat, b.toNat] false →
    ∃ r, lanesAre r (fun i => if (s.me.pReg p.toNat).getLsbD i then q.2.2.1 (va i) (vb i) (vd i) else vd i) ∧
      exec q.1 s = .next ((s.markReads (governedReads [.v a.toNat, .v b.toNat] p d q.2.2.2.1)).fixedWrite (.v d.toNat) r
        q.2.2.2.2)) ∧
  (∀ i, q.2.1 = some i → AClear s i (governedReads [.v a.toNat, .s c.toNat] p d q.2.2.2.1) [d.toNat, a.toNat] false →
    ∃ r, lanesAre r (fun n => if (s.me.pReg p.toNat).getLsbD n then q.2.2.1 (va n) x (vd n) else vd n) ∧
      exec i s = .next ((s.markReads (governedReads [.v a.toNat, .s c.toNat] p d q.2.2.2.1)).fixedWrite (.v d.toNat) r
        q.2.2.2.2))

section
variable {s : State} {d a b : BitVec 6} {c : BitVec 5} {p : BitVec 3} {f : Nat → Val → Nat → Nat → Nat → Nat} {usesD : Bool}
  {t l lat : Nat} {g : BitVec 32 → BitVec 32 → BitVec 32 → BitVec 32} {i j : Instr}

/-- A word with two vector sources and no scalar form. -/
theorem TwoSourceForm.vectors (hi : exec i s = issueVV i f usesD t l d a b p s)
    (hf : ∀ x y z, BitVec.ofNat 32 (f t s.genF32 x.toNat y.toNat z.toNat) = g x y z) (hl : l = lat) :
    TwoSourceForm s d a b c p (i, none, g, usesD, lat) :=
  ⟨fun h => ⟨_, lanesAre_governed fun _ => hf _ _ _, by rw [hi, issueVV_next h, hl]; rfl⟩, nofun⟩
/-- A word with its scalar form, which takes the low 32 bits of the scalar in every lane. -/
theorem TwoSourceForm.withScalar (hi : exec i s = issueVV i f usesD t l d a b p s) (hj : exec j s = issueVS j f usesD t l d a c p s)
    (hf : ∀ x y z, BitVec.ofNat 32 (f t s.genF32 x.toNat y.toNat z.toNat) = g x y z) (hl : l = lat) :
    TwoSourceForm s d a b c p (i, some j, g, usesD, lat) := by
  refine ⟨(TwoSourceForm.vectors (c := c) hi hf hl).1, ?_⟩
  rintro _ ⟨rfl⟩ h
  exact ⟨_, lanesAre_governed fun _ => hf _ _ _, by rw [hj, issueVS_next h, hl]; rfl⟩
end

/-- Settles O5: each word has its form with its lane operation as one on bit vectors. -/
theorem vectorTwoSourceResults : Obligations.VectorTwoSourceResults := by
  intro s d a b c t p fp gen flt less lesser greater rows va vb vd x
  change ∀ q ∈ rows, TwoSourceForm s d a b c p q
  simp only [rows, List.forall_mem_cons]
  exact ⟨.withScalar rfl rfl (lAdd_lane t gen) (vLat_toNat t 2 4), .withScalar rfl rfl (lSub_lane t gen) (vLat_toNat t 2 4),
    .withScalar rfl rfl (lMul_lane t gen) (vLat_toNat t 3 4), .withScalar rfl rfl (fun _ _ _ => rfl) rfl,
    .withScalar rfl rfl (fun _ _ _ => rfl) rfl, .withScalar rfl rfl (fun x y z => lMin_lane t gen x y z.toNat) (vLat_toNat t 2 4),
    .withScalar rfl rfl (fun x y z => lMax_lane t gen x y z.toNat) (vLat_toNat t 2 4), .withScalar rfl rfl (lAnd_lane t gen) rfl,
    .withScalar rfl rfl (lOr_lane t gen) rfl, .withScalar rfl rfl (lXor_lane t gen) rfl,
    .withScalar rfl rfl (lShl_lane t gen) rfl, .withScalar rfl rfl (lShr_lane t gen) rfl,
    .vectors rfl (lClamp_lane t gen) (vLat_toNat t 2 4), .vectors rfl (lDot_lane 0 gen) rfl, List.forall_mem_nil _⟩

/-! ### One source -/

/-- A governed word with one vector source. -/
theorem oneSourceForm {s : State} {i : Instr} {d a : BitVec 6} {p : BitVec 3} {f : Nat → Val → Nat → Nat} {t l lat : Nat}
    {g : BitVec 32 → BitVec 32} (hi : exec i s = issueV1 i f t l d a p s)
    (hf : ∀ x, BitVec.ofNat 32 (f t s.genF32 x.toNat) = g x) (hl : l = lat)
    (h : AClear s i (governedReads [.v a.toNat] p d false) [d.toNat, a.toNat] false) :
    ∃ r, lanesAre r (fun n => if (s.me.pReg p.toNat).getLsbD n then g (vlane (s.me.vReg a.toNat) n)
          else vlane (s.me.vReg d.toNat) n) ∧
      exec i s = .next ((s.markReads (governedReads [.v a.toNat] p d false)).fixedWrite (.v d.toNat) r lat) :=
  ⟨_, lanesAre_governed fun _ => hf _, by rw [hi, issueV1_next h, hl]; rfl⟩

/-- Settles O6: each word is `oneSourceForm` with its function; the four rounded functions are the model's own. -/
theorem vectorOneSourceResults : Obligations.VectorOneSourceResults := by
  intro s d a t p fp gen flt
  simp only [List.forall_mem_cons]
  exact ⟨oneSourceForm rfl (lAbs_lane t gen) (vLat_toNat t 2 4), oneSourceForm rfl (lNeg_lane t gen) (vLat_toNat t 2 4),
    oneSourceForm rfl (fun _ => rfl) rfl, oneSourceForm rfl (fun _ => rfl) rfl, oneSourceForm rfl (fun _ => rfl) rfl,
    oneSourceForm rfl (fun _ => rfl) rfl, List.forall_mem_nil _⟩

end Sys2Proof.Machine
end
section
/-! ## Moves of lanes
The patterns and the lanes that the words of R207 and R211 queue, and O7. -/
namespace Sys2Proof.Machine

/-- A lane as a number is that lane again. -/
theorem ofNat_laneOf (v : VReg) (i : Nat) : BitVec.ofNat 32 (laneOf v i) = vlane v i := by
  rw [laneOf, BitVec.ofNat_toNat, BitVec.setWidth_eq]
/-- One bit vector above another is a sum. -/
theorem toNat_append_add {m n : Nat} (x : BitVec m) (y : BitVec n) : (x ++ y).toNat = x.toNat * 2 ^ n + y.toNat := by
  rw [BitVec.toNat_append, ← Nat.shiftLeft_add_eq_or_of_lt y.isLt, Nat.shiftLeft_eq]
/-- The pattern of `vsplat`: the low bits of the scalar, as often as they fit into a lane (R211). -/
def splatLane (t : Nat) (x : Word) : BitVec 32 :=
  if typeBytes t = 4 then x.setWidth 32
  else if typeBytes t = 2 then x.setWidth 16 ++ x.setWidth 16
  else x.setWidth 8 ++ x.setWidth 8 ++ x.setWidth 8 ++ x.setWidth 8
theorem splatPattern_lane (t : Nat) (x : Word) : BitVec.ofNat 32 (splatPattern t x.toNat) = splatLane t x := by
  apply BitVec.eq_of_toNat_eq
  unfold splatPattern splatLane
  split
  case h_1 four => rw [if_pos four]; exact Nat.mod_mod _ _
  case h_2 two =>
    rw [if_neg (by omega), if_pos two]
    simp only [toNat_append_add, BitVec.toNat_ofNat, BitVec.toNat_setWidth]
    omega
  case h_3 four two =>
    rw [if_neg four, if_neg two]
    simp only [toNat_append_add, BitVec.toNat_ofNat, BitVec.toNat_setWidth]
    omega
/-- A register with one lane replaced (R211). -/
theorem lanesAre_setLane (v : VReg) (e : Nat) (x : BitVec 32) :
    lanesAre (setLane v e x.toNat).toNat (fun i => if i = e then x else vlane v i) := by
  intro i hi
  rw [BitVec.ofNat_toNat, BitVec.setWidth_eq]
  refine (vlane_ofPacked hi).trans ?_
  by_cases same : i = e
  · subst same
    simp [lanesOf, hi]
  · rw [List.getD_eq_getElem?_getD, List.getElem?_set_ne (Ne.symm same)]
    simp [lanesOf, hi, same]

/-! ### The words -/

section
variable {s : State} {d a b : BitVec 6} {c e : BitVec 5} {t : BitVec 4} {p : BitVec 3}

/-- `vperm` (R211). -/
theorem execVperm_next
    (h : AClear s (.vperm d a b t p) (governedReads [.v a.toNat, .v b.toNat] p d false) [d.toNat, a.toNat, b.toNat] false) :
    execVperm d a b t p s = .next ((s.markReads (governedReads [.v a.toNat, .v b.toNat] p d false)).fixedWrite (.v d.toNat)
      (governed (s.me.pReg p.toNat) (s.me.vReg d.toNat)
        (fun n => laneOf (s.me.vReg a.toNat) (laneOf (s.me.vReg b.toNat) n % 32))) 2) :=
  issueA_eq h rfl rfl rfl (by simp only [State.markReads_pReg, State.markReads_vReg]; rfl)
/-- `vsel` (R207). -/
theorem execVsel_next (h : AClear s (.vsel d a b t p) [.v a.toNat, .v b.toNat, .p p.toNat] [d.toNat, a.toNat, b.toNat] false) :
    execVsel d a b t p s = .next ((s.markReads [.v a.toNat, .v b.toNat, .p p.toNat]).fixedWrite (.v d.toNat)
      (governed (s.me.pReg p.toNat) (s.me.vReg b.toNat) (laneOf (s.me.vReg a.toNat))) 2) :=
  issueA_eq h rfl rfl rfl (by simp only [State.markReads_pReg, State.markReads_vReg])
/-- `vbcast` (R211). -/
theorem execVbcast_next (h : AClear s (.vbcast d a e p) (governedReads [.v a.toNat] p d false) [d.toNat, a.toNat] false) :
    execVbcast d a e p s = .next ((s.markReads (governedReads [.v a.toNat] p d false)).fixedWrite (.v d.toNat)
      (governed (s.me.pReg p.toNat) (s.me.vReg d.toNat) (fun _ => laneOf (s.me.vReg a.toNat) e.toNat)) 2) :=
  issueA_eq h rfl rfl rfl (by simp only [State.markReads_pReg, State.markReads_vReg]; rfl)
/-- `vsplat` (R211). -/
theorem execVsplat_next (h : AClear s (.vsplat d c t p) (governedReads [.s c.toNat] p d false) [d.toNat] false) :
    execVsplat d c t p s = .next ((s.markReads (governedReads [.s c.toNat] p d false)).fixedWrite (.v d.toNat)
      (governed (s.me.pReg p.toNat) (s.me.vReg d.toNat) (fun _ => splatPattern t.toNat (s.me.sReg c.toNat).toNat)) 2) :=
  issueA_eq h rfl rfl rfl (by simp only [State.markReads_pReg, State.markReads_vReg, State.markReads_sReg]; rfl)
/-- `vins` (R211). -/
theorem execVins_next (h : AClear s (.vins d c e) [.s c.toNat, .v d.toNat] [d.toNat] false) :
    execVins d c e s = .next ((s.markReads [.s c.toNat, .v d.toNat]).fixedWrite (.v d.toNat)
      (setLane (s.me.vReg d.toNat) e.toNat ((s.me.sReg c.toNat).setWidth 32).toNat).toNat 2) :=
  issueA_eq h rfl rfl rfl (by simp only [State.markReads_vReg, State.markReads_sReg]; rfl)
/-- `vext` (R211). -/
theorem execVext_next (h : AClear s (.vext c a e) [.v a.toNat] [a.toNat] false) :
    execVext c a e s = .next ((s.markReads [.v a.toNat]).fixedWrite (.s c.toNat) (laneOf (s.me.vReg a.toNat) e.toNat) 2) :=
  issueA_eq h rfl rfl rfl (by rw [State.markReads_vReg])
end

/-- Settles O7: the lanes that each word queues are those of its rule. -/
theorem vectorMoveResults : Obligations.VectorMoveResults := by
  intro s d a b c e t p gov va vb x pattern
  refine ⟨?_, execVext_next⟩
  simp only [List.forall_mem_cons]
  exact ⟨fun h => ⟨_, lanesAre_governed fun _ => ofNat_laneOf _ _, execVperm_next h⟩,
    fun h => ⟨_, lanesAre_governed fun _ => ofNat_laneOf _ _, execVsel_next h⟩,
    fun h => ⟨_, lanesAre_governed fun _ => ofNat_laneOf _ _, execVbcast_next h⟩,
    fun h => ⟨_, lanesAre_governed fun _ => splatPattern_lane _ _, execVsplat_next h⟩,
    fun h => ⟨_, lanesAre_setLane _ _ _, execVins_next h⟩, List.forall_mem_nil _⟩

end Sys2Proof.Machine
end
section
/-! ## Predicates
The lanes that a comparison writes (R206), the predicate words (R212), and O8. -/
namespace Sys2Proof.Machine

/-- Entry i of a list over 32 lanes. -/
theorem getD_map_range (f : Nat → Nat) {i : Nat} (hi : i < 32) : ((List.range 32).map f).getD i 0 = f i := by
  rw [List.getD_eq_getElem?_getD, List.getElem?_map, List.getElem?_range hi]
  rfl
/-- Bit i of a comparison's result: the governed lanes in which its condition holds (R206). -/
theorem getLsbD_cmpLanes (p : BitVec 32) (f : Nat → Bool) {i : Nat} (hi : i < 32) :
    (BitVec.ofNat 32 (cmpLanes p f)).getLsbD i = true ↔ p.getLsbD i = true ∧ f i = true := by
  have lane : cmpLanes p f / 2 ^ i % 2 = ofBool (p.getLsbD i && f i) % 2 := by
    have elem := ofPacked_elem 1 ((List.range 32).map (fun n => ofBool (p.getLsbD n && f n))) i
    rwa [Nat.one_mul, getD_map_range _ hi] at elem
  rw [BitVec.getLsbD_ofNat, decide_eq_true hi, Bool.true_and, Nat.testBit_eq_decide_div_mod_eq, decide_eq_true_iff, lane,
    ← Bool.and_eq_true]
  cases p.getLsbD i && f i <;> decide
/-- The condition of a comparison of lanes (R206). -/
theorem lCmp_iff {c : Nat} (hc : c < 6) (t : BitVec 4) (x y : BitVec 32) :
    lCmp c t.toNat x.toNat y.toNat = true ↔
      if t = 8 then fCompare .f32 c x.toNat y.toNat = true
      else if t = 2 then holdsOf c x.toInt y.toInt else holdsOf c x.toNat y.toNat := by
  simp only [lCmp, toNat_eq_f32_iff, beq_iff_eq]
  split
  · rfl
  · rw [iCompare_iff hc, laneInt_toNat, laneInt_toNat]
    simp only [beq_iff_eq]
    split <;> rfl

/-! ### The words -/

section
variable {s : State} {d c p : BitVec 3} {a b : BitVec 6} {sb : BitVec 5} {t : BitVec 4}

theorem vcmp_wf_cc (h : (Instr.vcmp d c a b t p).wf = true) : c.toNat < 6 := by
  rw [Instr.wf, Bool.and_eq_true] at h
  exact ccOk_iff.1 h.1
theorem vcmpS_wf_cc (h : (Instr.vcmpS d c a sb t p).wf = true) : c.toNat < 6 := by
  rw [Instr.wf, Bool.and_eq_true] at h
  exact ccOk_iff.1 h.1
/-- `vcmp` (R206). -/
theorem execVcmp_next (h : AClear s (.vcmp d c a b t p) [.v a.toNat, .v b.toNat, .p p.toNat] [a.toNat, b.toNat] false) :
    execVcmp d c a b t p s = .next ((s.markReads [.v a.toNat, .v b.toNat, .p p.toNat]).fixedWrite (.p d.toNat)
      (cmpLanes (s.me.pReg p.toNat)
        (fun n => lCmp c.toNat t.toNat (laneOf (s.me.vReg a.toNat) n) (laneOf (s.me.vReg b.toNat) n))) 2) :=
  issueA_eq h rfl rfl rfl (by simp only [State.markReads_pReg, State.markReads_vReg])
/-- `vcmp` with a scalar second source (R206). -/
theorem execVcmpS_next (h : AClear s (.vcmpS d c a sb t p) [.v a.toNat, .s sb.toNat, .p p.toNat] [a.toNat] false) :
    execVcmpS d c a sb t p s = .next ((s.markReads [.v a.toNat, .s sb.toNat, .p p.toNat]).fixedWrite (.p d.toNat)
      (cmpLanes (s.me.pReg p.toNat)
        (fun n => lCmp c.toNat t.toNat (laneOf (s.me.vReg a.toNat) n) ((s.me.sReg sb.toNat).setWidth 32).toNat)) 2) :=
  issueA_eq h rfl rfl rfl (by simp only [State.markReads_pReg, State.markReads_vReg, State.markReads_sReg]; rfl)
end
section
variable {s : State} {d x y : BitVec 3} {sb : BitVec 5}

/-- `pset` (R212). -/
theorem execPset_next (h : AClear s (.pset d sb) [.s sb.toNat] [] false) :
    execPset d sb s = .next ((s.markReads [.s sb.toNat]).fixedWrite (.p d.toNat) ((s.me.sReg sb.toNat).setWidth 32).toNat 1) :=
  issueA_eq h rfl rfl rfl (by rw [State.markReads_sReg]; rfl)
/-- `pand` (R212). -/
theorem execPand_next (h : AClear s (.pand d x y) [.p x.toNat, .p y.toNat] [] false) :
    execPand d x y s = .next ((s.markReads [.p x.toNat, .p y.toNat]).fixedWrite (.p d.toNat)
      (s.me.pReg x.toNat &&& s.me.pReg y.toNat).toNat 1) :=
  issueA_eq h rfl rfl rfl (by rw [State.markReads_pReg, State.markReads_pReg])
/-- `por` (R212). -/
theorem execPor_next (h : AClear s (.por d x y) [.p x.toNat, .p y.toNat] [] false) :
    execPor d x y s = .next ((s.markReads [.p x.toNat, .p y.toNat]).fixedWrite (.p d.toNat)
      (s.me.pReg x.toNat ||| s.me.pReg y.toNat).toNat 1) :=
  issueA_eq h rfl rfl rfl (by rw [State.markReads_pReg, State.markReads_pReg])
/-- `pnot` (R212). -/
theorem execPnot_next (h : AClear s (.pnot d x) [.p x.toNat] [] false) :
    execPnot d x s = .next ((s.markReads [.p x.toNat]).fixedWrite (.p d.toNat) (~~~ (s.me.pReg x.toNat)).toNat 1) :=
  issueA_eq h rfl rfl rfl (by rw [State.markReads_pReg])
end

/-- Settles O8: a lane of a comparison is `getLsbD_cmpLanes` under the condition of `lCmp_iff`. -/
theorem predicateResults : Obligations.PredicateResults := by
  intro s d c p x y a b sb t at_ cc va P
  refine ⟨fun h => ⟨_, fun i hi => ?vector, execVcmp_next h⟩, fun h => ⟨_, fun i hi => ?scalar, execVcmpS_next h⟩,
    execPset_next, execPand_next, execPor_next, execPnot_next⟩
  case vector => exact (getLsbD_cmpLanes _ _ hi).trans (and_congr_right' (lCmp_iff (vcmp_wf_cc h.wf) t _ _))
  case scalar => exact (getLsbD_cmpLanes _ _ hi).trans (and_congr_right' (lCmp_iff (vcmpS_wf_cc h.wf) t _ _))

end Sys2Proof.Machine
end
section
/-! ## Conversions and reductions
The packed elements of `vcvt` (R208), the tree of `vred` (R209), and O9. -/
namespace Sys2Proof.Machine

/-- A register of packed elements has no bit above them. -/
theorem ofPacked_lt (w : Nat) (es : List Nat) : ofPacked w es < 2 ^ (es.length * w) := by
  induction es with
  | nil => simp [ofPacked]
  | cons e es ih =>
    have elem : e % 2 ^ w < 2 ^ w := Nat.mod_lt _ (Nat.two_pow_pos w)
    calc e % 2 ^ w + ofPacked w es * 2 ^ w
      _ < (ofPacked w es + 1) * 2 ^ w := by rw [Nat.succ_mul, Nat.add_comm]; exact Nat.add_lt_add_left elem _
      _ ≤ 2 ^ (es.length * w) * 2 ^ w := Nat.mul_le_mul_right _ ih
      _ = 2 ^ ((e :: es).length * w) := by rw [← Nat.pow_add, List.length_cons, Nat.succ_mul]
/-- Element i of a conversion (R208). -/
theorem vConvert_elem (td ts : BitVec 4) (p : BitVec 32) (v old : VReg) {i : Nat} (hi : i < 32) :
    vConvert td.toNat ts.toNat p v old / 2 ^ (typeWidth td.toNat * i) % 2 ^ typeWidth td.toNat =
      if p.getLsbD i then
        (if td = ts then packedOf v (typeWidth td.toNat) i
         else convElem td.toNat ts.toNat (packedOf v (typeWidth ts.toNat) i) % 2 ^ typeWidth td.toNat)
      else packedOf old (typeWidth td.toNat) i := by
  simp only [vConvert, ofPacked_elem, getD_map_range _ hi, BitVec.toNat_inj]
  split
  · split
    case isTrue same => rw [same]; exact Nat.mod_mod _ _
    case isFalse => rfl
  · exact Nat.mod_mod _ _
theorem vConvert_lt (td ts : Nat) (p : BitVec 32) (v old : VReg) : vConvert td ts p v old < 2 ^ (32 * typeWidth td) := by
  unfold vConvert
  refine (ofPacked_lt _ _).trans_eq ?_
  rw [List.length_map, List.length_range]
/-- One value in every lane. -/
theorem lanesAre_replicate (n : Nat) : lanesAre (ofPacked 32 (List.replicate 32 n)) (fun _ => BitVec.ofNat 32 n) := by
  intro i hi
  rw [vlane_ofPacked hi, List.getD_replicate _ hi]

section
variable {s : State} {d a : BitVec 6} {td ts t : BitVec 4} {o p : BitVec 3}

/-- `vcvt` (R208). -/
theorem execVcvt_next (h : AClear s (.vcvt d a td ts p) (governedReads [.v a.toNat] p d false) [d.toNat, a.toNat] false) :
    execVcvt d a td ts p s = .next ((s.markReads (governedReads [.v a.toNat] p d false)).fixedWrite (.v d.toNat)
      (vConvert td.toNat ts.toNat (s.me.pReg p.toNat) (s.me.vReg a.toNat) (s.me.vReg d.toNat)) 3) :=
  issueA_eq h rfl rfl rfl (by simp only [State.markReads_pReg, State.markReads_vReg]; rfl)
/-- `vred` (R209). -/
theorem execVred_next (h : AClear s (.vred d a o t p) [.v a.toNat, .p p.toNat] [d.toNat, a.toNat] false) :
    execVred d a o t p s = .next ((s.markReads [.v a.toNat, .p p.toNat]).fixedWrite (.v d.toNat)
      (ofPacked 32 (List.replicate 32 (vReduce o.toNat t.toNat s.genF32 (s.me.pReg p.toNat) (s.me.vReg a.toNat)))) 6) :=
  issueA_eq h rfl rfl rfl (by simp only [State.markReads_genF32, State.markReads_pReg, State.markReads_vReg])
end

/-- Settles O9: the elements are those of `vConvert_elem`, and the reduction stands in every lane. -/
theorem vectorConvertAndReduceResults : Obligations.VectorConvertAndReduceResults := by
  intro s d a td ts t o p P va wd gen
  exact ⟨fun h => ⟨_, fun _ hi => vConvert_elem td ts P va _ hi, vConvert_lt _ _ _ _ _, execVcvt_next h⟩,
    fun h => ⟨_, lanesAre_replicate _, execVred_next h⟩⟩

end Sys2Proof.Machine
end
section
/-! ## Matrix words
The claim of the matrix unit, its queue and the copies into the B store as the issue of a word changes them (R222 to R238); O31. -/
namespace Sys2Proof.Machine

/-! ### Fields -/

theorem bits_one {v i : Nat} : decide (v / 2 ^ i % 2 ^ 1 = 1) = bit v i := by
  rw [pow_one, bit, Nat.testBit_eq_decide_div_mod_eq]
/-- A field whose register has no bit above the first lo. -/
theorem wfld_above {w : Word} {lo : Nat} (h : w.toNat < 2 ^ lo) (n : Nat) : wfld w lo n = 0 := by
  rw [wfld_toNat, Nat.div_eq_of_lt h, Nat.zero_mod]
theorem ownOnly_nil {a : Nat} (h : a < lsBytes) : ownOnly a = [] := by
  rw [ownOnly, classify_own h]

/-- A command of legal fields (R227, R228). -/
def MCmd.Legal (c : MCmd) : Prop :=
  c.aaddr < lsBytes ∧ c.aaddr % (16 * 2 ^ c.span) = 0 ∧ 1 ≤ c.m ∧ c.m ≤ 64 ∧ 1 ≤ c.k ∧ c.k ≤ 8192 ∧ c.boff % 64 = 0 ∧ c.boff < 524288
theorem MCmd.fieldsOk_iff {c : MCmd} : c.fieldsOk = true ↔ c.Legal := by
  simp only [MCmd.fieldsOk, MCmd.Legal, MCmd.spanBytes, Bool.and_eq_true, decide_eq_true_eq, beq_iff_eq, and_assoc]
theorem commandZeros_iff {n : Nat} : commandZeros n = true ↔
    ∀ p ∈ [(5, 27), (51, 13), (131, 1), (147, 13), (179, 13), (211, 13), (224, 288)], n / 2 ^ p.1 % 2 ^ p.2 = 0 := by
  simp only [commandZeros, bits_eq, Bool.and_eq_true, beq_iff_eq, List.forall_mem_cons, and_assoc]
  simp only [List.not_mem_nil, false_implies, implies_true, and_true]
theorem mmaBad_nil {c : MCmd} {a b : Word} (hc : c.Legal) (ha : a.toNat < 2 ^ 19) (hb : b.toNat < 2 ^ 39) : mmaBad c a b = [] := by
  have ⟨addr, align, _⟩ := hc
  rw [mmaBad, wfld_above ha, wfld_above hb, MCmd.fieldsOk_iff.2 hc, MCmd.spanBytes, align, decide_eq_true addr]
  rfl
theorem mldConds_nil {s : State} {a b n : Nat} (ha : a % 64 = 0) (hb : b % 64 = 0) (hl : s.here.boundary ≤ a) (h0 : 0 < n)
    (hu : a + n ≤ lsBytes) (hB : b + n ≤ 524288) : mldConds s a b n = [] := by
  rw [mldConds, misaligned_nil ha, misaligned_nil hb, classify_own (show a < lsBytes by omega)]
  simp [condIf, Nat.not_lt.2 hl, Nat.not_lt.2 hu, Nat.not_lt.2 hB]

/-! ### The unit of a core -/

/-- The matrix unit of a core and the context that runs there: the unit's owner, its queue, the command that it runs and the cycle in
which its last one ended (R229, R234). -/
def CoreSt.matrix (x : CoreSt) : Nat × Option Nat × List MCmd × Option MRun × Nat := (x.run, x.mowner, x.mq, x.mrun, x.mlast)
@[simp] theorem CoreSt.setCtx_mlds (x : CoreSt) (i : Nat) (c : Ctx) : (x.setCtx i c).mlds = x.mlds := rfl
@[simp] theorem CoreSt.setCtx_mldLast (x : CoreSt) (i : Nat) (c : Ctx) : (x.setCtx i c).mldLast = x.mldLast := rfl
@[simp] theorem CoreSt.matrix_setCtx (x : CoreSt) (i : Nat) (c : Ctx) : (x.setCtx i c).matrix = x.matrix := rfl
@[simp] theorem State.readied_matrix (s : State) (srcs : List RegId) (m : Nat) : (s.readied srcs m).here.matrix = s.here.matrix :=
  s.readied_here srcs m CoreSt.matrix fun _ _ _ _ => rfl

/-- A state of the same cycle whose running core has the same matrix unit. -/
structure State.SameUnit (s t : State) : Prop where
  focus : t.focus = s.focus
  gts : t.gts = s.gts
  unit : t.here.matrix = s.here.matrix
theorem State.readied_sameUnit (s : State) (srcs : List RegId) (m : Nat) : s.SameUnit (s.readied srcs m) :=
  ⟨s.readied_focus srcs m, s.readied_gts srcs m, s.readied_matrix srcs m⟩
theorem State.SameUnit.onMe {s t : State} (h : s.SameUnit t) (f : Ctx → Ctx) : s.SameUnit (t.onMe f) :=
  ⟨h.focus, h.gts, by rw [State.here_onMe, CoreSt.matrix_setCtx, h.unit]⟩

/-- The unit is nobody's or the running context's (R234). -/
def CoreSt.unitFree (x : CoreSt) : Prop := x.mowner = none ∨ x.mowner = some x.run
/-- The unit has become the running context's (R234). -/
def State.claimed (u : State) : State := u.onHere (fun x => { x with mowner := some x.run })
@[simp] theorem State.claimed_focus (u : State) : u.claimed.focus = u.focus := rfl
@[simp] theorem State.claimed_gts (u : State) : u.claimed.gts = u.gts := rfl
@[simp] theorem State.claimed_here (u : State) : u.claimed.here = { u.here with mowner := some u.here.run } := State.here_onHere _ _
theorem State.claim_eq {u : State} (free : u.here.unitFree) : u.claim = u.claimed := by
  refine State.onHere_congr ?_
  obtain nobody | own := free
  · exact if_pos (by rw [nobody]; rfl)
  · exact (if_neg (by rw [own]; exact Bool.false_ne_true)).trans (by rw [← own])
theorem State.SameUnit.unitFree {s u : State} (h : s.SameUnit u) (free : s.here.unitFree) : u.here.unitFree := by
  have unit := h.unit
  simp only [CoreSt.matrix, Prod.mk.injEq] at unit
  obtain ⟨run, owner, -⟩ := unit
  rwa [CoreSt.unitFree, owner, run]
theorem State.matrixConds_nil {s : State} (free : s.here.unitFree) : s.matrixConds false = [] := by
  obtain nobody | own := free
  · simp [State.matrixConds, nobody, condIf]
  · simp [State.matrixConds, own, condIf]
theorem State.matrixConds_room {s : State} (free : s.here.unitFree) (room : s.here.mheld < 16) : s.matrixConds true = [] := by
  have queue : decide (16 ≤ s.here.mheld) = false := decide_eq_false (Nat.not_le.2 room)
  rw [← State.matrixConds_nil free, State.matrixConds, State.matrixConds, queue]
  rfl

/-! ### The queue and the copies -/

/-- The command as the running context issues it, with its token (R224, R229). -/
def MCmd.issuedBy (c : MCmd) (s : State) (t : Option TokRef) : MCmd := { c with tok := t, pc := s.me.pc.toNat, issued := s.gts }

theorem CoreSt.mheld_eq_zero {x : CoreSt} : x.mheld = 0 ↔ x.mq = [] ∧ x.mrun = none := by
  cases running : x.mrun with
  | none => simp [CoreSt.mheld, running]
  | some r => simp [CoreSt.mheld, running]
/-- The start of the head of the queue, when nothing runs (R229). -/
theorem State.armMatrix_head {u : State} {core : Nat} {c : MCmd} {rest : List MCmd} (idle : (u.coreOf core).mrun = none)
    (head : (u.coreOf core).mq = c :: rest) : u.armMatrix core =
      u.stepAt (max (max (c.issued + 1) ((u.coreOf core).mlast + 1)) u.gts) (.matrixCommandStart core) := by
  simp only [State.armMatrix, idle, head]
/-- The start of the head of the copies (R225). -/
theorem State.armMld_head {u : State} {core : Nat} {l : MLd} {rest : List MLd} (head : (u.coreOf core).mlds = l :: rest) :
    u.armMld core = u.stepAt (max (max (l.issued + 1) ((u.coreOf core).mldLast + 1)) u.gts) (.mldBStart core) := by
  simp only [State.armMld, head]
/-- A start in the next cycle or later lies behind the present one. -/
theorem max_nextCycle (g last : Nat) : max (max (g + 1) (last + 1)) g = max (g + 1) (last + 1) := by omega

/-- What a command that the running context queues in the state s leaves of the state u: the unit is claimed, and a command that meets
an idle unit starts at the earliest one cycle later (R229, R234). -/
def State.queuedBy (s u : State) (c : MCmd) : State :=
  let u := u.claimed.onHere (fun x => { x with mq := x.mq ++ [c] })
  if s.here.mq = [] ∧ s.here.mrun = none then u.stepAt (max (s.gts + 1) (s.here.mlast + 1)) (.matrixCommandStart s.focus)
  else u
/-- What a copy into the B store that the running context starts in the state s leaves of the state u (R225). -/
def State.copyingBy (s u : State) (l : MLd) : State :=
  let u := u.onHere (fun x => { x with mlds := x.mlds ++ [l] })
  if s.here.mlds = [] then u.stepAt (max (s.gts + 1) (s.here.mldLast + 1)) (.mldBStart s.focus) else u

theorem State.SameUnit.enqueue {s u : State} (h : s.SameUnit u) (free : s.here.unitFree) {c : MCmd} (issued : c.issued = s.gts) :
    u.enqueue c = s.queuedBy u c := by
  have ⟨focus, gts, unit⟩ := h
  simp only [CoreSt.matrix, Prod.mk.injEq] at unit
  obtain ⟨run, -, mq, mrun, mlast⟩ := unit
  let t := u.claimed.onHere (fun x => { x with mq := x.mq ++ [c] })
  have here : t.here = { u.here with mowner := some u.here.run, mq := u.here.mq ++ [c] } := by
    simp only [t, State.here_onHere, State.claimed_here]
  have queued : u.enqueue c = if s.here.mq = [] ∧ s.here.mrun = none then t.armMatrix u.focus else t := by
    simp only [State.enqueue, State.claim_eq (h.unitFree free), beq_iff_eq, CoreSt.mheld_eq_zero, mq, mrun]
    rfl
  rw [queued, State.queuedBy]
  refine ite_congr rfl (fun idle => ?_) (fun _ => rfl)
  obtain ⟨empty, rests⟩ := idle
  have hq : t.here.mq = [c] := by rw [here, mq, empty]; rfl
  have hr : t.here.mrun = none := by rw [here, mrun, rests]
  have hl : t.here.mlast = s.here.mlast := by rw [here, mlast]
  have hg : t.gts = s.gts := gts
  change t.armMatrix t.focus = _
  rw [State.armMatrix_head hr hq]
  change t.stepAt (max (max _ (t.here.mlast + 1)) t.gts) (.matrixCommandStart u.focus) = _
  rw [issued, hl, hg, max_nextCycle, focus]
theorem State.copyingBy_eq {s u : State} {l : MLd} (focus : u.focus = s.focus) (gts : u.gts = s.gts) (copies : u.here.mlds = s.here.mlds)
    (last : u.here.mldLast = s.here.mldLast) (issued : l.issued = s.gts) : let t := u.onHere (fun x => { x with mlds := x.mlds ++ [l] })
    (if s.here.mlds.isEmpty then t.armMld t.focus else t) = s.copyingBy u l := by
  intro t
  have here : t.here = { u.here with mlds := u.here.mlds ++ [l] } := State.here_onHere _ _
  rw [State.copyingBy]
  refine ite_congr (propext List.isEmpty_iff) (fun empty => ?_) (fun _ => rfl)
  have hm : t.here.mlds = [l] := by rw [here, copies, empty]; rfl
  have hl : t.here.mldLast = s.here.mldLast := by rw [here, last]
  have hg : t.gts = s.gts := gts
  rw [State.armMld_head hm]
  change t.stepAt (max (max _ (t.here.mldLast + 1)) t.gts) (.mldBStart u.focus) = _
  rw [issued, hl, hg, max_nextCycle, focus]

/-! ### The words -/

section
variable {s : State} {hd : CHead} {a b : BitVec 5} {k : BitVec 4} (free : s.here.unitFree)
include free

/-- `mxq` queues the command that stands in its block (R222, R227). -/
theorem execMxq_queues (room : s.here.mheld < 16) (align : (s.me.sReg a.toNat).toNat % 64 = 0)
    (own : (s.me.sReg a.toNat).toNat < lsBytes) (held : s.lineHeld (s.me.sReg a.toNat).toNat 64 = false)
    (zeros : commandZeros (s.here.ls.readN (s.me.sReg a.toNat).toNat 64) = true)
    (legal : (MCmd.ofBytes (s.here.ls.readN (s.me.sReg a.toNat).toNat 64)).Legal)
    (h : CClear s (.mxq hd a k) hd [.s a.toNat] [] [k] (some (s.me.tokRef k.toNat)) 0 0 false) :
    execMxq hd a k s = .next (s.queuedBy ((s.readied [.s a.toNat] 0).onMe (fun c => c.raise (s.me.tokRef k.toNat)))
      ((MCmd.ofBytes (s.here.ls.readN (s.me.sReg a.toNat).toNat 64)).issuedBy s (some (s.me.tokRef k.toNat)))) := by
  unfold execMxq
  refine issueC_eq h ?_ held rfl ?_
  · rw [misaligned_nil align, ownOnly_nil own, zeros, MCmd.fieldsOk_iff.2 legal, State.matrixConds_room free room]
    rfl
  · simp only [State.readied_tokRef, State.readied_pc, State.readied_gts]
    exact ((s.readied_sameUnit _ _).onMe _).enqueue free rfl
/-- `mma` queues the command that its two registers hold (R228). -/
theorem execMma_queues {m : BitVec 3} (room : s.here.mheld < 16) (ha : (s.me.sReg a.toNat).toNat < 2 ^ 19)
    (hb : (s.me.sReg b.toNat).toNat < 2 ^ 39) (legal : (MCmd.ofMma m.toNat (s.me.sReg a.toNat) (s.me.sReg b.toNat)).Legal)
    (h : CClear s (.mma hd m a b k) hd [.s a.toNat, .s b.toNat] [] [k] (some (s.me.tokRef k.toNat)) 0 0 false) :
    execMma hd m a b k s = .next (s.queuedBy ((s.readied [.s a.toNat, .s b.toNat] 0).onMe (fun c => c.raise (s.me.tokRef k.toNat)))
      ((MCmd.ofMma m.toNat (s.me.sReg a.toNat) (s.me.sReg b.toNat)).issuedBy s (some (s.me.tokRef k.toNat)))) := by
  unfold execMma
  refine issueC_eq h ?_ rfl rfl ?_
  · rw [mmaBad_nil legal ha hb, State.matrixConds_room free room]
    rfl
  · simp only [State.readied_tokRef, State.readied_pc, State.readied_gts]
    exact ((s.readied_sameUnit _ _).onMe _).enqueue free rfl
/-- `mzero` queues a command without a token (R226). -/
theorem execMzero_queues {m : BitVec 3} (room : s.here.mheld < 16) (h : CClear s (.mzero hd m) hd [] [] [] none 0 0 false) :
    execMzero hd m s = .next (s.queuedBy (s.readied [] 0)
      (MCmd.issuedBy { MCmd.ofBytes 0 with zero := true, acc := m.toNat } s none)) := by
  refine issueC_eq h (State.matrixConds_room free room) rfl rfl ?_
  simp only [State.readied_pc, State.readied_gts]
  exact (s.readied_sameUnit _ _).enqueue free rfl
/-- `mrd` reads its tile row two cycles later (R231). -/
theorem execMrd_reads {v : BitVec 6} {t : BitVec 3}
    (h : CClear s (.mrd hd v t a k) hd [.s a.toNat] [v.toNat] [k] (some (s.me.tokRef k.toNat)) 0 0 false) :
    execMrd hd v t a k s = .next (((s.readied [.s a.toNat] 0).claimed.longStart (.v v.toNat) (s.me.tokRef k.toNat)).doneAt
      (s.gts + 2) s.focus s.here.run
      [.tileRow v.toNat t.toNat (wfld (s.me.sReg a.toNat) 0 6), .unpend (.v v.toNat), .lower (s.me.tokRef k.toNat)]) := by
  refine issueC_eq h (State.matrixConds_nil free) rfl rfl ?_
  simp only [State.readied_tokRef, State.readied_sReg, State.readied_gts, State.readied_focus, State.readied_run]
  rw [State.claim_eq ((s.readied_sameUnit _ _).unitFree free)]
/-- `mld.b` copies lines into the B store (R225, R238). -/
theorem execMldB_copies {n : BitVec 4} (ha : (s.me.sReg a.toNat).toNat % 64 = 0) (hb : (s.me.sReg b.toNat).toNat % 64 = 0)
    (low : s.here.boundary ≤ (s.me.sReg a.toNat).toNat) (high : (s.me.sReg a.toNat).toNat + 1024 * (n.toNat + 1) ≤ lsBytes)
    (store : (s.me.sReg b.toNat).toNat + 1024 * (n.toNat + 1) ≤ 524288)
    (held : s.lineHeld (s.me.sReg a.toNat).toNat (1024 * (n.toNat + 1)) = false)
    (h : CClear s (.mldB hd a b k n) hd [.s a.toNat, .s b.toNat] [] [k] (some (s.me.tokRef k.toNat)) 0 0 false) :
    execMldB hd a b k n s = .next (s.copyingBy
      ((s.readied [.s a.toNat, .s b.toNat] 0).claimed.onMe (fun c => c.raise (s.me.tokRef k.toNat)))
      { src := (s.me.sReg a.toNat).toNat, dst := (s.me.sReg b.toNat).toNat, lines := 16 * (n.toNat + 1), tok := s.me.tokRef k.toNat,
        issued := s.gts, started := none, wrote := 0 }) := by
  let u := (s.readied [.s a.toNat, .s b.toNat] 0).claimed.onMe (fun c => c.raise (s.me.tokRef k.toNat))
  unfold execMldB
  refine issueC_eq h ?_ held rfl ?_
  · rw [mldConds_nil ha hb low (by omega) high store, State.matrixConds_nil free]
    rfl
  · have lines : 1024 * (n.toNat + 1) / 64 = 16 * (n.toNat + 1) := by omega
    simp only [State.readied_tokRef, State.readied_gts, State.readied_core_mlds, lines,
      State.claim_eq ((s.readied_sameUnit _ _).unitFree free)]
    have focus : u.focus = s.focus := by simp [u]
    have gts : u.gts = s.gts := by simp [u]
    have copies : u.here.mlds = s.here.mlds := by simp [u]
    have last : u.here.mldLast = s.here.mldLast := by simp [u]
    exact State.copyingBy_eq focus gts copies last rfl
end

/-- Settles O31: the fields that the statement reads from the block or the registers are those of the command that each word queues. -/
theorem matrixWordResults : Obligations.MatrixWordResults := by
  intro s hd m v a b k n t av bv one two f claimed queued legal free room raw blank cx cm hfree
  have hcx : cx = (MCmd.ofBytes raw).issuedBy s (some t) := by
    simp only [MCmd.issuedBy, MCmd.ofBytes, bits_eq, ← bits_one]
    rfl
  have hcm : cm = (MCmd.ofMma m.toNat (s.me.sReg a.toNat) (s.me.sReg b.toNat)).issuedBy s (some t) := by
    simp only [MCmd.issuedBy, MCmd.ofMma, wfld_toNat, cm, f, bits_one]
    rfl
  have hrow : av % 64 = wfld (s.me.sReg a.toNat) 0 6 := by simp [wfld_toNat, av]
  refine ⟨fun h hroom hal hown hheld hlegal hzeros => ?_, fun h hroom ha hb hlegal => ?_, fun h hroom => execMzero_queues hfree hroom h,
    fun h => ?_, fun h ha hb low high store held => execMldB_copies hfree ha hb low high store held h⟩
  · rw [hcx] at hlegal ⊢
    exact execMxq_queues hfree hroom hal hown hheld (commandZeros_iff.2 hzeros) hlegal h
  · rw [hcm] at hlegal ⊢
    exact execMma_queues hfree hroom ha hb hlegal h
  · rw [hrow]
    exact execMrd_reads hfree h

end Sys2Proof.Machine
end
section
/-! ## Cistern words
A request of the running context to the cistern as the issue of a word sends it, on the add path or on the tap path
(R239 to R245, R248, R249, R252, R254); O32. -/
namespace Sys2Proof.Machine

/-! ### References -/

theorem refRow_eq (w : Word) : refRow w = w.toNat % 2 ^ 6 := by rw [refRow, wfld_toNat, pow_zero, Nat.div_one]
theorem refSeg_eq (w : Word) : refSeg w = w.toNat / 2 ^ 6 % 2 ^ 11 := wfld_toNat w 6 11
theorem refSel_eq (w : Word) : refSel w = w.toNat / 2 ^ 17 % 2 ^ 6 := wfld_toNat w 17 6

/-- The group of the running core's cluster that a reference names (R239, R240). -/
def State.namedGroup (s : State) (w : Word) : CGroup := s.cgroup s.myCluster (refRow w)
/-- A word with this reference may send a request: the reference has no bit above its fields and names a declared group, and the
running core has a cistern entry free (R241, R254). -/
structure State.MayRequest (s : State) (w : Word) : Prop where
  fields : w.toNat < 2 ^ 23
  declared : (s.namedGroup w).st ≠ .undeclared
  entry : s.here.cisOut < 32
/-- The segment that a reference names lies inside the group that it names (R242, R244, R254). -/
def State.SegInside (s : State) (w : Word) : Prop := refSeg w < 512 * (s.namedGroup w).per

theorem State.MayRequest.badRef_nil {s : State} {w : Word} (may : s.MayRequest w) {seg : Bool}
    (inside : seg = true → s.SegInside w) : s.badRef w seg = [] := by
  have high : wfld w 23 41 = 0 := wfld_above may.fields 41
  have group : ((s.namedGroup w).st == .undeclared) = false := beq_eq_false_iff_ne.2 may.declared
  have segment : (seg && decide (512 * (s.namedGroup w).per ≤ refSeg w)) = false := by
    cases seg with
    | false => rfl
    | true => exact decide_eq_false (Nat.not_le.2 (inside rfl))
  change condIf (wfld w 23 41 != 0 || (s.namedGroup w).st == .undeclared ||
    (seg && decide (512 * (s.namedGroup w).per ≤ refSeg w))) 6 0 w.toNat = []
  rw [high, group, segment]
  rfl
theorem State.MayRequest.cisFull_nil {s : State} {w : Word} (may : s.MayRequest w) : s.cisFull = [] := by
  rw [State.cisFull, decide_eq_false (Nat.not_le.2 may.entry)]
  rfl
/-- A reference whose segment the word does not use (R248, R249, R252). -/
theorem State.MayRequest.conds_nil {s : State} {w : Word} (may : s.MayRequest w) : s.badRef w false ++ s.cisFull = [] := by
  rw [may.badRef_nil Bool.false_ne_true.elim, may.cisFull_nil, List.nil_append]
theorem State.MayRequest.segConds_nil {s : State} {w : Word} (may : s.MayRequest w) (inside : s.SegInside w) :
    s.badRef w true ++ s.cisFull = [] := by
  rw [may.badRef_nil (fun _ => inside), may.cisFull_nil, List.nil_append]
theorem State.gammaBad_nil {s : State} {a : Nat} (low : s.here.boundary ≤ a) (high : a + 64 ≤ lsBytes) : s.gammaBad a = [] := by
  rw [State.gammaBad, decide_eq_false (Nat.not_lt.2 low), decide_eq_false (Nat.not_lt.2 high)]
  rfl

/-! ### Requests -/

@[simp] theorem State.readied_creq (s : State) (srcs : List RegId) (m op : Nat) (w : Word) (t : TokRef) :
    (s.readied srcs m).creq op w t = s.creq op w t := by
  simp only [State.creq, State.readied_gts, State.readied_focus, State.readied_run, State.readied_pc, State.readied_ctr]
/-- Read steps of a core change the number that its next request takes, and nothing else of the request. -/
theorem State.readLsMany_creq (s : State) (core home n : Nat) (as : List Nat) (op : Nat) (w : Word) (t : TokRef) :
    (s.readLsMany core home n as).2.creq op w t = { s.creq op w t with no := (s.readLsMany core home n as).2.ctr } := by
  have keeps : { (s.readLsMany core home n as).2.creq op w t with no := 0 } = { s.creq op w t with no := 0 } := by
    refine State.readLsMany_keeps (fun u : State => { u.creq op w t with no := 0 }) (fun _ _ => rfl) (fun u know => ?_) s home n as
    have ran := State.onCore_here_keeps (fun x => (x.run, (x.ctx x.run).pc)) (f := fun x => { x with seen := know })
      (fun _ => rfl) u core
    exact congrArg (fun p : Nat × Word => { u.creq op w t with ctx := p.1, pc := p.2.toNat, no := 0 }) ran
  exact congrArg (fun q : CReq => { q with no := (s.readLsMany core home n as).2.ctr }) keeps
@[simp] theorem State.readLsMany_focus (s : State) (core home n : Nat) (as : List Nat) :
    (s.readLsMany core home n as).2.focus = s.focus :=
  State.readLsMany_keeps State.focus (fun _ _ => rfl) (fun _ _ => rfl) s home n as
@[simp] theorem State.creq_op (s : State) (op : Nat) (w : Word) (t : TokRef) : (s.creq op w t).op = op := rfl

/-- The 32 elements of γ at a, which a core reads one by one in its own local store (R244). -/
def State.gammaRead (u : State) (core a : Nat) : List Nat × State := u.readLsMany core core 2 (laneList (fun i => a + 2 * i))
/-- Where no byte leaves a choice, γ is what memory holds. -/
theorem State.gammaRead_one {u : State} {a : Nat} (one : u.readsOne a 64) :
    u.gammaRead u.focus a = ((List.range 32).map (fun i => u.here.ls.readN (a + 2 * i) 2), u) := by
  refine (State.readLsMany_one (forall_laneList.2 fun i hi j hj => ?_)).trans ?_
  · rw [Nat.add_assoc]
    exact one (2 * i + j) (by omega)
  · rw [laneList, List.map_map]
    rfl

/-- The running core holds one cistern entry more, and its request has a number (R241). -/
def State.entryTaken (u : State) : State := { u.onHere (fun x => { x with cisOut := x.cisOut + 1 }) with ctr := u.ctr + 1 }
/-- A request in the queue of the add path of a cluster, which takes it up at its arrival (R245). -/
def State.addSent (u : State) (cl : Nat) (q : CReq) : State :=
  (u.entryTaken.onCluster cl (fun k => { k with addQ := insertReq q k.addQ })).stepAt q.arrive (.cisternAddPath cl)
/-- A request in the queue of the tap path of a cluster, which takes it up at its arrival (R245). -/
def State.tapSent (u : State) (cl : Nat) (q : CReq) : State :=
  (u.entryTaken.onCluster cl (fun k => { k with tapQ := insertReq q k.tapQ })).stepAt q.arrive (.cisternTapPath cl)
/-- Taps and `cinfo` take the tap path, every other request the add path (R245). -/
theorem State.toCistern_tap {s u : State} {q : CReq} (focus : u.focus = s.focus) (op : q.op = 4 ∨ q.op = 5) :
    u.toCistern q = u.tapSent s.myCluster q := by
  rw [State.myCluster, ← focus]
  exact if_pos (by simpa using op)
theorem State.toCistern_add {s u : State} {q : CReq} (focus : u.focus = s.focus) (op : q.op < 4) :
    u.toCistern q = u.addSent s.myCluster q := by
  rw [State.myCluster, ← focus]
  exact if_neg (by simp only [Bool.or_eq_true, decide_eq_true_eq]; omega)

/-! ### The words -/

section
variable {s : State} {hd : CHead} {c a : BitVec 5} {k : BitVec 4} (may : s.MayRequest (s.me.sReg c.toNat))
include may

/-- `cadd` of a vector register sends its 32 lanes (R242). -/
theorem execCadd_sends {v : BitVec 6} (inside : s.SegInside (s.me.sReg c.toNat))
    (h : CClear s (.cadd hd c v k) hd [.s c.toNat, .v v.toNat] [v.toNat] [k] (some (s.me.tokRef k.toNat)) 0 1 false) :
    execCadd hd c v k s = .next (((s.readied [.s c.toNat, .v v.toNat] 1).onMe (fun x => x.raise (s.me.tokRef k.toNat))).addSent
      s.myCluster { s.creq 0 (s.me.sReg c.toNat) (s.me.tokRef k.toNat) with lanes := lanesOf (s.me.vReg v.toNat) }) := by
  unfold execCadd
  refine issueC_eq h (may.segConds_nil inside) rfl rfl ?_
  simp only [State.readied_tokRef, State.readied_vReg, State.readied_creq]
  exact State.toCistern_add (by simp) (by simp)
/-- `cadd` of a tile row claims the matrix unit; the row's lanes join the request two cycles after the issue (R242, R243). -/
theorem execCaddTile_sends {tl : BitVec 3} (inside : s.SegInside (s.me.sReg c.toNat))
    (free : s.here.unitFree)
    (h : CClear s (.caddTile hd c tl k) hd [.s c.toNat] [] [k] (some (s.me.tokRef k.toNat)) 0 1 false) :
    execCaddTile hd c tl k s = .next ((((s.readied [.s c.toNat] 1).claimed.onMe (fun x => x.raise (s.me.tokRef k.toNat))).addSent
      s.myCluster { s.creq 0 (s.me.sReg c.toNat) (s.me.tokRef k.toNat) with
        tile := some (64 * tl.toNat + refSel (s.me.sReg c.toNat)), form := 1 }).doneAt (s.gts + 2) s.focus s.here.run
      [.addTile s.myCluster s.ctr]) := by
  unfold execCaddTile
  refine issueC_eq h ?_ rfl rfl ?_
  · rw [may.segConds_nil inside, State.matrixConds_nil free, List.nil_append]
  · simp only [State.readied_tokRef, State.readied_creq, State.readied_gts, State.readied_focus, State.readied_run,
      State.readied_myCluster, State.claim_eq ((s.readied_sameUnit _ _).unitFree free)]
    rw [State.toCistern_add (s := s) (by simp) (by simp)]
    rfl
/-- `ctap` sends the γ that it reads as it issues (R244). -/
theorem execCtap_sends {v : BitVec 6} {f : BitVec 3} {gamma : Nat} {r : List Nat × State}
    (reads : r = (s.readied [.s c.toNat] 0).gammaRead s.focus gamma)
    (inside : s.SegInside (s.me.sReg c.toNat))
    (at_ : gamma = (s.namedGroup (s.me.sReg c.toNat)).gaddr + 64 * refSeg (s.me.sReg c.toNat))
    (low : s.here.boundary ≤ gamma) (high : gamma + 64 ≤ lsBytes) (held : s.lineHeld gamma 64 = false)
    (h : CClear s (.ctap hd v c k f) hd [.s c.toNat] [v.toNat] [k] (some (s.me.tokRef k.toNat)) 0 0 false) :
    execCtap hd v c k f s = .next ((r.2.longStart (.v v.toNat) (s.me.tokRef k.toNat)).tapSent s.myCluster
      { s.creq 4 (s.me.sReg c.toNat) (s.me.tokRef k.toNat) with lanes := r.1, form := f.toNat, d := v.toNat, no := r.2.ctr }) := by
  subst at_ reads
  have ref : s.badRef (s.me.sReg c.toNat) true = [] := may.badRef_nil (fun _ => inside)
  unfold execCtap
  refine issueC_eq h ?_ held rfl ?_
  · rw [ref, may.cisFull_nil]
    exact (List.append_nil _).trans (State.gammaBad_nil low high)
  · simp only [State.readied_tokRef, State.readied_focus, State.readLsMany_creq, State.readied_creq, State.gammaRead, laneList,
      State.namedGroup]
    exact State.toCistern_tap (by simp) (by simp)
/-- `cscrub` sends a request without operands (R248). -/
theorem execCscrub_sends (h : CClear s (.cscrub hd c k) hd [.s c.toNat] [] [k] (some (s.me.tokRef k.toNat)) 0 0 false) :
    execCscrub hd c k s = .next (((s.readied [.s c.toNat] 0).onMe (fun x => x.raise (s.me.tokRef k.toNat))).addSent s.myCluster
      (s.creq 1 (s.me.sReg c.toNat) (s.me.tokRef k.toNat))) := by
  unfold execCscrub
  refine issueC_eq h may.conds_nil rfl rfl ?_
  simp only [State.readied_tokRef, State.readied_creq]
  exact State.toCistern_add (by simp) (by simp)
/-- `cinfo` asks for one of the seven values of a group (R252). -/
theorem execCinfo_sends {d : BitVec 5} (value : refSel (s.me.sReg c.toNat) ≤ 6)
    (h : CClear s (.cinfo hd d c) hd [.s c.toNat] [] [] (some s.me.ltkRef) 0 0 false) :
    execCinfo hd d c s = .next (((s.readied [.s c.toNat] 0).longStart (.s d.toNat) s.me.ltkRef).tapSent s.myCluster
      { s.creq 5 (s.me.sReg c.toNat) s.me.ltkRef with d := d.toNat }) := by
  unfold execCinfo
  refine issueC_eq h ?_ rfl rfl ?_
  · rw [decide_eq_false (Nat.not_lt.2 value), condIf_false, List.append_nil, may.conds_nil]
  · simp only [State.readied_ltkRef, State.readied_creq]
    exact State.toCistern_tap (by simp) (by simp)
/-- The remote request of a spill or of a fill stays at its core, under the number that the request to the cistern names (R133, R249). -/
theorem issueImage_sends {i : Instr} {op : Nat} {body : Nat → Nat → Body} (align : (s.me.sReg a.toNat).toNat % 128 = 0) (hop : op < 4)
    (h : CClear s i hd [.s c.toNat, .s a.toNat] [] [k] (some (s.me.tokRef k.toNat)) 1 1 false) :
    ∃ m, issueImage i hd op c a k body s = .next (State.addSent
        { ((s.readied [.s c.toNat, .s a.toNat] 1).onMe (fun x => x.raise (s.me.tokRef k.toNat))).onMe Ctx.takeSeq with
          bag := tput s.bag s.ctr m, ctr := s.ctr + 1 } s.myCluster
        { s.creq op (s.me.sReg c.toNat) (s.me.tokRef k.toNat) with msg := s.ctr }) ∧
      m.body = body (refRow (s.me.sReg c.toNat)) (s.me.sReg a.toNat).toNat ∧ m.seq = s.me.nseq ∧
      m.tok = some (s.me.tokRef k.toNat) ∧ m.know = s.here.seen := by
  let u := (s.readied [.s c.toNat, .s a.toNat] 1).onMe (fun x => x.raise (s.me.tokRef k.toNat))
  let m : Msg := { u.newMsg (.task u.myCluster 0) none (some (s.me.tokRef k.toNat))
    (body (refRow (s.me.sReg c.toNat)) (s.me.sReg a.toNat).toNat) with know := s.here.seen }
  have seq : u.me.nseq = s.me.nseq := by
    rw [State.onMe_proj _ _ Ctx.nseq (fun x => Ctx.raise_keeps Ctx.nseq (fun _ _ _ => rfl) x _), State.readied_nseq]
  refine ⟨m, ?_, rfl, seq, rfl, rfl⟩
  unfold issueImage
  refine issueC_eq h ?_ rfl rfl ?_
  · rw [misaligned_nil align, List.nil_append, may.conds_nil]
  · simp only [State.readied_tokRef, State.readied_creq, State.readied_seen, State.requestHeld, State.onMe_bag, State.onMe_ctr,
      State.readied_bag, State.readied_ctr]
    exact State.toCistern_add (by simp) hop
end

/-- Settles O32: the request that the statement writes out is that of the running context, and its number is the model's counter. -/
theorem cisternWordResults : Obligations.CisternWordResults := by
  intro s hd v c a d tl f k b w row seg sel g t l one vec img va gamma q out adds taps up hw hst hout
  have hq : q = fun op t => s.creq op (s.me.sReg c.toNat) t := by
    funext op t
    simp only [State.creq, refRow_eq, refSeg_eq, refSel_eq]
    rfl
  have hrow : row = refRow (s.me.sReg c.toNat) := (refRow_eq _).symm
  have hseg : seg = refSeg (s.me.sReg c.toNat) := (refSeg_eq _).symm
  have hsel : sel = refSel (s.me.sReg c.toNat) := (refSel_eq _).symm
  have hg : g = s.namedGroup (s.me.sReg c.toNat) := congrArg (s.cgroup s.myCluster) hrow
  have may : s.MayRequest (s.me.sReg c.toNat) := ⟨hw, hg ▸ hst, hout⟩
  rw [hq]
  refine ⟨fun inside => ?_, execCscrub_sends may, fun h hle => execCinfo_sends may (hsel ▸ hle) h, fun p hp h align => ?_⟩
  · replace inside : s.SegInside (s.me.sReg c.toNat) := by rwa [State.SegInside, ← hseg, ← hg]
    refine ⟨execCadd_sends may inside, fun h free => ?_, fun h low high held => ?_⟩
    · rw [hsel]
      exact execCaddTile_sends may inside free h
    · intro r
      have reads : r = (s.readied one 0).gammaRead s.focus gamma := rfl
      refine ⟨execCtap_sends may reads inside (by rw [← hg, ← hseg]) low high held h, fun settled => ?_⟩
      rw [reads, ← s.readied_focus one 0, State.gammaRead_one ((s.readied_sameStore one 0).readsOne settled), State.readied_ls]
  · simp only [List.mem_cons, List.not_mem_nil, or_false] at hp
    rw [hrow] at hp
    obtain rfl | rfl := hp
    · exact issueImage_sends (body := fun row va => .spill row va (b == 1)) may align (show 2 < 4 by omega) h
    · exact issueImage_sends (body := fun row va => .fill row va (b == 1)) may align (show 3 < 4 by omega) h

end Sys2Proof.Machine
end

section
/-! ## What a C-slot word leaves alone
A step of the running context that writes neither a register nor memory (R42, R61), as a relation that composes. -/
namespace Sys2Proof.Machine

/-- What such a step keeps of the running context: its s, v and p registers with their queued results, its exception and control
registers, and its handler tokens. -/
structure Ctx.Keeps (c d : Ctx) : Prop where
  registers : (d.s, d.v, d.p, d.fixed) = (c.s, c.v, c.p, c.fixed)
  exceptions : (d.epc, d.ecause, d.einfo, d.inh) = (c.epc, c.ecause, c.einfo, c.inh)
  control : (d.level, d.ltk, d.uwtrap, d.bound, d.t) = (c.level, c.ltk, c.uwtrap, c.bound, c.t)
theorem Ctx.Keeps.refl (c : Ctx) : c.Keeps c := ⟨rfl, rfl, rfl⟩
theorem Ctx.Keeps.trans {c d e : Ctx} (h : c.Keeps d) (k : d.Keeps e) : c.Keeps e :=
  ⟨k.registers.trans h.registers, k.exceptions.trans h.exceptions, k.control.trans h.control⟩

/-- `t` is `s` after such a step: the same context runs on the same core. -/
structure State.Keeps (s t : State) : Prop where
  focus : t.focus = s.focus
  run : t.here.run = s.here.run
  me : s.me.Keeps t.me
  ctxs : ∀ j, j ≠ s.here.run → t.here.ctx j = s.here.ctx j
  stores : (t.here.ls, t.here.b) = (s.here.ls, s.here.b)
  cores : ∀ n, n ≠ s.focus → t.coreOf n = s.coreOf n
  outside : (t.pa, t.host, t.peer) = (s.pa, s.host, s.peer)

theorem State.Keeps.trans {s t u : State} (h : s.Keeps t) (k : t.Keeps u) : s.Keeps u where
  focus := k.focus.trans h.focus
  run := k.run.trans h.run
  me := h.me.trans k.me
  ctxs j hj := (k.ctxs j (by rwa [h.run])).trans (h.ctxs j hj)
  stores := k.stores.trans h.stores
  cores n hn := (k.cores n (by rwa [h.focus])).trans (h.cores n hn)
  outside := k.outside.trans h.outside
theorem State.Keeps.framed {s t : State} (h : s.Keeps t) : s.framed t := by
  obtain ⟨-, -, ⟨registers, exceptions, control⟩, ctxs, stores, cores, outside⟩ := h
  simp only [Prod.mk.injEq] at registers exceptions control stores outside
  obtain ⟨hs, hv, hp, hfixed⟩ := registers
  obtain ⟨hepc, hecause, heinfo, hinh⟩ := exceptions
  obtain ⟨hlevel, hltk, huwtrap, hbound, ht⟩ := control
  exact ⟨hs, hv, hp, hfixed, hepc, hecause, heinfo, hinh, hlevel, hltk, huwtrap, hbound, ht, ctxs, stores.1, stores.2, cores, outside⟩

theorem State.Keeps.readied (s : State) (srcs : List RegId) (m : Nat) : s.Keeps (s.readied srcs m) where
  focus := s.readied_focus srcs m
  run := s.readied_run srcs m
  me := ⟨s.readied_proj srcs m (fun c => (c.s, c.v, c.p, c.fixed)) fun _ _ => rfl,
    s.readied_proj srcs m (fun c => (c.epc, c.ecause, c.einfo, c.inh)) fun _ _ => rfl,
    s.readied_proj srcs m (fun c => (c.level, c.ltk, c.uwtrap, c.bound, c.t)) fun _ _ => rfl⟩
  ctxs _ hj := s.readied_ctx_ne srcs m hj
  stores := s.readied_here srcs m (fun x => (x.ls, x.b)) fun _ _ _ _ => rfl
  cores _ hn := s.readied_coreOf_ne srcs m hn
  outside := by simp
theorem State.Keeps.onMe {s : State} {f : Ctx → Ctx} (h : ∀ c : Ctx, c.Keeps (f c)) : s.Keeps (s.onMe f) where
  focus := rfl
  run := by simp
  me := by
    obtain e | e := s.me_onMe_cases f
    · exact e ▸ h s.me
    · exact e ▸ .refl s.me
  ctxs j hj := by rw [State.here_onMe, CoreSt.ctx_setCtx_ne _ _ hj]
  stores := by simp
  cores _ hn := State.coreOf_setCore_ne _ _ hn
  outside := rfl
/-- A step that touches no core and no memory. -/
theorem State.Keeps.of_cores {s t : State} (cores : t.cores = s.cores) (focus : t.focus = s.focus)
    (outside : (t.pa, t.host, t.peer) = (s.pa, s.host, s.peer)) : s.Keeps t := by
  have core (n : Nat) : t.coreOf n = s.coreOf n := congrArg (fun x => tget x CoreSt.reset n) cores
  have here : t.here = s.here := by rw [State.here, focus, core, State.here]
  have me : t.me = s.me := by rw [State.me, here, State.me]
  exact ⟨focus, by rw [here], me ▸ .refl s.me, fun _ _ => by rw [here], by rw [here], fun n _ => core n, outside⟩

end Sys2Proof.Machine
end

section
/-! ## Handles and the lineage table
Handle registers, the entries of the lineage table and the free entries of a slice, as the words of chapter 12 use them (R257, R260). -/
namespace Sys2Proof.Machine

/-! ### Handle registers -/

theorem Ctx.hReg_setHandle (c : Ctx) {n : Nat} (h : n < 16) (r : HReg) (m : Nat) :
    (c.setHandle n r).hReg m = if m = n then r else c.hReg m := getD_setIfInBounds c.h h r _ m
@[simp] theorem Ctx.hReg_setHandle_same (c : Ctx) {n : Nat} (h : n < 16) (r : HReg) : (c.setHandle n r).hReg n = r :=
  (c.hReg_setHandle h r n).trans (if_pos rfl)
theorem Ctx.hReg_setHandle_ne (c : Ctx) {n m : Nat} (h : n < 16) (hm : m ≠ n) (r : HReg) : (c.setHandle n r).hReg m = c.hReg m :=
  (c.hReg_setHandle h r m).trans (if_neg hm)
@[simp] theorem Ctx.hReg_takeSeq (c : Ctx) (n : Nat) : c.takeSeq.hReg n = c.hReg n := rfl
theorem Ctx.Keeps.setHandle {c d : Ctx} (k : c.Keeps d) (n : Nat) (r : HReg) : c.Keeps (d.setHandle n r) := k.trans ⟨rfl, rfl, rfl⟩
/-- An Empty or Vacant register is not a Live one. -/
theorem Ctx.hReg_ne {c : Ctx} {m n : Nat} (live : (c.hReg m).st = .live) (free : (c.hReg n).st = .empty ∨ (c.hReg n).st = .vacant) :
    n ≠ m := by
  rintro rfl
  rw [live] at free
  exact absurd free (by decide)

theorem Ctx.handleSrc_nil {c : Ctx} {n : Nat} (live : (c.hReg n).st = .live) : c.handleSrc n = [] := by
  rw [Ctx.handleSrc, live]
theorem Ctx.isLive_of {c : Ctx} {n : Nat} (live : (c.hReg n).st = .live) : c.isLive n = true := beq_iff_eq.2 live
/-- A destination is Empty or Vacant, or a register that the word reads (R257). -/
theorem Ctx.handleDst_nil {c : Ctx} {n : Nat} {reads : List Nat}
    (free : ((c.hReg n).st = .empty ∨ (c.hReg n).st = .vacant) ∨ n ∈ reads) : c.handleDst n reads = [] := by
  obtain (empty | vacant) | own := free
  · rw [Ctx.handleDst, empty]
  · rw [Ctx.handleDst, vacant]
  · have read : reads.contains n = true := List.contains_iff_mem.2 own
    unfold Ctx.handleDst
    rw [read]
    cases (c.hReg n).st <;> rfl

/-! ### Entries -/

@[simp] theorem State.lentry_onLentry (s : State) (cl e : Nat) (f : LEntry → LEntry) :
    (s.onLentry cl e f).lentry cl e = f (s.lentry cl e) := by
  rw [State.lentry, State.onLentry, State.clusterAt_onCluster]
  exact tget_tput_same _ _ _ _
theorem State.lentry_onLentry_ne (s : State) (cl : Nat) {e n : Nat} (h : n ≠ e) (f : LEntry → LEntry) :
    (s.onLentry cl e f).lentry cl n = s.lentry cl n := by
  rw [State.lentry, State.onLentry, State.clusterAt_onCluster]
  exact tget_tput_ne _ _ _ h
@[simp] theorem State.taken_onLentry (s : State) (cl e : Nat) (f : LEntry → LEntry) :
    ((s.onLentry cl e f).clusterAt cl).taken = (s.clusterAt cl).taken := by
  rw [State.onLentry, State.clusterAt_onCluster]

section
variable (s : State) (cl e : Nat) (know : Seen)
@[simp] theorem State.takeEntry_taken : ((s.takeEntry cl e know).clusterAt cl).taken = (s.clusterAt cl).taken ++ [e] := by
  rw [State.takeEntry, State.taken_onLentry, State.clusterAt_onCluster]
@[simp] theorem State.takeEntry_lentry : (s.takeEntry cl e know).lentry cl e = { LEntry.reset with know := know } :=
  State.lentry_onLentry _ cl e _
theorem State.takeEntry_lentry_ne {n : Nat} (h : n ≠ e) : (s.takeEntry cl e know).lentry cl n = s.lentry cl n := by
  rw [State.takeEntry, State.lentry_onLentry_ne _ _ h, State.lentry, State.clusterAt_onCluster]
  rfl
@[simp] theorem State.takeEntry_me : (s.takeEntry cl e know).me = s.me := rfl
@[simp] theorem State.takeEntry_due : (s.takeEntry cl e know).due = s.due := rfl
@[simp] theorem State.takeEntry_gts : (s.takeEntry cl e know).gts = s.gts := rfl
/-- A word takes a free entry for a handle (R260). -/
theorem State.Keeps.takeEntry {s u : State} (k : s.Keeps u) (cl e : Nat) (know : Seen) : s.Keeps (u.takeEntry cl e know) :=
  k.trans (.of_cores rfl rfl rfl)
end

theorem State.sliceFull_nil {s : State} {n : Nat} (h : n ≤ s.freeEntries.length) : s.sliceFull n = [] := by
  rw [State.sliceFull, decide_eq_false (Nat.not_lt.2 h)]
  rfl
/-- No entry is free twice. -/
theorem State.freeEntries_nodup (s : State) : s.freeEntries.Nodup := by
  refine List.Nodup.filter _ (List.Nodup.map (fun a b h => ?_) List.nodup_range)
  exact Nat.add_left_cancel h
theorem State.freeEntries_ne {s : State} {e0 e1 : Nat} {rest : List Nat} (free : s.freeEntries = e0 :: e1 :: rest) : e0 ≠ e1 := by
  have nodup := s.freeEntries_nodup
  rw [free, List.nodup_cons] at nodup
  exact fun e => nodup.1 (e ▸ List.mem_cons_self)

/-! ### What a ready word finds -/

section
variable (s : State) (srcs : List RegId) (m : Nat)
@[simp] theorem State.readied_makes (parent : Nat) (root side : Bool) (view : View) (reg : Nat) :
    (s.readied srcs m).makes parent root side view reg = s.makes parent root side view reg := by
  simp only [State.makes, State.readied_task, State.readied_run, State.readied_core_hid]
@[simp] theorem State.readied_regionKnow (v : View) : (s.readied srcs m).regionKnow v = s.regionKnow v := by
  simp only [State.regionKnow, State.readied_seen, State.readied_myCluster]
end

end Sys2Proof.Machine
end

section
/-! ## Handle words
`hnew`, `hmov`, `hsplit` and `hsend` (R263 to R266); O33. -/
namespace Sys2Proof.Machine

/-! ### New chambers -/

/-- A chamber of n bytes at this address lies in the running core's own local store at or above the boundary, or in the cluster
window (R263). -/
def State.chamberFits (s : State) (a n : Nat) : Prop :=
  a < lsBytes ∧ s.here.boundary ≤ a ∧ a + n ≤ lsBytes ∨ 0x1000000 ≤ a ∧ a < 0x1600000 ∧ a + n ≤ 0x1600000
/-- The view of a new chamber at an address that a core of this member number names (R263). -/
def View.placed (v : View) (a member : Nat) : View :=
  if a < lsBytes then { v with base := a, window := false, home := member }
  else { v with base := a - 0x1000000, window := true, home := (a - 0x1000000) / 128 % 16 }

theorem classify_window {a : Nat} (low : 0x1000000 ≤ a) (high : a < 0x1600000) : ∃ m off, classify a = .window m off := by
  have own : ¬ a < 0x60000 := by omega
  exact ⟨_, _, (if_neg own).trans (if_pos ⟨low, high⟩)⟩
theorem newConds_nil {s : State} {a b : Nat} (ha : a % 128 = 0) (hb : b % 16 = 0) (own : b < lsBytes)
    (formed : (View.ofDesc (s.here.ls.readN b 16)).2 = true) (fits : s.chamberFits a (View.ofDesc (s.here.ls.readN b 16)).1.bytes) :
    newConds s a b = [] := by
  rw [newConds]
  simp only [misaligned_nil ha, misaligned_nil hb, ownOnly_nil own, formed, Bool.true_and, Bool.not_true, condIf_false]
  obtain ⟨store, low, high⟩ | ⟨low, high, top⟩ := fits
  · rw [classify_own store]
    simp [condIf, Nat.not_lt.2 low, Nat.not_lt.2 high]
  · obtain ⟨m, off, e⟩ := classify_window low high
    rw [e]
    simp [condIf, Nat.not_lt.2 top]

/-! ### Words on handles -/

/-- What the running context of s leaves of the state u when it changes handle registers: the lineage table takes the changes three
cycles later (R260). -/
def State.handled (s u : State) (chs : List (Nat × Nat × LChange)) (f : Ctx → Ctx) : State :=
  (u.lineageAt s.focus s.here.run chs).onMe f
section
variable {s u : State} (chs : List (Nat × Nat × LChange)) (f : Ctx → Ctx)
theorem State.handled_gts : (s.handled u chs f).gts = u.gts := rfl
theorem State.handled_bag : (s.handled u chs f).bag = u.bag := rfl
theorem State.handled_ctr : (s.handled u chs f).ctr = u.ctr := rfl
theorem State.handled_clusters : (s.handled u chs f).clusters = u.clusters := rfl
theorem State.handled_clusterAt (cl : Nat) : (s.handled u chs f).clusterAt cl = u.clusterAt cl := rfl
theorem State.handled_lentry (cl e : Nat) : (s.handled u chs f).lentry cl e = u.lentry cl e := rfl
theorem State.handled_due : (s.handled u chs f).due =
    u.due ++ [⟨u.gts + 3, .done s.focus s.here.run (chs.map (fun c => .lineage c.1 c.2.1 c.2.2))⟩] := rfl
variable (k : s.Keeps u)
include k
theorem State.handled_me (hrun : s.here.run < 11) : (s.handled u chs f).me = f u.me :=
  State.me_onMe _ _ (k.run.trans_lt hrun)
theorem State.handled_keeps (hf : ∀ c : Ctx, c.Keeps (f c)) : s.Keeps (s.handled u chs f) :=
  (k.trans (.of_cores (t := u.lineageAt s.focus s.here.run chs) rfl rfl rfl)).trans (.onMe hf)
end

section
variable {s : State} {hd : CHead}

/-- `hnew` (R263). -/
theorem execHnew_makes {h : BitVec 4} {a b : BitVec 5} {v vw : View} {e : Nat} {rest : List Nat}
    (desc : View.ofDesc (s.here.ls.readN (s.me.sReg b.toNat).toNat 16) = (v, true))
    (dst : (s.me.hReg h.toNat).st = .empty ∨ (s.me.hReg h.toNat).st = .vacant)
    (ha : (s.me.sReg a.toNat).toNat % 128 = 0) (hb : (s.me.sReg b.toNat).toNat % 16 = 0) (own : (s.me.sReg b.toNat).toNat < lsBytes)
    (held : s.lineHeld (s.me.sReg b.toNat).toNat 16 = false) (fits : s.chamberFits (s.me.sReg a.toNat).toNat v.bytes)
    (free : s.freeEntries = e :: rest) (at_ : vw = v.placed (s.me.sReg a.toNat).toNat (memberOf s.focus))
    (clear : CClear s (.hnew hd h a b) hd [.s a.toNat, .s b.toNat] [] [] none 0 0 false) :
    execHnew hd h a b s = .next (s.handled
      ((s.readied [.s a.toNat, .s b.toNat] 0).takeEntry s.myCluster e (s.regionKnow vw))
      [(s.myCluster, e, s.makes e true false vw h.toNat)]
      (fun c => c.setHandle h.toNat
        { st := .live, val := { cluster := s.myCluster, root := true, side := false, parent := e, entry := e }, view := vw })) := by
  subst at_
  unfold execHnew
  refine issueC_eq clear ?_ held rfl ?_
  · rw [newConds_nil ha hb own (by rw [desc]) (by rwa [desc]), Ctx.handleDst_nil (.inl dst), State.sliceFull_nil (by rw [free]; simp)]
    rfl
  · simp only [State.readied_ls, desc, State.readied_freeEntries, free, List.headD_cons, State.readied_focus, State.readied_run,
      State.readied_myCluster, State.readied_makes, State.readied_regionKnow]
    obtain ⟨store, -⟩ | ⟨low, high, -⟩ := fits
    · simp only [classify_own store, View.placed, if_pos store]
      rfl
    · obtain ⟨m, off, e⟩ := classify_window low high
      have window : ¬ (s.me.sReg a.toNat).toNat < lsBytes := by
        rw [lsBytes]
        omega
      simp only [e, View.placed, if_neg window]
      rfl
/-- `hmov` (R264). -/
theorem execHmov_moves {h g : BitVec 4} (src : (s.me.hReg g.toNat).st = .live)
    (dst : (s.me.hReg h.toNat).st = .empty ∨ (s.me.hReg h.toNat).st = .vacant)
    (clear : CClear s (.hmov hd h g) hd [] [] [] none 0 0 false) :
    execHmov hd h g s = .next (s.handled (s.readied [] 0)
      [((s.me.hReg g.toNat).val.cluster, (s.me.hReg g.toNat).val.entry, .reg h.toNat)]
      (fun c => (c.setHandle g.toNat HReg.vacant).setHandle h.toNat (s.me.hReg g.toNat))) := by
  refine issueC_eq clear ?_ rfl rfl ?_
  · rw [Ctx.handleSrc_nil src, Ctx.handleDst_nil (.inl dst), List.append_nil]
  · simp only [State.readied_hReg, State.readied_focus, State.readied_run]
    rfl
/-- An axis and an index at which a view splits in two (R265). -/
def View.splitsAt (v : View) (x i : Nat) : Prop :=
  x < v.nax ∧ 0 < i ∧ i < axis v.ext x ∧ (x + 1 = v.nax → i * v.z % 128 = 0)
theorem splitBad_nil {c : Ctx} {x a b d : Nat} {i : Word} (hbd : b ≠ d) (splits : (c.hReg a).view.splitsAt x i.toNat) :
    splitBad c x a b d i = [] := by
  obtain ⟨ax, pos, inside, cells⟩ := splits
  have whole : (x + 1 == (c.hReg a).view.nax && i.toNat * (c.hReg a).view.z % 128 != 0) = false := by
    rw [Bool.and_eq_false_imp]
    intro last
    simp [cells (beq_iff_eq.1 last)]
  have index : (i.toNat == 0) = false := beq_eq_false_iff_ne.2 (Nat.ne_of_gt pos)
  rw [splitBad]
  simp only [beq_eq_false_iff_ne.2 hbd, decide_eq_false (Nat.not_le.2 ax), index, decide_eq_false (Nat.not_le.2 inside), whole,
    Bool.or_self, Bool.and_false, condIf_false]
/-- The value of a child of the handle value v at an entry (R265). -/
def HVal.child (v : HVal) (cl : Nat) (side : Bool) (e : Nat) : HVal :=
  { cluster := cl, root := false, side := side, parent := v.entry, entry := e }
/-- `hsplit` (R265). -/
theorem execHsplit_splits {x : BitVec 2} {g h b : BitVec 4} {sl : BitVec 4} {e0 e1 : Nat} {rest : List Nat}
    (src : (s.me.hReg g.toNat).st = .live) (hb : h ≠ b)
    (dst0 : ((s.me.hReg h.toNat).st = .empty ∨ (s.me.hReg h.toNat).st = .vacant) ∨ h = g)
    (dst1 : ((s.me.hReg b.toNat).st = .empty ∨ (s.me.hReg b.toNat).st = .vacant) ∨ b = g)
    (splits : (s.me.hReg g.toNat).view.splitsAt x.toNat (s.me.sReg sl.toNat).toNat)
    (free : s.freeEntries = e0 :: e1 :: rest) (clear : CClear s (.hsplit hd x g h b sl) hd [.s sl.toNat] [] [] none 0 0 false) :
    let p := (s.me.hReg g.toNat).val
    let know := (s.lentry s.myCluster p.entry).know
    let w (up : Bool) : View := (s.me.hReg g.toNat).view.child x.toNat (s.me.sReg sl.toNat).toNat up
    execHsplit hd x g h b sl s = .next (s.handled
      (((s.readied [.s sl.toNat] 0).takeEntry s.myCluster e0 know).takeEntry s.myCluster e1 know)
      [(s.myCluster, e0, s.makes p.entry false false (w false) h.toNat), (s.myCluster, e1, s.makes p.entry false true (w true) b.toNat),
        (s.myCluster, p.entry, .split e0 e1)]
      (fun c => ((c.setHandle g.toNat HReg.vacant).setHandle h.toNat
        { st := .live, val := p.child s.myCluster false e0, view := w false }).setHandle b.toNat
        { st := .live, val := p.child s.myCluster true e1, view := w true })) := by
  have reads {n : BitVec 4} (own : n = g) : n.toNat ∈ [g.toNat] := List.mem_singleton.2 (congrArg _ own)
  unfold execHsplit
  refine issueC_eq clear ?_ rfl rfl ?_
  · rw [splitBad_nil (fun e => hb (BitVec.eq_of_toNat_eq e)) splits, Ctx.handleSrc_nil src, Ctx.handleDst_nil (dst0.imp_right reads),
      Ctx.handleDst_nil (dst1.imp_right reads), State.sliceFull_nil (by rw [free]; simp)]
    rfl
  · simp only [State.readied_hReg, State.readied_focus, State.readied_run, State.readied_freeEntries, free, State.readied_lentry,
      State.readied_myCluster, State.readied_makes, List.headD_cons, List.drop_succ_cons, List.drop_zero]
    rfl

/-- What a handle's departure leaves of the state u: a remote request that stays at its core (R266). -/
def State.handleSent (u : State) (ent : Entry) (task : Nat) (v : HVal) : State :=
  let p := u.requestHeld (u.nearCore (u.srcOf u.focus u.here.run) task) none task (.hsend ent task v)
  p.2.soonAfter (u.gts + 3) (.hsendDepart p.1)
/-- The entry that an `hsend` of the running context sends (R266). -/
def State.handleEntry (s : State) (dst : Word) (v : HVal) : Entry := { s.sentEntry dst (BitVec.ofNat 192 v.pack) with kind := 2 }
/-- `hsend` (R266). -/
theorem execHsend_sends {h : BitVec 4} {a : BitVec 5} (src : (s.me.hReg h.toNat).st = .live)
    (clear : CClear s (.hsend hd h a) hd [.s a.toNat] [] [] none 1 1 false) :
    let v := (s.me.hReg h.toNat).val
    execHsend hd h a s = .next ((s.handled (s.readied [.s a.toNat] 1) [(v.cluster, v.entry, .send)]
      (fun c => c.setHandle h.toNat HReg.vacant)).handleSent
        ((s.readied [.s a.toNat] 1).handleEntry (s.me.sReg a.toNat) v) (wfld (s.me.sReg a.toNat) 0 20) v) := by
  refine issueC_eq clear (Ctx.handleSrc_nil src) rfl rfl ?_
  rw [← s.readied_sReg [.s a.toNat] 1, ← s.readied_hReg [.s a.toNat] 1, State.handled, ← s.readied_focus [.s a.toNat] 1,
    ← s.readied_run [.s a.toNat] 1]
  rfl
end

/-! ### What a departure leaves -/

section
variable (u : State) (ent : Entry) (task : Nat) (v : HVal)
theorem State.handleSent_keeps : u.Keeps (u.handleSent ent task v) :=
  .trans (.onMe (f := Ctx.takeSeq) fun _ => ⟨rfl, rfl, rfl⟩) (.of_cores rfl rfl rfl)
theorem State.handleSent_me (hrun : u.here.run < 11) : (u.handleSent ent task v).me = u.me.takeSeq := State.me_onMe u Ctx.takeSeq hrun
theorem State.handleSent_due : ∃ g, u.gts + 3 ≤ g ∧ (u.handleSent ent task v).due = u.due ++ [⟨g, .step (.hsendDepart u.ctr)⟩] :=
  ⟨_, Nat.le_max_left _ _, rfl⟩
theorem State.handleSent_bag : ∃ m : Msg, (u.handleSent ent task v).bag = tput u.bag u.ctr m ∧ m.body = .hsend ent task v ∧
    m.seq = u.me.nseq := ⟨_, rfl, rfl, rfl⟩
end

/-- Settles O33: each word is its rule above; what it leaves is read off the handle registers, the entries taken and the changes that
the lineage table takes three cycles later. -/
theorem handleWordResults : Obligations.HandleWordResults := by
  intro s hd h g b2 a b x sl hrun cl k frees av bv desc v st open_ rg i two hid later
  refine ⟨?new, ?mov, ?split, ?send⟩
  case new =>
    intro clear dst ha hb own held formed fits e rest hfree vw
    have shape : View.ofDesc (s.here.ls.readN bv 16) = (v, true) := Prod.ext rfl formed
    have keeps := (State.Keeps.readied s [.s a.toNat, .s b.toNat] 0).takeEntry s.myCluster e (s.regionKnow vw)
    refine ⟨_, execHnew_makes (vw := vw) shape dst ha hb own held fits hfree rfl clear,
      (State.handled_keeps _ _ keeps fun c => (Ctx.Keeps.refl c).setHandle _ _).framed,
      ?due, ?taken, ?entry, fun e' hne => ?entries, ?reg, fun n hn => ?regs⟩
    case due =>
      simp only [later, State.handled_due, State.takeEntry_due, State.takeEntry_gts, State.readied_due, State.readied_gts]
      rfl
    case taken => rw [State.handled_clusterAt, State.takeEntry_taken, State.readied_clusterAt]
    case entry =>
      rw [State.handled_lentry, State.takeEntry_lentry]
      rfl
    case entries => rw [State.handled_lentry, State.takeEntry_lentry_ne _ _ _ _ hne, State.readied_lentry]
    case reg => rw [State.handled_me _ _ keeps hrun, Ctx.hReg_setHandle_same _ h.isLt]
    case regs => rw [State.handled_me _ _ keeps hrun, Ctx.hReg_setHandle_ne _ h.isLt hn, State.takeEntry_me, State.readied_hReg]
  case mov =>
    intro clear src dst
    have keeps := State.Keeps.readied s [] 0
    refine ⟨_, execHmov_moves src dst clear,
      (State.handled_keeps _ _ keeps fun c => ((Ctx.Keeps.refl c).setHandle _ _).setHandle _ _).framed, ?reg, ?source,
      fun n hh hg => ?regs, ?due, ?clusters⟩
    case reg => rw [State.handled_me _ _ keeps hrun, Ctx.hReg_setHandle_same _ h.isLt]
    case source =>
      rw [State.handled_me _ _ keeps hrun, Ctx.hReg_setHandle_ne _ h.isLt (Ctx.hReg_ne src dst).symm, Ctx.hReg_setHandle_same _ g.isLt]
      rfl
    case regs =>
      rw [State.handled_me _ _ keeps hrun, Ctx.hReg_setHandle_ne _ h.isLt hh, Ctx.hReg_setHandle_ne _ g.isLt hg, State.readied_hReg]
    case due =>
      simp only [later, State.handled_due, State.readied_due, State.readied_gts]
      rfl
    case clusters => rw [State.handled_clusters, State.readied_clusters]
  case split =>
    intro clear src hne dst0 dst1 ax pos inside cells e0 e1 rest hfree child val make
    have he : e0 ≠ e1 := s.freeEntries_ne hfree
    let know := (s.lentry cl rg.val.entry).know
    have keeps := ((State.Keeps.readied s [.s sl.toNat] 0).takeEntry s.myCluster e0 know).takeEntry s.myCluster e1 know
    refine ⟨_, execHsplit_splits src hne dst0 dst1 ⟨ax, pos, inside, cells⟩ hfree clear,
      (State.handled_keeps _ _ keeps fun c => (((Ctx.Keeps.refl c).setHandle _ _).setHandle _ _).setHandle _ _).framed, ?lower, ?upper,
      fun hgh hgb => ?source, ?due, ?taken, ?know0, ?know1⟩
    case due =>
      simp only [later, State.handled_due, State.takeEntry_due, State.takeEntry_gts, State.readied_due, State.readied_gts]
      rfl
    case lower =>
      rw [State.handled_me _ _ keeps hrun, Ctx.hReg_setHandle_ne _ b2.isLt (BitVec.toNat_ne_iff_ne.2 hne), Ctx.hReg_setHandle_same _ h.isLt]
      rfl
    case upper =>
      rw [State.handled_me _ _ keeps hrun, Ctx.hReg_setHandle_same _ b2.isLt]
      rfl
    case source =>
      rw [State.handled_me _ _ keeps hrun, Ctx.hReg_setHandle_ne _ b2.isLt (BitVec.toNat_ne_iff_ne.2 hgb),
        Ctx.hReg_setHandle_ne _ h.isLt (BitVec.toNat_ne_iff_ne.2 hgh), Ctx.hReg_setHandle_same _ g.isLt]
      rfl
    case taken => rw [State.handled_clusterAt, State.takeEntry_taken, State.takeEntry_taken, State.readied_clusterAt]
    case know0 => rw [State.handled_lentry, State.takeEntry_lentry_ne _ _ _ _ he, State.takeEntry_lentry]
    case know1 => rw [State.handled_lentry, State.takeEntry_lentry]
  case send =>
    intro clear src r
    let ready := s.readied [.s a.toNat] 1
    let u := s.handled ready [(r.val.cluster, r.val.entry, .send)] (fun c => c.setHandle h.toNat HReg.vacant)
    have keeps : s.Keeps ready := State.Keeps.readied s [.s a.toNat] 1
    have kept : s.Keeps u := State.handled_keeps _ _ keeps fun c => (Ctx.Keeps.refl c).setHandle _ _
    have me : u.me = ready.me.setHandle h.toNat HReg.vacant := State.handled_me _ _ keeps hrun
    let ent := ready.handleEntry (s.me.sReg a.toNat) r.val
    let task := wfld (s.me.sReg a.toNat) 0 20
    have sent : (u.handleSent ent task r.val).me = u.me.takeSeq := u.handleSent_me _ _ _ (kept.run.trans_lt hrun)
    obtain ⟨m, bag, body, seq⟩ := u.handleSent_bag ent task r.val
    obtain ⟨g, late, due⟩ := u.handleSent_due ent task r.val
    refine ⟨_, m, ent, g, execHsend_sends src clear, (kept.trans (u.handleSent_keeps ent task r.val)).framed, ?reg, ?bag, ?body, ?seq,
      rfl, wfld_toNat _ 20 4, rfl, ?out, ?late, ?due⟩
    case reg =>
      rw [sent, me, Ctx.hReg_takeSeq, Ctx.hReg_setHandle_same _ h.isLt]
      rfl
    case bag => rw [bag, State.handled_bag, State.handled_ctr, State.readied_bag, State.readied_ctr]
    case body => rw [body, show task = av % 2 ^ 20 by simp [task, av, wfld_toNat]]
    case seq =>
      rw [seq, me, ← s.readied_nseq [.s a.toNat] 1]
      rfl
    case out =>
      rw [sent, me, ← s.readied_nseq [.s a.toNat] 1, ← s.readied_me_out [.s a.toNat] 1]
      rfl
    case late => rwa [State.handled_gts, State.readied_gts] at late
    case due =>
      rw [due, State.handled_due, State.handled_ctr, State.readied_due, State.readied_gts, State.readied_ctr]
      rfl

end Sys2Proof.Machine
end

section
/-! ## Handle waits and cells
`hrecv`, `hjoin`, `hfree` and `hinfo`, and `hldv` and `hstv` on one cell of a view (R267 to R271); O34. -/
namespace Sys2Proof.Machine

/-! ### Waits for a handle -/

/-- A wait that finds nothing it takes stays (R156, R267). -/
theorem State.Waits.idle {s u : State} {w : Wait} (h : s.Waits u w) (unsettled : w.isSettled = false) (pc : Word) (rest : State → State)
    (none : s.here.inbox.find? (fun e => e.ctxTo == s.here.run && w.takes e) = none) (box : s.boxCount s.focus = 0) :
    u.servedWait pc rest = rest u := by
  have run : u.here.run = s.here.run := congrArg (fun p => p.2.2) h.slot
  have served : u.serve u.focus u.here.run pc = u := by
    have inbox : (u.coreOf u.focus).inbox.find?
        (fun e => e.ctxTo == u.here.run && ((u.coreOf u.focus).ctx u.here.run).wait.takes e) = .none := by
      change u.here.inbox.find? (fun e => e.ctxTo == u.here.run && u.me.wait.takes e) = .none
      rwa [h.inbox, run, h.wait]
    have found : u.boxFind u.focus u.here.run ((u.coreOf u.focus).ctx u.here.run).wait = .none := by
      rw [State.boxFind, h.box, box]
      rfl
    rw [State.serve]
    simp only [inbox, found]
  rw [State.servedWait, served, h.wait, unsettled]
  rfl

section
variable {s : State} {hd : CHead}

/-- The state in which an `hrecv` waits (R267). -/
def State.hrecvWaits (s : State) (h : Nat) : State :=
  (s.readied [] 1).onMe (fun c =>
    { ((c.raise s.me.ltkRef).setHandle h { HReg.reset with st := .pending }) with wait := .hrecv h s.gts })
/-- `hrecv` (R267). -/
theorem execHrecv_serves {h : BitVec 4} (dst : (s.me.hReg h.toNat).st = .empty ∨ (s.me.hReg h.toNat).st = .vacant)
    (clear : CClear s (.hrecv hd h) hd [] [] [] (some s.me.ltkRef) 0 1 false) :
    execHrecv hd h s = .next ((s.hrecvWaits h.toNat).servedWait s.me.pc State.switching) := by
  refine issueC_eq clear (Ctx.handleDst_nil (.inl dst)) rfl rfl ?_
  have run : (s.hrecvWaits h.toNat).here.run = (s.readied [] 1).here.run := by
    rw [State.hrecvWaits, State.here_onMe, CoreSt.setCtx_run]
  have waits : (s.readied [] 1).onMe (fun c =>
      { ((c.raise c.ltkRef).setHandle h.toNat { HReg.reset with st := .pending }) with
        wait := .hrecv h.toNat (s.readied [] 1).gts }) = s.hrecvWaits h.toNat :=
    State.onMe_congr (by rw [State.readied_ltkRef, State.readied_gts])
  rw [State.servedWait, run, ← waits, ← s.readied_pc [] 1]

/-! ### Joins and ends -/

/-- Two children of one split (R268). -/
def HVal.joins (x y : HVal) : Prop := x.root = false ∧ y.root = false ∧ x.parent = y.parent ∧ x.side ≠ y.side
theorem joinBad_nil {c : Ctx} {a b : Nat} (joins : (c.hReg a).val.joins (c.hReg b).val) : joinBad c a b = [] := by
  obtain ⟨ra, rb, parent, side⟩ := joins
  simp [joinBad, ra, rb, parent, beq_eq_false_iff_ne.2 side, condIf]
/-- `hjoin` (R268). -/
theorem execHjoin_joins {h a b k : BitVec 4} (srcA : (s.me.hReg a.toNat).st = .live) (srcB : (s.me.hReg b.toNat).st = .live)
    (dst : ((s.me.hReg h.toNat).st = .empty ∨ (s.me.hReg h.toNat).st = .vacant) ∨ h = a ∨ h = b)
    (joins : (s.me.hReg a.toNat).val.joins (s.me.hReg b.toNat).val)
    (clear : CClear s (.hjoin hd h a b k) hd [] [] [k] (some (s.me.tokRef k.toNat)) 0 0 false) :
    let t := s.me.tokRef k.toNat
    let x := (s.me.hReg a.toNat).val
    let y := (s.me.hReg b.toNat).val
    execHjoin hd h a b k s = .next ((((((s.readied [] 0).doneAt (s.gts + 3) s.focus s.here.run
        [.lineage x.cluster x.entry .joining, .lineage x.cluster y.entry .joining]).onLentry x.cluster x.parent (fun e =>
          { e with waiter := some (s.focus, s.here.run, t) })).onMe (fun c =>
            (((c.raise t).setHandle a.toNat HReg.vacant).setHandle b.toNat HReg.vacant).setHandle h.toNat
              { st := .pending, val := { cluster := x.cluster, root := false, side := false, parent := 0, entry := x.parent },
                view := View.none })).stepAt (s.gts + 3) (.hjoinComplete s.focus s.here.run h.toNat))) := by
  have reads (own : h = a ∨ h = b) : h.toNat ∈ [a.toNat, b.toNat] := by
    obtain rfl | rfl := own
    · exact List.mem_cons_self
    · exact List.mem_cons_of_mem _ List.mem_cons_self
  unfold execHjoin
  refine issueC_eq clear ?_ rfl rfl ?_
  · rw [Ctx.handleSrc_nil srcA, Ctx.handleSrc_nil srcB, Ctx.handleDst_nil (dst.imp_right reads), joinBad_nil joins]
    rfl
  · simp only [State.readied_tokRef, State.readied_hReg, State.readied_focus, State.readied_run]
    rw [← s.readied_gts [] 0]
    rfl
/-- `hfree` (R269). -/
theorem execHfree_frees {h : BitVec 4} (src : (s.me.hReg h.toNat).st = .live) (root : (s.me.hReg h.toNat).val.root = true)
    (clear : CClear s (.hfree hd h) hd [] [] [] (some s.me.ltkRef) 0 0 false) :
    let v := (s.me.hReg h.toNat).val
    execHfree hd h s = .next ((((((s.readied [] 0).onMe (fun c => (c.raise s.me.ltkRef).setHandle h.toNat HReg.reset)).onLentry
      v.cluster v.entry (fun e => { e with waiter := some (s.focus, s.here.run, s.me.ltkRef) })).doneAt (s.gts + 3) s.focus s.here.run
        [.lineage v.cluster v.entry .freeing]).stepAt (s.gts + 3) (.hfreeComplete v.cluster v.entry))) := by
  unfold execHfree
  refine issueC_eq clear ?_ rfl rfl ?_
  · rw [Ctx.handleSrc_nil src, root, Bool.not_true, Bool.and_false]
    rfl
  · simp only [State.readied_ltkRef, State.readied_focus, State.readied_run]
    rw [← s.readied_gts [] 0]
    rfl
/-- `hinfo` (R270). -/
theorem execHinfo_reads {d : BitVec 5} {a : BitVec 4} {f : BitVec 3} (src : f = 6 ∨ (s.me.hReg a.toNat).st = .live)
    (clear : CClear s (.hinfo hd d a f) hd [] [] [] (some s.me.ltkRef) 0 0 false) :
    execHinfo hd d a f s = .next (((s.readied [] 0).longStart (.s d.toNat) s.me.ltkRef).doneAt (s.gts + 2) s.focus s.here.run
      [.write (.s d.toNat) ((s.readied [] 0).handleInfo a.toNat f.toNat), .unpend (.s d.toNat), .lower s.me.ltkRef]) := by
  refine issueC_eq clear ?_ rfl rfl ?_
  · obtain rfl | live := src
    · rfl
    · exact (ite_congr rfl (fun _ => rfl) fun _ => Ctx.handleSrc_nil live).trans (ite_self _)
  · simp only [State.readied_ltkRef, State.readied_gts, State.readied_focus, State.readied_run]

/-! ### What a core learns -/

section
variable (s : State) (core : Nat) (know : Seen)
/-- Learning changes what a core has seen. -/
theorem State.learn_cases : s.learn core know = s ∨
    ∃ k : CoreSt → Seen, s.learn core know = s.onCore core (fun x => { x with seen := k x }) := by
  unfold State.learn
  split
  · exact .inl rfl
  · exact .inr ⟨fun x => joinSeen x.seen know, rfl⟩
theorem State.learn_proj {α : Type} (g : State → α) (h : ∀ (u : State) f, g (u.onCore core f) = g u) :
    g (s.learn core know) = g s := by
  obtain e | ⟨k, e⟩ := s.learn_cases core know
  · rw [e]
  · rw [e, h]
theorem State.learn_here {α : Type} (g : CoreSt → α) (h : ∀ (x : CoreSt) k, g { x with seen := k } = g x) :
    g (s.learn core know).here = g s.here := by
  obtain e | ⟨k, e⟩ := s.learn_cases core know
  · rw [e]
  · rw [e]
    exact State.onCore_here_keeps g (f := fun x => { x with seen := k x }) (fun x => h x _) s core
@[simp] theorem State.learn_focus : (s.learn core know).focus = s.focus := s.learn_proj core know State.focus fun _ _ => rfl
@[simp] theorem State.learn_gts : (s.learn core know).gts = s.gts := s.learn_proj core know State.gts fun _ _ => rfl
@[simp] theorem State.learn_run : (s.learn core know).here.run = s.here.run := s.learn_here core know CoreSt.run fun _ _ => rfl
@[simp] theorem State.learn_slot : (s.learn core know).here.slot = s.here.slot := s.learn_here core know CoreSt.slot fun _ _ => rfl
@[simp] theorem State.learn_ls : (s.learn core know).here.ls = s.here.ls := s.learn_here core know CoreSt.ls fun _ _ => rfl
@[simp] theorem State.learn_me : (s.learn core know).me = s.me := s.learn_here core know (fun x => x.ctx x.run) fun _ _ => rfl
end

/-! ### Cells -/

/-- The cell i of the view of handle register a stands at x, and the running core may reach it: the register is Live, the cell lies
inside the view, and x in the window or at or above the boundary of the own local store (R271, R276). -/
structure State.MayCell (s : State) (a : Nat) (i : Word) (x : Nat) : Prop where
  cell : (s.me.hReg a).view.cellAddr (memberOf s.focus) i.toNat = x
  live : (s.me.hReg a).st = .live
  inside : i.toNat < (s.me.hReg a).view.cells
  access : s.mayAccess x

theorem belowOwn_nil {s : State} {a : Nat} (h : s.mayAccess a) : belowOwn s a = [] := by
  obtain ⟨low, own⟩ | ⟨m, off, e⟩ := h
  · rw [belowOwn, classify_own own]
    exact congrArg (condIf · 5 1 a) (decide_eq_false (Nat.not_lt.2 low))
  · rw [belowOwn, e]
theorem State.MayCell.conds_nil {s : State} {a : Nat} {i : Word} {x : Nat} (h : s.MayCell a i x) : cellConds s a i = [] := by
  rw [cellConds, h.cell, Ctx.handleSrc_nil h.live, belowOwn_nil h.access, ite_self, decide_eq_false (Nat.not_le.2 h.inside),
    Bool.and_false]
  rfl
theorem window_below {a : Nat} (h : ∃ m off, classify a = .window m off) : a < 0x1600000 := by
  obtain ⟨m, off, e⟩ := h
  by_contra far
  rw [classify, if_neg (by omega), if_neg (by omega)] at e
  split at e
  · cases e
  · cases e
theorem lineHeld_window {s : State} {a : Nat} (h : ∃ m off, classify a = .window m off) (n : Nat) : s.lineHeld a n = false := by
  obtain ⟨m, off, e⟩ := h
  rw [State.lineHeld, State.lineLocked, e]
  rfl

/-- The lane addresses of a cell. -/
def cellLanes (x : Nat) : List Nat := laneList (fun n => x + 4 * n)
/-- No line at an address that a core may name reaches the end of the address space. -/
theorem lanesFrom_eq {s : State} {x : Nat} (h : s.mayAccess x) : lanesFrom x = cellLanes x := by
  have low : x < 0x1600000 := by
    obtain ⟨-, own⟩ | window := h
    · rw [lsBytes] at own
      omega
    · exact window_below window
  refine List.map_congr_left fun n hn => Nat.mod_eq_of_lt ?_
  rw [List.mem_range] at hn
  omega
theorem laneAddrs_cellLanes (x : Nat) : laneAddrs (cellLanes x) = (List.range 32).map (fun n => (n, x + 4 * n)) :=
  (List.map_prod_left_eq_zip (f := fun n => x + 4 * n)).symm
/-- Where no byte leaves a choice, the lanes of a cell are what memory holds. -/
theorem State.readLsMany_cell {u : State} {x : Nat} (one : u.readsOne x 128) :
    u.readLsMany u.focus u.focus 4 (cellLanes x) = ((cellLanes x).map (fun y => u.here.ls.readN y 4), u) := by
  refine State.readLsMany_one (forall_laneList.2 fun n hn j hj => ?_)
  rw [Nat.add_assoc]
  exact one (4 * n + j) (by omega)
/-- The write steps of a vector register's lanes to a cell, in lane order. -/
def State.storeCell (u : State) (core x : Nat) (val : VReg) : State :=
  (List.range 32).foldl (fun u n => u.storeLs core core (x + 4 * n) 4 (vlane val n).toNat) u
theorem State.storeCell_spec {u : State} {core : Nat} (focus : u.focus = core) (x : Nat) (val : VReg) :
    (laneAddrs (cellLanes x)).foldl (fun u p => u.storeLs u.focus u.focus p.2 4 (vlane val p.1).toNat) u = u.storeCell core x val ∧
      (u.storeCell core x val).here.ls =
        (List.range 32).foldl (fun m n => m.writeN (x + 4 * n) 4 (vlane val n).toNat) u.here.ls := by
  obtain ⟨same, -, ls⟩ := State.storeLanes_spec 4 (fun n => (vlane val n).toNat) (laneAddrs (cellLanes x)) u focus
  rw [laneAddrs_cellLanes, List.foldl_map] at same ls
  rw [laneAddrs_cellLanes]
  refine ⟨same, ?_⟩
  rw [List.foldl_map] at ls
  exact ls

section
variable {a : BitVec 4} {sl : BitVec 5} {v : BitVec 6} {x : Nat} (may : s.MayCell a.toNat (s.me.sReg sl.toNat) x)
include may

section
variable (own : x < lsBytes) (held : s.lineHeld x 128 = false)
include own held

/-- `hldv` of a cell of the own local store is 32 read steps, after K of the handle has joined Seen (R271, R177). -/
theorem execHldv_own (clear : CClear s (.hldv hd v a sl) hd [.s sl.toNat] [v.toNat] [] (some s.me.ltkRef) 0 0 false) :
    let y := (s.me.hReg a.toNat).val
    let u := ((s.readied [.s sl.toNat] 0).onMe (fun c => (c.raise s.me.ltkRef).startDest (.v v.toNat))).learn s.focus
      (s.lentry y.cluster y.entry).know
    let r := u.readLsMany s.focus s.focus 4 (cellLanes x)
    execHldv hd v a sl s = .next (r.2.doneAt (s.gts + 4) s.focus s.here.run
      ([.write (.v v.toNat) (ofLanes r.1).toNat] ++ endDest (.v v.toNat) ++ [.lower s.me.ltkRef])) := by
  simp only [execHldv, may.cell, isRemote_own own, Bool.and_false, Bool.false_eq_true, if_false]
  refine issueC_eq clear may.conds_nil held rfl ?_
  simp only [State.readied_ltkRef, State.learn_focus, State.onMe_focus, State.readied_focus, State.learn_gts, State.onMe_gts,
    State.readied_gts, State.learn_run, State.here_onMe, CoreSt.setCtx_run, State.readied_run, State.readied_lentry,
    lanesFrom_eq may.access]
/-- `hstv` of a cell of the own local store is 32 write steps, whose nodes join K of the handle (R271, R177). -/
theorem execHstv_own (clear : CClear s (.hstv hd v a sl) hd [.v v.toNat, .s sl.toNat] [v.toNat] [] none 0 0 false) :
    let y := (s.me.hReg a.toNat).val
    let u := (s.readied [.v v.toNat, .s sl.toNat] 0).learn s.focus (s.lentry y.cluster y.entry).know
    let w := u.storeCell s.focus x (s.me.vReg v.toNat)
    execHstv hd v a sl s = .next (w.entryLearns y.cluster y.entry
      (w.nodesAfter u.ctr ((List.range 128).map (fun j => .ls s.focus (x + j))))) := by
  intro y u w
  have stores : _ = w := (State.storeCell_spec (u := u) (core := s.focus) (by simp [u]) x (s.me.vReg v.toNat)).1
  simp only [execHstv, may.cell, isRemote_own own, Bool.and_false, Bool.false_eq_true, if_false]
  refine issueC_eq clear may.conds_nil held rfl ?_
  simp only [State.readied_focus, State.readied_lentry, State.readied_vReg, State.learn_focus, lanesFrom_eq may.access]
  rw [← stores]
end

section
variable (window : ∃ m off, classify x = .window m off)
include window

theorem State.MayCell.remote : (s.me.isLive a.toNat && isRemote x) = true := by
  rw [Ctx.isLive_of may.live, isRemote_window window]
  rfl
/-- `hldv` of a cell in the window sends one request for its line (R271, R177). -/
theorem execHldv_window (plain : s.plainSlot)
    (clear : CClear s (.hldv hd v a sl) hd [.s sl.toNat] [v.toNat] [] (some s.me.ltkRef) 1 1 false) :
    let y := (s.me.hReg a.toNat).val
    let u := ((s.readied [.s sl.toNat] 1).onMe (fun c => (c.raise s.me.ltkRef).startDest (.v v.toNat))).learn s.focus
      (s.lentry y.cluster y.entry).know
    execHldv hd v a sl s = .next ((u.onMe (fun c => { c with vloads := tput c.vloads s.me.nseq 1 })).request (s.dstOf x)
      (some s.me.ltkRef) (.loadLine x (laneAddrs (cellLanes x)) v.toNat s.me.nseq) (handle := some y.entry)).passed := by
  intro y u
  have nseq : u.me.nseq = s.me.nseq := by
    rw [State.learn_me, State.onMe_proj _ _ Ctx.nseq fun c => (Ctx.startDest_keeps Ctx.nseq (fun _ _ => rfl) (fun _ _ => rfl) _ _).trans
      (Ctx.raise_keeps Ctx.nseq (fun _ _ _ => rfl) _ _), State.readied_nseq]
  have slot : u.here.slot = s.here.slot := by
    rw [State.learn_slot, State.here_onMe, CoreSt.slot_setCtx, State.readied_slot]
  have dst : (u.onMe (fun c => { c with vloads := tput c.vloads u.me.nseq 1 })).dstOf x = s.dstOf x :=
    State.dstOf_congr (by simp [u]) x
  simp only [execHldv, may.cell, may.remote window, if_true]
  refine issueC_eq clear may.conds_nil (lineHeld_window window 128) rfl ?_
  simp only [State.readied_ltkRef, State.readied_focus, State.readied_lentry, lanesFrom_eq may.access]
  rw [dst, nseq]
  refine State.switching_passed plain ?_
  rw [State.request_here, CoreSt.slot_setCtx, State.here_onMe, CoreSt.slot_setCtx, slot]
/-- `hstv` to a cell in the window sends one request for its line, which WOUT of the handle counts (R271, R177). -/
theorem execHstv_window (clear : CClear s (.hstv hd v a sl) hd [.v v.toNat, .s sl.toNat] [v.toNat] [] none 1 1 false) :
    let y := (s.me.hReg a.toNat).val
    let u := (s.readied [.v v.toNat, .s sl.toNat] 1).learn s.focus (s.lentry y.cluster y.entry).know
    execHstv hd v a sl s = .next ((u.onLentry y.cluster y.entry (fun e => { e with wout := e.wout + 1 })).request (s.dstOf x) none
      (.storeLine x ((laneAddrs (cellLanes x)).map (fun p => (p.2, (vlane (s.me.vReg v.toNat) p.1).toNat))) (some y.entry))
        (handle := some y.entry)) := by
  intro y u
  have focus : u.focus = s.focus := by simp [u]
  simp only [execHstv, may.cell, may.remote window, if_true]
  refine issueC_eq clear may.conds_nil (lineHeld_window window 128) rfl ?_
  simp only [State.readied_focus, State.readied_lentry, State.readied_vReg, lanesFrom_eq may.access]
  rw [State.dstOf_congr (s := s)]
  exact focus
end
end
end

/-- Settles O34: an `hrecv` that finds no handle waits, and each other word is its rule above. -/
theorem handleWaitAndCellResults : Obligations.HandleWaitAndCellResults := by
  intro s hd h a b k d sl v f hrun st open_ l t ra rb i cell later learned
  refine ⟨?recv, ?join, fun clear src root => execHfree_frees src root clear, fun clear src => execHinfo_reads src clear, ?own, ?window⟩
  case recv =>
    intro clear dst none box plain
    have waits : s.Waits (s.hrecvWaits h.toNat) (.hrecv h.toNat s.gts) :=
      State.waits_onMe hrun [] 1 (fun _ => rfl) fun c => Ctx.raise_keeps Ctx.raises (fun _ _ _ => rfl) c l
    refine (execHrecv_serves dst clear).trans (congrArg _ ?_)
    rw [waits.idle rfl _ _ none box, State.switching_passed plain waits.slot]
    rfl
  case join =>
    intro clear srcA srcB dst rootA rootB parent side cl pv
    exact execHjoin_joins srcA srcB dst ⟨rootA, rootB, parent, side⟩ clear
  case own =>
    intro live inside own low held lanes
    have may : s.MayCell a.toNat (s.me.sReg sl.toNat) cell := ⟨rfl, live, inside, .inl ⟨low, own⟩⟩
    refine ⟨fun clear => ?load, fun clear => ?store⟩
    case load =>
      intro u r
      refine ⟨execHldv_own may own held clear, fun one => ?_⟩
      have focus : u.focus = s.focus := by simp [u, learned]
      have ls : u.here.ls = s.here.ls := by simp [u, learned]
      have reads := State.readLsMany_cell one
      rwa [focus, ls] at reads
    case store =>
      intro u lane
      have focus : u.focus = s.focus := by simp [u, learned]
      have ls : u.here.ls = s.here.ls := by simp [u, learned]
      have stored := (State.storeCell_spec focus cell (s.me.vReg v.toNat)).2
      rw [ls] at stored
      exact ⟨_, execHstv_own may own held clear, rfl, stored⟩
  case window =>
    intro live inside window lanes
    have may : s.MayCell a.toNat (s.me.sReg sl.toNat) cell := ⟨rfl, live, inside, .inr window⟩
    have same : laneAddrs (cellLanes cell) = lanes := laneAddrs_cellLanes cell
    rw [← same]
    exact ⟨fun clear plain => execHldv_window may window plain clear, fun clear => execHstv_window may window clear⟩

end Sys2Proof.Machine
end
section
/-! ## Streamer words
The checks that a plain block passes (R280, R285, R300), and the command that a streamer word sends (R279, R284, R288 to R292); O35. -/
namespace Sys2Proof.Machine

/-! ### Plain blocks -/

/-- The fields of a block of DK 0 and MODE 0 whose extent lies in the own local store keep their limits (R280, R285, R300). -/
structure Block.Plain (b : Block) (raw : Nat) : Prop where
  mode : b.mode = 0
  dk : b.dk = 0
  geom : b.geom = 0
  upc : b.upc = 0
  reserved : blockReserved raw = false
  vaAligned : b.va % 8 = 0
  vaBelow : b.va < 2 ^ 52
  vstrAligned : b.vstr % 8 = 0
  locAligned : b.loc % (2 ^ b.span * 16) = 0
  lstrAligned : b.lstr % 8 = 0
  lstrBelow : b.lstr ≤ 393216
  rows : 1 ≤ b.rows ∧ b.rows ≤ 65536
  rowb : 8 ≤ b.rowb ∧ b.rowb ≤ 65536
  rowbAligned : b.rowb % 8 = 0
  own : b.loc < lsBytes
  extent : b.loc + (b.rows - 1) * b.lstr + b.rowb ≤ lsBytes
/-- OPX and AUX of a plain block as each kind has them (R288 to R292), for a fetch boundary. -/
def Block.Operands (b : Block) (low : Nat) (kind : SKind) : Prop :=
  match kind with
  | .get => b.opx = 0 ∧ b.aux = 0
  | .put => b.opx = 0 ∧ b.aux = 0
  | .gat => b.opx = 0 ∧ b.aux % 4 = 0 ∧ low ≤ b.aux ∧ b.aux + 4 * b.rows ≤ lsBytes
  | .red => b.aux = 0 ∧ b.opx % 4 ≠ 3 ∧ b.opx / 64 = 0 ∧ (b.opx / 4 = 2 ∨ b.opx / 4 = 6 ∨ b.opx / 4 = 8 ∨ b.opx / 4 = 9)
  | .col => b.opx % 4 ≠ 3 ∧ b.opx % 4 ≠ 1 ∧ b.opx / 4 = 0 ∧ b.aux / 2 ^ 28 = 0 ∧ 1 ≤ b.aux / 2 ^ 16 % 64 ∧
      b.aux / 2 ^ 22 % 64 ≤ b.aux / 2 ^ 16 % 64
  | .spill => False

theorem blockReserved_false {n : Nat} (h3 : n / 2 ^ 3 % 2 ^ 5 = 0) (h19 : n / 2 ^ 19 % 2 ^ 5 = 0) (h480 : n / 2 ^ 480 % 2 ^ 32 = 0) :
    blockReserved n = false := by
  simp only [blockReserved, bits_eq, h3, h19, h480]
  rfl
theorem firstBeyond_none {loc lstr rowb rows lim : Nat} (h : loc + (rows - 1) * lstr + rowb ≤ lim) :
    firstBeyond loc lstr rowb rows lim = none := if_pos h

section
variable {b : Block} {raw low : Nat} {kind : SKind} (o : b.Operands low kind)
include o

theorem Block.Operands.localRows : b.localRows kind = b.rows := by
  refine if_neg ?_
  rintro ⟨rfl, one⟩
  obtain ⟨-, ne, -⟩ := o
  rw [Block.colKind, bits_eq] at one
  omega
theorem Block.Operands.table (gat : kind = .gat) : b.aux % 4 = 0 := by
  subst gat
  obtain ⟨-, aligned, -⟩ := o
  exact aligned

variable (h : b.Plain raw)
include h

/-- DK, MODE and OPX are those that the kind accepts. -/
theorem Block.Plain.accepts : b.accepts kind = true := by
  cases kind with
  | get | put | gat =>
    obtain ⟨opx, -⟩ := o
    simp [Block.accepts, h.mode, h.dk, opx]
  | red =>
    obtain ⟨-, op, top, type⟩ := o
    have type : b.opx / 4 % 16 = 2 ∨ b.opx / 4 % 16 = 6 ∨ b.opx / 4 % 16 = 8 ∨ b.opx / 4 % 16 = 9 := by omega
    simpa [Block.accepts, h.mode, h.dk, bits_eq, op, top, or_assoc] using type
  | col =>
    obtain ⟨kind, -, top, -, cores, index⟩ := o
    have two : 2 ≤ b.colP := by
      rw [Block.colP, bits_eq]
      omega
    have member : b.colIdx < b.colP := by
      rw [Block.colIdx, Block.colP, bits_eq, bits_eq]
      omega
    simp [Block.accepts, h.mode, h.dk, Block.colKind, bits_eq, kind, top, two, member]
  | spill => exact o.elim
/-- AUX holds only what the kind gives it. -/
theorem Block.Plain.auxOk : b.auxOk kind = true := by
  cases kind with
  | get | put =>
    obtain ⟨-, aux⟩ := o
    simp [Block.auxOk, h.dk, aux]
  | gat =>
    obtain ⟨-, -, -, high⟩ := o
    exact decide_eq_true (by unfold lsBytes at high; omega)
  | red =>
    obtain ⟨aux, -⟩ := o
    simp [Block.auxOk, aux]
  | col =>
    obtain ⟨-, -, -, aux, -⟩ := o
    rw [Block.auxOk, bits_eq, aux]
    rfl
  | spill => exact o.elim
theorem Block.Plain.fieldsBad : b.fieldsBad raw kind = false := by
  have va : ¬ 2 ^ 52 ≤ b.va := Nat.not_le.2 h.vaBelow
  obtain ⟨rowsLow, rowsHigh⟩ := h.rows
  obtain ⟨rowbLow, rowbHigh⟩ := h.rowb
  simp only [Block.fieldsBad, va]
  simp [h.accepts o, h.auxOk o, h.reserved, h.dk, h.geom, h.mode, h.upc, h.lstrBelow, h.rowbAligned,
    rowsHigh, rowbLow, rowbHigh, Nat.ne_of_gt rowsLow]
theorem Block.Plain.misalignedBy : b.misalignedBy kind = [] := by
  have loc : b.loc % 8 = 0 := Nat.mod_eq_zero_of_dvd
    (Dvd.dvd.trans ⟨2 ^ b.span * 2, by omega⟩ (Nat.dvd_of_mod_eq_zero h.locAligned))
  have table : (if kind = .gat then misaligned b.aux 4 else []) = [] := by
    split
    · exact misaligned_nil (o.table ‹_›)
    · rfl
  simp [Block.misalignedBy, h.dk, h.mode, misaligned_nil h.vaAligned, misaligned_nil loc, misaligned_nil h.lstrAligned,
    misaligned_nil h.locAligned, h.vstrAligned, condIf, table]
theorem Block.Plain.extentBad (s : State) : s.extentBad b kind = [] := by
  have place : b.placeBad kind = [] := by
    simp only [Block.placeBad, classify_own h.own, o.localRows, firstBeyond_none h.extent]
  simp only [State.extentBad, h.dk, place]
end
theorem State.tableBad_nil {s : State} {b : Block} {kind : SKind} (o : b.Operands s.here.boundary kind) : s.tableBad b kind = [] := by
  unfold State.tableBad
  split
  · subst kind
    obtain ⟨-, -, low, high⟩ := o
    rw [decide_eq_false (Nat.not_lt.2 low), decide_eq_false (Nat.not_lt.2 high)]
    rfl
  · rfl
/-- A well-placed plain block passes every check (R279, R300). -/
theorem State.blockConds_nil {s : State} {x : Nat} {kind : SKind} (aligned : x % 64 = 0) (low : s.here.boundary ≤ x) (own : x < lsBytes)
    (h : (Block.ofNat (s.here.ls.readN x 64)).Plain (s.here.ls.readN x 64))
    (o : (Block.ofNat (s.here.ls.readN x 64)).Operands s.here.boundary kind) : s.blockConds x kind = [] := by
  have place : ownOnly x ++ belowOwn s x = [] := by rw [ownOnly_nil own, belowOwn_nil (.inl ⟨low, own⟩)]; rfl
  simp [State.blockConds, aligned, place, h.misalignedBy o, h.extentBad o, State.tableBad_nil o, h.fieldsBad o, h.dk, condIf]

/-! ### The words -/

/-- What a streamer word of the state s carries when its effect starts in the state w: the entry of the first row of a `sgat`, the
snapshot of Seen, and the state behind that read (R175, R290). -/
def State.firstEntry (s w : State) (kind : SKind) (b : Block) : Table Nat × Seen × State :=
  if kind = .gat then
    let r := w.tableEntry s.here.seen s.focus b 0
    ([(0, r.1)], r.2)
  else ([], s.here.seen, w)

section
variable {i : Instr} {s : State} {hd : CHead} {kind : SKind} {a : BitVec 5} {k : BitVec 4}
  (h : CClear s i hd [.s a.toNat] [] [k] (some (s.me.tokRef k.toNat)) 1 2 false)
  (held : s.lineHeld (s.me.sReg a.toNat).toNat 64 = false) (conds : s.blockConds (s.me.sReg a.toNat).toNat kind = [])
include h held conds

/-- A streamer word sends one command with its block; in MODE 1 without DET the upcall keeps the token (R279, R284). -/
theorem issueStream_sends : let t := s.me.tokRef k.toNat
    let b := Block.ofNat (s.here.ls.readN (s.me.sReg a.toNat).toNat 64)
    let first := s.firstEntry (s.readied [.s a.toNat] 2) kind b
    let up := first.2.2.onMe (fun c => c.raise t)
    issueStream i hd kind a k s = .next (if b.mode = 1 then
        (up.onHere (fun y =>
          { y with upcs := tput y.upcs (65536 * s.here.run + s.me.nseq) (b.upc, if b.det then none else some t) })).request .streamer
            (if b.det then some t else none) (.command kind b first.1) (know := first.2.1)
      else up.request .streamer (some t) (.command kind b first.1) (know := first.2.1)) := by
  unfold issueStream
  refine issueC_eq h conds held rfl ?_
  simp only [State.readied_tokRef, State.readied_ls, State.readied_run, State.readied_nseq, State.readied_seen, State.readied_focus]
  rfl
end

/-- The five words with the kinds of their commands (R288 to R292). -/
def streamForms (hd : CHead) (a : BitVec 5) (k : BitVec 4) : List (Instr × SKind) :=
  [(.sget hd a k, .get), (.sput hd a k, .put), (.sgat hd a k, .gat), (.sred hd a k, .red), (.scol hd a k, .col)]
theorem exec_streamForm {s : State} {hd : CHead} {a : BitVec 5} {k : BitVec 4} :
    ∀ p ∈ streamForms hd a k, exec p.1 s = issueStream p.1 hd p.2 a k s := by
  simp only [streamForms, List.forall_mem_cons]
  exact ⟨rfl, rfl, rfl, rfl, rfl, nofun⟩

/-- Settles O35: a plain block passes the checks, and a block that passes them is sent as its command. -/
theorem streamerWordResults : Obligations.StreamerWordResults := by
  intro s hd a k t x src raw b w first up zero plain held aligned low own p form clear
  have sends (conds : s.blockConds x p.2 = []) := (exec_streamForm p form).trans (issueStream_sends clear held conds)
  have other (conds : s.blockConds x p.2 = []) (mode : b.mode ≠ 1) := (sends conds).trans (congrArg _ (if_neg mode))
  refine ⟨fun block => ?_, other, fun conds mode => (sends conds).trans (congrArg _ (if_pos mode))⟩
  obtain ⟨mode, dk, geom, upc, z3, z19, z480, va, vaLow, vstr, loc, lstr, lstrLow, rows, rowsHigh, rowb, rowbHigh, rowb8, own', extent,
    operands⟩ := block
  have fields : b.Plain raw := ⟨mode, dk, geom, upc, blockReserved_false z3 z19 z480, va, vaLow, vstr, loc, lstr, lstrLow,
    ⟨rows, rowsHigh⟩, ⟨rowb, rowbHigh⟩, rowb8, own', extent⟩
  have operands : b.Operands s.here.boundary p.2 := by
    simp only [List.mem_cons, List.not_mem_nil, or_false] at form
    obtain rfl | rfl | rfl | rfl | rfl := form
    all_goals exact operands
  exact other (State.blockConds_nil aligned low own fields operands) (by rw [mode]; decide)

end Sys2Proof.Machine
end
section
/-! ## The application count of a grant
A grant of `pres` that the memory-order log records (R296, R468); O36. -/
namespace Sys2Proof.Machine

/-- Core 0 keeps its memory order (R467); s2 holds the address of a pantry descriptor of one stage, which is Free. -/
def loggedPantry : State :=
  { State.reset with
    agenda := [],
    cores := [(0, (({ CoreSt.reset with hid := some 1, det := 2 }).putLs 512 32 (4096 + 256 * 2 ^ 32 + 1 * 2 ^ 64)).setCtx 0
      (({ Ctx.reset with live := true, bound := 1 } : Ctx).writeReg (.s 2) 512))] }
theorem loggedPantry_clear : CClear loggedPantry (.pres plainHead 1 2) plainHead [.s 2] [] [] (some loggedPantry.me.ltkRef) 0 1 false :=
  ⟨by decide, .inl rfl, rfl, nofun, fun h => absurd h (by decide), nofun, .inr rfl, by decide, .inl rfl, by decide⟩
/-- Bytes 11:8 of the entries of the log that wait to be written once a word has issued (R468). -/
def loggedCounts (o : Host.Outcome State Fault Refusal) : List Nat :=
  match o with
  | .next u => u.here.molQ.map (fun e => bits e 64 32)
  | _ => []
/-- The one entry that its `pres` logs holds APPIDX behind the grant. -/
theorem loggedPantry_pres : loggedCounts (exec (.pres plainHead 1 2) loggedPantry) = [1] := by decide

/-- Refutes O36: where a core keeps its memory order, the clause on a `pres` that is granted has the log entry hold APPIDX as it was before
the grant; the entry holds the count behind it (R468). -/
theorem not_pantryWordResults : ¬ Obligations.PantryWordResults := by
  intro h
  obtain ⟨own, -⟩ := h loggedPantry plainHead 1 2 (by decide) (by decide)
  obtain ⟨-, -, -, res, -⟩ := own (by decide) (by decide)
  have counts := congrArg loggedCounts (res loggedPantry_clear (by decide) (by decide) (by decide))
  rw [loggedPantry_pres] at counts
  exact absurd counts (by decide)

end Sys2Proof.Machine
end
section
/-! ## Canonical memories: the predicate and the updates that every step is made of
O59 and O60 ask of every step that it keeps memories canonical (log 5): O59 of the module, the host and the peers, O60 of the cores, saved
ones too. One walk through the model serves both: `State.Canon μ κ` makes the first claim under μ and the second under κ. -/
namespace Sys2Proof.Machine

/-- Under κ, the memories of a core are canonical. -/
def CoreSt.Canon (κ : Prop) (x : CoreSt) : Prop := κ → x.memWf
/-- The cores of a saved state. -/
def Frozen.Canon (κ : Prop) (f : Frozen) : Prop := ∀ x ∈ f.cores, x.2.Canon κ
/-- The state that a household or a peat keeps, if it keeps one. -/
def savedCanon (κ : Prop) (o : Option Frozen) : Prop := ∀ f, o = some f → f.Canon κ
/-- Under μ the memories outside the cores are canonical, under κ those of every core, saved ones among them. -/
def State.Canon (μ κ : Prop) (s : State) : Prop :=
  (μ → s.memWf) ∧ (∀ x ∈ s.cores, x.2.Canon κ) ∧ (∀ h ∈ s.households, savedCanon κ h.2.frozen) ∧
    (∀ p ∈ s.peats, savedCanon κ p.2.frozen)
/-- The next state of an outcome, if there is one. -/
def NextCanon (μ κ : Prop) (o : Host.Outcome State Fault Refusal) : Prop := ∀ t, o = .next t → t.Canon μ κ

/-- The state in which a step of a streamer leaves the module, whether it is done, waits or is refused. -/
def Met.Canon (μ κ : Prop) (r : Met) : Prop :=
  match r with
  | .ok s _ _ => s.Canon μ κ
  | .wait s => s.Canon μ κ
  | .refused s _ => s.Canon μ κ
/-- The state that a declined slot leaves, or the outcome of the one who takes it. -/
def Offer.Canon (μ κ : Prop) (o : Offer) : Prop :=
  match o with
  | .no s => s.Canon μ κ
  | .yes r => NextCanon μ κ r

theorem State.canon_memWf {s : State} : s.Canon True False ↔ s.memWf :=
  ⟨fun h => h.1 trivial, fun h => ⟨fun _ => h, fun _ _ => nofun, fun _ _ _ _ _ _ => nofun, fun _ _ _ _ _ _ => nofun⟩⟩
theorem State.canon_coresMemWf {s : State} : s.Canon False True ↔ s.coresMemWf := by
  constructor
  · rintro ⟨-, cores, households, peats⟩
    exact ⟨fun x hx => cores x hx trivial, fun h hh f e x hx => households h hh f e x hx trivial,
      fun p hp f e x hx => peats p hp f e x hx trivial⟩
  · rintro ⟨cores, households, peats⟩
    exact ⟨nofun, fun x hx _ => cores x hx, fun h hh f e x hx _ => households h hh f e x hx,
      fun p hp f e x hx _ => peats p hp f e x hx⟩

/-! ### Tables -/

theorem forall_mem_tput {α : Type} {P : α → Prop} {t : Table α} (h : ∀ x ∈ t, P x.2) (k : Nat) {v : α} (hv : P v) :
    ∀ x ∈ tput t k v, P x.2 := by
  induction t with
  | nil => simpa [tput] using hv
  | cons p t ih =>
    obtain ⟨hp, ht⟩ := List.forall_mem_cons.1 h
    unfold tput
    split
    · exact List.forall_mem_cons.2 ⟨hv, ht⟩
    · split
      · exact List.forall_mem_cons.2 ⟨hv, h⟩
      · exact List.forall_mem_cons.2 ⟨hp, ih ht⟩
theorem forall_mem_tdel {α : Type} {P : α → Prop} {t : Table α} (h : ∀ x ∈ t, P x.2) (k : Nat) : ∀ x ∈ tdel t k, P x.2 := by
  induction t with
  | nil => exact h
  | cons p t ih =>
    obtain ⟨hp, ht⟩ := List.forall_mem_cons.1 h
    unfold tdel
    split
    · exact ih ht
    · exact List.forall_mem_cons.2 ⟨hp, ih ht⟩
theorem tfind_of_forall {α : Type} {P : α → Prop} {t : Table α} (h : ∀ x ∈ t, P x.2) {k : Nat} {v : α} (e : tfind t k = some v) :
    P v := by
  induction t with
  | nil => simp [tfind] at e
  | cons p t ih =>
    obtain ⟨hp, ht⟩ := List.forall_mem_cons.1 h
    unfold tfind at e
    split at e
    · exact (Option.some.inj e) ▸ hp
    · exact ih ht e
theorem tget_of_forall {α : Type} {P : α → Prop} {t : Table α} (h : ∀ x ∈ t, P x.2) {d : α} (hd : P d) (k : Nat) : P (tget t d k) := by
  unfold tget
  cases e : tfind t k with
  | none => exact hd
  | some v => exact tfind_of_forall h e

/-! ### Cores and saved states -/

section
variable {μ κ : Prop}

theorem CoreSt.Canon.same {x y : CoreSt} (h : x.Canon κ) (ls : y.ls = x.ls) (b : y.b = x.b) : y.Canon κ := fun hc =>
  ⟨ls ▸ (h hc).1, b ▸ (h hc).2⟩
theorem CoreSt.Canon.reset : CoreSt.reset.Canon κ := fun _ => CoreSt.reset_memWf
theorem CoreSt.Canon.setCtx {x : CoreSt} {i : Nat} {y : Ctx} (h : x.Canon κ) : (x.setCtx i y).Canon κ := h.same rfl rfl
theorem CoreSt.Canon.putLs {x : CoreSt} {a n v : Nat} (h : x.Canon κ) : (x.putLs a n v).Canon κ := fun hc =>
  CoreSt.putLs_memWf (h hc)
theorem CoreSt.Canon.putLsBytes {x : CoreSt} {a : Nat} {bs : List Byte} (h : x.Canon κ) : (x.putLsBytes a bs).Canon κ := fun hc =>
  CoreSt.putLsBytes_memWf (h hc)
theorem CoreSt.Canon.putB {x : CoreSt} {a : Nat} {bs : List Byte} (h : x.Canon κ) : (x.putB a bs).Canon κ := fun hc =>
  CoreSt.putB_memWf (h hc)
/-- A core whose memories have been written. -/
theorem CoreSt.Canon.written {x y : CoreSt} (h : x.Canon κ) (ls : Memory.wf x.ls = true → Memory.wf y.ls = true)
    (b : Memory.wf x.b = true → Memory.wf y.b = true) : y.Canon κ := fun hc => ⟨ls (h hc).1, b (h hc).2⟩
theorem CoreSt.Canon.ite {p : Prop} [Decidable p] {x y : CoreSt} (hx : x.Canon κ) (hy : y.Canon κ) :
    (if p then x else y).Canon κ := by
  split
  · exact hx
  · exact hy
theorem Frozen.Canon.same {f g : Frozen} (h : f.Canon κ) (e : g.cores = f.cores) : g.Canon κ := by
  rw [Frozen.Canon, e]
  exact h
/-- A saved state whose cores have all been changed in one way. -/
theorem Frozen.Canon.map {f g : Frozen} {F : Nat × CoreSt → Nat × CoreSt} (h : f.Canon κ) (e : g.cores = f.cores.map F)
    (hF : ∀ x, x.2.Canon κ → (F x).2.Canon κ) : g.Canon κ := by
  rw [Frozen.Canon, e, List.forall_mem_map]
  exact fun x hx => hF x (h x hx)
theorem Frozen.Canon.core {f : Frozen} {n : Nat} (h : f.Canon κ) : (tget f.cores CoreSt.reset n).Canon κ :=
  tget_of_forall (P := CoreSt.Canon κ) h CoreSt.Canon.reset n
theorem savedCanon_none : savedCanon κ none := nofun
theorem savedCanon_some {f : Frozen} (h : f.Canon κ) : savedCanon κ (some f) := fun _ e => Option.some.inj e ▸ h

/-! ### States -/

/-- What of a state the predicate speaks of. -/
def State.stores (s : State) : Memory × Memory × Memory × Table CoreSt × Table Household × Table Peat :=
  (s.pa, s.host, s.peer, s.cores, s.households, s.peats)
/-- A state with the same memories, cores, households and peats. -/
theorem State.Canon.same {s t : State} (h : s.Canon μ κ) (e : t.stores = s.stores) : t.Canon μ κ := by
  simp only [State.stores, Prod.mk.injEq] at e
  obtain ⟨pa, host, peer, cores, households, peats⟩ := e
  rw [State.Canon, State.memWf, pa, host, peer, cores, households, peats]
  exact h
theorem State.Canon.iteSnd {β : Type} {p : Prop} [Decidable p] {x y : β × State} (hx : x.2.Canon μ κ) (hy : y.2.Canon μ κ) :
    (if p then x else y).2.Canon μ κ := by
  split
  · exact hx
  · exact hy
/-- The first part of a pair, the state. -/
theorem State.Canon.fst {β : Type} {s : State} {b : β} (h : s.Canon μ κ) : (s, b).1.Canon μ κ := h
theorem State.Canon.ite {p : Prop} [Decidable p] {s t : State} (hs : s.Canon μ κ) (ht : t.Canon μ κ) :
    (if p then s else t).Canon μ κ := by
  split
  · exact hs
  · exact ht
/-- A state whose memories outside the cores have been written. -/
theorem State.Canon.written {s t : State} (h : s.Canon μ κ) (pa : Memory.wf s.pa = true → Memory.wf t.pa = true)
    (host : Memory.wf s.host = true → Memory.wf t.host = true) (peer : Memory.wf s.peer = true → Memory.wf t.peer = true)
    (rest : (t.cores, t.households, t.peats) = (s.cores, s.households, s.peats)) : t.Canon μ κ := by
  simp only [Prod.mk.injEq] at rest
  obtain ⟨cores, households, peats⟩ := rest
  obtain ⟨mem, hc, hh, hp⟩ := h
  exact ⟨fun hm => ⟨pa (mem hm).1, host (mem hm).2.1, peer (mem hm).2.2⟩, cores ▸ hc, households ▸ hh, peats ▸ hp⟩
theorem State.Canon.hostBytes {s : State} {a : Nat} {bs : List Byte} (h : s.Canon μ κ) :
    ({ s with host := s.host.writeBytes a bs } : State).Canon μ κ := h.written id Memory.writeBytes_wf id rfl
theorem State.Canon.hostN {s : State} {a n v : Nat} (h : s.Canon μ κ) :
    ({ s with host := s.host.writeN a n v } : State).Canon μ κ := h.written id Memory.writeN_wf id rfl
/-- A state whose table of peats is another. -/
theorem State.Canon.withPeats {s t : State} (h : s.Canon μ κ) (peats : ∀ p ∈ t.peats, savedCanon κ p.2.frozen)
    (rest : (t.pa, t.host, t.peer, t.cores, t.households) = (s.pa, s.host, s.peer, s.cores, s.households)) : t.Canon μ κ := by
  simp only [Prod.mk.injEq] at rest
  obtain ⟨pa, host, peer, cores, households⟩ := rest
  obtain ⟨mem, hc, hh, -⟩ := h
  refine ⟨?_, cores ▸ hc, households ▸ hh, peats⟩
  rw [State.memWf, pa, host, peer]
  exact mem
/-- A state whose table of households is another. -/
theorem State.Canon.withHouseholds {s t : State} (h : s.Canon μ κ) (households : ∀ x ∈ t.households, savedCanon κ x.2.frozen)
    (rest : (t.pa, t.host, t.peer, t.cores, t.peats) = (s.pa, s.host, s.peer, s.cores, s.peats)) : t.Canon μ κ := by
  simp only [Prod.mk.injEq] at rest
  obtain ⟨pa, host, peer, cores, peats⟩ := rest
  obtain ⟨mem, hc, -, hp⟩ := h
  refine ⟨?_, cores ▸ hc, households, peats ▸ hp⟩
  rw [State.memWf, pa, host, peer]
  exact mem
theorem State.Canon.peatOf {s : State} {n : Nat} {p : Peat} (h : s.Canon μ κ) (e : tfind s.peats n = some p) :
    savedCanon κ p.frozen := by
  obtain ⟨-, -, -, peats⟩ := h
  exact tfind_of_forall (P := fun x : Peat => savedCanon κ x.frozen) peats e
theorem State.Canon.putPeats {s : State} {n : Nat} {p : Peat} (h : s.Canon μ κ) (hp : savedCanon κ p.frozen) :
    ({ s with peats := tput s.peats n p } : State).Canon μ κ := by
  refine h.withPeats ?_ rfl
  obtain ⟨-, -, -, peats⟩ := h
  exact forall_mem_tput (P := fun x : Peat => savedCanon κ x.frozen) peats n hp
theorem State.Canon.delPeat {s : State} {n : Nat} (h : s.Canon μ κ) : ({ s with peats := tdel s.peats n } : State).Canon μ κ := by
  refine h.withPeats ?_ rfl
  obtain ⟨-, -, -, peats⟩ := h
  exact forall_mem_tdel (P := fun x : Peat => savedCanon κ x.frozen) peats n
theorem State.Canon.putHousehold {s : State} {n : Nat} {x : Household} (h : s.Canon μ κ) (hx : savedCanon κ x.frozen) :
    ({ s with households := tput s.households n x } : State).Canon μ κ := by
  refine h.withHouseholds ?_ rfl
  obtain ⟨-, -, households, -⟩ := h
  exact forall_mem_tput (P := fun x : Household => savedCanon κ x.frozen) households n hx
theorem State.Canon.delHousehold {s : State} {n : Nat} (h : s.Canon μ κ) :
    ({ s with households := tdel s.households n } : State).Canon μ κ := by
  refine h.withHouseholds ?_ rfl
  obtain ⟨-, -, households, -⟩ := h
  exact forall_mem_tdel (P := fun x : Household => savedCanon κ x.frozen) households n
/-- A state in which every peat has been changed in one way that keeps its saved state. -/
theorem State.Canon.mapPeats {s t : State} {F : Nat × Peat → Nat × Peat} (h : s.Canon μ κ) (peats : t.peats = s.peats.map F)
    (hF : ∀ p, (F p).2.frozen = p.2.frozen)
    (rest : (t.pa, t.host, t.peer, t.cores, t.households) = (s.pa, s.host, s.peer, s.cores, s.households)) : t.Canon μ κ := by
  refine h.withPeats ?_ rest
  obtain ⟨-, -, -, hp⟩ := h
  rw [peats, List.forall_mem_map]
  exact fun p m => (hF p) ▸ hp p m
theorem State.Canon.foldl_mem {α : Type} {l : List α} {f : State → α → State} {s : State} (h : s.Canon μ κ)
    (step : ∀ t, ∀ a ∈ l, t.Canon μ κ → (f t a).Canon μ κ) : (l.foldl f s).Canon μ κ :=
  List.foldlRecOn (motive := fun t => State.Canon μ κ t) l f h (fun t ht a ha => step t a ha ht)
theorem State.Canon.foldl {α : Type} {l : List α} {f : State → α → State} {s : State} (h : s.Canon μ κ)
    (step : ∀ t a, t.Canon μ κ → (f t a).Canon μ κ) : (l.foldl f s).Canon μ κ :=
  List.foldlRecOn (motive := fun t => State.Canon μ κ t) l f h (fun t ht a _ => step t a ht)
theorem State.Canon.foldl_fst {α β : Type} {l : List α} {f : State × β → α → State × β} {p : State × β} (h : p.1.Canon μ κ)
    (step : ∀ q a, q.1.Canon μ κ → (f q a).1.Canon μ κ) : (l.foldl f p).1.Canon μ κ :=
  List.foldlRecOn (motive := fun q => q.1.Canon μ κ) l f h (fun t ht a _ => step t a ht)
/-- A fold that carries the state beside other values. -/
theorem State.Canon.foldl_snd {α β : Type} {l : List α} {f : β × State → α → β × State} {p : β × State} (h : p.2.Canon μ κ)
    (step : ∀ q a, q.2.Canon μ κ → (f q a).2.Canon μ κ) : (l.foldl f p).2.Canon μ κ :=
  List.foldlRecOn (motive := fun q => q.2.Canon μ κ) l f h (fun t ht a _ => step t a ht)
theorem State.Canon.foldl_snd_snd {α β γ : Type} {l : List α} {f : β × γ × State → α → β × γ × State} {p : β × γ × State}
    (h : p.2.2.Canon μ κ) (step : ∀ q a, q.2.2.Canon μ κ → (f q a).2.2.Canon μ κ) : (l.foldl f p).2.2.Canon μ κ :=
  List.foldlRecOn (motive := fun q => q.2.2.Canon μ κ) l f h (fun t ht a _ => step t a ht)
theorem NextCanon.next {s : State} (h : s.Canon μ κ) : NextCanon μ κ (.next s) := fun _ e => Host.Outcome.next.inj e ▸ h
theorem NextCanon.state {t : State} (h : NextCanon μ κ (.next t)) : t.Canon μ κ := h t rfl
theorem NextCanon.ite {p : Prop} [Decidable p] {o r : Host.Outcome State Fault Refusal} (ho : NextCanon μ κ o)
    (hr : NextCanon μ κ r) : NextCanon μ κ (if p then o else r) := by
  split
  · exact ho
  · exact hr
theorem NextCanon.fault {r : Fault} : NextCanon μ κ (.fault r) := fun _ => by simp
theorem NextCanon.refused {r : Refusal} : NextCanon μ κ (.refused r) := fun _ => by simp

theorem NextCanon.foldl {α : Type} {l : List α} {f : Host.Outcome State Fault Refusal → α → Host.Outcome State Fault Refusal}
    {o : Host.Outcome State Fault Refusal} (h : NextCanon μ κ o) (step : ∀ r a, NextCanon μ κ r → NextCanon μ κ (f r a)) :
    NextCanon μ κ (l.foldl f o) :=
  List.foldlRecOn (motive := NextCanon μ κ) l f h (fun r hr a _ => step r a hr)
theorem Met.Canon.ite {p : Prop} [Decidable p] {r q : Met} (hr : r.Canon μ κ) (hq : q.Canon μ κ) :
    (if p then r else q).Canon μ κ := by
  split
  · exact hr
  · exact hq
theorem Offer.Canon.ite {p : Prop} [Decidable p] {r q : Offer} (hr : r.Canon μ κ) (hq : q.Canon μ κ) :
    (if p then r else q).Canon μ κ := by
  split
  · exact hr
  · exact hq
theorem Met.Canon.ok {s : State} {v : Nat} {k : Seen} (h : s.Canon μ κ) : (Met.ok s v k).Canon μ κ := h
theorem Met.Canon.wait {s : State} (h : s.Canon μ κ) : (Met.wait s).Canon μ κ := h
theorem Met.Canon.refused {s : State} {r : Nat} (h : s.Canon μ κ) : (Met.refused s r).Canon μ κ := h
theorem Met.Canon.okState {r : Met} {s : State} {v : Nat} {k : Seen} (h : r.Canon μ κ) (e : r = .ok s v k) : s.Canon μ κ := by
  subst e
  exact h
theorem Met.Canon.waitState {r : Met} {s : State} (h : r.Canon μ κ) (e : r = .wait s) : s.Canon μ κ := by
  subst e
  exact h
theorem Met.Canon.refusedState {r : Met} {s : State} {n : Nat} (h : r.Canon μ κ) (e : r = .refused s n) : s.Canon μ κ := by
  subst e
  exact h
theorem Offer.Canon.no {s : State} (h : s.Canon μ κ) : (Offer.no s).Canon μ κ := h
theorem Offer.Canon.yes {r : Host.Outcome State Fault Refusal} (h : NextCanon μ κ r) : (Offer.yes r).Canon μ κ := h
theorem Offer.Canon.noState {o : Offer} {s : State} (h : o.Canon μ κ) (e : o = .no s) : s.Canon μ κ := by
  subst e
  exact h
theorem Offer.Canon.yesNext {o : Offer} {r : Host.Outcome State Fault Refusal} (h : o.Canon μ κ) (e : o = .yes r) : NextCanon μ κ r := by
  subst e
  exact h

theorem State.Canon.coreOf {s : State} {n : Nat} (h : s.Canon μ κ) : (s.coreOf n).Canon κ := by
  obtain ⟨-, cores, -, -⟩ := h
  exact tget_of_forall (P := CoreSt.Canon κ) cores CoreSt.Canon.reset n
theorem State.Canon.household {s : State} {n : Nat} (h : s.Canon μ κ) : savedCanon κ (s.household n).frozen := by
  obtain ⟨-, -, households, -⟩ := h
  exact tget_of_forall (P := fun x : Household => savedCanon κ x.frozen) households savedCanon_none n
theorem State.Canon.peat {s : State} {n : Nat} (h : s.Canon μ κ) : savedCanon κ (tget s.peats Peat.reset n).frozen := by
  obtain ⟨-, -, -, peats⟩ := h
  exact tget_of_forall (P := fun x : Peat => savedCanon κ x.frozen) peats savedCanon_none n
theorem State.Canon.getD {s : State} {o : Option State} (ho : ∀ t, o = some t → t.Canon μ κ) (h : s.Canon μ κ) :
    (o.getD s).Canon μ κ := by
  cases o with
  | none => exact h
  | some t => exact ho t rfl
theorem State.Canon.setCore {s : State} {n : Nat} {x : CoreSt} (h : s.Canon μ κ) (hx : x.Canon κ) : (s.setCore n x).Canon μ κ := by
  obtain ⟨mem, cores, households, peats⟩ := h
  exact ⟨mem, forall_mem_tput (P := CoreSt.Canon κ) cores n hx, households, peats⟩
theorem State.Canon.onCore {s : State} {n : Nat} {f : CoreSt → CoreSt} (h : s.Canon μ κ)
    (hf : ∀ x, x.Canon κ → (f x).Canon κ) :
    (s.onCore n f).Canon μ κ := h.setCore (hf _ h.coreOf)
theorem State.Canon.onHere {s : State} {f : CoreSt → CoreSt} (h : s.Canon μ κ) (hf : ∀ x, x.Canon κ → (f x).Canon κ) :
    (s.onHere f).Canon μ κ := h.onCore hf
theorem State.Canon.here {s : State} (h : s.Canon μ κ) : s.here.Canon κ := h.coreOf
theorem State.Canon.setCtx {s : State} {n i : Nat} {x : Ctx} (h : s.Canon μ κ) : (s.setCtx n i x).Canon μ κ :=
  h.setCore h.coreOf.setCtx
theorem State.Canon.onCtx {s : State} {n i : Nat} {f : Ctx → Ctx} (h : s.Canon μ κ) : (s.onCtx n i f).Canon μ κ := h.setCtx
theorem State.Canon.onMe {s : State} {f : Ctx → Ctx} (h : s.Canon μ κ) : (s.onMe f).Canon μ κ := h.onCtx
theorem State.Canon.onHousehold {s : State} {n : Nat} {f : Household → Household} (h : s.Canon μ κ)
    (hf : ∀ x, savedCanon κ x.frozen → savedCanon κ (f x).frozen) : (s.onHousehold n f).Canon μ κ := by
  obtain ⟨mem, cores, households, peats⟩ := id h
  exact ⟨mem, cores, forall_mem_tput (P := fun x : Household => savedCanon κ x.frozen) households n (hf _ h.household), peats⟩

end
end Sys2Proof.Machine
end

section
/-! ## Canonical memories: the state (Machine/State) -/
namespace Sys2Proof.Machine
variable {μ κ : Prop}

theorem reset_saved : savedCanon κ Household.reset.frozen := savedCanon_none
theorem State.Canon.reset : State.reset.Canon μ κ :=
  ⟨fun _ => State.reset_memWf, fun _ => nofun, fun _ => nofun, fun _ => nofun⟩

end Sys2Proof.Machine
end

section
/-! ## Canonical memories: the state's operations (Machine/Ops) -/
namespace Sys2Proof.Machine
variable {μ κ : Prop}

theorem State.Canon.onCluster {s : State} {cl : Nat} {f : Cluster → Cluster} (h : s.Canon μ κ) : (s.onCluster cl f).Canon μ κ :=
  h.same rfl
theorem State.Canon.onQueue {s : State} {q : Nat} {f : QueueSt → QueueSt} (h : s.Canon μ κ) : (s.onQueue q f).Canon μ κ :=
  h.same rfl
theorem State.Canon.onDie {s : State} {d : Nat} {f : Die → Die} (h : s.Canon μ κ) : (s.onDie d f).Canon μ κ := h.same rfl
theorem State.Canon.putOff {s : State} {hid : Nat} {d : DueEv} (h : s.Canon μ κ) : (s.putOff hid d).Canon μ κ :=
  h.onHousehold (fun _ h1 => h1)
theorem State.Canon.learn {s : State} {core : Nat} {know : Seen} (h : s.Canon μ κ) : (s.learn core know).Canon μ κ :=
  .ite h (h.onCore (fun _ h1 => h1.same rfl rfl))
theorem State.Canon.actOutside {core ctx : Nat} {s : State} {a : Act} (h : s.Canon μ κ) : (State.actOutside core ctx s a).Canon
    μ κ := by
  unfold State.actOutside
  split
  · exact h.onCore (fun _ h1 => h1.same rfl rfl)
  · exact h.onCluster
  · extract_lets task
    exact h.onCluster
  · exact h.onCtx
  · exact h.onCluster
  · exact h.learn
  · exact h.onCluster
  · extract_lets tiles
    exact h.onCluster
  · exact h
theorem State.Canon.complete {s : State} {core ctx : Nat} {acts : List Act} (h : s.Canon μ κ) : (s.complete core ctx acts).Canon
    μ κ :=
  h.onCtx.foldl_mem (fun _ _ _ h2 => h2.actOutside)
theorem State.Canon.later {s : State} {at_ : Nat} {ev : DueEv} (h : s.Canon μ κ) : (s.later at_ ev).Canon μ κ := h.same rfl
theorem State.Canon.doneAt {s : State} {at_ core ctx : Nat} {acts : List Act} (h : s.Canon μ κ) :
    (s.doneAt at_ core ctx acts).Canon μ κ :=
  h.later
theorem State.Canon.lineageAt {s : State} {core ctx : Nat} {chs : List (Nat × Nat × LChange)} (h : s.Canon μ κ) :
    (s.lineageAt core ctx chs).Canon μ κ :=
  h.doneAt
theorem State.Canon.stepAt {s : State} {at_ : Nat} {i : Event} (h : s.Canon μ κ) : (s.stepAt at_ i).Canon μ κ := h.later
theorem State.Canon.soon {s : State} {i : Event} (h : s.Canon μ κ) : (s.soon i).Canon μ κ := h.same rfl
theorem State.Canon.soonAfter {s : State} {lim : Nat} {i : Event} (h : s.Canon μ κ) : (s.soonAfter lim i).Canon μ κ := h.same rfl
theorem State.Canon.next {s : State} {i : Event} (h : s.Canon μ κ) : (s.next i).Canon μ κ := h.same rfl
theorem State.Canon.choose {s : State} {n : Nat} (h : s.Canon μ κ) : (s.choose n).2.Canon μ κ := h.same rfl
theorem State.Canon.record {s : State} {q ring : Nat} {rec : BitVec 256} {ack : Option Nat} (h : s.Canon μ κ) :
    (s.record q ring rec ack).Canon μ κ := by
  unfold State.record
  extract_lets r s1
  exact .ite h.onQueue h.onQueue.next
theorem State.Canon.moduleEvent {s : State} {kind unit detail addr hid : Nat} (h : s.Canon μ κ) :
    (s.moduleEvent kind unit detail addr hid).Canon μ κ := by
  unfold State.moduleEvent
  extract_lets r rec_ t
  exact .ite (.next (h.same rfl)) (h.same rfl)
theorem State.Canon.armKill {s : State} {hid at_ reason : Nat} (h : s.Canon μ κ) : (s.armKill hid at_ reason).Canon μ κ := by
  unfold State.armKill
  extract_lets q x earlier
  exact .ite h (.ite h.onQueue (.stepAt (.onQueue (h.onHousehold (fun _ h1 => h1)))))
theorem CoreSt.Canon.endRb {x : CoreSt} {ctx : Nat} (hx : x.Canon κ) : (x.endRb ctx).Canon κ := by
  unfold CoreSt.endRb
  split
  · exact .ite (hx.same rfl rfl) hx
  · exact .ite (hx.same rfl rfl) hx
  · exact hx
theorem State.Canon.fatal {s : State} {cause sub info : Nat} {epc : Word} (h : s.Canon μ κ) : (s.fatal cause sub info epc).Canon
    μ κ := by
  unfold State.fatal
  extract_lets src q k epc1 s1 s2 s3
  exact .ite h.onMe.record.armKill (h.onMe.record.armKill.onHousehold (fun _ h1 => h1))
theorem State.Canon.enterTrap {s : State} {cause sub slot : Nat} {late : Bool} {info : Nat} {epc : Word} (h : s.Canon μ κ) :
    (s.enterTrap cause sub slot late info epc).Canon μ κ := by
  unfold State.enterTrap
  extract_lets s1 s2
  have hs1 : s1.Canon μ κ := h.same rfl
  have hs2 : s2.Canon μ κ := hs1.onHere (fun _ h1 => h1.endRb)
  exact .ite hs1.fatal hs2.onMe
theorem State.Canon.leaveTrap {s : State} (h : s.Canon μ κ) : s.leaveTrap.Canon μ κ := h.onMe
theorem State.Canon.hold {s : State} {field : Bool} (h : s.Canon μ κ) : (s.hold field).Canon μ κ := by
  unfold State.hold
  extract_lets t
  have ht : t.Canon μ κ := h.onMe
  exact ht.same rfl
theorem State.Canon.trapAfter {s : State} {cause sub info : Nat} {epc : Word} (h : s.Canon μ κ) :
    (s.trapAfter cause sub info epc).Canon μ κ := by
  unfold State.trapAfter
  extract_lets t
  have ht : t.Canon μ κ := h.enterTrap.onMe
  exact ht.same rfl
theorem State.Canon.switching {s : State} (h : s.Canon μ κ) : s.switching.Canon μ κ := by
  unfold State.switching
  split
  · exact h
  · refine h.onHere (fun _ h1 => ?_)
    split
    · exact .ite (h1.same rfl rfl) (h1.same rfl rfl)
    · exact h1.same rfl rfl
theorem State.Canon.post {s : State} {m : Msg} (h : s.Canon μ κ) : (s.post m).Canon μ κ := by
  unfold State.post
  extract_lets id
  exact .soon (h.same rfl)
theorem State.Canon.onMsg {s : State} {id : Nat} {f : Msg → Msg} (h : s.Canon μ κ) : (s.onMsg id f).Canon μ κ := by
  unfold State.onMsg
  split
  · exact h
  · exact h.same rfl
theorem State.Canon.dropMsg {s : State} {id : Nat} (h : s.Canon μ κ) : (s.dropMsg id).Canon μ κ := h.same rfl
theorem State.Canon.request {s : State} {dst : Dst} {tok : Option TokRef} {body : Body} {handle : Option Nat} {near : Bool}
    {know : Seen} (h : s.Canon μ κ) : (s.request dst tok body handle near know).Canon μ κ :=
  h.onMe.post
theorem CoreSt.Canon.setFe {x : CoreSt} {w : Nat} {full : Bool} (hx : x.Canon κ) : (x.setFe w full).Canon κ := by
  unfold CoreSt.setFe
  extract_lets x1
  have hx1 : x1.Canon κ := hx.same rfl rfl
  exact .ite (hx1.same rfl rfl) (.ite hx1 (hx1.same rfl rfl))

end Sys2Proof.Machine
end

section
/-! ## Canonical memories: the memory order (Machine/Order) -/
namespace Sys2Proof.Machine
variable {μ κ : Prop}

theorem State.Canon.pickFrom {s : State} {cand : Nat → List Node} {a n left : Nat} {done : List (Nat × Node)} (h : s.Canon μ κ) :
    (s.pickFrom cand a n left done).2.Canon μ κ := by
  induction left generalizing s done with
  | zero => exact h
  | succ k ih =>
    unfold State.pickFrom
    extract_lets x ok from_
    clear_value from_
    split
    · exact ih h
    · exact ih h
    · exact ih h.choose
theorem State.Canon.readStep {s : State} {know : Seen} {loc : Nat → Loc} {byte : Nat → Nat} {a n : Nat} (h : s.Canon μ κ) :
    (s.readStep know loc byte a n).2.2.Canon μ κ := by
  unfold State.readStep
  split
  · exact h
  · extract_lets r
    exact h.pickFrom
theorem State.Canon.readTop {s : State} {loc : Nat → Loc} {byte : Nat → Nat} {a n : Nat} (h : s.Canon μ κ) :
    (s.readTop loc byte a n).2.Canon μ κ := by
  unfold State.readTop
  split
  · exact h
  · extract_lets r
    exact h.pickFrom
theorem State.Canon.addNodes {s : State} {id : Nat} {all : Bool} {know : Seen} {loc : Nat → Loc} {byte : Nat → Nat}
    {a n val left : Nat} (h : s.Canon μ κ) : (s.addNodes id all know loc byte a n val left).2.Canon μ κ := by
  induction left generalizing s know with
  | zero => exact h
  | succ k ih =>
    unfold State.addNodes
    exact ih (h.same rfl)
theorem State.Canon.noteWrite {s : State} {all : Bool} {know : Seen} {loc : Nat → Loc} {byte : Nat → Nat} {a n val : Nat}
    (h : s.Canon μ κ) : (s.noteWrite all know loc byte a n val).2.Canon μ κ :=
  .addNodes (h.same rfl)
theorem State.Canon.readLs {s : State} {core home a n : Nat} (h : s.Canon μ κ) : (s.readLs core home a n).2.Canon μ κ := by
  unfold State.readLs
  split
  · exact h
  · extract_lets r
    exact h.pickFrom.learn
theorem State.Canon.readLsMany {s : State} {core home n : Nat} {as : List Nat} (h : s.Canon μ κ) :
    (s.readLsMany core home n as).2.Canon μ κ := by
  induction as generalizing s with
  | nil => exact h
  | cons a rest ih => exact ih h.readLs
theorem State.Canon.storeLs {s : State} {core home a n val : Nat} (h : s.Canon μ κ) : (s.storeLs core home a n val).Canon μ κ := by
  unfold State.storeLs
  extract_lets r
  exact .onCore (h.noteWrite.onCore (fun _ h1 => h1.same rfl rfl)) (fun _ h2 => h2.putLs)
theorem State.Canon.settleLs {s : State} {home a n : Nat} (h : s.Canon μ κ) : (s.settleLs home a n).Canon μ κ := by
  unfold State.settleLs
  extract_lets cand r
  have hr : r.2.Canon μ κ := h.pickFrom
  exact .ite h (hr.onCore (fun _ h1 => h1.written Memory.writeN_wf id))
theorem State.Canon.atomicLs {s : State} {core home a n : Nat} {f : Nat → Nat} (h : s.Canon μ κ) :
    (s.atomicLs core home a n f).2.Canon μ κ := by
  unfold State.atomicLs
  extract_lets s1 old r
  exact .onCore (h.settleLs.noteWrite.onCore (fun _ h1 => h1.same rfl rfl)) (fun _ h2 => h2.putLs)
theorem State.Canon.loftLine {s : State} {know : Seen} {core a : Nat} {bs : List Byte} (h : s.Canon μ κ) :
    (s.loftLine know core a bs).2.Canon μ κ := by
  unfold State.loftLine
  extract_lets line b r
  exact h.noteWrite.onCore (fun _ h1 => h1.putB)
theorem State.Canon.mldLines {s : State} {core src dst i n : Nat} (h : s.Canon μ κ) : (s.mldLines core src dst i n).Canon μ κ := by
  induction n generalizing s i with
  | zero => exact h
  | succ k ih =>
    unfold State.mldLines
    extract_lets r w
    have hw : w.2.Canon μ κ := h.readLsMany.loftLine
    exact ih (hw.onCore (fun _ h1 => h1.same rfl rfl))
theorem State.Canon.mldAdvance {s : State} {core g : Nat} (h : s.Canon μ κ) : (s.mldAdvance core g).Canon μ κ := by
  unfold State.mldAdvance
  split
  · exact h
  · split
    · exact h
    · extract_lets n
      exact .ite h (h.mldLines.onCore (fun _ h1 => h1.same rfl rfl))
theorem State.Canon.loftWrite {s : State} {know : Seen} {core a : Nat} {bs : List Byte} (h : s.Canon μ κ) :
    (s.loftWrite know core a bs).2.Canon μ κ := by
  unfold State.loftWrite
  extract_lets r
  exact h.mldAdvance.loftLine.onCore (fun _ h1 => h1.same rfl rfl)
theorem State.Canon.publish {s : State} {key : Nat} {know : Seen} (h : s.Canon μ κ) : (s.publish key know).Canon μ κ :=
  .ite h (h.same rfl)
theorem State.Canon.release {s : State} {core fen scope : Nat} (h : s.Canon μ κ) : (s.release core fen scope).Canon μ κ := by
  unfold State.release
  extract_lets hid
  exact h.foldl_mem (fun _ _ _ h2 => h2.publish)
theorem State.Canon.acquire {s : State} {core fen scope : Nat} (h : s.Canon μ κ) : (s.acquire core fen scope).Canon μ κ :=
  .ite h h.learn
theorem State.Canon.freshCore {s : State} {core : Nat} (h : s.Canon μ κ) : (s.freshCore core).Canon μ κ := by
  unfold State.freshCore
  extract_lets t
  have ht : t.Canon μ κ := h.onCore (fun _ h1 => h1.same rfl rfl)
  exact ht.same rfl
theorem State.Canon.freshLoft {s : State} {core : Nat} (h : s.Canon μ κ) : (s.freshLoft core).Canon μ κ := by
  unfold State.freshLoft
  extract_lets t
  have ht : t.Canon μ κ := h.onCore (fun _ h1 => h1.same rfl rfl)
  exact ht.same rfl
theorem State.Canon.freshCounters {s : State} {cl : Nat} (h : s.Canon μ κ) : (s.freshCounters cl).Canon μ κ := h.same rfl
theorem State.Canon.freshRows {s : State} {cl : Nat} (h : s.Canon μ κ) : (s.freshRows cl).Canon μ κ := h.same rfl
theorem State.Canon.forgetPlaces {s : State} {hid : Nat} (h : s.Canon μ κ) : (s.forgetPlaces hid).Canon μ κ := by
  unfold State.forgetPlaces
  extract_lets keep
  exact h.same rfl
theorem State.Canon.forgetHousehold {s : State} {hid : Nat} (h : s.Canon μ κ) : (s.forgetHousehold hid).Canon μ κ := h.same rfl
theorem State.Canon.touchPlace {s : State} {but : Option Nat} {p : Place} {val : Nat} (h : s.Canon μ κ) :
    (s.touchPlace but p val).Canon μ κ := by
  unfold State.touchPlace
  split
  · extract_lets w
    exact h.same rfl
  · exact h
theorem State.Canon.appendNode {s : State} {l : Loc} {old val : Nat} (h : s.Canon μ κ) : (s.appendNode l old val).2.Canon μ κ := by
  unfold State.appendNode
  extract_lets g w
  exact h.same rfl
theorem State.Canon.readNode {s : State} {core : Nat} {l : Loc} {val : Nat} (h : s.Canon μ κ) : (s.readNode core l val).2.Canon
    μ κ := by
  unfold State.readNode
  extract_lets cand r
  split
  · exact h
  · exact h.pickFrom.learn

end Sys2Proof.Machine
end

section
/-! ## Canonical memories: translation (Machine/Translate) -/
namespace Sys2Proof.Machine
variable {μ κ : Prop}

theorem State.Canon.tlbFill {s : State} {die hid va : Nat} (h : s.Canon μ κ) : (s.tlbFill die hid va).Canon μ κ := by
  unfold State.tlbFill
  split
  · exact h
  · split
    · exact h
    · extract_lets t1 old
      exact h.same rfl
theorem State.Canon.setPlace {s : State} {p : Place} {b : Byte} (h : s.Canon μ κ) : (s.setPlace p b).Canon μ κ := by
  cases p with
  | device a => exact h.written Memory.write_wf id id rfl
  | hostM pasid a => exact h.written id Memory.write_wf id rfl
  | peer m hid a => exact h.written id id Memory.write_wf rfl
  | peat n a => exact h

end Sys2Proof.Machine
end

section
/-! ## Canonical memories: banks and places (Machine/Banks) -/
namespace Sys2Proof.Machine
variable {μ κ : Prop}

theorem State.Canon.onStack {s : State} {n : Nat} {f : Stack → Stack} (h : s.Canon μ κ) : (s.onStack n f).Canon μ κ := h.same rfl
theorem State.Canon.onBank {s : State} {b : Nat} {f : Bank → Bank} (h : s.Canon μ κ) : (s.onBank b f).Canon μ κ := h.same rfl
theorem State.Canon.track {s : State} {pa : Nat} (h : s.Canon μ κ) : (s.track pa).Canon μ κ := by
  unfold State.track
  extract_lets n k hot key c s1
  exact .ite h.onStack h.onStack.next
theorem State.Canon.activate {s : State} {pa : Nat} (h : s.Canon μ κ) : (s.activate pa).Canon μ κ := by
  unfold State.activate
  extract_lets b row k n acts st k1 s1 cleared s2 s3
  exact .ite h.onBank (.ite h.onBank.onBank.track h.onBank.onBank.onStack.track.stepAt)
theorem State.Canon.countWait {s : State} {pa : Nat} {w : BankWait} (h : s.Canon μ κ) : (s.countWait pa w).Canon μ κ := by
  unfold State.countWait
  extract_lets b k old add
  split
  · exact .ite h (.onBank (h.same rfl))
  · exact .ite h (.onBank (h.same rfl))
  · exact h
theorem State.Canon.touch {s : State} {pa : Nat} (h : s.Canon μ κ) : (s.touch pa).Canon μ κ := .ite h (.ite h.onBank h.activate)
theorem State.Canon.touchVa {s : State} {hid va n : Nat} (h : s.Canon μ κ) : (s.touchVa hid va n).Canon μ κ := by
  unfold State.touchVa
  refine h.foldl_mem (fun _ _ _ h2 => ?_)
  split
  · exact h2.touch
  · exact h2
theorem State.Canon.writePlace {s : State} {p : Place} {b : Byte} (h : s.Canon μ κ) : (s.writePlace p b).Canon μ κ := by
  unfold State.writePlace
  extract_lets s1
  have hs1 : s1.Canon μ κ := by
    unfold s1
    split
    · exact h.touch
    · exact h
  exact hs1.touchPlace.setPlace
theorem State.Canon.writeVa {s t : State} {hid va n val : Nat} (h : s.Canon μ κ) (e : s.writeVa hid va n val = .ok t) :
    t.Canon μ κ := by
  induction n generalizing s va val with
  | zero => exact Except.ok.inj e ▸ h
  | succ k ih =>
    unfold State.writeVa at e
    split at e
    · exact nomatch e
    · exact ih h.writePlace e
theorem State.Canon.writeVaOption {s t : State} {hid va n val : Nat} (h : s.Canon μ κ)
    (e : (s.writeVa hid va n val).toOption = some t) : t.Canon μ κ := by
  cases w : s.writeVa hid va n val with
  | error r => simp [w, Except.toOption] at e
  | ok u => exact h.writeVa (w.trans (by simpa [w, Except.toOption] using e))

end Sys2Proof.Machine
end

section
/-! ## Canonical memories: operands and issue (Machine/Operands) -/
namespace Sys2Proof.Machine
variable {μ κ : Prop}

theorem State.Canon.markReads {s : State} {srcs : List RegId} (h : s.Canon μ κ) : (s.markReads srcs).Canon μ κ := .ite h.onMe h
theorem State.Canon.molWait {s : State} (h : s.Canon μ κ) : s.molWait.Canon μ κ := h.hold.onMe.stepAt
theorem State.Canon.molReserve {s : State} {n : Nat} (h : s.Canon μ κ) : (s.molReserve n).Canon μ κ :=
  h.onHere (fun _ h1 => .ite (h1.same rfl rfl) h1)
theorem State.Canon.headRead {s : State} {core : Nat} (h : s.Canon μ κ) : (s.headRead core).Canon μ κ := h.touchVa
theorem State.Canon.molFlush {s : State} {core fuel : Nat} (h : s.Canon μ κ) : (s.molFlush core fuel).Canon μ κ := by
  induction fuel generalizing s with
  | zero => exact h
  | succ k ih =>
    unfold State.molFlush
    extract_lets x hid
    split
    · exact h
    · split
      · exact h
      · split
        · exact h
        · rename_i e
          split
          · exact h
          · rename_i e1
            exact ih (((h.writeVa e).writeVa e1).onCore (fun _ h1 => h1.same rfl rfl))
theorem State.Canon.molLateFlush {s : State} {hid : Nat} (h : s.Canon μ κ) : (s.molLateFlush hid).Canon μ κ := by
  unfold State.molLateFlush
  extract_lets l s1
  have hs1 : s1.Canon μ κ := h.onHousehold (fun _ h1 => h1)
  refine hs1.foldl_mem (fun _ _ _ h3 => ?_)
  extract_lets keep
  have hkeep : keep.Canon μ κ := h3.onHousehold (fun _ h4 => h4)
  split
  · exact hkeep
  · split
    · exact hkeep
    · rename_i e3
      split
      · exact hkeep
      · rename_i e5
        exact .writeVa (h3.writeVa e3) e5
theorem State.Canon.molEntry {s : State} {core ctx kind rkind seq pc w1 w2 g : Nat} (h : s.Canon μ κ) :
    (s.molEntry core ctx kind rkind seq pc w1 w2 g).Canon μ κ := by
  unfold State.molEntry
  split
  · extract_lets val s1
    have hs1 : s1.Canon μ κ := h.onCore (fun _ h1 => h1.same rfl rfl)
    exact hs1.molFlush
  · exact h
theorem issueC_canon {i : Instr} {hd : CHead} {u : Use} {eff : State → State} {s : State}
    (heff : ∀ t, t.Canon μ κ → (eff t).Canon μ κ) (hs : s.Canon μ κ) : NextCanon μ κ (issueC i hd u eff s) := by
  unfold issueC
  extract_lets c
  split
  · exact .next hs.hold
  · split
    · exact .next hs.enterTrap
    · split
      · exact .next hs.hold
      · split
        · exact .next hs.enterTrap
        · exact .ite (.next hs.hold) (.ite (.next hs.molWait) (.next (heff _ hs.markReads.molReserve)))
theorem issueA_canon {i : Instr} {u : Use} {eff : State → State} {s : State} (heff : ∀ t, t.Canon μ κ → (eff t).Canon μ κ)
    (hs : s.Canon μ κ) : NextCanon μ κ (issueA i u eff s) := by
  unfold issueA
  extract_lets c
  split
  · exact .next hs.enterTrap
  · split
    · exact .next hs.enterTrap
    · exact .next (heff _ hs.markReads)
theorem State.Canon.fixedWrite {s : State} {r : RegId} {val lat : Nat} (h : s.Canon μ κ) : (s.fixedWrite r val lat).Canon μ κ :=
  h.onMe
theorem State.Canon.longStart {s : State} {r : RegId} {t : TokRef} (h : s.Canon μ κ) : (s.longStart r t).Canon μ κ := h.onMe

end Sys2Proof.Machine
end

section
/-! ## Canonical memories: Machine/Flags -/
namespace Sys2Proof.Machine
variable {μ κ : Prop}

theorem State.Canon.writeCtl {s : State} {n : Nat} {w : Word} (h : s.Canon μ κ) : (s.writeCtl n w).Canon μ κ := by
  unfold State.writeCtl
  split
  · exact h.onMe
  · exact h.onMe
  · exact h.onMe
  · exact h.onMe
  · exact h.onHere (fun _ h1 => h1.same rfl rfl)
  · exact h.onHere (fun _ h2 => h2.same rfl rfl)
  · exact h.onHere (fun _ h3 => h3.same rfl rfl)
  · exact h.onHere (fun _ h4 => h4.same rfl rfl)
  · exact h

end Sys2Proof.Machine
end

section
/-! ## Canonical memories: the tracer (Machine/Tracer) -/
namespace Sys2Proof.Machine
variable {μ κ : Prop}

theorem State.Canon.traceFlush {s : State} {core fuel : Nat} (h : s.Canon μ κ) : (s.traceFlush core fuel).Canon μ κ := by
  induction fuel generalizing s with
  | zero => exact h
  | succ k ih =>
    unfold State.traceFlush
    extract_lets x t hid
    split
    · exact h
    · split
      · exact h
      · split
        · exact ih (h.onCore (fun _ h1 => h1.same rfl rfl))
        · rename_i e
          exact ih ((h.writeVa e).onCore (fun _ h1 => h1.same rfl rfl))
theorem State.Canon.traceWrite {s : State} {core : Nat} {rec_ : BitVec 256} (h : s.Canon μ κ) : (s.traceWrite core rec_).Canon μ
    κ := by
  unfold State.traceWrite
  split
  · exact h.onCore (fun _ h1 => h1.same rfl rfl)
  · extract_lets s1
    have hs1 : s1.Canon μ κ := h.onCore (fun _ h2 => h2.same rfl rfl)
    exact hs1.traceFlush
theorem State.Canon.traceEvent {s : State} {marker : Option Nat} {v : Nat} (h : s.Canon μ κ) : (s.traceEvent marker v).Canon μ κ := by
  unfold State.traceEvent
  split
  · extract_lets c rec_
    exact h.traceWrite.onMe
  · exact h
theorem State.Canon.traceWindow {s : State} {core : Nat} {pair : Option (Nat × Nat)} {marker : Option Nat} (h : s.Canon μ κ) :
    (s.traceWindow core pair marker).Canon μ κ := by
  unfold State.traceWindow
  extract_lets t start stop n byGts sctx spc out
  split
  · exact h
  · split
    · exact .ite (.onCore (.ite h.traceWrite h) (fun _ h1 => h1.same rfl rfl)) (h.onCore (fun _ h2 => h2.same rfl rfl))
    · split
      · unfold out
        exact .ite h.traceWrite h
      · exact .ite (h.onCore (fun _ h3 => h3.same rfl rfl)) h

end Sys2Proof.Machine
end

section
/-! ## Canonical memories: barriers (Machine/Barrier) -/
namespace Sys2Proof.Machine
variable {μ κ : Prop}

theorem State.Canon.lateReport {s : State} {core ctx : Nat} {r : LateReport} (h : s.Canon μ κ) : (s.lateReport core ctx r).Canon
    μ κ := by
  unfold State.lateReport
  extract_lets c q src
  exact .ite h.record (.ite h.onCtx.record h.onCtx)
theorem State.Canon.refusal {s : State} {core ctx seq reason rkind addr tag : Nat} (h : s.Canon μ κ) :
    (s.refusal core ctx seq reason rkind addr tag).Canon μ κ :=
  h.lateReport
theorem State.Canon.killNow {s : State} {hid : Nat} (h : s.Canon μ κ) : (s.killNow hid).Canon μ κ := h.armKill
theorem State.Canon.sendBack {s : State} {id : Nat} {e : Event} (h : s.Canon μ κ) : (s.sendBack id e).Canon μ κ := by
  unfold State.sendBack
  split
  · exact h.soon
  · exact .ite h.soon h.killNow
theorem State.Canon.amoStep {s : State} {core home : Nat} {op : AmoOp} {z : Nat} {uns : Bool} {addr b c : Nat} (h : s.Canon μ κ) :
    (s.amoStep core home op z uns addr b c).2.Canon μ κ :=
  h.atomicLs
theorem State.Canon.countApplied {s : State} {core : Nat} (h : s.Canon μ κ) : (s.countApplied core).Canon μ κ :=
  h.onCore (fun _ h1 => h1.same rfl rfl)
theorem State.Canon.answer {s : State} {id : Nat} {vals : List Nat} (h : s.Canon μ κ) : (s.answer id vals).Canon μ κ :=
  h.onMsg.sendBack
theorem State.Canon.acknowledge {s : State} {id : Nat} (h : s.Canon μ κ) : (s.acknowledge id).Canon μ κ := h.sendBack
theorem State.Canon.refuseMsg {s : State} {id reason addr : Nat} (h : s.Canon μ κ) : (s.refuseMsg id reason addr).Canon μ κ :=
  h.onMsg.sendBack
theorem State.Canon.refuseApart {s : State} {m : Msg} {reason addr : Nat} (h : s.Canon μ κ) :
    (s.refuseApart m reason addr).Canon μ κ :=
  .soon (h.same rfl)
theorem State.Canon.applyHeld {s : State} {home : Nat} {a : HeldAmo} (h : s.Canon μ κ) : (s.applyHeld home a).Canon μ κ := by
  unfold State.applyHeld
  split
  · split
    · exact h.refuseMsg
    · exact h.refuseApart
  · extract_lets r1 s1
    split
    · exact h.amoStep.countApplied
    · exact h.amoStep.countApplied.onMsg.answer
    · exact h.amoStep.countApplied.doneAt
theorem State.Canon.applyHeldOf {s : State} {key : Nat} (h : s.Canon μ κ) : (s.applyHeldOf key).Canon μ κ := by
  unfold State.applyHeldOf
  refine h.foldl_mem (fun _ _ _ h2 => ?_)
  extract_lets mine s1
  have hs1 : s1.Canon μ κ := h2.onCore (fun _ h3 => h3.same rfl rfl)
  exact hs1.foldl_mem (fun _ _ _ h5 => h5.applyHeld)
theorem State.Canon.onDom {s : State} {key : Nat} {f : DomInst → DomInst} (h : s.Canon μ κ) : (s.onDom key f).Canon μ κ :=
  h.same rfl
theorem State.Canon.startPlan {s : State} {core : Nat} (h : s.Canon μ κ) : (s.startPlan core).Canon μ κ := by
  unfold State.startPlan
  extract_lets due
  exact .foldl_mem (h.onCore (fun _ h1 => h1.same rfl rfl)) (fun _ _ _ h3 => h3.soon)
theorem State.Canon.scanInstance {s : State} {key : Nat} (h : s.Canon μ κ) : (s.scanInstance key).Canon μ κ := by
  unfold State.scanInstance
  extract_lets hid level ms d s1 d1 under s2 t
  have hs1 : s1.Canon μ κ := .ite h (h.onDom.foldl_mem (fun _ _ _ h2 => h2.startPlan))
  have hs2 : s2.Canon μ κ := .ite hs1 hs1.applyHeldOf
  exact .ite h (.ite (.ite h h.applyHeldOf) (.ite (.ite hs2.onDom.stepAt hs2) hs1))
theorem State.Canon.dropDoms {s : State} {hid : Nat} (h : s.Canon μ κ) : (s.dropDoms hid).Canon μ κ := h.same rfl
theorem State.Canon.scanBarriers {s : State} (h : s.Canon μ κ) : s.scanBarriers.Canon μ κ :=
  h.foldl_mem (fun _ _ _ h2 => h2.scanInstance)

end Sys2Proof.Machine
end

section
/-! ## Canonical memories: scalar words (Machine/Scalar) -/
namespace Sys2Proof.Machine
variable {μ κ : Prop}

theorem issueBin_canon {i : Instr} {f : Word → Word → Nat} {lat : Nat} {d a b : BitVec 5} {s : State} (h : s.Canon μ κ) :
    NextCanon μ κ (issueBin i f lat d a b s) :=
  issueA_canon (fun _ h1 => h1.fixedWrite) h
theorem issueUn_canon {i : Instr} {f : Word → Nat} {lat : Nat} {d a : BitVec 5} {s : State} (h : s.Canon μ κ) : NextCanon μ κ
    (issueUn i f lat d a s) :=
  issueA_canon (fun _ h1 => h1.fixedWrite) h

end Sys2Proof.Machine
end

section
/-! ## Canonical memories: control words (Machine/Control) -/
namespace Sys2Proof.Machine
variable {μ κ : Prop}

theorem State.Canon.goto {s : State} {target : Word} (h : s.Canon μ κ) : (s.goto target).Canon μ κ := h.onMe
theorem State.Canon.transfer {s : State} {target : Word} (h : s.Canon μ κ) : (s.transfer target).Canon μ κ := h.traceEvent.goto
theorem issueBranch_canon {i : Instr} {hd : CHead} {p : BitVec 3} {o : BitVec 15} {taken : BitVec 32 → Bool} {s : State}
    (h : s.Canon μ κ) : NextCanon μ κ (issueBranch i hd p o taken s) := by
  unfold issueBranch
  extract_lets t
  exact issueC_canon (fun _ h1 => .ite h1.transfer h1) h
theorem execIllegalOpcode_canon {slot : Nat} {word : BitVec 32} {s : State} (h : s.Canon μ κ) : NextCanon μ κ
    (execIllegalOpcode slot word s) :=
  .ite (.next h.hold) (.next h.enterTrap)
theorem execFetchTrap_canon {s : State} (h : s.Canon μ κ) : NextCanon μ κ (execFetchTrap s) := by
  unfold execFetchTrap
  extract_lets c
  exact .ite (.next h.enterTrap) (.ite (.next h.enterTrap) (.next h))
theorem execLateTrap_canon {s : State} (h : s.Canon μ κ) : NextCanon μ κ (execLateTrap s) := by
  unfold execLateTrap
  extract_lets c
  split
  · exact .next h
  · split
    · exact .next h
    · extract_lets s1
      exact .next h.onMe.enterTrap
theorem execSpawn_canon {hd : CHead} {d a b : BitVec 5} {q : BitVec 3} {s : State} (h : s.Canon μ κ) : NextCanon μ κ
    (execSpawn hd d a b q s) := by
  unfold execSpawn
  refine issueC_canon (fun _ h1 => ?_) h
  extract_lets c
  split
  · exact h1.fixedWrite
  · exact h1.fixedWrite.onHere (fun _ h2 => h2.setCtx)
theorem CoreSt.Canon.leaveGang {x : CoreSt} (hx : x.Canon κ) : x.leaveGang.Canon κ := .ite hx (hx.same rfl rfl)
theorem State.Canon.orphanLate {s : State} (h : s.Canon μ κ) : s.orphanLate.Canon μ κ := by
  unfold State.orphanLate
  extract_lets src
  exact h.onMe.foldl_mem (fun _ _ _ h2 => h2.record)
theorem execSyncT_canon {hd : CHead} {d sl : BitVec 5} {s : State} (h : s.Canon μ κ) : NextCanon μ κ (execSyncT hd d sl s) := by
  unfold execSyncT
  refine issueC_canon (fun _ h1 => ?_) h
  extract_lets c lim acts s1
  exact .ite h1.fixedWrite (.ite h1.onMe.doneAt (.ite h1.onMe.complete h1.onMe.stepAt))
theorem execSyncTLimit_canon {core ctx : Nat} {s : State} (h : s.Canon μ κ) : NextCanon μ κ (execSyncTLimit core ctx s) := by
  unfold execSyncTLimit
  extract_lets c d
  split
  · exact .ite (.next h.complete) (.next h)
  · exact .next h
theorem CoreSt.Canon.advancePlan {x : CoreSt} (hx : x.Canon κ) : x.advancePlan.Canon κ := .ite hx (hx.same rfl rfl)
theorem State.Canon.completeMember {s : State} {level : Nat} {m : Nat × Nat} (h : s.Canon μ κ) :
    (s.completeMember level m).Canon μ κ := by
  unfold State.completeMember
  extract_lets c s1
  exact .ite h (.ite (h.onCtx.onCore (fun _ h1 => h1.advancePlan)) h.onCtx)
theorem CoreSt.Canon.joinGang {x : CoreSt} {g : Gang} {pc : Word} (hx : x.Canon κ) : (x.joinGang g pc).Canon κ := hx.same rfl rfl
theorem State.Canon.stopTogether {s : State} {cs : List Nat} (h : s.Canon μ κ) : (s.stopTogether cs).Canon μ κ :=
  .ite (h.foldl_mem (fun _ _ _ h2 => h2.onCore (fun _ h3 => .ite h3 (h3.same rfl rfl)))) h
theorem State.Canon.resolveGang {members : List (Nat × Nat)} {s : State} {core : Nat} (h : s.Canon μ κ) :
    (State.resolveGang members s core).Canon μ κ := by
  unfold State.resolveGang
  split
  · exact h
  · extract_lets cs same g pc mask
    exact .ite (.stopTogether (h.foldl_mem (fun _ _ _ h2 => h2.onCore (fun _ h3 => h3.joinGang)))) h.onCtx
theorem State.Canon.barrierStep {s : State} {level : Nat} {members : List (Nat × Nat)} (h : s.Canon μ κ) :
    (s.barrierStep level members).Canon μ κ := by
  unfold State.barrierStep
  extract_lets s1
  have hs1 : s1.Canon μ κ := h.foldl_mem (fun _ _ _ h2 => h2.release)
  exact hs1.foldl_mem (fun _ _ _ h4 => h4.acquire)
theorem execPhaseComplete_canon {hid level unit : Nat} {s : State} (h : s.Canon μ κ) : NextCanon μ κ
    (execPhaseComplete hid level unit s) := by
  unfold execPhaseComplete
  extract_lets key d s1 s2 s3 cores s4
  have hs3 : s3.Canon μ κ := h.onDom.barrierStep.foldl_mem (fun _ _ _ h2 => h2.completeMember)
  have hs4 : s4.Canon μ κ := hs3.foldl_mem (fun _ _ _ h4 => h4.resolveGang)
  exact .ite (.next (hs4.foldl_mem (fun _ _ _ h6 => h6.onCtx))) (.next h)
theorem State.Canon.copyLs {s : State} {core home src dst n : Nat} (h : s.Canon μ κ) : (s.copyLs core home src dst n).Canon μ κ := by
  induction n generalizing s src dst with
  | zero => exact h
  | succ k ih => exact ih h.readLs.storeLs
theorem CoreSt.Canon.planEnd {x : CoreSt} {idx : Nat} (hx : x.Canon κ) : (x.planEnd idx).Canon κ := hx.same rfl rfl
theorem execPlanEntry_canon {core idx : Nat} {s : State} (h : s.Canon μ κ) : NextCanon μ κ (execPlanEntry core idx s) := by
  unfold execPlanEntry
  extract_lets x f dst n loft hid refused at_ part r
  split
  · exact .next h
  · split
    · exact .next (.refusal (h.onCore (fun _ h1 => h1.planEnd)))
    · extract_lets y w s1
      have hs1 : s1.Canon μ κ := h.readLsMany.loftWrite.onCore (fun _ h4 => h4.same rfl rfl)
      split
      · exact .next (.refusal (h.onCore (fun _ h2 => h2.planEnd)))
      · split
        · exact .next (.refusal (h.onCore (fun _ h3 => h3.planEnd)))
        · split
          · exact .next h.stepAt
          · split
            · split
              · exact .next h.stepAt
              · split
                · exact .next (.stepAt (hs1.onCore (fun _ h5 => h5.same rfl rfl)))
                · exact .next (hs1.onCore (fun _ h6 => h6.planEnd))
            · exact .ite (.next h.stepAt) (.next (.copyLs (h.onCore (fun _ h7 => h7.planEnd))))
theorem execRbRun_canon {hd : CHead} {a b : BitVec 5} {s : State} (h : s.Canon μ κ) : NextCanon μ κ (execRbRun hd a b s) := by
  unfold execRbRun
  refine issueC_canon (fun _ h1 => ?_) h
  extract_lets n
  exact .ite h1 (h1.onHere (fun _ h2 => .ite h2 (h2.same rfl rfl)))
theorem execSetc_canon {hd : CHead} {a : BitVec 5} {c : BitVec 12} {s : State} (h : s.Canon μ κ) : NextCanon μ κ
    (execSetc hd a c s) := by
  unfold execSetc
  refine issueC_canon (fun _ h1 => ?_) h
  extract_lets w
  exact .ite h1.onMe h1.writeCtl

end Sys2Proof.Machine
end

section
/-! ## Canonical memories: DRAM (Machine/Dram) -/
namespace Sys2Proof.Machine
variable {μ κ : Prop}

theorem State.Canon.countCe {s : State} {pa : Nat} (h : s.Canon μ κ) : (s.countCe pa).Canon μ κ := by
  unfold State.countCe
  extract_lets n s1
  have hs1 : s1.Canon μ κ := .ite h.onDie h.onStack
  exact .ite hs1.moduleEvent hs1
theorem State.Canon.countUe {s : State} {pa : Nat} (h : s.Canon μ κ) : (s.countUe pa).Canon μ κ := .ite h.onDie (.ite h.onStack h)
theorem State.Canon.onDie_ {s : State} {pa : Nat} (h : s.Canon μ κ) : (s.onDie_ pa).Canon μ κ := by
  unfold State.onDie_
  split
  · exact h
  · exact h.onStack
  · extract_lets s1 c src i v
    have hc : c.2.Canon μ κ := State.Canon.choose (h.same rfl)
    have hi : i.2.Canon μ κ := hc.choose
    have hv : v.2.Canon μ κ := hi.choose
    split
    · exact hc.same rfl
    · exact hv.written Memory.write_wf id id rfl
theorem State.Canon.checkAtom {s : State} {pa : Nat} (h : s.Canon μ κ) : (s.checkAtom pa).1.Canon μ κ := by
  unfold State.checkAtom
  extract_lets a s1
  have hs1 : s1.Canon μ κ := .ite h.onDie_ h
  split
  · exact h
  · split
    · exact hs1
    · exact .countCe (hs1.same rfl)
    · exact .countUe (hs1.same rfl)
theorem State.Canon.freshAtom {s : State} {pa : Nat} (h : s.Canon μ κ) : (s.freshAtom pa).Canon μ κ := h.same rfl
theorem State.Canon.atomFailed {s : State} {pa hid : Nat} (h : s.Canon μ κ) : (s.atomFailed pa hid).Canon μ κ := h.moduleEvent
theorem State.Canon.checkBytes {s : State} {hid va n : Nat} (h : s.Canon μ κ) : (s.checkBytes hid va n).1.Canon μ κ := by
  unfold State.checkBytes
  refine h.foldl_fst (fun _ _ h1 => ?_)
  split
  · extract_lets c
    split
    · exact h1.touch.checkAtom
    · exact h1.touch.checkAtom.atomFailed
  · exact h1
theorem State.Canon.readMem {s : State} {know : Seen} {hid : Nat} {p : Place} {n : Nat} (h : s.Canon μ κ) :
    (s.readMem know hid p n).2.2.Canon μ κ :=
  h.readStep
theorem State.Canon.placeBytes {s : State} {hid : Nat} {p : Place} {n val : Nat} (h : s.Canon μ κ) :
    (s.placeBytes hid p n val).Canon μ κ := by
  unfold State.placeBytes
  refine h.foldl_mem (fun _ _ _ h2 => ?_)
  extract_lets q b
  exact h2.touchPlace.setPlace
theorem State.Canon.writeMem {s : State} {know : Seen} {hid : Nat} {p : Place} {n val : Nat} (h : s.Canon μ κ) :
    (s.writeMem know hid p n val).2.Canon μ κ := by
  unfold State.writeMem
  extract_lets r
  exact h.noteWrite.placeBytes
theorem State.Canon.atomicMem {s : State} {know : Seen} {hid : Nat} {p : Place} {n : Nat} {f : Nat → Nat} (h : s.Canon μ κ) :
    (s.atomicMem know hid p n f).2.Canon μ κ := by
  unfold State.atomicMem
  extract_lets t r
  exact h.readTop.noteWrite.placeBytes
theorem State.Canon.deviceBurst {s : State} {hid pa : Nat} {whole : Bool} {p : Place} (h : s.Canon μ κ) :
    (s.deviceBurst hid pa whole p).1.Canon μ κ := by
  unfold State.deviceBurst
  split
  · exact .wait h.countWait
  · extract_lets s1 c
    split
    · exact .ok h.touch.freshAtom
    · split
      · exact .ok h.touch.checkAtom
      · exact .refused h.touch.checkAtom.atomFailed
theorem State.Canon.element {s : State} {die hid va : Nat} {wr whole : Bool} (h : s.Canon μ κ) :
    (s.element die hid va wr whole).1.Canon μ κ := by
  unfold State.element
  extract_lets s1
  split
  · exact .refused h.tlbFill
  · split
    · exact h.tlbFill.deviceBurst
    · exact h.tlbFill.deviceBurst
    · split
      · exact .wait h.tlbFill
      · exact .ok h.tlbFill
    · split
      · exact .ok h.tlbFill
      · exact .refused h.tlbFill
theorem State.Canon.readMems {s : State} {know : Seen} {hid : Nat} {p : Place} {va0 : Nat} {vas : List Nat} (h : s.Canon μ κ) :
    (s.readMems know hid p va0 vas).2.2.Canon μ κ := by
  induction vas generalizing s know with
  | nil => exact h
  | cons va rest ih => exact ih h.readMem
theorem State.Canon.writeMems {s : State} {know : Seen} {hid : Nat} {p : Place} {va0 : Nat} {ws : List (Nat × Nat)}
    (h : s.Canon μ κ) : (s.writeMems know hid p va0 ws).2.Canon μ κ := by
  induction ws generalizing s know with
  | nil => exact h
  | cons w rest ih => exact ih h.writeMem
theorem State.Canon.atomicMems {s : State} {know : Seen} {hid : Nat} {p : Place} {va0 : Nat} {f : Nat → Nat → Nat}
    {ws : List (Nat × Nat)} (h : s.Canon μ κ) : (s.atomicMems know hid p va0 f ws).2.Canon μ κ := by
  induction ws generalizing s know with
  | nil => exact h
  | cons w rest ih => exact ih h.atomicMem
theorem State.Canon.readBurst {s : State} {know : Seen} {die hid : Nat} {vas : List Nat} (h : s.Canon μ κ) :
    (s.readBurst know die hid vas).Canon μ κ := by
  have he := h.element (die := die) (hid := hid) (va := vas.headD 0) (wr := false) (whole := false)
  unfold State.readBurst
  split
  · rename_i e
    exact .ok (State.Canon.readMems (he.okState (congrArg Prod.fst e)))
  · rename_i e
    exact .wait (he.okState (congrArg Prod.fst e))
  · rename_i e
    rwa [e] at he
theorem State.Canon.writeBurst {s : State} {know : Seen} {die hid : Nat} {ws : List (Nat × Nat)} (h : s.Canon μ κ) :
    (s.writeBurst know die hid ws).Canon μ κ := by
  have he := h.element (die := die) (hid := hid) (va := (ws.headD (0, 0)).1) (wr := true) (whole := ws.length == 4)
  unfold State.writeBurst
  extract_lets va
  split
  · rename_i e
    exact .ok (State.Canon.writeMems (he.okState (congrArg Prod.fst e)))
  · rename_i e
    exact .wait (he.okState (congrArg Prod.fst e))
  · rename_i e
    rwa [e] at he
theorem State.Canon.atomicBurst {s : State} {know : Seen} {die hid : Nat} {f : Nat → Nat → Nat} {ws : List (Nat × Nat)}
    (h : s.Canon μ κ) :
    (s.atomicBurst know die hid f ws).Canon μ κ := by
  have he := h.element (die := die) (hid := hid) (va := (ws.headD (0, 0)).1) (wr := true) (whole := false)
  unfold State.atomicBurst
  extract_lets va
  split
  · rename_i e
    exact .ok (State.Canon.atomicMems (he.okState (congrArg Prod.fst e)))
  · rename_i e
    exact .wait (he.okState (congrArg Prod.fst e))
  · rename_i e
    rwa [e] at he
theorem State.Canon.readElement {s : State} {know : Seen} {die hid va : Nat} (h : s.Canon μ κ) :
    (s.readElement know die hid va).Canon μ κ :=
  h.readBurst
theorem State.Canon.writeElement {s : State} {know : Seen} {die hid va val : Nat} (h : s.Canon μ κ) :
    (s.writeElement know die hid va val).Canon μ κ :=
  h.writeBurst
theorem State.Canon.readAtoms {s : State} {know : Seen} {die hid : Nat} {vas : List Nat} {fuel : Nat} (h : s.Canon μ κ) :
    (s.readAtoms know die hid vas fuel).Canon μ κ := by
  induction fuel generalizing s know vas with
  | zero => exact h
  | succ k ih =>
    cases vas with
    | nil => exact h
    | cons va rest =>
      unfold State.readAtoms
      extract_lets l
      split
      · rename_i e
        have hr := h.readBurst.okState e
        split
        · rename_i e1
          exact .ok ((ih hr).okState e1)
        · exact ih hr
      · exact h.readBurst
theorem State.Canon.setOp {s : State} {n : Nat} {op : SOp} (h : s.Canon μ κ) : (s.setOp n op).Canon μ κ := h.same rfl
theorem execRowActivate_canon {pa : Nat} {s : State} (h : s.Canon μ κ) : NextCanon μ κ (execRowActivate pa s) :=
  .next (.ite h.touch h)
theorem execBackoffEnd_canon {bank : Nat} {s : State} (h : s.Canon μ κ) : NextCanon μ κ (execBackoffEnd bank s) :=
  .next (.ite h.onBank h)
theorem execRowClose_canon {bank : Nat} {s : State} (h : s.Canon μ κ) : NextCanon μ κ (execRowClose bank s) :=
  .next (.ite h.onBank h)
theorem State.Canon.clearActs {s : State} {stack : Nat} (h : s.Canon μ κ) : (s.clearActs stack).Canon μ κ := h.same rfl
theorem execRefreshWindow_canon {stack : Nat} {s : State} (h : s.Canon μ κ) : NextCanon μ κ (execRefreshWindow stack s) :=
  .next (.ite h.clearActs.onStack h)
theorem execBankRefresh_canon {bank : Nat} {s : State} (h : s.Canon μ κ) : NextCanon μ κ (execBankRefresh bank s) :=
  .next (.ite h h.onBank)
theorem execHeartbeat_canon {stack : Nat} {s : State} (h : s.Canon μ κ) : NextCanon μ κ (execHeartbeat stack s) := by
  unfold execHeartbeat
  extract_lets k from_
  exact .next h.onStack.stepAt
theorem execRefreshTakeover_canon {stack : Nat} {s : State} (h : s.Canon μ κ) : NextCanon μ κ (execRefreshTakeover stack s) := by
  unfold execRefreshTakeover
  extract_lets k s1
  exact .ite (.next h) (.next h.onStack.moduleEvent.stepAt)
theorem execSequencerRefresh_canon {stack : Nat} {s : State} (h : s.Canon μ κ) : NextCanon μ κ (execSequencerRefresh stack s) := by
  unfold execSequencerRefresh
  extract_lets k s1 s2
  split
  · exact .next h
  · exact .next (.ite h.clearActs.onStack.stepAt.next h.clearActs.onStack.stepAt.stepAt)
theorem execAllBankRefreshEnd_canon {stack : Nat} {s : State} (h : s.Canon μ κ) : NextCanon μ κ (execAllBankRefreshEnd stack s) := by
  unfold execAllBankRefreshEnd
  split
  · exact .next h
  · refine .next ?_
    extract_lets t
    have ht : t.Canon μ κ := h.onStack
    exact ht.same rfl
theorem execRefreshHandback_canon {stack : Nat} {s : State} (h : s.Canon μ κ) : NextCanon μ κ (execRefreshHandback stack s) := by
  unfold execRefreshHandback
  extract_lets k
  exact .ite (.next h) (.next h.clearActs.onStack.moduleEvent)
theorem execPageMigrate_canon {page : Nat} {s : State} (h : s.Canon μ κ) : NextCanon μ κ (execPageMigrate page s) := by
  unfold execPageMigrate
  extract_lets n k t s1
  have ht : t.Canon μ κ := h.onStack
  have hs1 : s1.Canon μ κ := ht.same rfl
  exact .ite (.next h) (.ite (.next h.moduleEvent) (.next hs1.stepAt))
theorem execMigrationDone_canon {page : Nat} {s : State} (h : s.Canon μ κ) : NextCanon μ κ (execMigrationDone page s) := by
  unfold execMigrationDone
  split
  · exact .next h
  · exact .next (.moduleEvent (h.same rfl))

end Sys2Proof.Machine
end

section
/-! ## Canonical memories: memory words (Machine/Memory) -/
namespace Sys2Proof.Machine
variable {μ κ : Prop}

theorem issueLoad_canon {i : Instr} {hd : CHead} {z : Nat} {sext eventOk : Bool} {d : BitVec 5} {srcs : List RegId} {a : Nat}
    {s : State} (h : s.Canon μ κ) : NextCanon μ κ (issueLoad i hd z sext eventOk d srcs a s) := by
  unfold issueLoad
  extract_lets c conds sext1
  split
  · exact issueC_canon (fun _ h1 => h1.onMe) h
  · split
    · refine issueC_canon (fun _ h2 => ?_) h
      extract_lets t2
      exact h2.onMe.request.switching
    · refine issueC_canon (fun _ h3 => ?_) h
      extract_lets r
      exact h3.readLs.fixedWrite
theorem issueStore_canon {i : Instr} {hd : CHead} {z : Nat} {v : BitVec 5} {srcs : List RegId} {a : Nat} {s : State}
    (h : s.Canon μ κ) : NextCanon μ κ (issueStore i hd z v srcs a s) := by
  unfold issueStore
  extract_lets c conds srcs1
  split
  · exact issueC_canon (fun _ h1 => h1.onMe) h
  · exact .ite (issueC_canon (fun _ h2 => h2.request) h) (issueC_canon (fun _ h3 => h3.storeLs) h)
theorem issueVLoad_canon {i : Instr} {hd : CHead} {lat : Nat} {v : BitVec 6} {srcs : List RegId} {vecs : List Nat}
    {whole : List Cond} {as : List Nat} {s : State} (h : s.Canon μ κ) : NextCanon μ κ
    (issueVLoad i hd lat v srcs vecs whole as s) := by
  unfold issueVLoad
  extract_lets c conds lines own
  split
  · refine issueC_canon (fun _ h1 => ?_) h
    extract_lets r
    exact h1.readLsMany.fixedWrite
  · refine issueC_canon (fun _ h2 => ?_) h
    extract_lets t2 no s1 s2 r1
    have hs2 : s2.Canon μ κ := h2.onMe.foldl_mem (fun _ _ _ h4 => h4.request)
    exact hs2.readLsMany.doneAt.switching
theorem issueVStore_canon {i : Instr} {hd : CHead} {v : BitVec 6} {srcs : List RegId} {vecs : List Nat} {whole : List Cond}
    {as : List Nat} {s : State} (h : s.Canon μ κ) : NextCanon μ κ (issueVStore i hd v srcs vecs whole as s) := by
  unfold issueVStore
  extract_lets conds lines own
  refine issueC_canon (fun _ h1 => ?_) h
  extract_lets data s1
  have hs1 : s1.Canon μ κ := h1.foldl_mem (fun _ _ _ h3 => h3.storeLs)
  exact hs1.foldl_mem (fun _ _ _ h5 => h5.request)
theorem execLdv_canon {hd : CHead} {v : BitVec 6} {a : BitVec 5} {o : BitVec 7} {s : State} (h : s.Canon μ κ) : NextCanon μ κ
    (execLdv hd v a o s) := by
  unfold execLdv
  extract_lets x
  exact issueVLoad_canon h
theorem execStv_canon {hd : CHead} {v : BitVec 6} {a : BitVec 5} {o : BitVec 7} {s : State} (h : s.Canon μ κ) : NextCanon μ κ
    (execStv hd v a o s) := by
  unfold execStv
  extract_lets x
  exact issueVStore_canon h
theorem State.Canon.localMsg {s : State} {t : TokRef} {body : Body} (h : s.Canon μ κ) : (s.localMsg t body).2.Canon μ κ := by
  unfold State.localMsg
  extract_lets id t1 m
  exact h.same rfl
theorem State.Canon.joinDeferred {s : State} {home : Nat} {e : Deferred} {id : Nat} (h : s.Canon μ κ) :
    (s.joinDeferred home e id).Canon μ κ :=
  .ite (h.onCore (fun _ h1 => h1.same rfl rfl)) (h.same rfl)
theorem State.Canon.granted {s : State} {home id rkind : Nat} (h : s.Canon μ κ) : (s.granted home id rkind).Canon μ κ := by
  unfold State.granted
  extract_lets s1 n
  split
  · exact h.countApplied
  · exact h.countApplied.onMsg.molEntry
theorem State.Canon.takeStep {s : State} {core home off : Nat} (h : s.Canon μ κ) : (s.takeStep core home off).2.Canon μ κ := by
  unfold State.takeStep
  extract_lets r
  exact h.atomicLs.onCore (fun _ h1 => h1.setFe)
theorem State.Canon.grantWord {s : State} {home off : Nat} (h : s.Canon μ κ) : (s.grantWord home off).Canon μ κ := by
  unfold State.grantWord
  extract_lets x
  split
  · exact h
  · split
    · exact h
    · split
      · exact h
      · extract_lets r
        have hr : r.2.Canon μ κ := .takeStep (h.onCore (fun _ h1 => h1.same rfl rfl))
        exact hr.granted.answer
theorem State.Canon.giveAt {s : State} {core home off val : Nat} (h : s.Canon μ κ) : (s.giveAt core home off val).Canon μ κ :=
  .grantWord (h.atomicLs.onCore (fun _ h1 => h1.setFe))
theorem State.Canon.feSetAt {s : State} {core home off : Nat} {f : Bool} (h : s.Canon μ κ) : (s.feSetAt core home off f).Canon μ
    κ :=
  .grantWord (h.atomicLs.onCore (fun _ h1 => h1.setFe))
theorem execTake_canon {hd : CHead} {d a : BitVec 5} {o : BitVec 8} {s : State} (h : s.Canon μ κ) : NextCanon μ κ
    (execTake hd d a o s) := by
  unfold execTake
  extract_lets x r
  refine issueC_canon (fun _ h1 => ?_) h
  extract_lets t1 s1 p v s2 s3 p1
  exact .ite h1.onMe.request (.ite h1.onMe.takeStep.countApplied.molEntry.doneAt h1.onMe.localMsg.joinDeferred)
theorem execGive_canon {hd : CHead} {v a : BitVec 5} {o : BitVec 8} {s : State} (h : s.Canon μ κ) : NextCanon μ κ
    (execGive hd v a o s) := by
  unfold execGive
  extract_lets x
  refine issueC_canon (fun _ h1 => ?_) h
  extract_lets val
  exact .ite h1.request h1.giveAt
theorem execFeSet_canon {hd : CHead} {f : BitVec 1} {a : BitVec 5} {o : BitVec 8} {s : State} (h : s.Canon μ κ) : NextCanon μ κ
    (execFeSet hd f a o s) := by
  unfold execFeSet
  extract_lets x
  exact issueC_canon (fun _ h1 => .ite h1.request h1.feSetAt) h
theorem execTakeRetry_canon {id : Nat} {s : State} (h : s.Canon μ κ) : NextCanon μ κ (execTakeRetry id s) := by
  unfold execTakeRetry
  split
  · exact .next h
  · extract_lets s1
    exact .next (.ite h.onMsg.soon h.onMsg.next)
theorem State.Canon.contend {s : State} {core a : Nat} (h : s.Canon μ κ) : (s.contend core a).Canon μ κ :=
  .stepAt (h.onCore (fun _ h1 => h1.same rfl rfl))
theorem execPredictorDecay_canon {core line : Nat} {s : State} (h : s.Canon μ κ) : NextCanon μ κ
    (execPredictorDecay core line s) := by
  unfold execPredictorDecay
  split
  · exact .next h
  · exact .ite (.next (h.onCore (fun _ h1 => h1.same rfl rfl))) (.next h)
theorem State.Canon.holdLocal {s : State} {a : HeldAmo} (h : s.Canon μ κ) : (s.holdLocal a).Canon μ κ := by
  unfold State.holdLocal
  extract_lets t
  have ht : t.Canon μ κ := h.onHere (fun _ h1 => h1.same rfl rfl)
  exact ht.same rfl
theorem issueAmo_canon {i : Instr} {hd : CHead} {op : AmoOp} {d a b : BitVec 5} {w : BitVec 2} {u : BitVec 1} {s : State}
    (h : s.Canon μ κ) : NextCanon μ κ (issueAmo i hd op d a b w u s) := by
  unfold issueAmo
  extract_lets x z uns r cas
  refine issueC_canon (fun _ h1 => ?_) h
  extract_lets t1 bv cv s1 p
  split
  · exact h1.onMe.request.switching
  · split
    · exact h1.onMe.holdLocal
    · exact h1.onMe.amoStep.doneAt
theorem issueRed_canon {i : Instr} {hd : CHead} {op : AmoOp} {a b : BitVec 5} {w : BitVec 2} {u : BitVec 1} {s : State}
    (h : s.Canon μ κ) : NextCanon μ κ (issueRed i hd op a b w u s) := by
  unfold issueRed
  extract_lets x z uns
  refine issueC_canon (fun _ h1 => ?_) h
  extract_lets bv
  split
  · exact h1.request
  · split
    · exact h1.holdLocal
    · exact h1.amoStep
theorem execAlb_canon {hd : CHead} {a : BitVec 5} {s : State} (h : s.Canon μ κ) : NextCanon μ κ (execAlb hd a s) := by
  unfold execAlb
  extract_lets x
  exact issueC_canon (fun _ h1 => h1.onMe) h
theorem State.Canon.openLine {s : State} {home line : Nat} (h : s.Canon μ κ) : (s.openLine home line).Canon μ κ := by
  unfold State.openLine
  extract_lets s1
  refine h.settleLs.foldl_mem (fun _ _ _ h2 => ?_)
  extract_lets l
  split
  · exact h2
  · exact h2.same rfl
theorem State.Canon.closeLine {s : State} {core home line : Nat} (h : s.Canon μ κ) : (s.closeLine core home line).Canon μ κ := by
  unfold State.closeLine
  extract_lets r
  exact h.noteWrite.onCore (fun _ h1 => h1.same rfl rfl)
theorem applyRegion_wf {m : Memory} {off : Nat → Nat} {accs : List RegionAcc} (h : Memory.wf m = true) :
    Memory.wf (applyRegion m off accs).2 = true := by
  unfold applyRegion
  refine List.foldlRecOn (motive := fun st : List Nat × Memory => Memory.wf st.2 = true) accs _ h (fun st hst x _ => ?_)
  split
  · exact Memory.writeN_wf hst
  · exact hst
theorem execAle_canon {hd : CHead} {s : State} (h : s.Canon μ κ) : NextCanon μ κ (execAle hd s) := by
  unfold execAle
  extract_lets c
  split
  · exact issueC_canon (fun _ h1 => h1) h
  · refine issueC_canon (fun t ht => ?_) h
    extract_lets t1 s1 s2 p
    have hs1 : s1.Canon μ κ := ht.onMe
    have hs2 : s2.Canon μ κ := hs1.openLine
    split
    · exact hs1.request
    · exact .doneAt (.closeLine (hs2.onHere (fun _ hy hk => ⟨applyRegion_wf (hs2.here hk).1, (hy hk).2⟩)))
theorem execEwait_canon {hd : CHead} {d a : BitVec 5} {s : State} (h : s.Canon μ κ) : NextCanon μ κ (execEwait hd d a s) := by
  unfold execEwait
  refine issueC_canon (fun _ h1 => ?_) h
  extract_lets w t1 s1
  exact h1.onMe.soon.switching
theorem execEwaitAnswer_canon {core ctx : Nat} {s : State} (h : s.Canon μ κ) : NextCanon μ κ (execEwaitAnswer core ctx s) := by
  unfold execEwaitAnswer
  extract_lets c
  split
  · split
    · exact .next h.next
    · extract_lets v
      exact .ite (.next h.acquire.complete) (.next h.onCtx)
  · exact .next h
theorem execEsigAdd_canon {id : Nat} {s : State} (h : s.Canon μ κ) : NextCanon μ κ (execEsigAdd id s) := by
  unfold execEsigAdd
  split
  · exact .next h
  · split
    · extract_lets old new s1 s2 s3
      refine .next (h.appendNode.onCluster.learn.publish.onMsg.acknowledge.foldl_mem (fun _ _ _ h2 => h2.foldl_mem (fun _ _ _ h4 =>
          ?_)))
      split
      · exact .ite h4.next h4
      · exact h4
    · exact .next h

end Sys2Proof.Machine
end

section
/-! ## Canonical memories: messages (Machine/Messages) -/
namespace Sys2Proof.Machine
variable {μ κ : Prop}

theorem State.Canon.onLentry {s : State} {cl e : Nat} {f : LEntry → LEntry} (h : s.Canon μ κ) : (s.onLentry cl e f).Canon μ κ :=
  h.onCluster
theorem State.Canon.boxPut {s t : State} {core off n val : Nat} (h : s.Canon μ κ) (e : s.boxPut core off n val = some t) :
    t.Canon μ κ := by
  unfold State.boxPut at e
  split at e
  · exact nomatch e
  · exact h.writeVaOption e
theorem State.Canon.boxStore {s t : State} {core i val : Nat} {know : Seen} (h : s.Canon μ κ)
    (e : s.boxStore core i val know = some t) : t.Canon μ κ := by
  obtain ⟨u, eu, rfl⟩ := Option.map_eq_some_iff.1 e
  exact (h.boxPut eu).onCore (fun _ h1 => h1.same rfl rfl)
theorem State.Canon.boxHeader {s : State} {core head count : Nat} (h : s.Canon μ κ) : (s.boxHeader core head count).Canon μ κ :=
  .getD (fun _ h1 => h.boxPut h1) h
theorem State.Canon.boxShift {s : State} {core j n : Nat} (h : s.Canon μ κ) : (s.boxShift core j n).Canon μ κ := by
  induction n generalizing s j with
  | zero => exact h
  | succ k ih => exact ih (.getD (fun _ => h.boxStore) h)
theorem State.Canon.boxRemove {s : State} {core j : Nat} (h : s.Canon μ κ) : (s.boxRemove core j).Canon μ κ := by
  unfold State.boxRemove
  extract_lets n
  exact .ite h.boxHeader h.boxShift.boxHeader
theorem State.Canon.logAck {s : State} {m : Msg} (h : s.Canon μ κ) : (s.logAck m).Canon μ κ := by
  unfold State.logAck
  extract_lets a
  exact h.molEntry
theorem State.Canon.ackNow {s : State} {id : Nat} (h : s.Canon μ κ) : (s.ackNow id).Canon μ κ := by
  unfold State.ackNow
  split
  · exact h
  · exact .dropMsg (.complete (.ite h.logAck h))
theorem execRequestAck_canon {id : Nat} {s : State} (h : s.Canon μ κ) : NextCanon μ κ (execRequestAck id s) := .next h.ackNow
theorem State.Canon.corrections {s : State} {m : Msg} {task core : Nat} (h : s.Canon μ κ) : (s.corrections m task core).Canon μ
    κ :=
  .ite h h.post
theorem State.Canon.placedAck {s : State} {core : Nat} {msg : Option Nat} (h : s.Canon μ κ) : (s.placedAck core msg).Canon μ κ := by
  unfold State.placedAck
  split
  · exact h
  · split
    · exact h
    · split
      · exact h.ackNow
      · extract_lets s1 s2 s3
        have hs3 : s3.Canon μ κ := by
          unfold s3
          split
          · exact h.countApplied.onMsg.corrections
          · exact h.countApplied.onMsg.corrections
          · exact h.countApplied.onMsg
        exact hs3.acknowledge
theorem State.Canon.ownLater {s : State} {core ctx : Nat} {e : Entry} (h : s.Canon μ κ) : (s.ownLater core ctx e).Canon μ κ := by
  unfold State.ownLater
  split
  · extract_lets v
    exact h.doneAt
  · exact h
theorem State.Canon.dequeued {s : State} {core ctx : Nat} {pc : Word} {e : Entry} (h : s.Canon μ κ) :
    (s.dequeued core ctx pc e).Canon μ κ := by
  unfold State.dequeued
  extract_lets acts s1 s2
  exact h.ownLater.learn.molEntry.onCtx.doneAt
theorem State.Canon.refill {s : State} {core : Nat} (h : s.Canon μ κ) : (s.refill core).Canon μ κ := .ite h.next h
theorem State.Canon.serve {s : State} {core ctx : Nat} {pc : Word} (h : s.Canon μ κ) : (s.serve core ctx pc).Canon μ κ := by
  unfold State.serve
  extract_lets x w
  have hx : x.Canon κ := h.coreOf
  split
  · exact .refill (.dequeued (h.setCore (hx.same rfl rfl)))
  · split
    · exact h.soon
    · exact h
theorem execBoxFetch_canon {core ctx : Nat} {s : State} (h : s.Canon μ κ) : NextCanon μ κ (execBoxFetch core ctx s) := by
  unfold execBoxFetch
  extract_lets x w pc
  split
  · exact .ite (.next h.stepAt) (.next h.boxRemove.dequeued.refill)
  · exact .next h.serve
theorem execInboxServe_canon {core ctx : Nat} {s : State} (h : s.Canon μ κ) : NextCanon μ κ (execInboxServe core ctx s) :=
  .ite (.next h.next) (.next h.serve)
theorem execInbx_canon {hd : CHead} {v : BitVec 6} {s : State} (h : s.Canon μ κ) : NextCanon μ κ (execInbx hd v s) := by
  unfold execInbx
  refine issueC_canon (fun _ h1 => ?_) h
  extract_lets pc i s1 s2
  exact .ite h1.onMe.serve h1.onMe.serve.switching
theorem execInbxT_canon {hd : CHead} {v : BitVec 6} {d sl : BitVec 5} {s : State} (h : s.Canon μ κ) : NextCanon μ κ
    (execInbxT hd v d sl s) := by
  unfold execInbxT
  refine issueC_canon (fun _ h1 => ?_) h
  extract_lets pc i lim s1 s2
  exact .ite h1.onMe.serve (.ite h1.onMe.serve.next h1.onMe.serve.stepAt.switching)
theorem execInbxTLimit_canon {core ctx : Nat} {s : State} (h : s.Canon μ κ) : NextCanon μ κ (execInbxTLimit core ctx s) := by
  unfold execInbxTLimit
  extract_lets c
  split
  · exact .ite (.next h) (.ite (.next h.next) (.next (.doneAt (h.onCtx.onCore (fun _ h1 => h1.same rfl rfl)))))
  · exact .next h
theorem CoreSt.Canon.inboxAdd {x : CoreSt} {e : Entry} (hx : x.Canon κ) : (x.inboxAdd e).Canon κ := hx.same rfl rfl
theorem State.Canon.intoInbox {s : State} {core : Nat} {e : Entry} {msg : Option Nat} (h : s.Canon μ κ) :
    (s.intoInbox core e msg).Canon μ κ := by
  unfold State.intoInbox
  extract_lets s1
  have hs1 : s1.Canon μ κ := h.onCore (fun _ h1 => h1.inboxAdd)
  exact hs1.placedAck.next
theorem State.Canon.armStalls {s : State} {core : Nat} (h : s.Canon μ κ) : (s.armStalls core).Canon μ κ := by
  unfold State.armStalls
  extract_lets cyc
  exact .ite h (h.foldl_mem (fun _ _ _ h2 => .ite h2.stepAt h2))
theorem State.Canon.arriveEntry {s : State} {core : Nat} {e : Entry} {msg : Option Nat} (h : s.Canon μ κ) :
    (s.arriveEntry core e msg).Canon μ κ := by
  unfold State.arriveEntry
  extract_lets e1 s1
  have hs1 : s1.Canon μ κ := .armStalls (h.onCore (fun _ h1 => h1.same rfl rfl))
  exact .ite h.intoInbox (.ite hs1.soon hs1)
theorem execBoxWrite_canon {core : Nat} {s : State} (h : s.Canon μ κ) : NextCanon μ κ (execBoxWrite core s) := by
  unfold execBoxWrite
  extract_lets x n head
  split
  · exact .next h
  · split
    · exact .next h.next
    · split
      · exact .next h.stepAt
      · split
        · split
          · exact .next h
          · rename_i e9
            extract_lets s2 s3
            have hs2 : s2.Canon μ κ := .onCore (.boxHeader (h.boxStore e9)) (fun _ h1 => h1.same rfl rfl)
            have hs3 : s3.Canon μ κ := .ite hs2 hs2.soon
            exact .next hs3.placedAck.next
        · exact .next h
theorem execBoxMoveBack_canon {core : Nat} {s : State} (h : s.Canon μ κ) : NextCanon μ κ (execBoxMoveBack core s) := by
  unfold execBoxMoveBack
  extract_lets x e s1
  have hs1 : s1.Canon μ κ := h.boxRemove.onCore (fun _ h1 => h1.same rfl rfl)
  have hx : x.Canon κ := h.coreOf
  split
  · exact .next (.ite h.soon h)
  · split
    · exact .next h.stepAt
    · split
      · exact .next hs1.next.refill
      · split
        · exact .next h
        · extract_lets s2
          have hs2 : s2.Canon μ κ := h.setCore (hx.same rfl rfl)
          exact .next hs2.intoInbox.refill
theorem execEntryPlace_canon {id : Nat} {s : State} (h : s.Canon μ κ) : NextCanon μ κ (execEntryPlace id s) := by
  unfold execEntryPlace
  split
  · exact .next h
  · split
    · extract_lets put
      split
      · exact .next h.stepAt
      · split
        · exact .next (.ite (.ite h.corrections.refuseMsg h.arriveEntry) (.ite h.next h.corrections.refuseMsg))
        · exact .next (.ite (.ite h.corrections.refuseMsg h.arriveEntry) (.ite h.next h.corrections.refuseMsg))
        · exact .next h
    · exact .next h
theorem execStallTimeout_canon {core : Nat} {s : State} (h : s.Canon μ κ) : NextCanon μ κ (execStallTimeout core s) := by
  unfold execStallTimeout
  extract_lets cyc due hit s1
  have hs1 : s1.Canon μ κ := h.onCore (fun _ h1 => h1.same rfl rfl)
  split
  · exact .next h
  · refine .next (hs1.foldl_mem (fun _ _ _ h3 => ?_))
    split
    · exact h3
    · split
      · exact h3
      · extract_lets dest
        exact .ite h3.refuseMsg h3.onMsg.lateReport
theorem State.Canon.departTo {s : State} {id : Nat} {m : Msg} {task ctx : Nat} {sameCluster : Bool} (h : s.Canon μ κ) :
    (s.departTo id m task ctx sameCluster).Canon μ κ := by
  unfold State.departTo
  split
  · exact h.refuseMsg
  · split
    · exact h.refuseMsg
    · extract_lets s1 prev
      exact h.onCluster.onMsg.soon
theorem execMsendDepart_canon {id : Nat} {s : State} (h : s.Canon μ κ) : NextCanon μ κ (execMsendDepart id s) := by
  unfold execMsendDepart
  split
  · exact .next h
  · split
    · split
      · extract_lets e5
        exact .next h.onMsg.departTo
      · exact .next h.soon
    · exact .next h
theorem State.Canon.requestHeld {s : State} {goal : Option Nat} {tok : Option TokRef} {task : Nat} {body : Body} {know : Seen}
    (h : s.Canon μ κ) : (s.requestHeld goal tok task body know).2.Canon μ κ := by
  unfold State.requestHeld
  extract_lets id t m s1
  have hs1 : s1.Canon μ κ := h.onMe
  exact hs1.same rfl
theorem execMsend_canon {hd : CHead} {e : BitVec 5} {v : BitVec 6} {k : BitVec 4} {s : State} (h : s.Canon μ κ) : NextCanon μ κ
    (execMsend hd e v k s) := by
  unfold execMsend
  refine issueC_canon (fun _ h1 => ?_) h
  extract_lets c t1 dst ent p
  exact h1.onMe.requestHeld.soon

end Sys2Proof.Machine
end

section
/-! ## Canonical memories: the matrix unit (Machine/Matrix) -/
namespace Sys2Proof.Machine
variable {μ κ : Prop}

theorem State.Canon.readInto {s : State} {know : Seen} {loc : Nat → Loc} {byte : Nat → Nat} {n : Nat} {as : List Nat}
    {m : Memory} (h : s.Canon μ κ) : (s.readInto know loc byte n as m).2.2.Canon μ κ := by
  unfold State.readInto
  refine h.foldl_snd_snd (fun _ _ h1 => ?_)
  extract_lets r
  exact h1.readStep
theorem State.Canon.matrixRead {s : State} {core : Nat} (h : s.Canon μ κ) : (s.matrixRead core).Canon μ κ := by
  unfold State.matrixRead
  extract_lets x
  split
  · exact h
  · split
    · exact h
    · extract_lets a b
      exact h.readInto.readInto.learn.onCore (fun _ h1 => h1.same rfl rfl)
theorem CoreSt.Canon.matrixSteps {x : CoreSt} {core g : Nat} (hx : x.Canon κ) : (x.matrixSteps core g).Canon κ := by
  unfold CoreSt.matrixSteps
  split
  · exact hx
  · extract_lets from_
    exact hx.same rfl rfl
theorem State.Canon.matrixAdvance {s : State} {core g : Nat} (h : s.Canon μ κ) : (s.matrixAdvance core g).Canon μ κ :=
  h.mldAdvance.matrixRead.onCore (fun _ h1 => h1.matrixSteps)
theorem CoreSt.Canon.setTile {x : CoreSt} {tile : Nat} {rows : List VReg} (hx : x.Canon κ) : (x.setTile tile rows).Canon κ := by
  unfold CoreSt.setTile
  extract_lets put
  exact hx.same rfl rfl
theorem State.Canon.armMatrix {s : State} {core : Nat} (h : s.Canon μ κ) : (s.armMatrix core).Canon μ κ := by
  unfold State.armMatrix
  extract_lets x
  split
  · exact h.stepAt
  · exact h
theorem State.Canon.matrixRefuse {s : State} {core : Nat} {c : MCmd} {check : Nat} (h : s.Canon μ κ) :
    (s.matrixRefuse core c check).Canon μ κ := by
  unfold State.matrixRefuse
  extract_lets x owner gone s1 s2
  have hx : x.Canon κ := h.coreOf
  have hs1 : s1.Canon μ κ := h.setCore (hx.same rfl rfl)
  exact hs1.complete.lateReport
theorem execMatrixCommandStart_canon {core : Nat} {s : State} (h : s.Canon μ κ) : NextCanon μ κ (execMatrixCommandStart core s) := by
  unfold execMatrixCommandStart
  extract_lets x
  have hx : x.Canon κ := h.coreOf
  split
  · split
    · exact .next h
    · extract_lets x11 t x21 check r
      have ht : t.Canon κ := .setTile (hx.same rfl rfl)
      have hx11 : x11.Canon κ := hx.same rfl rfl
      split
      · exact .next (.armMatrix (h.setCore (ht.same rfl rfl)))
      · split
        · exact .next (.matrixRefuse (h.setCore (hx.same rfl rfl)))
        · exact .next (.stepAt (h.setCore (hx11.same rfl rfl)))
  · exact .next h
theorem execMatrixCommit_canon {core : Nat} {s : State} (h : s.Canon μ κ) : NextCanon μ κ (execMatrixCommit core s) := by
  unfold execMatrixCommit
  extract_lets s1 x owner
  split
  · exact .next h.matrixAdvance
  · split
    · exact .next h.matrixAdvance
    · extract_lets t x3 s2 s3
      have ht : t.Canon κ := h.matrixAdvance.coreOf.setTile
      have hs2 : s2.Canon μ κ := .complete (h.matrixAdvance.setCore (ht.same rfl rfl))
      have hs3 : s3.Canon μ κ := .ite hs2.onCtx hs2
      exact .next hs3.armMatrix
theorem State.Canon.claim {s : State} (h : s.Canon μ κ) : s.claim.Canon μ κ := h.onHere (fun _ h1 => .ite (h1.same rfl rfl) h1)
theorem State.Canon.enqueue {s : State} {c : MCmd} (h : s.Canon μ κ) : (s.enqueue c).Canon μ κ := by
  unfold State.enqueue
  extract_lets first s1
  have hs1 : s1.Canon μ κ := h.claim.onHere (fun _ h1 => h1.same rfl rfl)
  exact .ite hs1.armMatrix hs1
theorem execMxq_canon {hd : CHead} {a : BitVec 5} {k : BitVec 4} {s : State} (h : s.Canon μ κ) : NextCanon μ κ
    (execMxq hd a k s) := by
  unfold execMxq
  extract_lets x raw c
  refine issueC_canon (fun _ h1 => ?_) h
  extract_lets t1
  exact h1.onMe.enqueue
theorem execMma_canon {hd : CHead} {m : BitVec 3} {a b : BitVec 5} {k : BitVec 4} {s : State} (h : s.Canon μ κ) : NextCanon μ κ
    (execMma hd m a b k s) := by
  unfold execMma
  extract_lets av bv c
  refine issueC_canon (fun _ h1 => ?_) h
  extract_lets t1
  exact h1.onMe.enqueue
theorem execMrd_canon {hd : CHead} {v : BitVec 6} {t : BitVec 3} {sl : BitVec 5} {k : BitVec 4} {s : State} (h : s.Canon μ κ) :
    NextCanon μ κ (execMrd hd v t sl k s) := by
  unfold execMrd
  refine issueC_canon (fun _ h1 => ?_) h
  extract_lets tk row
  exact h1.claim.longStart.doneAt
theorem State.Canon.armMld {s : State} {core : Nat} (h : s.Canon μ κ) : (s.armMld core).Canon μ κ := by
  unfold State.armMld
  extract_lets x
  split
  · exact h
  · exact h.stepAt
theorem execMldB_canon {hd : CHead} {a b : BitVec 5} {k c : BitVec 4} {s : State} (h : s.Canon μ κ) : NextCanon μ κ
    (execMldB hd a b k c s) := by
  unfold execMldB
  extract_lets av bv n
  refine issueC_canon (fun _ h1 => ?_) h
  extract_lets t1 first l s1
  have hs1 : s1.Canon μ κ := h1.claim.onMe.onHere (fun _ h2 => h2.same rfl rfl)
  exact .ite hs1.armMld hs1
theorem execMldBStart_canon {core : Nat} {s : State} (h : s.Canon μ κ) : NextCanon μ κ (execMldBStart core s) := by
  unfold execMldBStart
  extract_lets x
  have hx : x.Canon κ := h.coreOf
  split
  · exact .next h
  · exact .ite (.next h) (.next (.stepAt (h.setCore (hx.same rfl rfl))))
theorem execMldBDone_canon {core : Nat} {s : State} (h : s.Canon μ κ) : NextCanon μ κ (execMldBDone core s) := by
  unfold execMldBDone
  extract_lets s1 x
  have hx : x.Canon κ := h.mldAdvance.coreOf
  split
  · exact .next h.mldAdvance
  · split
    · exact .next h.mldAdvance
    · split
      · exact .next h.mldAdvance
      · extract_lets s2
        have hs2 : s2.Canon μ κ := h.mldAdvance.setCore (hx.same rfl rfl)
        exact .next hs2.complete.armMld

end Sys2Proof.Machine
end

section
/-! ## Canonical memories: the cistern (Machine/Cistern) -/
namespace Sys2Proof.Machine
variable {μ κ : Prop}

theorem State.Canon.onGroup {s : State} {cl row : Nat} {f : CGroup → CGroup} (h : s.Canon μ κ) : (s.onGroup cl row f).Canon μ κ :=
  h.onCluster
theorem State.Canon.toCistern {s : State} {q : CReq} (h : s.Canon μ κ) : (s.toCistern q).Canon μ κ := by
  unfold State.toCistern
  extract_lets cl t s1
  have ht : t.Canon μ κ := h.onHere (fun _ h1 => h1.same rfl rfl)
  have hs1 : s1.Canon μ κ := ht.same rfl
  exact .ite hs1.onCluster.stepAt hs1.onCluster.stepAt
theorem execCadd_canon {hd : CHead} {c : BitVec 5} {v : BitVec 6} {k : BitVec 4} {s : State} (h : s.Canon μ κ) : NextCanon μ κ
    (execCadd hd c v k s) := by
  unfold execCadd
  extract_lets w
  refine issueC_canon (fun _ h1 => ?_) h
  extract_lets t1 t2
  exact h1.onMe.toCistern
theorem execCaddTile_canon {hd : CHead} {c : BitVec 5} {t : BitVec 3} {k : BitVec 4} {s : State} (h : s.Canon μ κ) : NextCanon μ
    κ (execCaddTile hd c t k s) := by
  unfold execCaddTile
  extract_lets w
  refine issueC_canon (fun _ h1 => ?_) h
  extract_lets tk t2 q
  exact h1.claim.onMe.toCistern.doneAt
theorem execCtap_canon {hd : CHead} {v : BitVec 6} {c : BitVec 5} {k : BitVec 4} {f : BitVec 3} {s : State} (h : s.Canon μ κ) :
    NextCanon μ κ (execCtap hd v c k f s) := by
  unfold execCtap
  extract_lets w a
  refine issueC_canon (fun _ h1 => ?_) h
  extract_lets t1 r t2
  exact h1.readLsMany.longStart.toCistern
theorem execCscrub_canon {hd : CHead} {c : BitVec 5} {k : BitVec 4} {s : State} (h : s.Canon μ κ) : NextCanon μ κ
    (execCscrub hd c k s) := by
  unfold execCscrub
  extract_lets w
  refine issueC_canon (fun _ h1 => ?_) h
  extract_lets t1
  exact h1.onMe.toCistern
theorem issueImage_canon {i : Instr} {hd : CHead} {op : Nat} {c a : BitVec 5} {k : BitVec 4} {body : Nat → Nat → Body}
    {s : State} (h : s.Canon μ κ) : NextCanon μ κ (issueImage i hd op c a k body s) := by
  unfold issueImage
  extract_lets w va
  refine issueC_canon (fun _ h1 => ?_) h
  extract_lets t1 q p
  exact h1.onMe.requestHeld.toCistern
theorem execCinfo_canon {hd : CHead} {d c : BitVec 5} {s : State} (h : s.Canon μ κ) : NextCanon μ κ (execCinfo hd d c s) := by
  unfold execCinfo
  extract_lets w
  refine issueC_canon (fun _ h1 => ?_) h
  extract_lets t1 t2
  exact h1.longStart.toCistern
theorem State.Canon.applyPath {s : State} {cl : Nat} {q : CReq} (h : s.Canon μ κ) : (s.applyPath cl q).Canon μ κ := by
  unfold State.applyPath
  extract_lets g node s1 q1 r since s2 s3 s4 s5 auto s6 know e
  have hs1 : s1.Canon μ κ := h.appendNode
  have hs2 : s2.Canon μ κ := hs1.same rfl
  split
  · exact .ite hs2.onGroup.molEntry.doneAt.onCluster hs2.onGroup.molEntry.doneAt
  · split
    · exact hs1.onGroup
    · split
      · exact hs1.onGroup.setOp.soon
      · exact hs1.onGroup
  · exact hs1.onGroup.soon
  · exact hs1.onGroup.stepAt
theorem State.Canon.pathAgain {s : State} {cl : Nat} {tap : Bool} (h : s.Canon μ κ) : (s.pathAgain cl tap).Canon μ κ := h.stepAt
theorem execCisternAddPath_canon {cl : Nat} {s : State} (h : s.Canon μ κ) : NextCanon μ κ (execCisternAddPath cl s) := by
  unfold execCisternAddPath
  extract_lets k
  split
  · exact .next h
  · split
    · exact .next h.pathAgain
    · extract_lets s1 s2
      exact .next (.ite h.onCluster.applyPath h.onCluster.applyPath.pathAgain)
theorem execCisternTapPath_canon {cl : Nat} {s : State} (h : s.Canon μ κ) : NextCanon μ κ (execCisternTapPath cl s) := by
  unfold execCisternTapPath
  split
  · exact .next h.next
  · extract_lets k
    split
    · exact .next h
    · split
      · exact .next h.pathAgain
      · extract_lets s1 s2
        have hs2 : s2.Canon μ κ := .ite h.onCluster.learn.doneAt h.onCluster.doneAt
        exact .next (.ite hs2 hs2.pathAgain)
theorem State.Canon.freeGroup {s : State} {cl row : Nat} (h : s.Canon μ κ) : (s.freeGroup cl row).Canon μ κ := by
  unfold State.freeGroup
  extract_lets s1 k s2
  have hs2 : s2.Canon μ κ := .ite h.onGroup h.onGroup.pathAgain
  exact .ite hs2 hs2.pathAgain
theorem execScrubEnd_canon {cl row : Nat} {s : State} (h : s.Canon μ κ) : NextCanon μ κ (execScrubEnd cl row s) := by
  unfold execScrubEnd
  extract_lets g
  split
  · split
    · exact .next h
    · extract_lets new drift s1 s2
      have hs2 : s2.Canon μ κ := .ite h.onGroup.record h.onGroup
      exact .next hs2.freeGroup.doneAt
  · exact .next h
theorem State.Canon.putBytes {s : State} {hid va : Nat} {bs : List Byte} (h : s.Canon μ κ) : (s.putBytes hid va bs).1.Canon μ κ := by
  induction bs generalizing s va with
  | nil => exact h
  | cons b rest ih =>
    unfold State.putBytes
    split
    · exact h
    · exact ih h.writePlace
theorem execSpillComplete_canon {cl row : Nat} {s : State} (h : s.Canon μ κ) : NextCanon μ κ (execSpillComplete cl row s) := by
  unfold execSpillComplete
  extract_lets g t
  have ht : t.Canon μ κ := h.freeGroup
  split
  · split
    · exact .next h
    · extract_lets u u1
      have hu : u.Canon μ κ := ht.same rfl
      exact .ite (.next hu.refuseMsg) (.ite (.next h) (.next hu.learn.onMsg.ackNow))
  · exact .next h
theorem State.Canon.fillOne {s : State} {cl row : Nat} {compact : Bool} (h : s.Canon μ κ) : (s.fillOne cl row compact).Canon μ κ := by
  unfold State.fillOne
  extract_lets g
  exact h.onCluster.onGroup
theorem State.Canon.fillCounts {s : State} {cl row core : Nat} {compact : Bool} (h : s.Canon μ κ) :
    (s.fillCounts cl row core compact).Canon μ κ := by
  unfold State.fillCounts
  extract_lets g h1 sum
  exact h.onGroup
theorem State.Canon.fillStep {s : State} {cl row : Nat} {q : CReq} {m : Msg} {va : Nat} {compact : Bool} (h : s.Canon μ κ) :
    (s.fillStep cl row q m va compact).Canon μ κ := by
  unfold State.fillStep
  extract_lets g again n a s1 s2
  split
  · exact h.stepAt
  · split
    · split
      · rename_i e3
        extract_lets got
        exact .ite (.refuseMsg (.freeGroup (h.readBurst.okState e3))) (.soon (.onGroup (h.readBurst.okState e3)))
      · rename_i e6
        exact .stepAt (h.readBurst.waitState e6)
      · rename_i e7
        exact .refuseMsg (.freeGroup (h.readBurst.refusedState e7))
    · exact .ite h.fillOne.soon h.fillCounts.freeGroup.learn.onMsg.ackNow
theorem execFillComplete_canon {cl row : Nat} {s : State} (h : s.Canon μ κ) : NextCanon μ κ (execFillComplete cl row s) := by
  unfold execFillComplete
  extract_lets g
  split
  · split
    · split
      · exact .next h.fillStep
      · exact .next h
    · exact .next h
  · exact .next h

end Sys2Proof.Machine
end

section
/-! ## Canonical memories: the chambers (Machine/Chambers) -/
namespace Sys2Proof.Machine
variable {μ κ : Prop}

theorem State.Canon.takeEntry {s : State} {cl e : Nat} {know : Seen} (h : s.Canon μ κ) : (s.takeEntry cl e know).Canon μ κ :=
  h.onCluster.onLentry
theorem State.Canon.entryLearns {s : State} {cl e : Nat} {know : Seen} (h : s.Canon μ κ) : (s.entryLearns cl e know).Canon μ κ :=
  h.onLentry
theorem execHnew_canon {hd : CHead} {hh : BitVec 4} {a b : BitVec 5} {s : State} (h : s.Canon μ κ) : NextCanon μ κ
    (execHnew hd hh a b s) := by
  unfold execHnew
  extract_lets av bv
  refine issueC_canon (fun _ h1 => ?_) h
  extract_lets e v v1 cl s1
  exact h1.takeEntry.lineageAt.onMe
theorem execHmov_canon {hd : CHead} {hh g : BitVec 4} {s : State} (h : s.Canon μ κ) : NextCanon μ κ (execHmov hd hh g s) := by
  unfold execHmov
  refine issueC_canon (fun _ h1 => ?_) h
  extract_lets r
  exact h1.onMe.lineageAt
theorem execHsplit_canon {hd : CHead} {x : BitVec 2} {a b c sl : BitVec 4} {s : State} (h : s.Canon μ κ) : NextCanon μ κ
    (execHsplit hd x a b c sl s) := by
  unfold execHsplit
  extract_lets i
  refine issueC_canon (fun _ h1 => ?_) h
  extract_lets cl r p e0 e1 know w0 w1 v0 s1
  exact h1.takeEntry.takeEntry.lineageAt.onMe
theorem execHsend_canon {hd : CHead} {a : BitVec 4} {e : BitVec 5} {s : State} (h : s.Canon μ κ) : NextCanon μ κ
    (execHsend hd a e s) := by
  unfold execHsend
  refine issueC_canon (fun _ h1 => ?_) h
  extract_lets c r dst ent task s1 p
  exact h1.onMe.lineageAt.requestHeld.soonAfter
theorem execHsendDepart_canon {id : Nat} {s : State} (h : s.Canon μ κ) : NextCanon μ κ (execHsendDepart id s) := by
  unfold execHsendDepart
  split
  · exact .next h
  · split
    · extract_lets ahead
      exact .ite (.next h.entryLearns.departTo) (.next h.soon)
    · exact .next h
theorem execHrecv_canon {hd : CHead} {hh : BitVec 4} {s : State} (h : s.Canon μ κ) : NextCanon μ κ (execHrecv hd hh s) := by
  unfold execHrecv
  refine issueC_canon (fun _ h1 => ?_) h
  extract_lets pc i t1 s1 s2
  exact .ite h1.onMe.serve h1.onMe.serve.switching
theorem execHjoin_canon {hd : CHead} {hh a b k : BitVec 4} {s : State} (h : s.Canon μ κ) : NextCanon μ κ
    (execHjoin hd hh a b k s) := by
  unfold execHjoin
  refine issueC_canon (fun _ h1 => ?_) h
  extract_lets t1 x y cl core run s1 s2 s3
  exact h1.lineageAt.onLentry.onMe.stepAt
theorem execHjoinComplete_canon {core ctx reg : Nat} {s : State} (h : s.Canon μ κ) : NextCanon μ κ
    (execHjoinComplete core ctx reg s) := by
  unfold execHjoinComplete
  extract_lets r cl p know s1
  split
  · exact .ite (.next h.onLentry.doneAt) (.next h.stepAt)
  · exact .next h
theorem execHfree_canon {hd : CHead} {hh : BitVec 4} {s : State} (h : s.Canon μ κ) : NextCanon μ κ (execHfree hd hh s) := by
  unfold execHfree
  extract_lets r
  refine issueC_canon (fun _ h1 => ?_) h
  extract_lets t1 core run s1 s2
  exact h1.onMe.onLentry.lineageAt.stepAt
theorem execHfreeComplete_canon {cl entry : Nat} {s : State} (h : s.Canon μ κ) : NextCanon μ κ (execHfreeComplete cl entry s) := by
  unfold execHfreeComplete
  extract_lets e s1
  split
  · exact .ite (.next h.onLentry.doneAt) (.next h.stepAt)
  · exact .next h
theorem execHinfo_canon {hd : CHead} {d : BitVec 5} {a : BitVec 4} {f : BitVec 3} {s : State} (h : s.Canon μ κ) : NextCanon μ κ
    (execHinfo hd d a f s) := by
  unfold execHinfo
  refine issueC_canon (fun _ h1 => ?_) h
  extract_lets t1 val
  exact h1.longStart.doneAt
theorem execHldv_canon {hd : CHead} {v : BitVec 6} {a : BitVec 4} {sl : BitVec 5} {s : State} (h : s.Canon μ κ) : NextCanon μ κ
    (execHldv hd v a sl s) := by
  unfold execHldv
  extract_lets i r addr far
  refine issueC_canon (fun _ h1 => ?_) h
  extract_lets t1 s1 no s2 p
  exact .ite h1.onMe.learn.onMe.request.switching h1.onMe.learn.readLsMany.doneAt
theorem execHstv_canon {hd : CHead} {v : BitVec 6} {a : BitVec 4} {sl : BitVec 5} {s : State} (h : s.Canon μ κ) : NextCanon μ κ
    (execHstv hd v a sl s) := by
  unfold execHstv
  extract_lets i r addr far
  refine issueC_canon (fun _ h1 => ?_) h
  extract_lets data s1 s2 u
  have hu : u.Canon μ κ := h1.learn.foldl_mem (fun _ _ _ h3 => h3.storeLs)
  exact .ite h1.learn.onLentry.request hu.entryLearns

end Sys2Proof.Machine
end

section
/-! ## Canonical memories: the pantry (Machine/Pantry) -/
namespace Sys2Proof.Machine
variable {μ κ : Prop}

theorem State.Canon.setPan {s : State} {core home a : Nat} {p : Pan} (h : s.Canon μ κ) : (s.setPan core home a p).Canon μ κ :=
  h.atomicLs
theorem State.Canon.publishStage {s : State} {home a j : Nat} {know : Seen} (h : s.Canon μ κ) :
    (s.publishStage home a j know).Canon μ κ :=
  .ite h (h.onCore (fun _ h1 => h1.same rfl rfl))
theorem State.Canon.acquireStage {s : State} {core home a j : Nat} (h : s.Canon μ κ) : (s.acquireStage core home a j).Canon μ κ :=
  h.learn
theorem State.Canon.grantStages {s : State} {home a fuel : Nat} (h : s.Canon μ κ) : (s.grantStages home a fuel).Canon μ κ := by
  induction fuel generalizing s with
  | zero => exact h
  | succ k ih =>
    unfold State.grantStages
    split
    · exact h
    · split
      · split
        · extract_lets s1 s2
          have hs1 : s1.Canon μ κ := h.setPan.onCore (fun _ h1 => h1.same rfl rfl)
          have hs2 : s2.Canon μ κ := hs1.acquireStage
          exact ih hs2.granted.answer
        · exact h
      · exact h
theorem State.Canon.changePan {s : State} {core home a : Nat} {p : Pan} (h : s.Canon μ κ) : (s.changePan core home a p).Canon μ
    κ :=
  h.setPan.grantStages
theorem State.Canon.panRelease {s : State} {op : PanOp} {home a j : Nat} {know : Seen} (h : s.Canon μ κ) :
    (s.panRelease op home a j know).Canon μ κ := by
  unfold State.panRelease
  split
  · exact h.publishStage
  · exact h.publishStage
  · exact h
theorem State.Canon.pantryArrive {s : State} {home id : Nat} {m : Msg} {op : PanOp} {off a : Nat} (h : s.Canon μ κ) :
    (s.pantryArrive home id m op off a).Canon μ κ := by
  unfold State.pantryArrive
  split
  · exact h.refuseMsg
  · split
    · exact h.joinDeferred
    · exact h
  · split
    · exact h.setPan.acquireStage.granted.answer
    · exact h.setPan.acquireStage.granted.answer
    · extract_lets s1 s2
      exact h.panRelease.countApplied.onMsg.changePan.acknowledge
theorem State.Canon.commitStage {s : State} {know : Seen} {home a loc : Nat} (h : s.Canon μ κ) :
    (s.commitStage know home a loc).1.Canon μ κ := by
  unfold State.commitStage
  extract_lets p j q s1 r s2
  have hs1 : s1.Canon μ κ := h.settleLs
  have hr : r.2.Canon μ κ := hs1.noteWrite
  clear_value r
  have hp : (r.2.onCore home (fun x => x.putLs a 32 q.toNat)).Canon μ κ := hr.onCore (fun _ h1 => h1.putLs)
  have hs2 : s2.Canon μ κ := hp.publishStage
  split
  · exact .fst hs2.grantStages
  · exact h
theorem issuePan_canon {i : Instr} {hd : CHead} {op : PanOp} {a : BitVec 5} {waits : Bool} {s : State} (h : s.Canon μ κ) :
    NextCanon μ κ (issuePan i hd op a waits s) := by
  unfold issuePan
  extract_lets x
  refine issueC_canon (fun _ h1 => ?_) h
  split
  · exact h1.request
  · split
    · exact h1.panRelease.changePan
    · exact h1
theorem issuePanTake_canon {i : Instr} {hd : CHead} {op : PanOp} {d a : BitVec 5} {s : State} (h : s.Canon μ κ) : NextCanon μ κ
    (issuePanTake i hd op d a s) := by
  unfold issuePanTake
  extract_lets x r
  refine issueC_canon (fun _ h1 => ?_) h
  extract_lets t1 s1 p
  split
  · exact h1.onMe.request.switching
  · split
    · extract_lets s2 s3
      exact h1.onMe.setPan.acquireStage.countApplied.molEntry.doneAt
    · exact h1.onMe.localMsg.joinDeferred.switching

end Sys2Proof.Machine
end

section
/-! ## Canonical memories: vector words (Machine/Vector) -/
namespace Sys2Proof.Machine
variable {μ κ : Prop}

theorem issueVV_canon {i : Instr} {f : Nat → Val → Nat → Nat → Nat → Nat} {usesD : Bool} {t lat : Nat} {d a b : BitVec 6}
    {p : BitVec 3} {s : State} (h : s.Canon μ κ) : NextCanon μ κ (issueVV i f usesD t lat d a b p s) := by
  unfold issueVV
  refine issueA_canon (fun _ h1 => ?_) h
  extract_lets c va vb vd
  exact h1.fixedWrite
theorem issueVS_canon {i : Instr} {f : Nat → Val → Nat → Nat → Nat → Nat} {usesD : Bool} {t lat : Nat} {d a : BitVec 6}
    {b : BitVec 5} {p : BitVec 3} {s : State} (h : s.Canon μ κ) : NextCanon μ κ (issueVS i f usesD t lat d a b p s) := by
  unfold issueVS
  refine issueA_canon (fun _ h1 => ?_) h
  extract_lets c va x vd
  exact h1.fixedWrite
theorem issueV1_canon {i : Instr} {f : Nat → Val → Nat → Nat} {t lat : Nat} {d a : BitVec 6} {p : BitVec 3} {s : State}
    (h : s.Canon μ κ) : NextCanon μ κ (issueV1 i f t lat d a p s) := by
  unfold issueV1
  refine issueA_canon (fun _ h1 => ?_) h
  extract_lets c va
  exact h1.fixedWrite
theorem execVperm_canon {d a b : BitVec 6} {t : BitVec 4} {p : BitVec 3} {s : State} (h : s.Canon μ κ) : NextCanon μ κ
    (execVperm d a b t p s) := by
  unfold execVperm
  refine issueA_canon (fun _ h1 => ?_) h
  extract_lets c
  exact h1.fixedWrite
theorem execVsel_canon {d a b : BitVec 6} {t : BitVec 4} {p : BitVec 3} {s : State} (h : s.Canon μ κ) : NextCanon μ κ
    (execVsel d a b t p s) := by
  unfold execVsel
  refine issueA_canon (fun _ h1 => ?_) h
  extract_lets c
  exact h1.fixedWrite
theorem execVcmp_canon {d c : BitVec 3} {a b : BitVec 6} {t : BitVec 4} {p : BitVec 3} {s : State} (h : s.Canon μ κ) : NextCanon
    μ κ (execVcmp d c a b t p s) := by
  unfold execVcmp
  refine issueA_canon (fun _ h1 => ?_) h
  extract_lets x
  exact h1.fixedWrite
theorem execVcmpS_canon {d c : BitVec 3} {a : BitVec 6} {b : BitVec 5} {t : BitVec 4} {p : BitVec 3} {s : State}
    (h : s.Canon μ κ) : NextCanon μ κ (execVcmpS d c a b t p s) := by
  unfold execVcmpS
  refine issueA_canon (fun _ h1 => ?_) h
  extract_lets x
  exact h1.fixedWrite
theorem execVcvt_canon {d a : BitVec 6} {td ts : BitVec 4} {p : BitVec 3} {s : State} (h : s.Canon μ κ) : NextCanon μ κ
    (execVcvt d a td ts p s) := by
  unfold execVcvt
  refine issueA_canon (fun _ h1 => ?_) h
  extract_lets c
  exact h1.fixedWrite
theorem execVred_canon {d a : BitVec 6} {o : BitVec 3} {t : BitVec 4} {p : BitVec 3} {s : State} (h : s.Canon μ κ) : NextCanon μ
    κ (execVred d a o t p s) := by
  unfold execVred
  refine issueA_canon (fun _ h1 => ?_) h
  extract_lets c
  exact h1.fixedWrite
theorem execVbcast_canon {d a : BitVec 6} {e : BitVec 5} {p : BitVec 3} {s : State} (h : s.Canon μ κ) : NextCanon μ κ
    (execVbcast d a e p s) := by
  unfold execVbcast
  refine issueA_canon (fun _ h1 => ?_) h
  extract_lets c
  exact h1.fixedWrite
theorem execVsplat_canon {d : BitVec 6} {a : BitVec 5} {t : BitVec 4} {p : BitVec 3} {s : State} (h : s.Canon μ κ) : NextCanon μ
    κ (execVsplat d a t p s) := by
  unfold execVsplat
  refine issueA_canon (fun _ h1 => ?_) h
  extract_lets c
  exact h1.fixedWrite
theorem execVins_canon {d : BitVec 6} {a e : BitVec 5} {s : State} (h : s.Canon μ κ) : NextCanon μ κ (execVins d a e s) := by
  unfold execVins
  refine issueA_canon (fun _ h1 => ?_) h
  extract_lets c
  exact h1.fixedWrite

end Sys2Proof.Machine
end

section
/-! ## Canonical memories: the streamer's engines (Machine/Engines) -/
namespace Sys2Proof.Machine
variable {μ κ : Prop}

theorem State.Canon.tableEntry {s : State} {know : Seen} {core : Nat} {b : Block} {r : Nat} (h : s.Canon μ κ) :
    (s.tableEntry know core b r).2.2.Canon μ κ :=
  h.readStep
theorem issueStream_canon {i : Instr} {hd : CHead} {kind : SKind} {a : BitVec 5} {k : BitVec 4} {s : State} (h : s.Canon μ κ) :
    NextCanon μ κ (issueStream i hd kind a k s) := by
  unfold issueStream
  extract_lets x
  refine issueC_canon (fun _ h1 => ?_) h
  extract_lets t1 b r first key s1
  have hfirst : first.2.2.Canon μ κ := by
    unfold first
    split
    · exact h1.tableEntry
    · exact h1
  exact .ite (.request (hfirst.onMe.onHere (fun _ h2 => h2.same rfl rfl))) hfirst.onMe.request
theorem State.Canon.readLocal {s : State} {op : SOp} {l : Local} (h : s.Canon μ κ) : (s.readLocal op l).Canon μ κ := by
  unfold State.readLocal
  split
  · exact .refused h
  · split
    · split
      · exact .wait h
      · extract_lets r
        exact .ok h.readStep
    · exact .ok h
theorem State.Canon.writeLocal {s : State} {op : SOp} {l : Local} {val : Nat} (h : s.Canon μ κ) : (s.writeLocal op l val).Canon
    μ κ := by
  unfold State.writeLocal
  split
  · exact .refused h
  · split
    · split
      · exact .wait h
      · extract_lets r
        exact .ok (h.noteWrite.onCore (fun _ h1 => h1.putLs))
    · split
      · extract_lets r1
        exact .ok h.loftWrite
      · exact .wait h
    · exact .ok h
theorem State.Canon.stepRead {s : State} {op : SOp} {es : List Nat} (h : s.Canon μ κ) : (s.stepRead op es).Canon μ κ := by
  unfold State.stepRead
  extract_lets e
  split
  · exact h.readAtoms
  · exact h.readAtoms
  · exact .ok h
  · exact h.readLocal
theorem State.Canon.stepWrite {s : State} {op : SOp} {es : List Nat} (h : s.Canon μ κ) : (s.stepWrite op es).Canon μ κ := by
  unfold State.stepWrite
  extract_lets val ws e
  split
  · exact h.writeLocal
  · exact h.writeLocal
  · exact h.atomicBurst
  · exact h.writeBurst
theorem State.Canon.endOp {s : State} {n : Nat} {op : SOp} (h : s.Canon μ κ) : (s.endOp n op).Canon μ κ := by
  unfold State.endOp
  extract_lets u from_
  exact .ite h.setOp.soonAfter (.ite h.setOp.soonAfter h.setOp.soonAfter)
theorem State.Canon.opOn {s : State} {n : Nat} {op : SOp} (h : s.Canon μ κ) : (s.opOn n op).Canon μ κ := .ite h.setOp.soon h.endOp
theorem execStreamerStep_canon {n : Nat} {s : State} (h : s.Canon μ κ) : NextCanon μ κ (execStreamerStep n s) := by
  unfold execStreamerStep
  split
  · exact .next h
  · split
    · exact .next h
    · split
      · exact .next h.stepAt
      · extract_lets l c s1 again refused
        split
        · exact .next h
        · split
          · exact .next (.ite h.choose.soon (.ite h.choose.stepAt h.choose.opOn))
          · extract_lets row r es
            split
            · exact .ite (.next h.choose.stepAt) (.next h.choose.tableEntry.setOp.soon)
            · split
              · split
                · rename_i e15
                  exact .next (.opOn (h.choose.stepWrite.okState e15))
                · rename_i e16
                  exact .next (.stepAt (h.choose.stepWrite.waitState e16))
                · rename_i e17
                  exact .next (.endOp (h.choose.stepWrite.refusedState e17))
              · split
                · rename_i e19
                  exact .next (.soon (.setOp (h.choose.stepRead.okState e19)))
                · rename_i e20
                  exact .next (.stepAt (h.choose.stepRead.waitState e20))
                · rename_i e21
                  exact .next (.endOp (h.choose.stepRead.refusedState e21))
theorem State.Canon.putColl {s : State} {c : Coll} (h : s.Canon μ κ) : (s.putColl c).Canon μ κ := h.same rfl
theorem State.Canon.dropColl {s : State} {hid colid : Nat} (h : s.Canon μ κ) : (s.dropColl hid colid).Canon μ κ := h.same rfl
theorem State.Canon.joinColl {s : State} {n : Nat} {op : SOp} (h : s.Canon μ κ) : (s.joinColl n op).Canon μ κ := by
  unfold State.joinColl
  extract_lets b hid refuse start
  have hstart : ∀ t c, t.Canon μ κ → (start t c).Canon μ κ := by
    intro t c ht
    unfold start
    exact .ite ht.soon ht
  split
  · exact h.setOp.putColl
  · exact .ite h.endOp (hstart _ _ h.setOp.putColl)
theorem execStreamerAccept_canon {id : Nat} {s : State} (h : s.Canon μ κ) : NextCanon μ κ (execStreamerAccept id s) := by
  unfold execStreamerAccept
  split
  · exact .next h
  · split
    · split
      · exact .next h
      · extract_lets s1 op s2
        have hs2 : s2.Canon μ κ := .ite h.onMsg.ackNow h.onMsg
        exact .ite (.next hs2.endOp) (.ite (.next hs2.joinColl) (.next hs2.setOp.soon))
    · exact .next h
theorem State.Canon.endColl {s : State} {c : Coll} {status va : Nat} (h : s.Canon μ κ) : (s.endColl c status va).Canon μ κ := by
  unfold State.endColl
  refine h.dropColl.foldl_mem (fun _ _ _ h2 => ?_)
  split
  · exact h2
  · exact h2.endOp
theorem State.Canon.readLocals {s : State} {op : SOp} {ls : List Local} (h : s.Canon μ κ) : (s.readLocals op ls).Canon μ κ := by
  induction ls generalizing s op with
  | nil => exact h
  | cons l rest ih =>
    unfold State.readLocals
    split
    · rename_i e
      have hr := h.readLocal.okState e
      split
      · rename_i e1
        exact .ok ((ih hr).okState e1)
      · exact ih hr
    · exact h.readLocal
theorem State.Canon.collIn {s : State} {c : Coll} {i : Nat} {qs : List Nat} {op : SOp} (h : s.Canon μ κ) :
    (s.collIn c i qs op).Canon μ κ := by
  unfold State.collIn
  extract_lets local_
  split
  · rename_i e
    split
    · rename_i e1
      exact .ok (Met.Canon.okState (State.Canon.writeBurst (h.readLocals.okState e)) e1)
    · exact State.Canon.writeBurst (h.readLocals.okState e)
  · exact h.readLocals
theorem execCollectiveRun_canon {hid colid : Nat} {s : State} (h : s.Canon μ κ) : NextCanon μ κ (execCollectiveRun hid colid s) := by
  unfold execCollectiveRun
  split
  · exact .next h
  · split
    · exact .next h
    · split
      · exact .next h.stepAt
      · split
        · extract_lets i qs
          split
          · exact .next h
          · split
            · rename_i e9
              exact .next (.soon (.putColl (.setOp (h.collIn.okState e9))))
            · rename_i e10
              exact .next (.stepAt (h.collIn.waitState e10))
            · rename_i e11
              exact .next (.endColl (h.collIn.refusedState e11))
        · extract_lets q i1 e13 cores
          split
          · exact .next h.endColl
          · split
            · exact .next h
            · extract_lets op2
              split
              · rename_i e18
                exact .next (.soon (.putColl (.setOp (h.writeLocal.okState e18))))
              · rename_i e19
                exact .next (.stepAt (h.writeLocal.waitState e19))
              · rename_i e20
                exact .next (.endColl (h.writeLocal.refusedState e20))
theorem execPantryCommit_canon {n : Nat} {s : State} (h : s.Canon μ κ) : NextCanon μ κ (execPantryCommit n s) := by
  unfold execPantryCommit
  split
  · exact .next h
  · split
    · exact .next h.setOp.next
    · extract_lets loc r
      have hr : r.1.Canon μ κ := by
        unfold r
        split
        · exact h.commitStage
        · exact h
      exact .ite (.next h.stepAt) (.next hr.setOp.next)
theorem execStreamerComplete_canon {n : Nat} {s : State} (h : s.Canon μ κ) : NextCanon μ κ (execStreamerComplete n s) := by
  unfold execStreamerComplete
  split
  · exact .next h
  · extract_lets s1 q x2 s2 s3
    have hs1 : s1.Canon μ κ := h.same rfl
    have hs2 : s2.Canon μ κ := .ite hs1.molEntry hs1
    have hs3 : s3.Canon μ κ := .ite hs2 hs2.lateReport
    exact .ite (.ite (.next hs3.arriveEntry) (.next hs3.ackNow)) (.ite (.next hs2.record) (.next hs2.record))
theorem execUpcall_canon {s : State} (h : s.Canon μ κ) : NextCanon μ κ (execUpcall s) := by
  unfold execUpcall
  extract_lets core ctx epc
  split
  · exact .next h
  · extract_lets key u tag s1 s2 s3 s4 s5
    have hs1 : s1.Canon μ κ := by
      unfold s1
      split
      · exact h.onHere (fun _ h1 => h1.same rfl rfl)
      · exact h.boxRemove.onHere (fun _ h2 => h2.same rfl rfl)
    have hs3 : s3.Canon μ κ := by
      unfold s3
      split
      · exact hs1.refill.learn.onMe
      · exact hs1.refill.learn
    have hs4 : s4.Canon μ κ := hs3.same rfl
    have hs5 : s5.Canon μ κ := hs4.onHere (fun _ h3 => h3.endRb)
    exact .next hs5.onMe

end Sys2Proof.Machine
end

section
/-! ## Canonical memories: remote requests (Machine/Remote) -/
namespace Sys2Proof.Machine
variable {μ κ : Prop}

theorem State.Canon.applied {s : State} {home id : Nat} (h : s.Canon μ κ) : (s.applied home id).Canon μ κ := by
  unfold State.applied
  extract_lets s1
  exact h.countApplied.onMsg
theorem State.Canon.holdAt {s : State} {home id key step : Nat} {m : Msg} {op : AmoOp} {z : Nat} {uns : Bool} {off b c d : Nat}
    {returning : Bool} (h : s.Canon μ κ) : (s.holdAt home id key step m op z uns off b c d returning).Canon μ κ := by
  unfold State.holdAt
  extract_lets a
  exact h.onCore (fun _ h1 => h1.same rfl rfl)
theorem CoreSt.Canon.regionEnd {x : CoreSt} {id : Nat} (hx : x.Canon κ) : (x.regionEnd id).Canon κ := hx.same rfl rfl
theorem State.Canon.regionStep {s : State} {home id line : Nat} {m : Msg} {accs : List RegionAcc} {i : Nat} (h : s.Canon μ κ) :
    (s.regionStep home id line m accs i).Canon μ κ := by
  unfold State.regionStep
  split
  · exact .answer (.applied (h.onCore (fun _ h1 => h1.regionEnd)))
  · extract_lets s1 off a1 accs1 s2 s3 s4
    have hs1 : s1.Canon μ κ := .ite h.openLine h
    have hs2 : s2.Canon μ κ := .ite (hs1.onCore (fun _ h2 => h2.putLs)) hs1.onMsg
    have hs3 : s3.Canon μ κ := hs2.onCore (fun _ h3 => h3.same rfl rfl)
    exact .ite hs3.stepAt hs3.stepAt.closeLine.applied.answer
theorem State.Canon.storeLanes {s : State} {home : Nat} {m : Msg} {lanes : List (Nat × Nat)} {wout : Option Nat}
    (h : s.Canon μ κ) : (s.storeLanes home m lanes wout).Canon μ κ := by
  unfold State.storeLanes
  extract_lets u
  have hu : u.Canon μ κ := h.foldl_mem (fun _ _ _ h2 => h2.storeLs)
  split
  · exact hu
  · exact hu.entryLearns
theorem State.Canon.performAt {s : State} {home id : Nat} {m : Msg} (h : s.Canon μ κ) : (s.performAt home id m).Canon μ κ := by
  unfold State.performAt
  extract_lets core
  split
  · extract_lets r
    exact h.readLs.applied.answer
  · extract_lets r1
    exact h.readLsMany.applied.answer
  · exact h.storeLs.applied.acknowledge
  · exact h.storeLanes.applied.acknowledge
  · extract_lets off r2
    exact .ite h.takeStep.granted.answer h.joinDeferred
  · exact h.applied.giveAt.acknowledge
  · exact h.applied.feSetAt.acknowledge
  · split
    · exact h.holdAt
    · extract_lets r3
      exact h.amoStep.applied.answer
  · split
    · exact h.applied.holdAt.acknowledge
    · exact h.amoStep.applied.acknowledge
  · exact h.regionStep
  · exact h.pantryArrive
  · exact h
theorem State.Canon.unlock {s : State} {home id : Nat} (h : s.Canon μ κ) : (s.unlock home id).Canon μ κ :=
  h.onCore (fun _ h1 => h1.same rfl rfl)
theorem State.Canon.refuseHere {s : State} {id : Nat} {m : Msg} {reason addr : Nat} (h : s.Canon μ κ) :
    (s.refuseHere id m reason addr).Canon μ κ := by
  unfold State.refuseHere
  split
  · exact h.acknowledge.refuseApart
  · exact h.refuseMsg
theorem State.Canon.nearArrive {s : State} {home id : Nat} {m : Msg} (h : s.Canon μ κ) : (s.nearArrive home id m).Canon μ κ := by
  unfold State.nearArrive
  extract_lets a off x
  split
  · exact h.performAt.unlock
  · exact .ite h.stepAt (.ite h.onMsg.contend.stepAt (.soon (h.onCore (fun _ h1 => h1.same rfl rfl))))
theorem State.Canon.perform {s : State} {home id : Nat} {m : Msg} (h : s.Canon μ κ) : (s.perform home id m).Canon μ κ := by
  unfold State.perform
  split
  · exact h
  · split
    · exact h.stepAt
    · split
      · exact h.unlock.refuseHere
      · exact .ite h.nearArrive (.ite h.stepAt h.performAt)
theorem State.Canon.readCounter {s : State} {cl id : Nat} {m : Msg} {a z : Nat} (h : s.Canon μ κ) :
    (s.readCounter cl id m a z).Canon μ κ := by
  unfold State.readCounter
  extract_lets off e r
  exact h.readNode.onMsg.answer
theorem execRemoteRequestPerform_canon {id : Nat} {s : State} (h : s.Canon μ κ) : NextCanon μ κ (execRemoteRequestPerform id s) := by
  unfold execRemoteRequestPerform
  split
  · exact .next h
  · split
    · split
      · exact .ite (.next h) (.ite (.next h.stepAt) (.next h.readCounter))
      · exact .next h
    · split
      · exact .ite (.next h.regionStep) (.next (h.onCore (fun _ h1 => h1.regionEnd)))
      · exact .next h.perform
    · exact .next h
theorem State.Canon.lineAnswered {s : State} {m : Msg} {v no : Nat} (h : s.Canon μ κ) : (s.lineAnswered m v no).1.Canon μ κ := by
  unfold State.lineAnswered
  extract_lets c left last
  split
  · exact h.onCtx
  · exact h.onCtx
theorem State.Canon.replyActs {s : State} {m : Msg} {vals : List Nat} (h : s.Canon μ κ) : (s.replyActs m vals).1.Canon μ κ := by
  unfold State.replyActs
  extract_lets v
  split
  · exact h
  · extract_lets r
    exact h.lineAnswered
  · exact h
  · exact h
  · exact h
  · exact h
  · exact h
theorem execReplyReceive_canon {id : Nat} {s : State} (h : s.Canon μ κ) : NextCanon μ κ (execReplyReceive id s) := by
  unfold execReplyReceive
  split
  · exact .next h
  · split
    · extract_lets r s1
      have hs1 : s1.Canon μ κ := .ite h.replyActs.logAck h.replyActs
      exact .next hs1.complete.dropMsg
    · exact .next h
theorem State.Canon.refusalActs {s : State} {m : Msg} (h : s.Canon μ κ) : (s.refusalActs m).1.Canon μ κ := by
  unfold State.refusalActs
  extract_lets ends
  split
  · exact h
  · extract_lets r
    exact h.lineAnswered
  · exact h
  · exact h
  · exact h
  · split
    · exact h
    · exact h
  · exact h
theorem State.Canon.passGuard {s : State} {m : Msg} (h : s.Canon μ κ) : (s.passGuard m).Canon μ κ := by
  unfold State.passGuard
  split
  · exact .ite h h.stepAt
  · exact h
theorem State.Canon.unreserve {s : State} {m : Msg} (h : s.Canon μ κ) : (s.unreserve m).Canon μ κ := by
  unfold State.unreserve
  extract_lets grants
  exact .ite (h.onCore (fun _ h1 => h1.same rfl rfl)) h
theorem execRefusalReceive_canon {id : Nat} {s : State} (h : s.Canon μ κ) : NextCanon μ κ (execRefusalReceive id s) := by
  unfold execRefusalReceive
  split
  · exact .next h
  · split
    · extract_lets r s1 s2 rep s3
      have hs1 : s1.Canon μ κ := .ite h.refusalActs.logAck.unreserve h.refusalActs
      have hs3 : s3.Canon μ κ := .ite hs1.complete.dropMsg.passGuard.lateReport hs1.complete.dropMsg.passGuard.record
      split
      · exact .next hs3.arriveEntry
      · exact .next hs3
    · exact .next h

end Sys2Proof.Machine
end

section
/-! ## Canonical memories: the network (Machine/Network) -/
namespace Sys2Proof.Machine
variable {μ κ : Prop}

theorem State.Canon.deliver {s : State} {core id : Nat} {m : Msg} (h : s.Canon μ κ) : (s.deliver core id m).Canon μ κ := by
  unfold State.deliver
  extract_lets s1 s2
  have hs2 : s2.Canon μ κ := .ite (h.onMsg.onCore (fun _ h1 => h1.same rfl rfl)) h.onMsg
  split
  · exact hs2.next
  · exact hs2.next
  · exact hs2.next
theorem State.Canon.atInterface {s : State} {core id : Nat} {m : Msg} (h : s.Canon μ κ) : (s.atInterface core id m).Canon μ κ := by
  unfold State.atInterface
  split
  · exact h.next
  · split
    · extract_lets s1
      exact .ite h.deliver h.deliver.stepAt
    · exact h.onCore (fun _ h1 => h1.same rfl rfl)
theorem execOrderRestoreDeliver_canon {core : Nat} {s : State} (h : s.Canon μ κ) : NextCanon μ κ
    (execOrderRestoreDeliver core s) := by
  unfold execOrderRestoreDeliver
  extract_lets hit
  unfold hit
  split
  · exact .next h
  · extract_lets s1 s2
    have hs1 : s1.Canon μ κ := h.onCore (fun _ h1 => h1.same rfl rfl)
    have hs2 : s2.Canon μ κ := by
      unfold s2
      split
      · exact hs1.deliver
      · exact hs1
    exact .next (.ite hs2 hs2.stepAt)
theorem State.Canon.signal {s : State} {id : Nat} {m : Msg} {imm val : Nat} (h : s.Canon μ κ) : (s.signal id m imm val).Canon μ
    κ :=
  h.onMsg.record
theorem State.Canon.atUnit {s : State} {id : Nat} {m : Msg} (h : s.Canon μ κ) : (s.atUnit id m).Canon μ κ := by
  unfold State.atUnit
  split
  · exact h.soon
  · exact .ite h.stepAt h.signal
  · exact .ite h.stepAt h.soon
  · exact h.soon
  · exact h.soon
  · exact h
theorem State.Canon.discard {s : State} {id : Nat} {m : Msg} (h : s.Canon μ κ) : (s.discard id m).Canon μ κ := by
  unfold State.discard
  extract_lets s1
  split
  · exact h.onDie.next
  · exact h.onDie.dropMsg
  · exact h.onDie.corrections.refuseMsg
  · exact h.onDie.corrections.refuseMsg
  · exact h.onDie.refuseMsg
theorem execRouterReceive_canon {id : Nat} {s : State} (h : s.Canon μ κ) : NextCanon μ κ (execRouterReceive id s) := by
  unfold execRouterReceive
  split
  · exact .next h
  · split
    · exact .next h
    · split
      · exact .next h.discard
      · split
        · exact .next h.atUnit
        · split
          · split
            · exact .next h.next
            · exact .next h.atInterface
          · split
            · exact .ite (.next h.stepAt) (.next h.onMsg.soon)
            · exact .next h.killNow
theorem execStubForward_canon {id : Nat} {s : State} (h : s.Canon μ κ) : NextCanon μ κ (execStubForward id s) := by
  unfold execStubForward
  split
  · exact .next h
  · split
    · split
      · exact .next h
      · extract_lets ctx away
        exact .ite (.next h.corrections.refuseMsg) (.ite (.next h.corrections.refuseMsg) (.next h.onMsg.soon))
    · exact .next h
theorem execStubCorrection_canon {id : Nat} {s : State} (h : s.Canon μ κ) : NextCanon μ κ (execStubCorrection id s) := by
  unfold execStubCorrection
  split
  · exact .next h
  · split
    · exact .next h.onCluster.dropMsg
    · exact .next h

end Sys2Proof.Machine
end

section
/-! ## Canonical memories: tasks (Machine/Tasks) -/
namespace Sys2Proof.Machine
variable {μ κ : Prop}

theorem State.Canon.boxFill {s : State} {core j : Nat} {es : List Entry} (h : s.Canon μ κ) : (s.boxFill core j es).Canon μ κ := by
  induction es generalizing s j with
  | nil => exact h
  | cons e rest ih => exact ih (.getD (fun _ => h.boxStore) h)
theorem State.Canon.boxReplace {s : State} {core : Nat} {es : List Entry} (h : s.Canon μ κ) : (s.boxReplace core es).Canon μ κ :=
  .ite h h.boxFill.boxHeader
theorem State.Canon.purgeRecord {s : State} {core ctx task : Nat} {e : Entry} (h : s.Canon μ κ) :
    (s.purgeRecord core ctx task e).Canon μ κ :=
  h.record
theorem State.Canon.toFlight {s : State} {a : HVal} (h : s.Canon μ κ) : (s.toFlight a).Canon μ κ := h.onLentry
theorem State.Canon.flushLineage {s : State} {core ctx : Nat} (h : s.Canon μ κ) : (s.flushLineage core ctx).Canon μ κ := by
  unfold State.flushLineage
  extract_lets mine acts due
  exact .ite h (.foldl_mem (h.same rfl) (fun _ _ _ h2 => h2.actOutside))
theorem State.Canon.refuseInput {s : State} {core ctx task : Nat} (h : s.Canon μ κ) : (s.refuseInput core ctx task).Canon μ κ := by
  unfold State.refuseInput
  extract_lets mine gone
  refine .foldl_mem (h.onCore (fun _ h1 => h1.same rfl rfl)) (fun _ _ _ h3 => ?_)
  split
  · exact h3
  · extract_lets s1
    have hs1 : s1.Canon μ κ := by
      unfold s1
      split
      · exact h3.corrections
      · exact h3
    exact hs1.refuseMsg
theorem State.Canon.suspectRecord {s : State} {core ctx : Nat} (h : s.Canon μ κ) : (s.suspectRecord core ctx).Canon μ κ := by
  unfold State.suspectRecord
  extract_lets c
  exact .ite h h.record
theorem State.Canon.leaveDoms {s : State} {core ctx : Nat} (h : s.Canon μ κ) : (s.leaveDoms core ctx).Canon μ κ := h.same rfl
theorem execHelperRetire_canon {core ctx : Nat} {s : State} (h : s.Canon μ κ) : NextCanon μ κ (execHelperRetire core ctx s) := by
  unfold execHelperRetire
  split
  · exact .next h
  · extract_lets task s1 hs s2 x mine box purged keep s3 s4 s5 s6 s7
    have hs2 : s2.Canon μ κ := h.suspectRecord.flushLineage.foldl_mem (fun _ _ _ h2 => h2.toFlight)
    have hs3 : s3.Canon μ κ := hs2.foldl_mem (fun _ _ _ h4 => h4.purgeRecord)
    have hs5 : s5.Canon μ κ := hs3.boxReplace.onCore (fun _ h5 => .endRb (.setCtx (h5.same rfl rfl)))
    have hs7 : s7.Canon μ κ := hs5.leaveDoms.refuseInput.foldl_mem (fun _ _ _ h7 => h7.arriveEntry)
    exact .next hs7.serve.refill
theorem State.Canon.freeLineage {s : State} {core : Nat} (h : s.Canon μ κ) : (s.freeLineage core).1.Canon μ κ := by
  unfold State.freeLineage
  extract_lets hid cl mine s1 r
  have hs1 : s1.Canon μ κ := h.foldl (fun _ _ ht => ht.onCluster)
  clear_value s1 r
  exact hs1.same rfl
theorem State.Canon.undeclare {s : State} {cl hid : Nat} (h : s.Canon μ κ) : (s.undeclare cl hid).Canon μ κ := by
  unfold State.undeclare
  extract_lets k
  exact .ite h.onCluster h
theorem execTaskEnd_canon {core : Nat} {s : State} (h : s.Canon μ κ) : NextCanon μ κ (execTaskEnd core s) := by
  unfold execTaskEnd
  extract_lets x hid s1 r s2 s3
  have hs2 : s2.Canon μ κ := h.suspectRecord.flushLineage.freeLineage.onCore (fun _ h1 => .setCtx (h1.same rfl rfl))
  exact .ite (.next h) (.next hs2.refuseInput.undeclare.next)

end Sys2Proof.Machine
end

section
/-! ## Canonical memories: the rings (Machine/Ring) -/
namespace Sys2Proof.Machine
variable {μ κ : Prop}

theorem State.Canon.tryNext {s : State} {q ring : Nat} (h : s.Canon μ κ) : (s.tryNext q ring).Canon μ κ := by
  unfold State.tryNext
  extract_lets again
  exact .ite h h.later
theorem State.Canon.retryLater {s : State} {q ring : Nat} (h : s.Canon μ κ) : (s.retryLater q ring).Canon μ κ := h.onQueue.stepAt
theorem State.Canon.tryRecord {s : State} {q ring : Nat} (h : s.Canon μ κ) : (s.tryRecord q ring).Canon μ κ := by
  unfold State.tryRecord
  extract_lets x r va
  split
  · split
    · exact h
    · split
      · exact h.tryNext
      · split
        · rename_i e6
          extract_lets s2 s3
          have hs2 : s2.Canon μ κ := .onQueue (h.writeVa e6)
          have hs3 : s3.Canon μ κ := by
            unfold s3
            split
            · exact hs2.acknowledge
            · exact hs2
          exact .ite hs3 hs3.next
        · extract_lets s4
          have hs4 : s4.Canon μ κ := .ite h h.moduleEvent
          split
          · exact .ite hs4 hs4.retryLater
          · exact hs4.retryLater
  · exact h
theorem execRecordWrite_canon {q ring : Nat} {s : State} (h : s.Canon μ κ) : NextCanon μ κ (execRecordWrite q ring s) :=
  .next h.tryRecord
theorem execRecordRetry_canon {q ring : Nat} {s : State} (h : s.Canon μ κ) : NextCanon μ κ (execRecordRetry q ring s) :=
  .next (.ite h.tryRecord h)
theorem State.Canon.headWrite {s : State} {q ring val : Nat} (h : s.Canon μ κ) : (s.headWrite q ring val).Canon μ κ := by
  unfold State.headWrite
  extract_lets s1
  exact .ite h.onQueue.stepAt h.onQueue.next
theorem execRingHeadWrite_canon {q ring : Nat} {val : BitVec 64} {s : State} (h : s.Canon μ κ) : NextCanon μ κ
    (execRingHeadWrite q ring val s) :=
  .next h.headWrite
theorem State.Canon.flushRing {s : State} {r : Ring} (h : s.Canon μ κ) : (s.flushRing r).1.Canon μ κ := by
  unfold State.flushRing
  split
  · exact h
  · split
    · exact h
    · exact h.hostN
theorem execEventRecordWrite_canon {s : State} (h : s.Canon μ κ) : NextCanon μ κ (execEventRecordWrite s) := by
  unfold execEventRecordWrite
  extract_lets old p ue t t1 s1
  have ht : t.Canon μ κ := h.flushRing
  have hs1 : s1.Canon μ κ := ht.same rfl
  exact .next (.ite hs1.next hs1)
theorem State.Canon.flushSlog {s : State} {fuel : Nat} (h : s.Canon μ κ) : (s.flushSlog fuel).Canon μ κ := by
  induction fuel generalizing s with
  | zero => exact h
  | succ k ih =>
    unfold State.flushSlog
    exact .ite h (ih (h.flushRing.same rfl))
theorem State.Canon.slogRecord {s : State} {kind q eff cls ticket ox oy status : Nat} (h : s.Canon μ κ) :
    (s.slogRecord kind q eff cls ticket ox oy status).Canon μ κ := by
  unfold State.slogRecord
  extract_lets r rec_ t
  exact .ite (.flushSlog (h.same rfl)) (h.same rfl)

end Sys2Proof.Machine
end

section
/-! ## Canonical memories: the scheduler (Machine/Sched) -/
namespace Sys2Proof.Machine
variable {μ κ : Prop}

theorem State.Canon.onTaskGroup {s : State} {q t : Nat} {f : Group → Group} (h : s.Canon μ κ) : (s.onTaskGroup q t f).Canon μ κ :=
  h.onQueue
theorem State.Canon.dropGroup {s : State} {q t : Nat} (h : s.Canon μ κ) : (s.dropGroup q t).Canon μ κ := h.onQueue
theorem State.Canon.finish {s : State} {q t status : Nat} (h : s.Canon μ κ) : (s.finish q t status).Canon μ κ := h.onQueue
theorem State.Canon.settle {s : State} {q fuel : Nat} (h : s.Canon μ κ) : (s.settle q fuel).Canon μ κ := by
  induction fuel generalizing s with
  | zero => exact h
  | succ k ih =>
    unfold State.settle
    extract_lets x g
    split
    · exact ih h.dropGroup.finish.record
    · exact h.onQueue
theorem State.Canon.finishEarly {s : State} {q t status reason ox oy : Nat} (h : s.Canon μ κ) :
    (s.finishEarly q t status reason ox oy).Canon μ κ := by
  unfold State.finishEarly
  extract_lets s1
  exact h.dropGroup.finish.record.settle
theorem execTkrCas_canon {q : Nat} {cmp new : BitVec 64} {s : State} (h : s.Canon μ κ) : NextCanon μ κ (execTkrCas q cmp new s) := by
  unfold execTkrCas
  extract_lets x n
  exact .ite (.next h.onQueue) (.next h)
theorem execCmt_canon {q : Nat} {val : BitVec 64} {s : State} (h : s.Canon μ κ) : NextCanon μ κ (execCmt q val s) := by
  unfold execCmt
  split
  · exact .next h.next
  · extract_lets x t
    exact .ite (.next h.onQueue) (.next h)
theorem State.Canon.takeIn {s : State} {q hid : Nat} (h : s.Canon μ κ) : (s.takeIn q hid).Canon μ κ := by
  unfold State.takeIn
  extract_lets x t s1 rv s2 s3 now s4
  have hs3 : s3.Canon μ κ := by
    unfold s3
    unfold rv
    split
    · split
      · exact h.onQueue.onQueue.complete.dropMsg
      · exact h.onQueue.onQueue
    · exact h.onQueue
  split
  · exact hs3.finishEarly
  · split
    · unfold rv
      split
      · exact hs3.onQueue
      · exact hs3.finishEarly
    · unfold rv
      split
      · exact hs3.onQueue
      · extract_lets d r deps g2
        split
        · exact hs3.touchVa.finish.settle
        · exact .ite hs3.touchVa.finishEarly (.ite hs3.touchVa.finishEarly hs3.touchVa.onQueue)
theorem State.Canon.intake {s : State} {q fuel : Nat} (h : s.Canon μ κ) : (s.intake q fuel).Canon μ κ := by
  induction fuel generalizing s with
  | zero => exact h
  | succ k ih =>
    unfold State.intake
    exact .ite (ih h.takeIn) h
theorem State.Canon.placeTasks {s : State} {g : Group} (h : s.Canon μ κ) : (s.placeTasks g).Canon μ κ :=
  h.foldl_mem (fun _ _ _ h2 => h2.onHousehold (fun _ h3 => h3))
theorem State.Canon.dispatchClusters {s : State} {q : Nat} {g : Group} {cis : List Nat} (h : s.Canon μ κ) :
    (s.dispatchClusters q g cis).Canon μ κ := by
  unfold State.dispatchClusters
  extract_lets x s1 s2
  have hs1 : s1.Canon μ κ := h.foldl_mem (fun _ _ _ h2 => h2.onCluster.freshCounters)
  have hs2 : s2.Canon μ κ := hs1.foldl_mem (fun _ _ _ h4 => h4.onCluster.freshRows)
  exact hs2.placeTasks
theorem State.Canon.zeroMol {s : State} {q hid task : Nat} (h : s.Canon μ κ) : (s.zeroMol q hid task).Canon μ κ :=
  .ite (.getD (fun _ h1 => h.writeVaOption h1) h) h
theorem CoreSt.Canon.loaded {old : CoreSt} {q hid det fen : Nat} {g : Group} {task j : Nat} {parts : List (Nat × List Byte)}
    (hold : old.Canon κ) : (old.loaded q hid det fen g task j parts).Canon κ := by
  unfold CoreSt.loaded
  extract_lets d src x
  have hx : x.Canon κ := fun hc => ⟨CoreSt.reset_memWf.1, (hold hc).2⟩
  exact .setCtx (List.foldlRecOn (motive := CoreSt.Canon κ) parts _ hx (fun _ hy _ _ => hy.putLsBytes))
theorem CoreSt.Canon.freed_ {x : CoreSt} (hx : x.Canon κ) : x.freed_.Canon κ := by
  unfold CoreSt.freed_
  extract_lets t
  exact hx.same rfl rfl
theorem State.Canon.forgetTasks {s : State} {hid : Nat} {tasks cores : List Nat} (h : s.Canon μ κ) :
    (s.forgetTasks hid tasks cores).Canon μ κ :=
  h.same rfl
theorem State.Canon.keepMol {s : State} {core : Nat} (h : s.Canon μ κ) : (s.keepMol core).Canon μ κ := by
  unfold State.keepMol
  extract_lets x base
  split
  · exact h.onHousehold (fun _ h1 => h1)
  · exact h
theorem State.Canon.releaseGroup {s : State} {q : Nat} {g : Group} (h : s.Canon μ κ) : (s.releaseGroup q g).Canon μ κ := by
  unfold State.releaseGroup
  extract_lets cores s1 s2 s3 s4 s5 t
  have hs2 : s2.Canon μ κ := h.forgetTasks.foldl_mem (fun _ _ _ h2 => h2.keepMol.onCore (fun _ h3 => h3.freed_))
  have hs4 : s4.Canon μ κ := hs2.dropDoms.foldl_mem (fun _ _ _ h5 => h5.onCluster.freshCounters.freshRows)
  have hs5 : s5.Canon μ κ := hs4.onHousehold (fun _ h6 => h6)
  exact .dropGroup (hs5.same rfl)
theorem State.Canon.bindStops {s : State} {q t : Nat} (h : s.Canon μ κ) : (s.bindStops q t).Canon μ κ := h.onQueue
theorem State.Canon.unbindStops {s : State} {q t : Nat} (h : s.Canon μ κ) : (s.unbindStops q t).Canon μ κ := h.onQueue
theorem State.Canon.fixStops {s : State} {q hid t start : Nat} (h : s.Canon μ κ) : (s.fixStops q hid t start).Canon μ κ := by
  unfold State.fixStops
  extract_lets x s1
  have hs1 : s1.Canon μ κ := by
    unfold s1
    split
    · extract_lets g
      exact .ite h.onQueue.stepAt h
    · exact h
  split
  · exact .ite hs1.onQueue.armKill hs1
  · exact hs1
theorem State.Canon.refuseLoading {s : State} {q : Nat} {g : Group} {reason : Nat} (h : s.Canon μ κ) :
    (s.refuseLoading q g reason).Canon μ κ :=
  h.releaseGroup.unbindStops.finishEarly
theorem State.Canon.launchBox {s : State} {core : Nat} (h : s.Canon μ κ) : (s.launchBox core).Canon μ κ :=
  .getD (fun _ h1 => h.boxPut h1) h
theorem State.Canon.loadCore {s : State} {q : Nat} {g : Group} {core : Nat} {parts : List (Nat × List Byte)} (h : s.Canon μ κ) :
    (s.loadCore q g core parts).Canon μ κ := by
  unfold State.loadCore
  extract_lets fen task
  exact .launchBox (h.freshCore.onCore (fun _ h1 => h1.loaded))
theorem State.Canon.acknowledged {s : State} {q : Nat} {g : Group} {core : Nat} (h : s.Canon μ κ) :
    (s.acknowledged q g core).Canon μ κ := by
  unfold State.acknowledged
  extract_lets left at_
  exact .ite h.onTaskGroup.stepAt.fixStops h.onTaskGroup
theorem State.Canon.dispatch {s : State} {q : Nat} {g : Group} {o : Nat × Nat} (h : s.Canon μ κ) : (s.dispatch q g o).Canon μ κ := by
  unfold State.dispatch
  extract_lets c charge t g1 cores g2 s1 t1 s2 s3 loads
  have hs1 : s1.Canon μ κ := h.onTaskGroup
  have hs2 : s2.Canon μ κ := hs1.same rfl
  split
  · unfold loads
    extract_lets s4
    have hs4 : s4.Canon μ κ := hs2.bindStops.placeTasks.foldl_mem (fun _ _ _ h2 => h2.zeroMol)
    exact hs4.foldl_mem (fun _ _ _ h4 => h4.soon)
  · split
    · exact hs2.bindStops.refuseLoading
    · unfold loads
      extract_lets s5
      have hs5 : s5.Canon μ κ := hs2.bindStops.dispatchClusters.foldl_mem (fun _ _ _ h6 => h6.zeroMol)
      exact hs5.foldl_mem (fun _ _ _ h8 => h8.soon)
theorem State.Canon.logTick {s : State} {r : List (Nat × Group × Nat × Nat)} {d : Decision} (h : s.Canon μ κ) :
    (s.logTick r d).Canon μ κ := by
  unfold State.logTick
  extract_lets s1
  have hs1 : s1.Canon μ κ := h.foldl_mem (fun _ _ _ h2 => h2.slogRecord)
  split
  · exact hs1
  · exact hs1.slogRecord
  · exact hs1.slogRecord
theorem State.Canon.decide_ {s : State} (h : s.Canon μ κ) : s.decide_.Canon μ κ := by
  unfold State.decide_
  split
  · exact h
  · split
    · exact h
    · extract_lets busy r
      split
      · exact h.dispatch.logTick
      · exact h.logTick
theorem execSchedulerTick_canon {s : State} (h : s.Canon μ κ) : NextCanon μ κ (execSchedulerTick s) := by
  unfold execSchedulerTick
  extract_lets s1
  have hs1 : s1.Canon μ κ := h.foldl_mem (fun _ _ _ h2 => h2.intake)
  exact .ite (.next hs1.next) (.next hs1.decide_)
theorem execGroupStart_canon {q t : Nat} {s : State} (h : s.Canon μ κ) : NextCanon μ κ (execGroupStart q t s) := by
  unfold execGroupStart
  split
  · exact .next h
  · split
    · exact .next h
    · extract_lets at_
      exact .next (h.foldl_mem (fun _ _ _ h2 => h2.onCtx))
theorem State.Canon.drainGroup {s : State} {q : Nat} {g : Group} (h : s.Canon μ κ) : (s.drainGroup q g).Canon μ κ := by
  unfold State.drainGroup
  extract_lets m s1 s2 s3
  have hs1 : s1.Canon μ κ := h.same rfl
  have hs2 : s2.Canon μ κ := .ite hs1.onQueue hs1
  exact hs2.onTaskGroup.finish.record.settle.next
theorem execTaskEndReport_canon {core : Nat} {s : State} (h : s.Canon μ κ) : NextCanon μ κ (execTaskEndReport core s) := by
  unfold execTaskEndReport
  extract_lets x
  split
  · exact .next h
  · split
    · exact .next h
    · extract_lets g1 s1
      exact .next (.ite h.onTaskGroup.drainGroup h.onTaskGroup)
theorem execGroupFree_canon {q t : Nat} {s : State} (h : s.Canon μ κ) : NextCanon μ κ (execGroupFree q t s) := by
  unfold execGroupFree
  split
  · exact .next h
  · split
    · exact .next h
    · split
      · exact .next h.next
      · extract_lets s1
        have hs1 : s1.Canon μ κ := h.foldl_mem (fun _ _ _ h2 => h2.undeclare)
        exact .next (.ite hs1.releaseGroup hs1.stepAt)
theorem execCancel_canon {q : Nat} {val : BitVec 64} {s : State} (h : s.Canon μ κ) : NextCanon μ κ (execCancel q val s) := by
  unfold execCancel
  split
  · exact .next h.next
  · extract_lets t st x waiting grp s1 s2 s3
    have hs1 : s1.Canon μ κ := .ite h (.ite h.onQueue h.dropGroup.finish.record)
    have hs3 : s3.Canon μ κ := .ite hs1.record.settle hs1.record
    exact .next hs3.slogRecord

end Sys2Proof.Machine
end

section
/-! ## Canonical memories: the host's registers (Machine/Host) -/
namespace Sys2Proof.Machine
variable {μ κ : Prop}

theorem State.Canon.onPorch {s : State} {f : Porch → Porch} (h : s.Canon μ κ) : (s.onPorch f).Canon μ κ := h.same rfl
theorem State.Canon.onLink {s : State} {n : Nat} {f : Link → Link} (h : s.Canon μ κ) : (s.onLink n f).Canon μ κ := h.same rfl
theorem State.Canon.writeModule {s : State} {off v : Nat} (h : s.Canon μ κ) : (s.writeModule off v).Canon μ κ := by
  unfold State.writeModule
  refine .ite h.onPorch (.ite h.onPorch (.ite h.onPorch (.ite (.ite h h.onPorch) (.ite h.next ?_))))
  refine .ite h.onPorch.next (.ite h.onPorch.next (.ite (.ite h h.onPorch) (.ite h.onPorch (.ite h.onPorch ?_))))
  refine .ite h.onPorch (.ite (.ite h.onPorch h) (.ite h.onPorch (.ite (h.foldl (fun _ _ h1 => h1.onDie)) ?_)))
  refine .ite h.onPorch.flushSlog (.ite h.onPorch.flushSlog (.ite h.onStack (.ite h.onDie (.ite h.onDie ?_))))
  exact .ite h.onLink (.ite h.onPorch h)
theorem State.Canon.ringTouched {s : State} {q ring : Nat} (h : s.Canon μ κ) : (s.ringTouched q ring).Canon μ κ :=
  .ite h.stepAt h.next
theorem State.Canon.writePbind {s : State} {q v : Nat} (h : s.Canon μ κ) : (s.writePbind q v).Canon μ κ := by
  unfold State.writePbind
  extract_lets x s1 s2
  exact .ite h.onQueue.next (.ite (h.onQueue.onQueue.foldl_mem (fun _ _ _ h2 => h2.next)) h.onQueue)
theorem State.Canon.writeQcfg {s : State} {q v : Nat} (h : s.Canon μ κ) : (s.writeQcfg q v).Canon μ κ := h.onQueue.ringTouched
theorem State.Canon.writeQueue {s : State} {q off : Nat} {val : BitVec 64} (h : s.Canon μ κ) : (s.writeQueue q off val).Canon μ
    κ := by
  unfold State.writeQueue
  extract_lets v set sealed_ prot s1 s2
  split
  · exact .ite h h.writeQcfg
  · exact h.next
  · exact h.next
  · exact h.onQueue
  · exact h.onQueue
  · exact .ite h.next (.ite h.next h.next)
  · exact .ite h h.writePbind
  · exact .ite h h.onQueue.ringTouched
  · exact h.next
  · exact h.next
  · exact h.onQueue
  · exact h.onQueue
  · exact h.next
  · exact h.next
  · exact h.onQueue.ringTouched
  · exact h.next
  · exact h.next
  · exact .ite h h.onQueue
  · exact h.onQueue
  · exact h.onQueue.foldl_mem (fun _ _ _ h2 => h2.armStalls)
  · exact h.onQueue
  · exact .ite h.onQueue h.onQueue.soon
  · exact h.next
  · exact h.onQueue
  · exact h.onQueue
  · exact h
theorem State.Canon.writeDebug {s : State} {core off : Nat} {val : BitVec 64} (h : s.Canon μ κ) :
    (s.writeDebug core off val).Canon μ κ := by
  unfold State.writeDebug
  extract_lets v tr
  split
  · split
    · exact h.next
    · exact h.next
    · exact h.next
    · exact h.next
    · exact h
  · exact h.onCore (fun _ h1 => h1.same rfl rfl)
  · exact h.onCore (fun _ h2 => h2.same rfl rfl)
  · exact h.onCore (fun _ h3 => h3.same rfl rfl)
  · exact h.onCore (fun _ h4 => h4.same rfl rfl)
  · exact h.onCore (fun _ h5 => h5.same rfl rfl)
  · exact h.onCore (fun _ h6 => h6.same rfl rfl)
  · exact h
theorem execRegisterWrite_canon {off : Nat} {val : BitVec 64} {s : State} (h : s.Canon μ κ) : NextCanon μ κ
    (execRegisterWrite off val s) := by
  unfold execRegisterWrite
  split
  · exact .next h
  · split
    · exact .next h.next
    · exact .ite (.next h.writeModule) (.ite (.next h.writeQueue) (.ite (.next h.writeDebug) (.next h)))
theorem execUnsupportedAtomicop_canon {_off : Nat} {_val : BitVec 64} {s : State} (h : s.Canon μ κ) : NextCanon μ κ
    (execUnsupportedAtomicop _off _val s) :=
  .next h
theorem execPasidTeardown_canon {q : Nat} {s : State} (h : s.Canon μ κ) : NextCanon μ κ (execPasidTeardown q s) := by
  unfold execPasidTeardown
  extract_lets x ops sent c n s1
  exact .ite (.next h) (.next (h.choose.onQueue.foldl_mem (fun _ _ _ h2 => h2.soon)))
theorem execHostResponseDiscard_canon {q : Nat} {s : State} (h : s.Canon μ κ) : NextCanon μ κ (execHostResponseDiscard q s) := by
  unfold execHostResponseDiscard
  extract_lets x ops hit s1
  have hs1 : s1.Canon μ κ := by
    unfold s1
    unfold hit
    split
    · exact h.endOp
    · exact h
  exact .ite (.next h) (.next hs1.onQueue)
theorem State.Canon.takeSlot {s : State} {q : Nat} {read : State → State} (h : s.Canon μ κ)
    (hread : ∀ t, t.Canon μ κ → (read t).Canon μ κ) : (s.takeSlot q read).Canon μ κ := by
  unfold State.takeSlot
  split
  · exact hread _ h.onQueue
  · exact h.onQueue
theorem State.Canon.dropSlot {s : State} {q st : Nat} (h : s.Canon μ κ) : (s.dropSlot q st).Canon μ κ := by
  unfold State.dropSlot
  extract_lets s1
  split
  · exact h.onQueue.takeSlot (fun _ h1 => h1.stepAt)
  · exact h.onQueue
theorem execWaitArm_canon {q : Nat} {val : BitVec 64} {s : State} (h : s.Canon μ κ) : NextCanon μ κ (execWaitArm q val s) := by
  unfold execWaitArm
  extract_lets x t
  exact .ite (.next h) (.next (h.onQueue.takeSlot (fun _ h1 => h1.soon)))
theorem State.Canon.watchAgain {s : State} {q : Nat} (h : s.Canon μ κ) : (s.watchAgain q).Canon μ κ := by
  unfold State.watchAgain
  split
  · exact h.stepAt
  · exact h.stepAt
  · exact h.soon
theorem execWatchRead_canon {q : Nat} {s : State} (h : s.Canon μ κ) : NextCanon μ κ (execWatchRead q s) := by
  unfold execWatchRead
  extract_lets x s1
  split
  · exact .next h
  · split
    · exact .next h.watchAgain
    · split
      · exact .next h.onQueue.stepAt
      · split
        · exact .next h.stepAt
        · split
          · exact .next h.watchAgain
          · exact .next (.ite h.touchVa.dropSlot h.touchVa.watchAgain)
theorem execWatchYield_canon {q : Nat} {s : State} (h : s.Canon μ κ) : NextCanon μ κ (execWatchYield q s) := by
  unfold execWatchYield
  split
  · exact .next h.next
  · split
    · exact .next (.ite h.dropSlot h)
    · exact .next h
theorem execPageResponse_canon {q : Nat} {s : State} (h : s.Canon μ κ) : NextCanon μ κ (execPageResponse q s) := by
  unfold execPageResponse
  extract_lets x s1
  have hs1 : s1.Canon μ κ := h.same rfl
  exact .ite (.next hs1.onQueue.stepAt) (.ite (.next (hs1.onQueue.takeSlot (fun _ h1 => h1.stepAt))) (.next hs1))
theorem State.Canon.newKey {s : State} (h : s.Canon μ κ) : s.newKey.2.Canon μ κ := h.same rfl
theorem State.Canon.erasePeats {s : State} {q : Nat} (h : s.Canon μ κ) : (s.erasePeats q).Canon μ κ := by
  refine h.mapPeats rfl (fun p => ?_) rfl
  split <;> rfl
theorem execTdiStateChange_canon {q st : Nat} {s : State} (h : s.Canon μ κ) : NextCanon μ κ (execTdiStateChange q st s) := by
  unfold execTdiStateChange
  extract_lets s1 k a b
  have hs1 : s1.Canon μ κ := .ite h h.erasePeats
  split
  · exact .next hs1
  · extract_lets h1 s2
    have hs2 : s2.Canon μ κ := hs1.onHousehold (fun _ h2 => h2)
    split
    · exact .next hs1
    · split
      · exact .ite (.next hs1) (.next hs2.armKill.stepAt)
      · split
        · exact .next (hs1.onHousehold (fun _ h3 => h3))
        · exact .ite (.next (hs1.newKey.newKey.onHousehold (fun _ h4 => h4))) (.next (hs1.onHousehold (fun _ h5 => h5)))
theorem State.Canon.dropTlb {s : State} {hid va size : Nat} (h : s.Canon μ κ) : (s.dropTlb hid va size).Canon μ κ := h.same rfl
theorem execTinv_canon {q : Nat} {val : BitVec 64} {s : State} (h : s.Canon μ κ) : NextCanon μ κ (execTinv q val s) := by
  unfold execTinv
  extract_lets x va size s1
  exact .ite (.next h) (.next h.onQueue.dropTlb.soon)
theorem execTinvComplete_canon {q : Nat} {s : State} (h : s.Canon μ κ) : NextCanon μ κ (execTinvComplete q s) := by
  unfold execTinvComplete
  extract_lets x s1
  exact .ite (.next h) (.next (h.onQueue.dropTlb.foldl_mem (fun _ _ _ h2 => .ite h2.stepAt h2)))
theorem execGtsJoin_canon {ref : Nat} {s : State} (h : s.Canon μ κ) : NextCanon μ κ (execGtsJoin ref s) :=
  .ite (.next h) (.next (.onPorch (h.same rfl)))
theorem execGtsCorrect_canon {add : Bool} {s : State} (h : s.Canon μ κ) : NextCanon μ κ (execGtsCorrect add s) :=
  .ite (.next h.onPorch) (.next h)
theorem State.Canon.configure {s : State} {n : Nat} (h : s.Canon μ κ) : (s.configure n).Canon μ κ := by
  unfold State.configure
  extract_lets a b
  exact h.choose.choose.onStack
theorem State.Canon.identify {s : State} (h : s.Canon μ κ) : s.identify.Canon μ κ := by
  unfold State.identify
  split
  · extract_lets c s1
    exact .ite h.choose.onPorch (h.choose.onPorch.foldl_mem (fun _ _ _ h2 => h2.configure))
  · exact h
theorem execLeaseCas_canon {cmp new : BitVec 64} {s : State} (h : s.Canon μ κ) : NextCanon μ κ (execLeaseCas cmp new s) := by
  unfold execLeaseCas
  extract_lets p holder expiry open_
  exact .ite (.next h.onPorch.identify) (.next h)
theorem execColdReset_canon {s : State} (h : s.Canon μ κ) : NextCanon μ κ (execColdReset s) := by
  obtain ⟨mem, -, -, -⟩ := h
  exact .next ⟨mem, fun _ => nofun, fun _ => nofun, fun _ => nofun⟩
theorem execFirstStageBoot_canon {die : Nat} {s : State} (h : s.Canon μ κ) : NextCanon μ κ (execFirstStageBoot die s) := by
  unfold execFirstStageBoot
  extract_lets x d c s1 ended
  have hs1 : s1.Canon μ κ := by
    unfold s1
    unfold d
    split
    · exact h.choose.onDie
    · exact h.onDie
  exact .ite (.next h) (.next hs1.onPorch)
theorem execGetMeasurements_canon {s : State} (h : s.Canon μ κ) : NextCanon μ κ (execGetMeasurements s) :=
  .ite (.next h.onPorch) (.next h)
theorem execHostPortTrain_canon {modes : BitVec 4} {s : State} (h : s.Canon μ κ) : NextCanon μ κ (execHostPortTrain modes s) := by
  unfold execHostPortTrain
  split
  · exact .next h
  · exact .next h.onPorch
theorem execHouseholdCreate_canon {hid q : Nat} {root : BitVec 64} {prot : Bool} {cred : BitVec 64} {s : State}
    (h : s.Canon μ κ) : NextCanon μ κ (execHouseholdCreate hid q root prot cred s) := by
  unfold execHouseholdCreate
  extract_lets a b x
  have hb : b.2.Canon μ κ := h.newKey.newKey
  exact .ite (.next h) (.next (State.Canon.onQueue (hb.putHousehold savedCanon_none)))
theorem Peat.orphaned_frozen {p : Peat} {x : Household} : (p.orphaned x).frozen = p.frozen := by
  unfold Peat.orphaned
  split
  · rfl
  · split <;> rfl
theorem State.Canon.endHousehold {s : State} {hid : Nat} (h : s.Canon μ κ) : (s.endHousehold hid).Canon μ κ := by
  unfold State.endHousehold
  extract_lets x n s1 s2 s3
  have hs1 : s1.Canon μ κ := by
    refine h.mapPeats rfl (fun p => ?_) rfl
    split
    · exact Peat.orphaned_frozen
    · rfl
  exact hs1.onQueue.forgetHousehold.forgetPlaces.delHousehold.same rfl
theorem execHouseholdDestroy_canon {hid : Nat} {s : State} (h : s.Canon μ κ) : NextCanon μ κ (execHouseholdDestroy hid s) := by
  unfold execHouseholdDestroy
  extract_lets h1 x
  exact .ite (.next h) (.next h.endHousehold)
theorem execFenCreate_canon {hid cx cy w ht : Nat} {s : State} (h : s.Canon μ κ) : NextCanon μ κ
    (execFenCreate hid cx cy w ht s) := by
  unfold execFenCreate
  extract_lets h1 used idents idx c f
  unfold idx
  split
  · exact .next h
  · exact .ite (.next h) (.next (.foldl_mem (h.choose.onHousehold (fun _ h2 => h2)) (fun _ _ _ h4 => h4.freshLoft)))
theorem execFenEnd_canon {hid idx : Nat} {s : State} (h : s.Canon μ κ) : NextCanon μ κ (execFenEnd hid idx s) := by
  unfold execFenEnd
  extract_lets h1
  exact .ite (.next h) (.next (h.onHousehold (fun _ h2 => h2)))
theorem State.Canon.cxlRead {s : State} {pa : Nat} (h : s.Canon μ κ) : (s.cxlRead pa).Canon μ κ := by
  unfold State.cxlRead
  extract_lets c v
  exact .ite h.checkAtom.onPorch h.checkAtom.choose.onPorch
theorem State.Canon.cxlWrite {s : State} {pa val : Nat} (h : s.Canon μ κ) : (s.cxlWrite pa val).Canon μ κ := by
  unfold State.cxlWrite
  split
  · exact h.onPorch.moduleEvent
  · extract_lets c
    exact .ite (h.checkAtom.foldl_mem (fun _ _ _ h2 => h2.writePlace)) h.checkAtom
theorem execHostCxlMemAccess_canon {pa : Nat} {wr : Bool} {val : BitVec 64} {s : State} (h : s.Canon μ κ) : NextCanon μ κ
    (execHostCxlMemAccess pa wr val s) := by
  unfold execHostCxlMemAccess
  split
  · exact .fault
  · split
    · split
      · exact .next h
      · split
        · exact .next h.countWait.stepAt
        · exact .next (.ite h.touch.cxlWrite h.touch.cxlRead)
    · exact .next h
theorem State.Canon.answerPeer {s : State} {reason val : Nat} (h : s.Canon μ κ) : (s.answerPeer reason val).Canon μ κ := h.onPorch
theorem execBoardwalkPeerAccess_canon {port hid va : Nat} {wr : Bool} {val : BitVec 64} {s : State} (h : s.Canon μ κ) :
    NextCanon μ κ (execBoardwalkPeerAccess port hid va wr val s) := by
  unfold execBoardwalkPeerAccess
  extract_lets again
  split
  · exact .next h
  · split
    · exact .ite (.next h.putOff) (.next h.stepAt)
    · split
      · exact .next h.answerPeer
      · split
        · rename_i e8
          exact .next (.answerPeer (Met.Canon.okState (.ite h.writeElement h.readElement) e8))
        · rename_i e9
          exact .next (.stepAt (Met.Canon.waitState (.ite h.writeElement h.readElement) e9))
        · rename_i e10
          exact .next (.answerPeer (Met.Canon.refusedState (.ite h.writeElement h.readElement) e10))

end Sys2Proof.Machine
end

section
/-! ## Canonical memories: freezing a household (Machine/Freeze) -/
namespace Sys2Proof.Machine
variable {μ κ : Prop}

theorem State.Canon.tagFail {s : State} {hid : Nat} (h : s.Canon μ κ) : (s.tagFail hid).Canon μ κ := by
  unfold State.tagFail
  extract_lets l
  exact .ite (.next (h.onHousehold (fun _ h1 => h1))) (h.onHousehold (fun _ h2 => h2))
theorem CoreSt.Canon.stopAt {x : CoreSt} (hx : x.Canon κ) : x.stopAt.Canon κ := hx.same rfl rfl
theorem State.Canon.unload {s : State} {q : Nat} (h : s.Canon μ κ) : (s.unload q).Canon μ κ := by
  unfold State.unload
  refine h.foldl_mem (fun _ _ _ h2 => ?_)
  extract_lets s1
  exact h2.releaseGroup.unbindStops.onQueue
theorem State.Canon.catchMsgs {s : State} {hid : Nat} {c : Bool} (h : s.Canon μ κ) : (s.catchMsgs hid c).Canon μ κ := h.same rfl
theorem State.Canon.flushTables {s : State} {hid : Nat} (h : s.Canon μ κ) : (s.flushTables hid).Canon μ κ :=
  h.foldl_mem (fun _ _ _ h2 => h2.flushLineage)
theorem State.Canon.unsign {s : State} {q : Nat} (h : s.Canon μ κ) : (s.unsign q).Canon μ κ := by
  unfold State.unsign
  extract_lets ids
  exact .onQueue (h.foldl_mem (fun _ _ _ h2 => h2.onMsg))
theorem State.Canon.sleep {s : State} {hid : Nat} (h : s.Canon μ κ) : (s.sleep hid).Canon μ κ := by
  unfold State.sleep
  extract_lets q s1 mine now owed due agenda g s2 s3 s4 s5 back s6
  have hs1 : s1.Canon μ κ := h.flushTables
  have hs2 : s2.Canon μ κ := hs1.same rfl
  have hs4 : s4.Canon μ κ := hs2.unload.foldl_mem (fun _ _ _ h2 => h2.matrixAdvance.onCore (fun _ h3 => h3.stopAt))
  have hs5 : s5.Canon μ κ := hs4.foldl_mem (fun _ _ _ h5 => h5.onCluster)
  exact hs5.catchMsgs.unsign.onHousehold (fun _ h6 => h6)
theorem CoreSt.Canon.shift {d : Nat} {x : CoreSt} (hx : x.Canon κ) : (CoreSt.shift d x).Canon κ := hx.same rfl rfl
theorem State.Canon.wake {s : State} {hid : Nat} (h : s.Canon μ κ) : (s.wake hid).Canon μ κ := by
  unfold State.wake
  extract_lets h1 r d owed s1 s2 doms t s3 s4
  have hs1 : s1.Canon μ κ := h.foldl_mem (fun _ _ _ h3 => h3.onCore (fun _ h4 => h4.shift))
  have hs2 : s2.Canon μ κ := hs1.foldl_mem (fun _ _ _ h6 => h6.onCluster)
  have ht : t.Canon μ κ := hs2.catchMsgs
  have hs3 : s3.Canon μ κ := ht.same rfl
  exact hs3.onQueue.onHousehold (fun _ h7 => h7)
theorem State.Canon.capture {s : State} {hid : Nat} (h : s.Canon μ κ) : (s.capture hid).Canon κ := by
  obtain ⟨-, cores, -, -⟩ := h
  exact fun x hx => cores x (List.mem_filter.1 hx).1
theorem State.Canon.clearHolders {s : State} {hid : Nat} (h : s.Canon μ κ) : (s.clearHolders hid).Canon μ κ := by
  unfold State.clearHolders
  extract_lets h1 x charge cls s1 t s2 t1 s3
  have hs1 : s1.Canon μ κ := h.same rfl
  have ht : t.Canon κ := .reset
  have hs2 : s2.Canon μ κ := hs1.foldl_mem (fun _ _ _ h3 => h3.onCore (fun _ _ => ht.same rfl rfl))
  have hs3 : s3.Canon μ κ := hs2.same rfl
  exact hs3.onQueue.onHousehold (fun _ h5 => h5)
theorem CoreSt.Canon.into {x here : CoreSt} (hx : x.Canon κ) : (x.into here).Canon κ := hx.same rfl rfl
theorem State.Canon.putBack {s : State} {f : Frozen} (h : s.Canon μ κ) (hf : f.Canon κ) : (s.putBack f).Canon μ κ := by
  unfold State.putBack
  extract_lets q s1 s2 s3 charge s4
  have hs1 : s1.Canon μ κ := h.foldl_mem (fun t a ha ht => ht.onCore (fun _ _ => (hf a ha).into))
  have hs3 : s3.Canon μ κ := hs1.same rfl
  have hs4 : s4.Canon μ κ := hs3.onPorch
  exact .onHousehold hs4.onQueue (fun _ h1 => h1)
theorem CoreSt.Canon.move {m m0 : Move} {x : CoreSt} (hx : x.Canon κ) : (CoreSt.move m m0 x).Canon κ := hx.same rfl rfl
theorem Frozen.Canon.move {m m0 : Move} {f : Frozen} (h : f.Canon κ) : (f.move m m0).Canon κ :=
  h.map rfl (fun _ hx => hx.move)

end Sys2Proof.Machine
end

section
/-! ## Canonical memories: the context switch (Machine/Switch) -/
namespace Sys2Proof.Machine
variable {μ κ : Prop}

theorem State.Canon.swResult {s : State} {q n : Nat} (h : s.Canon μ κ) : (s.swResult q n).Canon μ κ := h.onQueue
theorem State.Canon.armStop {s : State} {q hid g : Nat} (h : s.Canon μ κ) : (s.armStop q hid g).Canon μ κ := h.onQueue.stepAt
theorem execSwcmdSave_canon {q : Nat} {val : BitVec 64} {s : State} (h : s.Canon μ κ) : NextCanon μ κ (execSwcmdSave q val s) := by
  unfold execSwcmdSave
  extract_lets x v s1
  split
  · exact .next h.swResult
  · split
    · exact .next h
    · split
      · exact .next h.swResult
      · split
        · exact .next h.swResult
        · split
          · exact .next h.onQueue.soon
          · split
            · exact .ite (.next h.onQueue.onQueue) (.ite (.next h.onQueue.armStop) (.next h.onQueue.onQueue))
            · exact .next h.swResult
theorem execSwcmdDisarm_canon {q : Nat} {_val : BitVec 64} {s : State} (h : s.Canon μ κ) : NextCanon μ κ
    (execSwcmdDisarm q _val s) :=
  .ite (.next h.onQueue.swResult) (.next h.swResult)
theorem execSwitchStop_canon {hid : Nat} {s : State} (h : s.Canon μ κ) : NextCanon μ κ (execSwitchStop hid s) := by
  unfold execSwitchStop
  extract_lets q x s1
  exact .ite (.next h) (.ite (.next h.onQueue) (.next h.sleep.onQueue.stepAt))
theorem execSluiceClose_canon {hid : Nat} {s : State} (h : s.Canon μ κ) : NextCanon μ κ (execSluiceClose hid s) := by
  unfold execSluiceClose
  extract_lets s1
  have hs1 : s1.Canon μ κ := .ite h.catchMsgs h
  exact .next (.ite hs1.soon hs1)
theorem execSaveComplete_canon {hid : Nat} {s : State} (h : s.Canon μ κ) : NextCanon μ κ (execSaveComplete hid s) := by
  unfold execSaveComplete
  extract_lets x q y secs key bytes r src f s1
  have hr : r.1.Canon μ κ := h.putBytes
  have hf : f.Canon κ := hr.capture.same rfl
  have hs1 : s1.Canon μ κ := hr.clearHolders.onHousehold (fun _ _ => savedCanon_some hf)
  split
  · exact .next h
  · split
    · exact .next h.stepAt
    · split
      · exact .next hr.onQueue.swResult
      · exact .next hs1.onQueue.swResult
theorem CoreSt.Canon.ofRb {x : CoreSt} {bs : List Byte} (hx : x.Canon κ) : (x.ofRb bs).Canon κ := by
  unfold CoreSt.ofRb
  extract_lets f n sw
  exact hx.same rfl rfl
theorem CoreSt.Canon.ofPage {x : CoreSt} {p : Nat} {bs : List Byte} (hx : x.Canon κ) : (x.ofPage p bs).Canon κ := by
  unfold CoreSt.ofPage
  exact hx.written Memory.writeBytes_wf id
theorem CoreSt.Canon.ofSection {x : CoreSt} {bs : List Byte} (hx : x.Canon κ) : (x.ofSection bs).Canon κ := by
  unfold CoreSt.ofSection
  extract_lets f row used inbox defer_ old cmds queue work owner x1 quota
  have hx1 : x1.Canon κ := hx.ofRb
  exact hx1.same rfl rfl
theorem CoreSt.Canon.ofBarrier {x : CoreSt} {core : Nat} {bs : List Byte} (hx : x.Canon κ) : (x.ofBarrier core bs).Canon κ :=
  hx.same rfl rfl
theorem Frozen.Canon.ofHousehold {f : Frozen} {bs : List Byte} (h : f.Canon κ) : (f.ofHousehold bs).Canon κ := h.same rfl
theorem Frozen.Canon.overlay {f : Frozen} {x : RawSection} (h : f.Canon κ) : (f.overlay x).Canon κ := by
  unfold Frozen.overlay
  extract_lets onCore onCl g
  have hcore : ∀ F, (∀ y, y.Canon κ → (F y).Canon κ) → (onCore F).Canon κ := by
    intro F hF
    refine h.map rfl (fun y hy => ?_)
    split
    · exact hF _ hy
    · exact hy
  have hg : g.Canon κ := h.same rfl
  clear_value onCore
  split
  · exact hcore _ (fun _ hy => hy.setCtx)
  · exact hcore _ (fun _ hy => hy.ofSection)
  · exact hcore _ (fun _ hy => hy.ofPage)
  · refine hcore _ (fun y hy => ?_)
    exact hy.written id Memory.writeBytes_wf
  · refine hg.map rfl (fun y hy => ?_)
    split
    · exact hy.ofBarrier
    · exact hy
  · exact h.same rfl
  · exact h.same rfl
  · exact h.ofHousehold
  · exact h
theorem Frozen.Canon.overlays {f : Frozen} {l : List RawSection} (h : f.Canon κ) : (l.foldl Frozen.overlay f).Canon κ :=
  List.foldlRecOn (motive := Frozen.Canon κ) l _ h (fun _ hg _ _ => hg.overlay)
theorem State.Canon.stubMoved {s : State} {hid : Nat} {m m0 : Move} {p : Nat × Nat × Nat} (h : s.Canon μ κ) :
    (s.stubMoved hid m m0 p).Canon μ κ := by
  unfold State.stubMoved
  extract_lets old
  exact .ite h h.onCluster
theorem CoreSt.Canon.restored {x : CoreSt} {det : Nat} (hx : x.Canon κ) : (x.restored det).Canon κ := hx.same rfl rfl
theorem State.Canon.bringIn {s : State} {d : Due} (h : s.Canon μ κ) : (s.bringIn d).Canon μ κ := by
  unfold State.bringIn
  split
  · split
    · split
      · exact .ite h.soon h.soon
      · exact h
    · exact h
  · exact h
theorem State.Canon.load {s : State} {q hid : Nat} {f : Frozen} (h : s.Canon μ κ) (hf : f.Canon κ) : (s.load q hid f).Canon μ κ := by
  unfold State.load
  extract_lets det bag f1 s1 held busy moving rest s2
  have hf1 : f1.Canon κ := hf.map rfl (fun _ hx => hx.restored)
  have hs1 : s1.Canon μ κ := h.putBack hf1
  have hs2 : s2.Canon μ κ := hs1.onHousehold (fun _ _ => savedCanon_none)
  exact .soon (hs2.foldl (fun _ _ ht => ht.bringIn))
theorem execSwcmdRestore_canon {q : Nat} {val : BitVec 64} {s : State} (h : s.Canon μ κ) : NextCanon μ κ
    (execSwcmdRestore q val s) := by
  unfold execSwcmdRestore
  extract_lets x
  split
  · exact .next h.swResult
  · rename_i hid _
    split
    · exact .next h.swResult
    · split
      · exact .next h.stepAt
      · split
        · exact .next h.swResult
        · rename_i f e
          have hf : f.Canon κ := h.household f e
          split
          · exact .next (State.Canon.swResult (.ite h.tagFail h))
          · extract_lets s1 f1 groups s2
            have hs1 : s1.Canon μ κ := h.touchVa
            have hf1 : f1.Canon κ := by
              unfold f1
              split
              · exact hf
              · exact hf.overlays
            have hs2 : s2.Canon μ κ := hs1.onQueue
            split
            · exact .next hs1.swResult
            · extract_lets m0 placed
              clear_value placed
              split
              · exact .next hs1.swResult
              · extract_lets m src g place g1 s3
                have hg1 : g1.Canon κ := hf1.move.same rfl
                have hs3 : s3.Canon μ κ := hs2.load hg1
                exact .next (hs3.foldl (fun _ _ ht => ht.stubMoved))
theorem execReinject_canon {id : Nat} {s : State} (h : s.Canon μ κ) : NextCanon μ κ (execReinject id s) := by
  unfold execReinject
  split
  · exact .next h
  · extract_lets ahead
    exact .ite (.next h.soon) (.next h.onMsg.soon)
theorem execRestoreResume_canon {hid : Nat} {s : State} (h : s.Canon μ κ) : NextCanon μ κ (execRestoreResume hid s) := by
  unfold execRestoreResume
  extract_lets h1 q x
  split
  · exact .next h
  · split
    · exact .ite (.next (.stepAt (h.onHousehold (fun _ h2 => h2)))) (.next h.soon)
    · split
      · exact .next h
      · extract_lets s1 s2
        have hs2 : s2.Canon μ κ := by
          unfold s2
          split
          · exact h.wake.onQueue.armStop
          · exact h.wake.onQueue.armStop
          · exact h.wake.onQueue
        refine .next ?_
        split
        · exact .ite hs2.onQueue.stepAt hs2
        · exact hs2

end Sys2Proof.Machine
end

section
/-! ## Canonical memories: peats (Machine/Peats) -/
namespace Sys2Proof.Machine
variable {μ κ : Prop}

theorem execKill_canon {q : Nat} {val : BitVec 64} {s : State} (h : s.Canon μ κ) : NextCanon μ κ (execKill q val s) := by
  unfold execKill
  extract_lets x v result
  split
  · exact .next h.onQueue
  · split
    · exact .next h.onQueue
    · exact .ite (.next h.onQueue) (.ite (.next h.onQueue) (.next h.armKill))
theorem execWarmReset_canon {s : State} (h : s.Canon μ κ) : NextCanon μ κ (execWarmReset s) :=
  .next (h.foldl_mem (fun _ _ _ h2 => h2.armKill))
theorem State.Canon.scramble {s : State} {hid : Nat} (h : s.Canon μ κ) : (s.scramble hid).Canon μ κ := by
  unfold State.scramble
  refine h.foldl_mem (fun _ _ _ h2 => ?_)
  extract_lets v p
  exact h2.choose.touchPlace.setPlace
theorem State.Canon.eraseKeys {s : State} {hid : Nat} (h : s.Canon μ κ) : (s.eraseKeys hid).Canon μ κ := by
  unfold State.eraseKeys
  extract_lets q n s1 s2
  have hs1 : s1.Canon μ κ := .ite h.scramble h
  have hs2 : s2.Canon μ κ := hs1.onHousehold (fun _ h1 => h1)
  refine hs2.mapPeats rfl (fun p => ?_) rfl
  split <;> rfl
theorem State.Canon.eraseDue {s : State} {hid : Nat} (h : s.Canon μ κ) : (s.eraseDue hid).Canon μ κ := by
  unfold State.eraseDue
  split
  · exact .ite h.eraseKeys h
  · exact h
theorem State.Canon.endWaiting {s : State} {q : Nat} (h : s.Canon μ κ) : (s.endWaiting q).Canon μ κ := by
  unfold State.endWaiting
  extract_lets x
  exact h.foldl_mem (fun _ _ _ h2 => h2.dropGroup.finish.record)
theorem execKillStop_canon {hid : Nat} {s : State} (h : s.Canon μ κ) : NextCanon μ κ (execKillStop hid s) := by
  unfold execKillStop
  extract_lets s1 q x s2 equal s3
  have hs2 : s2.Canon μ κ := .ite h.eraseDue.sleep h.eraseDue
  exact .ite (.next h.eraseDue) (.ite (.next h.eraseDue) (.next hs2.onQueue.endWaiting.stepAt.stepAt))
theorem State.Canon.storePa {s : State} {pa : Nat} {bs : List Byte} (h : s.Canon μ κ) : (s.storePa pa bs).Canon μ κ :=
  h.written Memory.writeBytes_wf id id rfl
theorem State.peatSource_saved {s : State} {hid : Nat} (h : s.Canon μ κ) : savedCanon κ (s.peatSource hid) := by
  unfold State.peatSource
  extract_lets x y
  split
  · split
    · exact savedCanon_none
    · rename_i f e
      have hf : f.Canon κ := h.household f e
      split
      · exact savedCanon_none
      · refine savedCanon_some ?_
        split
        · exact hf
        · exact hf.overlays.same rfl
  · exact savedCanon_some (h.capture.same rfl)
theorem State.Canon.noPeat {s : State} {hid result : Nat} (h : s.Canon μ κ) : (s.noPeat hid result).Canon μ κ := h.onQueue.next
theorem State.Canon.putPeat {s : State} {hid flags : Nat} {f : Option Frozen} {tasks : List PeatTask} {labels : List LabelEntry}
    {secs : List Section} (h : s.Canon μ κ) (hf : savedCanon κ f) : (s.putPeat hid flags f tasks labels secs).Canon μ κ := by
  unfold State.putPeat
  extract_lets x q y n place whole out first flags1 key base bytes stop hd p s1 s2
  have hs1 : s1.Canon μ κ := h.storePa
  have hs2 : s2.Canon μ κ := hs1.onPorch
  exact .ite h.noPeat (State.Canon.onQueue (hs2.putPeats hf)).soon
theorem execPeatAllocate_canon {hid : Nat} {s : State} (h : s.Canon μ κ) : NextCanon μ κ (execPeatAllocate hid s) := by
  unfold execPeatAllocate
  extract_lets h1 q x ahead fromFrame names tasks table blank
  split
  · exact .next h
  · split
    · exact .next h.next
    · split
      · exact .next h.noPeat
      · split
        · exact .next (h.putPeat savedCanon_none)
        · rename_i e7
          extract_lets l caught labels body lab secs place nwrit task tasks1
          exact .next (h.putPeat (savedCanon_some ((State.peatSource_saved h) _ e7)))
theorem State.Canon.flushRecords {s : State} {q ring fuel : Nat} (h : s.Canon μ κ) : (s.flushRecords q ring fuel).Canon μ κ := by
  induction fuel generalizing s with
  | zero => exact h
  | succ k ih =>
    unfold State.flushRecords
    exact .ite h (ih h.tryRecord)
theorem execPeatFormed_canon {hid : Nat} {s : State} (h : s.Canon μ κ) : NextCanon μ κ (execPeatFormed hid s) := by
  unfold execPeatFormed
  extract_lets x q y p s1 stop run s2 s3 s4 s5 s6
  have hs1 : s1.Canon μ κ := .ite h (h.putPeats h.peat)
  have hs2 : s2.Canon μ κ := hs1.foldl (fun _ _ h1 => h1.finish.record)
  have hs3 : s3.Canon μ κ := hs2.same rfl
  have hs4 : s4.Canon μ κ := hs3.clearHolders.flushRecords
  clear_value s4
  have hs5 : s5.Canon μ κ := hs4.onQueue
  have hs6 : s6.Canon μ κ := hs5.same rfl
  exact .ite (.next h) (.next (hs6.onHousehold (fun _ _ => savedCanon_none)))
theorem execPwrel_canon {val : BitVec 64} {s : State} (h : s.Canon μ κ) : NextCanon μ κ (execPwrel val s) := by
  unfold execPwrel
  extract_lets n answers
  split
  · exact .next h
  · exact .ite (.next h.next) (.ite (.next h) (.next h.delPeat))
theorem State.Canon.askPorch {s : State} {op d arg : Nat} {blk : List Nat} {t : Option TokRef} (h : s.Canon μ κ) :
    (s.askPorch op d arg blk t).Canon μ κ :=
  h.request
theorem execPmount_canon {hd : CHead} {d a : BitVec 5} {k : BitVec 4} {s : State} (h : s.Canon μ κ) : NextCanon μ κ
    (execPmount hd d a k s) := by
  unfold execPmount
  extract_lets v
  refine issueC_canon (fun _ h1 => ?_) h
  extract_lets t1
  exact h1.longStart.askPorch
theorem execPunmount_canon {hd : CHead} {a : BitVec 5} {s : State} (h : s.Canon μ κ) : NextCanon μ κ (execPunmount hd a s) := by
  unfold execPunmount
  extract_lets v
  exact issueC_canon (fun _ h1 => h1.askPorch) h
theorem execPinfo_canon {hd : CHead} {d a : BitVec 5} {s : State} (h : s.Canon μ κ) : NextCanon μ κ (execPinfo hd d a s) := by
  unfold execPinfo
  extract_lets v bad
  refine issueC_canon (fun _ h1 => ?_) h
  extract_lets t1
  exact h1.longStart.askPorch
theorem execPrevive_canon {hd : CHead} {d a : BitVec 5} {k : BitVec 4} {s : State} (h : s.Canon μ κ) : NextCanon μ κ
    (execPrevive hd d a k s) := by
  unfold execPrevive
  extract_lets x blk
  refine issueC_canon (fun _ h1 => ?_) h
  extract_lets t1
  exact h1.longStart.askPorch
theorem State.Canon.mountPeat {s : State} {hid v : Nat} (h : s.Canon μ κ) : (s.mountPeat hid v).2.Canon μ κ := by
  unfold State.mountPeat
  extract_lets n va mine
  split
  · exact h
  · extract_lets len
    refine .iteSnd h (.iteSnd h (.iteSnd h (.iteSnd h.tagFail (.iteSnd h ?_))))
    split
    · exact h
    · exact h.same rfl
theorem State.Canon.unmountPeat {s : State} {hid v : Nat} (h : s.Canon μ κ) : (s.unmountPeat hid v).Canon μ κ := by
  unfold State.unmountPeat
  split
  · exact h
  · exact .foldl_mem (h.same rfl) (fun _ _ _ h2 => h2.dropTlb)
theorem State.Canon.revivePeat {s : State} {id hid b : Nat} (h : s.Canon μ κ) : (s.revivePeat id hid b).2.Canon μ κ := by
  unfold State.revivePeat
  extract_lets n q x tbase js
  split
  · exact h
  · rename_i p e
    extract_lets js1 g s1 s2
    have hp : savedCanon κ p.frozen := h.peatOf e
    have hs1 : s1.Canon μ κ := h.putPeats hp
    have hs2 : s2.Canon μ κ := hs1.onQueue
    split
    · exact h
    · split
      · exact h
      · split
        · exact h
        · split
          · exact h
          · split
            · exact h
            · exact hs2
theorem execPorchAnswer_canon {id : Nat} {s : State} (h : s.Canon μ κ) : NextCanon μ κ (execPorchAnswer id s) := by
  unfold execPorchAnswer
  split
  · exact .next h
  · split
    · split
      · exact .next h
      · extract_lets hid r keep s1 wr s2
        have hr : r.2.Canon μ κ := by
          unfold r
          split
          · exact h.mountPeat
          · exact h.unmountPeat
          · exact h
          · exact h.revivePeat
        exact .next (.ite hr.onMsg.logAck.complete hr.onMsg.logAck.complete.dropMsg)
    · exact .next h
theorem CoreSt.Canon.coreSt {r : Rehome} {x old : CoreSt} {q ticket det task : Nat} (hx : x.Canon κ) :
    (r.coreSt x old q ticket det task).Canon κ := by
  unfold Rehome.coreSt
  extract_lets x1
  have hx1 : x1.Canon κ := hx.move.restored
  exact hx1.same rfl rfl
theorem State.Canon.install {s : State} {q : Nat} {g : Group} {f : Frozen} {r : Rehome} (h : s.Canon μ κ) (hf : f.Canon κ) :
    (s.install q g f r).Canon μ κ := by
  unfold State.install
  extract_lets det d s1 s2 kept cut ops opNos bag newOps colls s3 s4 ids held due s5
  have hs1 : s1.Canon μ κ := by
    refine h.foldl_mem (fun _ _ _ h2 => ?_)
    extract_lets x
    exact .launchBox (h2.freshCore.freshLoft.setCore hf.core.coreSt.shift)
  have hs2 : s2.Canon μ κ := by
    refine hs1.foldl_mem (fun _ _ _ h4 => ?_)
    extract_lets t2
    have ht2 : t2.Canon μ κ := h4.freshCounters.freshRows
    exact ht2.same rfl
  have hs3 : s3.Canon μ κ := hs2.same rfl
  have hs4 : s4.Canon μ κ := hs3.foldl_mem (fun _ _ _ h6 => h6.setOp)
  have hs5 : s5.Canon μ κ := hs4.same rfl
  exact hs5.foldl_mem (fun _ _ _ h8 => h8.refuseMsg)
theorem State.Canon.reviveLoad {s : State} {q t : Nat} (h : s.Canon μ κ) : (s.reviveLoad q t).Canon μ κ := by
  unfold State.reviveLoad
  split
  · split
    · rename_i e2
      exact .ite (.onTaskGroup (h.install (h.peat _ e2))) h
    · exact h
  · exact h
theorem execCoreLoadAck_canon {q t core : Nat} {s : State} (h : s.Canon μ κ) : NextCanon μ κ (execCoreLoadAck q t core s) := by
  unfold execCoreLoadAck
  split
  · exact .next h
  · split
    · exact .next h
    · split
      · exact .next h.acknowledged.reviveLoad
      · split
        · exact .next h.refuseLoading
        · extract_lets j rs
          split
          · exact .next h.refuseLoading
          · exact .ite (.next h.stepAt) (.next (.acknowledged (.loadCore (h.foldl_mem (fun _ _ _ h2 => h2.touchVa)))))
theorem execReviveResume_canon {q t : Nat} {s : State} (h : s.Canon μ κ) : NextCanon μ κ (execReviveResume q t s) := by
  unfold execReviveResume
  split
  · exact .next h
  · exact .ite (.next h) (.next h.onTaskGroup)

end Sys2Proof.Machine
end

section
/-! ## Canonical memories: faults of memories and links (Machine/Faults) -/
namespace Sys2Proof.Machine
variable {μ κ : Prop}

theorem State.Canon.stopReader {s : State} {kind holder : Nat} (h : s.Canon μ κ) : (s.stopReader kind holder).Canon μ κ := by
  unfold State.stopReader
  split
  · exact h
  · extract_lets live c
    split
    · exact h.choose.onCtx
    · exact h.choose
theorem State.Canon.correctGranule {s : State} {die : Nat} {g : Nat × Nat × Nat} (h : s.Canon μ κ) :
    (s.correctGranule die g).Canon μ κ := by
  unfold State.correctGranule
  extract_lets t
  have ht : t.Canon μ κ := h.onDie
  exact ht.same rfl
theorem execSramUe_canon {kind holder addr : Nat} {s : State} (h : s.Canon μ κ) : NextCanon μ κ (execSramUe kind holder addr s) := by
  unfold execSramUe
  split
  · exact .next h
  · extract_lets die s1
    split
    · exact .next h.correctGranule
    · split
      · exact .next h.onDie.moduleEvent
      · extract_lets s2
        have hs2 : s2.Canon μ κ := h.onDie.moduleEvent.stopReader
        exact .next (.killNow (hs2.same rfl))
theorem execPatrolScrub_canon {pa : Nat} {s : State} (h : s.Canon μ κ) : NextCanon μ κ (execPatrolScrub pa s) := by
  unfold execPatrolScrub
  split
  · exact .fault
  · split
    · exact .next h
    · split
      · exact .next h.next
      · split
        · exact .next h.stepAt
        · extract_lets found r
          exact .next (.ite h.checkAtom h.checkAtom.moduleEvent)
theorem execFlitReceive_canon {link : Nat} {seq : BitVec 12} {good : Bool} {s : State} (h : s.Canon μ κ) : NextCanon μ κ
    (execFlitReceive link seq good s) := by
  unfold execFlitReceive
  extract_lets l n buf c
  have hc : c.2.Canon μ κ := by
    unfold c
    split
    · exact h.choose
    · exact h
  exact .ite (.next h) (.ite (.next h.onLink) (.ite (.next h.onLink.soon) (.ite (.next h.onLink) (.next hc.onLink))))
theorem State.Canon.retrainOf {s : State} {link : Nat} {x : Option ((Nat × Nat) × Nat)} (h : s.Canon μ κ) :
    (s.retrainOf link x).Canon μ κ := by
  unfold State.retrainOf
  extract_lets c at_ t
  have ht : t.Canon μ κ := h.choose
  exact .stepAt (.onLink (ht.same rfl))
theorem State.Canon.retrain {s : State} {link : Nat} (h : s.Canon μ κ) : (s.retrain link).Canon μ κ := by
  unfold State.retrain
  extract_lets up c
  split
  · exact h.choose.retrainOf
  · exact h.retrainOf
theorem execNakReplay_canon {link : Nat} {seq : BitVec 12} {s : State} (h : s.Canon μ κ) : NextCanon μ κ
    (execNakReplay link seq s) := by
  unfold execNakReplay
  extract_lets l n naks s1
  exact .ite (.next h) (.next (.ite h.onLink.retrain h.onLink))
theorem State.Canon.removeCrossing {s : State} {link : Nat} {p : Nat × Nat} (h : s.Canon μ κ) : (s.removeCrossing link p).Canon
    μ κ := by
  unfold State.removeCrossing
  extract_lets s1 st s2
  have hs1 : s1.Canon μ κ := h.same rfl
  exact .ite hs1.onLink.moduleEvent hs1.onLink
theorem execRetrainEnd_canon {link : Nat} {up : Bool} {s : State} (h : s.Canon μ κ) : NextCanon μ κ (execRetrainEnd link up s) := by
  unfold execRetrainEnd
  extract_lets l s1
  split
  · extract_lets s2
    exact .ite (.next h.onLink.onLink.moduleEvent) (.next (.ite h.onLink.retrainOf h.onLink.removeCrossing))
  · split
    · exact .next h
    · exact .ite (.next h.onLink.moduleEvent) (.next (.ite h.onLink.retrainOf h.onLink.onLink.moduleEvent))
theorem execSensorRead_canon {die temp : Nat} {s : State} (h : s.Canon μ κ) : NextCanon μ κ (execSensorRead die temp s) := by
  unfold execSensorRead
  split
  · exact .next h
  · split
    · exact .next h.next
    · extract_lets rank hot s1
      split
      · exact .ite (.next h.onPorch) (.next (h.onPorch.onDie.moduleEvent.foldl_mem (fun _ _ _ h2 => h2.killNow)))
      · exact .ite (.next h) (.next h.onDie.onPorch)

end Sys2Proof.Machine
end

section
/-! ## Canonical memories: alarms and signatures (Machine/Security) -/
namespace Sys2Proof.Machine
variable {μ κ : Prop}

theorem execSecurityAlarm_canon {cls : Nat} {s : State} (h : s.Canon μ κ) : NextCanon μ κ (execSecurityAlarm cls s) := by
  unfold execSecurityAlarm
  split
  · exact .next h
  · extract_lets p s1 s2
    have hs2 : s2.Canon μ κ := h.onPorch.foldl_mem (fun _ _ _ h2 => h2.armKill)
    exact .next hs2.stepAt
theorem State.Canon.wipe {s : State} {f : Household → Bool} (h : s.Canon μ κ) : (s.wipe f).Canon μ κ :=
  h.foldl_mem (fun _ _ _ h2 => h2.eraseKeys)
theorem execAlarmAction_canon {cls : Nat} {s : State} (h : s.Canon μ κ) : NextCanon μ κ (execAlarmAction cls s) := by
  unfold execAlarmAction
  extract_lets p s1 s2 s3
  have hs1 : s1.Canon μ κ := h.foldl (fun t a h1 => h1.armKill.next)
  have hs2 : s2.Canon μ κ := hs1.wipe
  have hs3 : s3.Canon μ κ := hs1.wipe
  clear_value p
  split
  · exact .next (hs2.mapPeats rfl (fun _ => by simp only [apply_ite Peat.frozen, ite_self]) rfl)
  · exact .next (State.Canon.onPorch (hs3.mapPeats rfl (fun _ => rfl) rfl))
  · exact .next hs1
theorem execSignatureCheck_canon {q idx : Nat} {s : State} (h : s.Canon μ κ) : NextCanon μ κ (execSignatureCheck q idx s) := by
  unfold execSignatureCheck
  extract_lets x
  split
  · exact .next h
  · split
    · exact .next h
    · split
      · exact .next h.stepAt
      · extract_lets s1
        split
        · exact .next h.checkBytes
        · extract_lets v s2
          split
          · exact .next h.checkBytes.checkBytes
          · exact .ite (.next h.checkBytes.checkBytes) (.next h.checkBytes.checkBytes.record)
theorem execDbgunlk_canon {q : Nat} {val : BitVec 64} {s : State} (h : s.Canon μ κ) : NextCanon μ κ (execDbgunlk q val s) := by
  unfold execDbgunlk
  split
  · exact .next h
  · exact .ite (.next (h.onHousehold (fun _ h1 => h1))) (.next h.next)

end Sys2Proof.Machine
end

section
/-! ## Canonical memories: debug (Machine/Debug) -/
namespace Sys2Proof.Machine
variable {μ κ : Prop}

theorem State.Canon.onDebug {s : State} {core : Nat} {f : Debug → Debug} (h : s.Canon μ κ) : (s.onDebug core f).Canon μ κ :=
  h.onCore (fun _ h1 => h1.same rfl rfl)
theorem execDebugStop_canon {core : Nat} {s : State} (h : s.Canon μ κ) : NextCanon μ κ (execDebugStop core s) := by
  unfold execDebugStop
  extract_lets d g
  exact .ite (.next h) (.next (h.foldl_mem (fun _ _ _ h2 => h2.onDebug.stepAt)))
theorem execDebugStopTake_canon {core : Nat} {s : State} (h : s.Canon μ κ) : NextCanon μ κ (execDebugStopTake core s) := by
  unfold execDebugStopTake
  extract_lets d
  exact .ite (.next (h.foldl_mem (fun _ _ _ h2 => h2.onDebug))) (.next h)
theorem execDebugRun_canon {core : Nat} {s : State} (h : s.Canon μ κ) : NextCanon μ κ (execDebugRun core s) :=
  .ite (.next h) (.next (h.foldl_mem (fun _ _ _ h2 => h2.onDebug)))
theorem execDebugStep_canon {core ctx : Nat} {s : State} (h : s.Canon μ κ) : NextCanon μ κ (execDebugStep core ctx s) := by
  unfold execDebugStep
  extract_lets x
  exact .ite (.next h) (.next (h.foldl_mem (fun _ _ _ h2 => h2.onDebug)))
theorem execDebugSnapshot_canon {core : Nat} {s : State} (h : s.Canon μ κ) : NextCanon μ κ (execDebugSnapshot core s) := by
  unfold execDebugSnapshot
  extract_lets d s1 s2
  have hs2 : s2.Canon μ κ := h.matrixAdvance.hostBytes
  exact .ite (.next h) (.next hs2.onDebug.soon)
theorem execSnapshotDone_canon {core : Nat} {s : State} (h : s.Canon μ κ) : NextCanon μ κ (execSnapshotDone core s) :=
  .next h.onDebug
theorem execTraceGtsTrigger_canon {core : Nat} {s : State} (h : s.Canon μ κ) : NextCanon μ κ (execTraceGtsTrigger core s) :=
  .next h.traceWindow
theorem execDroopDetect_canon {die : Nat} {below mv : BitVec 32} {s : State} (h : s.Canon μ κ) :
    NextCanon μ κ (execDroopDetect die below mv s) := by
  unfold execDroopDetect
  extract_lets at_ d j s1 recent head body s2
  have hs1 : s1.Canon μ κ := h.onDie
  have hs2 : s2.Canon μ κ := hs1.hostBytes
  exact .ite (.next h) (.ite (.next hs1) (.next hs2.onDie))
theorem execMolHeadReread_canon {core ctx : Nat} {s : State} (h : s.Canon μ κ) : NextCanon μ κ (execMolHeadReread core ctx s) :=
  .next h.onCtx

end Sys2Proof.Machine
end

section
/-! ## Canonical memories: the table of words (Machine/Words) -/
namespace Sys2Proof.Machine
variable {μ κ : Prop}

theorem runWord_canon {i : Instr} {s : State} (h : s.Canon μ κ) : NextCanon μ κ (runWord i s) := by
  cases i with unfold runWord
  | add | sub | mul | mulh | div | rem | and | or | xor | shl | shr | sra | min | max | faddF32 | fmulF32 =>
    exact issueBin_canon h
  | ldb | ldbN | ldh | ldhN | ldw | ldwN | ldd | ldbX | ldbNX | ldhX | ldhNX | ldwX | ldwNX | lddX => exact issueLoad_canon h
  | vadd | vsub | vmul | vfma | vfms | vmin | vmax | vand | vor | vxor | vshl | vshr | vclamp | vdotI8 => exact issueVV_canon h
  | clz | popc | adr | andI | orI | xorI | shlI | shrI | sraI | minI | maxI | fcvt => exact issueUn_canon h
  | vaddS | vsubS | vmulS | vfmaS | vfmsS | vminS | vmaxS | vandS | vorS | vxorS | vshlS | vshrS => exact issueVS_canon h
  | cmp | sel | lih | cmpI | ffmaF32 | pset | pand | por | pnot | vext => exact issueA_canon (fun _ h1 => h1.fixedWrite) h
  | stb | sth | stw | std | stbX | sthX | stwX | stdX => exact issueStore_canon h
  | amoAdd | amoMin | amoMax | amoAnd | amoOr | amoXor | amoSwp | amoCas => exact issueAmo_canon h
  | redAdd | redMin | redMax | redAnd | redOr | redXor => exact issueRed_canon h
  | vabs | vneg | vrcp | vrsqrt | vexp2 | vlog2 => exact issueV1_canon h
  | sget | sput | sgat | sred | scol => exact issueStream_canon h
  | brT | brF | brAny | brNone => exact issueBranch_canon h
  | nop | kwait | cReservedNop => exact issueC_canon (fun _ h1 => h1) h
  | dly | sync | gang => exact issueC_canon (fun _ h1 => h1.onMe) h
  | ret | jmp | jr => exact issueC_canon (fun _ h1 => h1.transfer) h
  | ktst | getc | gts => exact issueC_canon (fun _ h1 => h1.fixedWrite) h
  | pinit | pcmt | prel => exact issuePan_canon h
  | call | jal => exact issueC_canon (fun _ h1 => h1.fixedWrite.transfer) h
  | sig | esig => exact issueC_canon (fun _ h1 => h1.request) h
  | ldvs | ldvx => exact issueVLoad_canon h
  | cspill | cfill => exact issueImage_canon h
  | pres | pacq => exact issuePanTake_canon h
  | aNop | aReservedNop => exact issueA_canon (fun _ h1 => h1) h
  | yield => exact issueC_canon (fun _ h1 => h1.switching) h
  | halt => exact issueC_canon (fun _ h1 => .onMe (h1.orphanLate.onHere (fun _ h2 => h2.leaveGang))) h
  | eret => exact issueC_canon (fun _ h1 => h1.leaveTrap) h
  | gsplit => exact issueC_canon (fun _ h1 => h1.onHere (fun _ h2 => h2.leaveGang)) h
  | syncT => exact execSyncT_canon h
  | spawn => exact execSpawn_canon h
  | rbRec => exact issueC_canon (fun _ h1 => h1.onHere (fun _ h2 => h2.same rfl rfl)) h
  | rbRun => exact execRbRun_canon h
  | trap => exact issueC_canon (fun _ h1 => h1.trapAfter) h
  | setc => exact execSetc_canon h
  | tmark => exact issueC_canon (fun _ h1 => h1.traceEvent) h
  | ewait => exact execEwait_canon h
  | take => exact execTake_canon h
  | give => exact execGive_canon h
  | feSet => exact execFeSet_canon h
  | ldv => exact execLdv_canon h
  | stv => exact execStv_canon h
  | stvx => exact issueVStore_canon h
  | alb => exact execAlb_canon h
  | ale => exact execAle_canon h
  | fenceAcq => exact issueC_canon (fun _ h1 => h1.acquire) h
  | fenceRel => exact issueC_canon (fun _ h1 => .ite h1.onMe h1.release) h
  | fenceAr => exact issueC_canon (fun _ h1 => .ite h1.onMe h1.release.acquire) h
  | inbx => exact execInbx_canon h
  | inbxT => exact execInbxT_canon h
  | msend => exact execMsend_canon h
  | mxq => exact execMxq_canon h
  | mma => exact execMma_canon h
  | mzero => exact issueC_canon (fun _ h1 => h1.enqueue) h
  | mrd => exact execMrd_canon h
  | mldB => exact execMldB_canon h
  | pmount => exact execPmount_canon h
  | punmount => exact execPunmount_canon h
  | pinfo => exact execPinfo_canon h
  | cadd => exact execCadd_canon h
  | caddTile => exact execCaddTile_canon h
  | ctap => exact execCtap_canon h
  | cscrub => exact execCscrub_canon h
  | cinfo => exact execCinfo_canon h
  | previve => exact execPrevive_canon h
  | hnew => exact execHnew_canon h
  | hmov => exact execHmov_canon h
  | hsplit => exact execHsplit_canon h
  | hjoin => exact execHjoin_canon h
  | hsend => exact execHsend_canon h
  | hrecv => exact execHrecv_canon h
  | hinfo => exact execHinfo_canon h
  | hfree => exact execHfree_canon h
  | hldv => exact execHldv_canon h
  | hstv => exact execHstv_canon h
  | vperm => exact execVperm_canon h
  | vsel => exact execVsel_canon h
  | vcmp => exact execVcmp_canon h
  | vcvt => exact execVcvt_canon h
  | vred => exact execVred_canon h
  | vbcast => exact execVbcast_canon h
  | vsplat => exact execVsplat_canon h
  | vins => exact execVins_canon h
  | vcmpS => exact execVcmpS_canon h
  | illegalOpcode => exact execIllegalOpcode_canon h
  | replayedPair | lateTrap | upcall | helperRetire | taskEnd | phaseComplete | syncTLimit | planEntry
  | remoteRequestPerform | takeRetry | replyReceive | requestAck | refusalReceive | predictorDecay | esigAdd | ewaitAnswer
  | msendDepart | entryPlace | inbxTLimit | boxWrite | boxMoveBack | stallTimeout | matrixCommandStart | matrixCommit
  | mldBStart | mldBDone | cisternAddPath | cisternTapPath | scrubEnd | spillComplete | fillComplete | hsendDepart
  | hjoinComplete | hfreeComplete | streamerAccept | streamerStep | streamerComplete | pantryCommit | collectiveRun
  | registerWrite | tkrCas | cmt | cancel | schedulerTick | coreLoadAck | groupStart | taskEndReport | groupFree
  | recordWrite | recordRetry | ringHeadWrite | swcmdSave | swcmdRestore | swcmdDisarm | switchStop | sluiceClose
  | saveComplete | restoreResume | reinject | stubForward | stubCorrection | pasidTeardown | hostResponseDiscard | waitArm
  | watchRead | watchYield | pageResponse | tdiStateChange | tinv | tinvComplete | gtsJoin | gtsCorrect | leaseCas
  | coldReset | firstStageBoot | getMeasurements | hostPortTrain | kill | warmReset | killStop | peatAllocate | peatFormed
  | pwrel | reviveResume | sramUe | patrolScrub | flitReceive | nakReplay | retrainEnd | eventRecordWrite | rowActivate
  | backoffEnd | rowClose | refreshWindow | bankRefresh | heartbeat | refreshTakeover | sequencerRefresh | refreshHandback
  | pageMigrate | sensorRead | routerReceive | orderRestoreDeliver | securityAlarm | alarmAction | signatureCheck | dbgunlk
  | debugStop | debugStopTake | debugRun | debugStep | debugSnapshot | snapshotDone | traceGtsTrigger | droopDetect
  | molHeadReread | fetchTrap | householdCreate | householdDestroy | fenCreate | fenEnd | hostCxlMemAccess
  | boardwalkPeerAccess | unsupportedAtomicop | porchAnswer | boxFetch | allBankRefreshEnd | migrationDone => exact .next h

end Sys2Proof.Machine
end

section
/-! ## Canonical memories: replay (Machine/Replay) -/
namespace Sys2Proof.Machine
variable {μ κ : Prop}

theorem State.Canon.startPair {s : State} (h : s.Canon μ κ) : s.startPair.Canon μ κ := by
  unfold State.startPair
  extract_lets t
  have ht : t.Canon μ κ := h.onMe
  exact ht.same rfl
theorem State.Canon.setNext {s : State} {npc : Word} (h : s.Canon μ κ) : (s.setNext npc).Canon μ κ := h.onMe
theorem runPair_canon {run : Instr → State → Host.Outcome State Fault Refusal} {c a : Instr} {s : State}
    (hrun : ∀ a, ∀ t, t.Canon μ κ → NextCanon μ κ (run a t)) (hs : s.Canon μ κ) : NextCanon μ κ (runPair run c a s) := by
  unfold runPair
  split
  · rename_i e
    split
    · exact .next ((hrun _ _ hs) _ e)
    · split
      · rename_i e3
        split
        · exact .next ((hrun _ _ hs) _ e3)
        · split
          · exact .next hs.enterTrap
          · split
            · exact .next ((hrun _ _ hs) _ e)
            · exact .next (.ite ((hrun _ _ hs) _ e3) ((hrun _ _ hs) _ e))
            · exact .next ((hrun _ _ hs) _ e)
            · exact hrun _ _ ((hrun _ _ hs) _ e3)
            · exact .next ((hrun _ _ hs) _ e3)
      · exact .fault
      · exact .refused
  · exact .fault
  · exact .refused
theorem CoreSt.Canon.replayNext {x : CoreSt} (hx : x.Canon κ) : x.replayNext.Canon κ := by
  unfold CoreSt.replayNext
  split
  · exact .ite (hx.same rfl rfl) (.ite (hx.same rfl rfl) (hx.same rfl rfl))
  · exact hx
theorem replayDone_canon {r : Host.Outcome State Fault Refusal} (hr : NextCanon μ κ r) : NextCanon μ κ (replayDone r) := by
  unfold replayDone
  split
  · exact .ite (.next (hr.state.onHere (fun _ h1 => h1.replayNext))) hr
  · exact hr
theorem State.Canon.replayPair {s : State} {own : Bool} (h : s.Canon μ κ) : NextCanon μ κ (s.replayPair own) := by
  unfold State.replayPair
  extract_lets c nop
  split
  · extract_lets a
    split
    · exact .next h
    · split
      · exact replayDone_canon (runPair_canon (fun _ _ h1 => runWord_canon h1) h.setNext.onMe)
      · split
        · exact replayDone_canon (runPair_canon (fun _ _ h2 => runWord_canon h2) h.setNext)
        · split
          · exact execFetchTrap_canon h
          · exact replayDone_canon (runPair_canon (fun _ _ h3 => runWord_canon h3) h.setNext)
  · exact .next h
theorem execReplayedPair_canon {s : State} (h : s.Canon μ κ) : NextCanon μ κ (execReplayedPair s) := by
  unfold execReplayedPair
  split
  · rename_i e
    split
    · exact h.replayPair
    · exact .next (h.replayPair _ e)
  · exact h.replayPair

end Sys2Proof.Machine
end

section
/-! ## Canonical memories: the table of instructions (Machine/Dispatch) -/
namespace Sys2Proof.Machine
variable {μ κ : Prop}

theorem exec_canon {i : Instr} {s : State} (h : s.Canon μ κ) : NextCanon μ κ (exec i s) := by
  have hword : NextCanon μ κ (runWord i s) := runWord_canon h
  cases i with
  | nop | dly | yield | halt | ret | eret | gsplit | sync | syncT | gang | kwait | ktst | spawn | rbRec | rbRun | brT | brF
  | brAny | brNone | jmp | call | jal | jr | trap | sig | getc | setc | gts | tmark | ewait | esig | ldb | ldbN | ldh
  | ldhN | ldw | ldwN | ldd | stb | sth | stw | std | take | give | feSet | ldbX | ldbNX | ldhX | ldhNX | ldwX | ldwNX
  | lddX | stbX | sthX | stwX | stdX | ldv | stv | ldvs | ldvx | stvx | alb | ale | fenceAcq | fenceRel | fenceAr | inbx
  | inbxT | amoAdd | amoMin | amoMax | amoAnd | amoOr | amoXor | amoSwp | amoCas | redAdd | redMin | redMax | redAnd
  | redOr | redXor | msend | mxq | mma | mzero | mrd | mldB | pmount | punmount | pinfo | cadd | caddTile | ctap | cscrub
  | cspill | cfill | cinfo | previve | hnew | hmov | hsplit | hjoin | hsend | hrecv | hinfo | hfree | hldv | hstv | sget
  | sput | sgat | sred | scol | pinit | pres | pcmt | pacq | prel | aNop | add | sub | mul | mulh | div | rem | and | or
  | xor | shl | shr | sra | min | max | cmp | sel | clz | popc | lih | adr | andI | orI | xorI | shlI | shrI | sraI | minI
  | maxI | cmpI | faddF32 | fmulF32 | ffmaF32 | fcvt | pset | pand | por | pnot | vadd | vsub | vmul | vfma | vfms | vmin
  | vmax | vand | vor | vxor | vshl | vshr | vclamp | vperm | vdotI8 | vsel | vcmp | vabs | vneg | vrcp | vrsqrt | vexp2
  | vlog2 | vcvt | vred | vbcast | vsplat | vext | vins | vaddS | vsubS | vmulS | vfmaS | vfmsS | vminS | vmaxS | vandS
  | vorS | vxorS | vshlS | vshrS | vcmpS | cReservedNop | aReservedNop | illegalOpcode => exact hword
  | replayedPair => exact execReplayedPair_canon h
  | lateTrap => exact execLateTrap_canon h
  | upcall => exact execUpcall_canon h
  | helperRetire => exact execHelperRetire_canon h
  | taskEnd => exact execTaskEnd_canon h
  | phaseComplete => exact execPhaseComplete_canon h
  | syncTLimit => exact execSyncTLimit_canon h
  | planEntry => exact execPlanEntry_canon h
  | remoteRequestPerform => exact execRemoteRequestPerform_canon h
  | takeRetry => exact execTakeRetry_canon h
  | replyReceive => exact execReplyReceive_canon h
  | requestAck => exact execRequestAck_canon h
  | refusalReceive => exact execRefusalReceive_canon h
  | predictorDecay => exact execPredictorDecay_canon h
  | esigAdd => exact execEsigAdd_canon h
  | ewaitAnswer => exact execEwaitAnswer_canon h
  | msendDepart => exact execMsendDepart_canon h
  | entryPlace => exact execEntryPlace_canon h
  | inbxTLimit => exact execInbxTLimit_canon h
  | boxWrite => exact execBoxWrite_canon h
  | boxMoveBack => exact execBoxMoveBack_canon h
  | stallTimeout => exact execStallTimeout_canon h
  | matrixCommandStart => exact execMatrixCommandStart_canon h
  | matrixCommit => exact execMatrixCommit_canon h
  | mldBStart => exact execMldBStart_canon h
  | mldBDone => exact execMldBDone_canon h
  | cisternAddPath => exact execCisternAddPath_canon h
  | cisternTapPath => exact execCisternTapPath_canon h
  | scrubEnd => exact execScrubEnd_canon h
  | spillComplete => exact execSpillComplete_canon h
  | fillComplete => exact execFillComplete_canon h
  | hsendDepart => exact execHsendDepart_canon h
  | hjoinComplete => exact execHjoinComplete_canon h
  | hfreeComplete => exact execHfreeComplete_canon h
  | streamerAccept => exact execStreamerAccept_canon h
  | streamerStep => exact execStreamerStep_canon h
  | streamerComplete => exact execStreamerComplete_canon h
  | pantryCommit => exact execPantryCommit_canon h
  | collectiveRun => exact execCollectiveRun_canon h
  | registerWrite => exact execRegisterWrite_canon h
  | tkrCas => exact execTkrCas_canon h
  | cmt => exact execCmt_canon h
  | cancel => exact execCancel_canon h
  | schedulerTick => exact execSchedulerTick_canon h
  | coreLoadAck => exact execCoreLoadAck_canon h
  | groupStart => exact execGroupStart_canon h
  | taskEndReport => exact execTaskEndReport_canon h
  | groupFree => exact execGroupFree_canon h
  | recordWrite => exact execRecordWrite_canon h
  | recordRetry => exact execRecordRetry_canon h
  | ringHeadWrite => exact execRingHeadWrite_canon h
  | swcmdSave => exact execSwcmdSave_canon h
  | swcmdRestore => exact execSwcmdRestore_canon h
  | swcmdDisarm q val => exact execSwcmdDisarm_canon (_val := val) h
  | switchStop => exact execSwitchStop_canon h
  | sluiceClose => exact execSluiceClose_canon h
  | saveComplete => exact execSaveComplete_canon h
  | restoreResume => exact execRestoreResume_canon h
  | reinject => exact execReinject_canon h
  | stubForward => exact execStubForward_canon h
  | stubCorrection => exact execStubCorrection_canon h
  | pasidTeardown => exact execPasidTeardown_canon h
  | hostResponseDiscard => exact execHostResponseDiscard_canon h
  | waitArm => exact execWaitArm_canon h
  | watchRead => exact execWatchRead_canon h
  | watchYield => exact execWatchYield_canon h
  | pageResponse => exact execPageResponse_canon h
  | tdiStateChange => exact execTdiStateChange_canon h
  | tinv => exact execTinv_canon h
  | tinvComplete => exact execTinvComplete_canon h
  | gtsJoin => exact execGtsJoin_canon h
  | gtsCorrect => exact execGtsCorrect_canon h
  | leaseCas => exact execLeaseCas_canon h
  | coldReset => exact execColdReset_canon h
  | firstStageBoot => exact execFirstStageBoot_canon h
  | getMeasurements => exact execGetMeasurements_canon h
  | hostPortTrain => exact execHostPortTrain_canon h
  | kill => exact execKill_canon h
  | warmReset => exact execWarmReset_canon h
  | killStop => exact execKillStop_canon h
  | peatAllocate => exact execPeatAllocate_canon h
  | peatFormed => exact execPeatFormed_canon h
  | pwrel => exact execPwrel_canon h
  | reviveResume => exact execReviveResume_canon h
  | sramUe => exact execSramUe_canon h
  | patrolScrub => exact execPatrolScrub_canon h
  | flitReceive => exact execFlitReceive_canon h
  | nakReplay => exact execNakReplay_canon h
  | retrainEnd => exact execRetrainEnd_canon h
  | eventRecordWrite => exact execEventRecordWrite_canon h
  | rowActivate => exact execRowActivate_canon h
  | backoffEnd => exact execBackoffEnd_canon h
  | rowClose => exact execRowClose_canon h
  | refreshWindow => exact execRefreshWindow_canon h
  | bankRefresh => exact execBankRefresh_canon h
  | heartbeat => exact execHeartbeat_canon h
  | refreshTakeover => exact execRefreshTakeover_canon h
  | sequencerRefresh => exact execSequencerRefresh_canon h
  | refreshHandback => exact execRefreshHandback_canon h
  | pageMigrate => exact execPageMigrate_canon h
  | sensorRead => exact execSensorRead_canon h
  | routerReceive => exact execRouterReceive_canon h
  | orderRestoreDeliver => exact execOrderRestoreDeliver_canon h
  | securityAlarm => exact execSecurityAlarm_canon h
  | alarmAction => exact execAlarmAction_canon h
  | signatureCheck => exact execSignatureCheck_canon h
  | dbgunlk => exact execDbgunlk_canon h
  | debugStop => exact execDebugStop_canon h
  | debugStopTake => exact execDebugStopTake_canon h
  | debugRun => exact execDebugRun_canon h
  | debugStep => exact execDebugStep_canon h
  | debugSnapshot => exact execDebugSnapshot_canon h
  | snapshotDone => exact execSnapshotDone_canon h
  | traceGtsTrigger => exact execTraceGtsTrigger_canon h
  | droopDetect => exact execDroopDetect_canon h
  | molHeadReread => exact execMolHeadReread_canon h
  | fetchTrap => exact execFetchTrap_canon h
  | householdCreate => exact execHouseholdCreate_canon h
  | householdDestroy => exact execHouseholdDestroy_canon h
  | fenCreate => exact execFenCreate_canon h
  | fenEnd => exact execFenEnd_canon h
  | hostCxlMemAccess => exact execHostCxlMemAccess_canon h
  | boardwalkPeerAccess => exact execBoardwalkPeerAccess_canon h
  | unsupportedAtomicop off val => exact execUnsupportedAtomicop_canon (_off := off) (_val := val) h
  | porchAnswer => exact execPorchAnswer_canon h
  | boxFetch => exact execBoxFetch_canon h
  | allBankRefreshEnd => exact execAllBankRefreshEnd_canon h
  | migrationDone => exact execMigrationDone_canon h

end Sys2Proof.Machine
end

section
/-! ## Canonical memories: the table of events (Machine/Events) -/
namespace Sys2Proof.Machine
variable {μ κ : Prop}

theorem runEvent_canon {e : Event} {s : State} (h : s.Canon μ κ) : NextCanon μ κ (runEvent e s) := by
  cases e <;> unfold runEvent
  exacts [execReplayedPair_canon h, execLateTrap_canon h, execUpcall_canon h, execHelperRetire_canon h, execTaskEnd_canon h,
    execPhaseComplete_canon h, execSyncTLimit_canon h, execPlanEntry_canon h, execRemoteRequestPerform_canon h,
    execTakeRetry_canon h, execReplyReceive_canon h, execRequestAck_canon h, execRefusalReceive_canon h,
    execPredictorDecay_canon h, execEsigAdd_canon h, execEwaitAnswer_canon h, execMsendDepart_canon h, execEntryPlace_canon h,
    execInbxTLimit_canon h, execBoxWrite_canon h, execBoxMoveBack_canon h, execStallTimeout_canon h,
    execMatrixCommandStart_canon h, execMatrixCommit_canon h, execMldBStart_canon h, execMldBDone_canon h,
    execCisternAddPath_canon h, execCisternTapPath_canon h, execScrubEnd_canon h, execSpillComplete_canon h,
    execFillComplete_canon h, execHsendDepart_canon h, execHjoinComplete_canon h, execHfreeComplete_canon h,
    execStreamerAccept_canon h, execStreamerStep_canon h, execStreamerComplete_canon h, execPantryCommit_canon h,
    execCollectiveRun_canon h, execRegisterWrite_canon h, execTkrCas_canon h, execCmt_canon h, execCancel_canon h,
    execSchedulerTick_canon h, execCoreLoadAck_canon h, execGroupStart_canon h, execTaskEndReport_canon h,
    execGroupFree_canon h, execRecordWrite_canon h, execRecordRetry_canon h, execRingHeadWrite_canon h, execSwcmdSave_canon h,
    execSwcmdRestore_canon h, execSwcmdDisarm_canon h, execSwitchStop_canon h, execSluiceClose_canon h,
    execSaveComplete_canon h, execRestoreResume_canon h, execReinject_canon h, execStubForward_canon h,
    execStubCorrection_canon h, execPasidTeardown_canon h, execHostResponseDiscard_canon h, execWaitArm_canon h,
    execWatchRead_canon h, execWatchYield_canon h, execPageResponse_canon h, execTdiStateChange_canon h, execTinv_canon h,
    execTinvComplete_canon h, execGtsJoin_canon h, execGtsCorrect_canon h, execLeaseCas_canon h, execColdReset_canon h,
    execFirstStageBoot_canon h, execGetMeasurements_canon h, execHostPortTrain_canon h, execKill_canon h,
    execWarmReset_canon h, execKillStop_canon h, execPeatAllocate_canon h, execPeatFormed_canon h, execPwrel_canon h,
    execReviveResume_canon h, execSramUe_canon h, execPatrolScrub_canon h, execFlitReceive_canon h, execNakReplay_canon h,
    execRetrainEnd_canon h, execEventRecordWrite_canon h, execRowActivate_canon h, execBackoffEnd_canon h,
    execRowClose_canon h, execRefreshWindow_canon h, execBankRefresh_canon h, execHeartbeat_canon h,
    execRefreshTakeover_canon h, execSequencerRefresh_canon h, execRefreshHandback_canon h, execPageMigrate_canon h,
    execSensorRead_canon h, execRouterReceive_canon h, execOrderRestoreDeliver_canon h, execSecurityAlarm_canon h,
    execAlarmAction_canon h, execSignatureCheck_canon h, execDbgunlk_canon h, execDebugStop_canon h, execDebugStopTake_canon h,
    execDebugRun_canon h, execDebugStep_canon h, execDebugSnapshot_canon h, execSnapshotDone_canon h,
    execTraceGtsTrigger_canon h, execDroopDetect_canon h, execMolHeadReread_canon h, execIllegalOpcode_canon h,
    execFetchTrap_canon h, execHouseholdCreate_canon h, execHouseholdDestroy_canon h, execFenCreate_canon h,
    execFenEnd_canon h, execHostCxlMemAccess_canon h, execBoardwalkPeerAccess_canon h, execUnsupportedAtomicop_canon h,
    execPorchAnswer_canon h, execBoxFetch_canon h, execInboxServe_canon h, execAllBankRefreshEnd_canon h,
    execMigrationDone_canon h]

end Sys2Proof.Machine
end

section
/-! ## Canonical memories: the issue of pairs (Machine/Issue) -/
namespace Sys2Proof.Machine
variable {μ κ : Prop}

theorem State.Canon.pairTurn {s : State} (h : s.Canon μ κ) : NextCanon μ κ s.pairTurn := by
  unfold State.pairTurn
  extract_lets c
  split
  · exact .next h.setNext.onMe
  · exact .ite (execFetchTrap_canon h) (runPair_canon (fun _ _ h1 => exec_canon h1) h.setNext)
theorem State.Canon.attempt {s : State} (h : s.Canon μ κ) : NextCanon μ κ s.attempt :=
  .ite (exec_canon h.startPair) h.startPair.pairTurn
theorem CoreSt.Canon.recordWord {x before : CoreSt} {w : BitVec 32} (hx : x.Canon κ) : (x.recordWord before w).Canon κ := by
  unfold CoreSt.recordWord
  split
  · split
    · split
      · exact hx.same rfl rfl
      · exact hx.same rfl rfl
    · exact hx
  · exact hx
theorem State.Canon.checkRead {t before : State} (h : t.Canon μ κ) : (t.checkRead before).Canon μ κ := .ite h.headRead h
theorem State.Canon.retire {t before : State} (h : t.Canon μ κ) : (t.retire before).Canon μ κ := by
  unfold State.retire
  extract_lets t1 pc w lp
  split
  · refine h.checkRead.onMe.onHere (fun _ h1 => ?_)
    extract_lets t2
    have ht2 : t2.Canon κ := h1.recordWord
    exact ht2.same rfl rfl
  · exact h.checkRead.onMe
theorem retireAll_canon {before : State} {r : Host.Outcome State Fault Refusal} (hr : NextCanon μ κ r) : NextCanon μ κ
    (retireAll before r) := by
  unfold retireAll
  split
  · exact .next hr.state.retire
  · exact hr
theorem State.Canon.gangTrap {s : State} {mask : Nat} (h : s.Canon μ κ) : (s.gangTrap mask).Canon μ κ := h.onMe.enterTrap
theorem State.Canon.instead {s : State} {late up : Bool} {r : Host.Outcome State Fault Refusal} (h : s.Canon μ κ)
    (e : s.instead late up = some r) : NextCanon μ κ r := by
  unfold State.instead at e
  split at e
  · exact Option.some.inj e ▸ retireAll_canon (exec_canon h)
  · split at e
    · exact Option.some.inj e ▸ retireAll_canon (exec_canon h)
    · exact nomatch e
theorem State.Canon.insteadOr {s : State} {late up : Bool} {r : Host.Outcome State Fault Refusal} (h : s.Canon μ κ)
    (hr : NextCanon μ κ r) : NextCanon μ κ ((s.instead late up).getD r) := by
  cases e : s.instead late up with
  | none => exact hr
  | some q => exact h.instead e
theorem State.Canon.offer {base : State} {i : Nat} (h : base.Canon μ κ) : (base.offer i).Canon μ κ := by
  unfold State.offer
  extract_lets s c late up
  have hs : s.Canon μ κ := h.onHere (fun _ h1 => h1.same rfl rfl)
  split
  · exact .no h
  · split
    · exact .yes (.next hs.onMe)
    · split
      · split
        · exact .yes (retireAll_canon (.next hs.gangTrap))
        · split
          · rename_i e7
            split
            · exact .yes (hs.insteadOr (.next (.retire (hs.attempt _ e7))))
            · split
              · split
                · rename_i e11
                  exact .yes (hs.instead e11)
                · exact .no h
              · exact .ite (.no h.onCtx.headRead.stepAt) (.no h)
          · exact .yes hs.attempt
      · exact .ite (.yes (hs.insteadOr (.next hs))) (.no h)
      · exact .ite (.yes (hs.insteadOr (.next hs))) (.no h)
      · exact .ite (.yes (hs.insteadOr (.next hs))) (.no h)
      · exact .no h
theorem State.Canon.firstOffer {s : State} {order : List Nat} (h : s.Canon μ κ) : (s.firstOffer order).Canon μ κ := by
  induction order generalizing s with
  | nil => exact h
  | cons i rest ih =>
    unfold State.firstOffer
    split
    · rename_i e
      exact ih (h.offer.noState e)
    · rename_i e
      exact h.offer.yesNext e
theorem State.Canon.traceTurn {t before : State} {core : Nat} (h : t.Canon μ κ) : (t.traceTurn before core).Canon μ κ := by
  unfold State.traceTurn
  split
  · exact .ite h.traceWindow h.traceWindow
  · exact h.traceWindow
theorem State.Canon.dissolve {s : State} {ms : List Nat} {pc : Word} (h : s.Canon μ κ) : (s.dissolve ms pc).Canon μ κ :=
  h.foldl_mem (fun _ _ _ h2 => h2.onCore (fun _ h3 => h3.leaveGang.setCtx))
theorem State.Canon.gangPair {s : State} {pair : State → Host.Outcome State Fault Refusal} {ms : List Nat}
    (hpair : ∀ t, t.Canon μ κ → NextCanon μ κ (pair t)) (h : s.Canon μ κ) : NextCanon μ κ (s.gangPair pair ms) := by
  induction ms generalizing s with
  | nil => exact .next h
  | cons m rest ih =>
    unfold State.gangPair
    extract_lets b
    have hb : NextCanon μ κ (pair b) := hpair b (h.same rfl)
    split
    · rename_i e
      exact .ite (ih (hb _ e).retire) (.next (hb _ e))
    · exact hb
theorem State.Canon.gangFall {s : State} {trap : State → Host.Outcome State Fault Refusal} {ms fallen : List Nat} {pc : Word}
    (h : s.Canon μ κ) (htrap : ∀ t, t.Canon μ κ → NextCanon μ κ (trap t)) : NextCanon μ κ (s.gangFall trap ms fallen pc) := by
  unfold State.gangFall
  extract_lets s1
  refine .foldl (.next h.dissolve) (fun _ _ h1 => ?_)
  split
  · extract_lets b
    have hb : b.Canon μ κ := h1.state.same rfl
    exact retireAll_canon (htrap _ hb)
  · exact h1
theorem memberPair_canon {c a : Instr} {npc pc : Word} {s : State} (h : s.Canon μ κ) : NextCanon μ κ (memberPair c a npc pc s) := by
  unfold memberPair
  extract_lets s1
  split
  · exact .next h.onMe.startPair.setNext.onMe
  · exact runPair_canon (fun _ _ h1 => exec_canon h1) h.onMe.startPair.setNext
theorem memberReplay_canon {own : Bool} {pc : Word} {s : State} (h : s.Canon μ κ) : NextCanon μ κ (memberReplay own pc s) :=
  h.onMe.startPair.replayPair
theorem State.Canon.follow {s : State} {ms : List Nat} (h : s.Canon μ κ) : (s.follow ms).Canon μ κ := by
  unfold State.follow
  split
  · exact h
  · exact .ite h (h.foldl_mem (fun _ _ _ h2 => h2.onCtx))
theorem State.Canon.gangStep {s : State} {ms : List Nat} (h : s.Canon μ κ) : (s.gangStep ms).Canon μ κ := by
  unfold State.gangStep
  extract_lets lead s1 pc late waitsSync at_ words pair finish
  have hs1 : s1.Canon μ κ := h.foldl (fun _ _ ht => ht.onCore (fun _ hx => hx.same rfl rfl))
  have hlate : NextCanon μ κ (s1.gangFall execLateTrap ms late pc) := hs1.gangFall (fun _ => execLateTrap_canon)
  have hpair : ∀ t, t.Canon μ κ → NextCanon μ κ (pair t) := by
    intro t ht
    unfold pair
    split
    · exact memberReplay_canon ht
    · split
      · exact .ite (execFetchTrap_canon ht) (.next ht)
      · exact memberPair_canon ht
  have hfinish : ∀ r pair, (∀ t, t.Canon μ κ → NextCanon μ κ (pair t)) → NextCanon μ κ r → (finish r pair).Canon μ κ := by
    intro r pair hpair hr
    unfold finish
    split
    · split
      · split
        · exact .yes hlate
        · split
          · exact .no hs1.onCtx.headRead.stepAt
          · exact .no hs1
      · exact .no hs1
      · split
        · exact .yes (.next hr.state.follow)
        · exact .yes hlate
      · split
        · exact .yes (hs1.gangFall hpair)
        · exact .yes hlate
    · exact .yes hr
  clear_value finish
  split
  · exact .no hs1
  · split
    · exact .yes (.next (hs1.foldl (fun _ _ ht => ht.onCtx)))
    · split
      · split
        · exact .yes hlate
        · exact .no hs1
      · have hp : NextCanon μ κ (s1.gangPair pair ms) := hs1.gangPair hpair
        split
        · rename_i t e
          split
          · exact hfinish _ _ (fun _ ht => memberReplay_canon ht) (hs1.gangPair (fun _ ht => memberReplay_canon ht))
          · exact hfinish _ _ hpair (.next (hp t e))
        · exact .yes hp
theorem State.Canon.endTurns {t before : State} {cs : List Nat} {took : Nat → Option Nat} (h : t.Canon μ κ) :
    (t.endTurns before cs took).Canon μ κ := by
  unfold State.endTurns
  refine h.foldl_mem (fun _ _ _ h2 => ?_)
  extract_lets others
  exact .traceTurn (h2.foldl_mem (fun _ _ _ h4 => h4.onCtx))
theorem State.Canon.idleTurns {t : State} {cs : List Nat} (h : t.Canon μ κ) : NextCanon μ κ (t.idleTurns cs) := .next h.endTurns
theorem finishTurns_canon {before : State} {cs : List Nat} {stepOf : Option Nat} {r : Host.Outcome State Fault Refusal}
    (hr : NextCanon μ κ r) : NextCanon μ κ (finishTurns before cs stepOf r) := by
  unfold finishTurns
  split
  · extract_lets t1
    have ht1 : t1.Canon μ κ := by
      unfold t1
      split
      · exact hr.state.foldl_mem (fun _ _ _ h2 => h2.onCore (fun _ h3 => h3.same rfl rfl))
      · exact hr.state
    exact .next ht1.endTurns
  · exact hr
theorem State.Canon.gangTurn {s : State} {g : Gang} (h : s.Canon μ κ) : NextCanon μ κ (s.gangTurn g) := by
  unfold State.gangTurn
  extract_lets ms s1 d
  have hs1 : s1.Canon μ κ := h.same rfl
  split
  · exact State.Canon.idleTurns (hs1.foldl_mem (fun _ _ _ h2 => h2.onCore (fun _ h3 => h3.same rfl rfl)))
  · split
    · exact hs1.idleTurns
    · split
      · exact hs1.idleTurns
      · rename_i e5
        exact finishTurns_canon (hs1.gangStep.yesNext e5)
theorem State.Canon.soloTurn {s : State} (h : s.Canon μ κ) : NextCanon μ κ s.soloTurn := by
  unfold State.soloTurn
  extract_lets x core order b
  have hb : b.Canon μ κ := .ite h (h.onHere (fun _ h2 => h2.same rfl rfl))
  split
  · exact State.Canon.idleTurns (h.onHere (fun _ h1 => h1.same rfl rfl))
  · split
    · split
      · exact h.idleTurns
      · split
        · rename_i e5
          exact State.Canon.idleTurns (h.offer.noState e5)
        · rename_i e6
          exact finishTurns_canon (h.offer.yesNext e6)
    · split
      · rename_i e8
        exact State.Canon.idleTurns (hb.firstOffer.noState e8)
      · rename_i e9
        exact finishTurns_canon (hb.firstOffer.yesNext e9)
theorem State.Canon.coreTurn {s : State} {core : Nat} (h : s.Canon μ κ) : NextCanon μ κ (s.coreTurn core) := by
  unfold State.coreTurn
  extract_lets s1
  have hs1 : s1.Canon μ κ := h.same rfl
  split
  · exact hs1.gangTurn
  · exact hs1.soloTurn

end Sys2Proof.Machine
end

section
/-! ## Canonical memories: the cycle (Machine/Cycle) -/
namespace Sys2Proof.Machine
variable {μ κ : Prop}

theorem State.Canon.flushHeld {s : State} (h : s.Canon μ κ) : s.flushHeld.Canon μ κ := by
  unfold State.flushHeld
  extract_lets s1
  have hs1 : s1.Canon μ κ := h.foldl_mem (fun _ _ _ h2 => h2.molLateFlush)
  refine hs1.foldl_mem (fun _ _ _ h4 => ?_)
  extract_lets s2
  have hs2 : s2.Canon μ κ := .ite h4 h4.molFlush
  exact .ite hs2 hs2.traceFlush
theorem State.Canon.writeLines {s : State} (h : s.Canon μ κ) : s.writeLines.Canon μ κ :=
  h.foldl_mem (fun _ _ _ h2 => .ite h2 h2.mldAdvance)
theorem State.Canon.gtsTriggers {s : State} (h : s.Canon μ κ) : s.gtsTriggers.Canon μ κ := by
  unfold State.gtsTriggers
  extract_lets on
  exact h.foldl_mem (fun _ _ _ h2 => .ite h2.traceWindow h2)
theorem State.Canon.endCycle {s : State} (h : s.Canon μ κ) : s.endCycle.Canon μ κ := by
  unfold State.endCycle
  extract_lets s1 g now
  have hs1 : s1.Canon μ κ := h.flushHeld.writeLines.gtsTriggers.scanBarriers
  exact hs1.same rfl
theorem State.Canon.completeDue {s : State} {d : Due} (h : s.Canon μ κ) : (s.completeDue d).Canon μ κ := by
  unfold State.completeDue
  split
  · exact h
  · split
    · exact h
    · exact .ite h.putOff h.complete
theorem State.Canon.again {s : State} {e : Event} (h : s.Canon μ κ) : (s.again e).Canon μ κ := by
  unfold State.again
  split
  · extract_lets c
    exact .ite h.choose.stepAt h.choose.soonAfter
  · exact h.stepAt
  · exact h.stepAt
  · exact .ite h.stepAt h.stepAt
  · extract_lets x n2
    exact .ite h h.soonAfter
  · exact h
theorem State.Canon.rearm {s : State} {e : Event} (h : s.Canon μ κ) : (s.rearm e).Canon μ κ := by
  unfold State.rearm
  split
  · exact h
  · exact .ite h h.again
theorem State.Canon.startCycle {s : State} (h : s.Canon μ κ) : s.startCycle.Canon μ κ := by
  unfold State.startCycle
  extract_lets now s1 s2 tick
  have hs1 : s1.Canon μ κ := h.same rfl
  have hs2 : s2.Canon μ κ := .foldl_mem (hs1.foldl_mem (fun _ _ _ h2 => h2.completeDue)) (fun _ _ _ h4 => h4.rearm)
  exact hs2.same rfl
theorem State.Canon.happen {s : State} {e : Event} (h : s.Canon μ κ) : NextCanon μ κ (s.happen e) := by
  unfold State.happen
  split
  · exact .next h.putOff
  · exact runEvent_canon h
theorem State.Canon.turnOf {s : State} {core : Nat} (h : s.Canon μ κ) : NextCanon μ κ (s.turnOf core) := by
  unfold State.turnOf
  split
  · exact .next h
  · exact .ite (.next h) h.coreTurn
theorem State.Canon.tick {s : State} (h : s.Canon μ κ) : s.tick.Canon μ κ := .ite h.endCycle h.startCycle

end Sys2Proof.Machine
end

section
/-! ## Canonical memories: the step (Machine/Step) -/
namespace Sys2Proof.Machine
variable {μ κ : Prop}

theorem step_canon {s : State} (h : s.Canon μ κ) : NextCanon μ κ (step s) := by
  unfold step
  split
  · exact State.Canon.happen (h.same rfl)
  · split
    · exact State.Canon.turnOf (h.same rfl)
    · exact .next h.tick

end Sys2Proof.Machine
end

section
/-! ## O59 and O60: every step keeps memories canonical -/
namespace Sys2Proof.Machine

/-- Settles O59: the walk through the model, for the memories outside the cores. -/
theorem stepKeepsMemoryCanonical : Obligations.StepKeepsMemoryCanonical := by
  intro s t wf next
  exact State.canon_memWf.1 (step_canon (State.canon_memWf.2 wf) t next)

/-- Settles O60: the same walk, for the memories of every core, saved ones among them. -/
theorem stepKeepsCoreMemoriesCanonical : Obligations.StepKeepsCoreMemoriesCanonical := by
  intro s t wf next
  exact State.canon_coresMemWf.1 (step_canon (State.canon_coresMemWf.2 wf) t next)

end Sys2Proof.Machine
end
section
/-! ## Taking a trap
What a trap entry and a fatal fault leave (R374, R376, R384, R386, R390); O57. -/
namespace Sys2Proof.Machine

/-- The queued results change registers and nothing else. -/
theorem Ctx.applyFixed_eq (c : Ctx) : c.applyFixed = { c with s := c.applyFixed.s, v := c.applyFixed.v, p := c.applyFixed.p, fixed := [] } := by
  refine List.foldlRecOn (motive := fun d : Ctx => d = { c with s := d.s, v := d.v, p := d.p, fixed := [] }) c.fixed _ rfl ?_
  intro d hd w _
  rw [hd]
  unfold Ctx.writeReg
  cases w.reg with
  | s n => dsimp only; split <;> rfl
  | v n => rfl
  | p n => dsimp only; split <;> rfl
theorem Ctx.applyFixed_nil {c : Ctx} (h : c.fixed = []) : c.applyFixed = { c with fixed := [] } := by
  simp [Ctx.applyFixed, h]
theorem Ctx.dropRegion_none {c : Ctx} (h : c.region = none) : c.dropRegion = c := by
  simp [Ctx.dropRegion, h]
theorem Ctx.trapPc_none {c : Ctx} (h : c.region = none) (cause : Nat) (epc : Word) : c.trapPc cause epc = epc := by
  simp [Ctx.trapPc, h]
/-- The context in the handler, its registers those that the queued results leave. -/
theorem Ctx.trapEntry_eq {c : Ctx} (h : c.region = none) (cause sub slot : Nat) (late : Bool) (info : Nat) (epc handler : Word) :
    c.trapEntry cause sub slot late info epc handler =
      { c with s := c.applyFixed.s, v := c.applyFixed.v, p := c.applyFixed.p, fixed := [], t := Vector.replicate 4 0, epc := epc,
               ecause := ecauseOf cause sub slot late c.out.isEmpty, einfo := BitVec.ofNat 64 info, inh := true, npc := handler,
               dlyRem := 0, wait := .none } := by
  unfold Ctx.trapEntry
  rw [Ctx.dropRegion_none h, Ctx.trapPc_none h, Ctx.applyFixed_eq]

theorem CoreSt.endRb_eq (x : CoreSt) (i : Nat) : x.endRb i = { x with rbSt := (x.endRb i).rbSt } := by
  unfold CoreSt.endRb
  split
  · split <;> rfl
  · split <;> rfl
  · rfl

/-- The state whose pair has trapped and whose recording or replay has ended. -/
def State.trapped (s : State) (cause : Nat) : State := { s with latch := .trapped cause }.onHere (fun x => x.endRb x.run)
theorem State.here_trapped (s : State) (cause : Nat) : (s.trapped cause).here = s.here.endRb s.here.run := State.here_onHere _ _
theorem State.run_trapped (s : State) (cause : Nat) : (s.trapped cause).here.run = s.here.run := by
  rw [State.here_trapped, CoreSt.endRb_eq]
theorem State.me_trapped (s : State) (cause : Nat) : (s.trapped cause).me = s.me := by
  unfold State.me
  rw [State.run_trapped, State.here_trapped, CoreSt.endRb_ctx]
/-- The state in the handler: the replay of the context ends and the context enters. -/
theorem State.enterTrap_outside {s : State} (h : s.me.inh = false) (cause sub slot : Nat) (late : Bool) (info : Nat) (epc : Word) :
    s.enterTrap cause sub slot late info epc =
      (s.trapped cause).onMe (fun c => c.trapEntry cause sub slot late info epc (BitVec.ofNat 64 (8 * c.ovh))) :=
  if_neg (Bool.not_eq_true _ ▸ h)
theorem State.enterTrap_inside {s : State} (h : s.me.inh = true) (cause sub slot : Nat) (late : Bool) (info : Nat) (epc : Word) :
    s.enterTrap cause sub slot late info epc = { s with latch := .trapped cause }.fatal cause sub info epc :=
  if_pos h
/-- What of the state the record of a fault and the kill behind it leave as they were. -/
def State.stopped (s : State) : Table CoreSt × Nat × Memory := (s.cores, s.focus, s.pa)
theorem State.stopped_record (s : State) (q ring : Nat) (rec : BitVec 256) (ack : Option Nat) :
    (s.record q ring rec ack).stopped = s.stopped := by
  dsimp only [State.record]
  split <;> rfl
theorem State.stopped_armKill (s : State) (hid at_ reason : Nat) : (s.armKill hid at_ reason).stopped = s.stopped := by
  dsimp only [State.armKill]
  split
  · rfl
  · split
    · split <;> rfl
    · rfl
/-- A fatal fault stops the context where it is; the rest of it is the report. -/
theorem State.stopped_fatal (s : State) (cause sub info : Nat) (epc : Word) :
    (s.fatal cause sub info epc).stopped =
      (s.onMe (fun c => { c with fatal := true, fatalCause := some cause, npc := c.pc })).stopped := by
  dsimp only [State.fatal]
  split
  · rw [State.stopped_armKill, State.stopped_record]
  · exact (State.stopped_armKill _ _ _ _).trans (State.stopped_record _ _ _ _ _)
theorem State.here_of_stopped {s t : State} (h : t.stopped = s.stopped) : t.here = s.here := by
  obtain ⟨cores, rest⟩ := Prod.mk.inj h
  obtain ⟨focus, -⟩ := Prod.mk.inj rest
  unfold State.here State.coreOf
  rw [cores, focus]

/-- Settles O57: outside a handler the context enters with its registers as the queued results leave them; inside one it stops. -/
theorem trapEntry : Obligations.TrapEntry := by
  intro s cause sub slot info late epc run t c
  refine ⟨fun inh region => ?_, fun inh => ?_⟩
  · have ht : t = (s.trapped cause).onMe (fun c => c.trapEntry cause sub slot late info epc (BitVec.ofNat 64 (8 * c.ovh))) :=
      State.enterTrap_outside inh cause sub slot late info epc
    have me : t.me = c.trapEntry cause sub slot late info epc (BitVec.ofNat 64 (8 * c.ovh)) := by
      rw [ht, State.me_onMe _ _ (s.run_trapped cause ▸ run), State.me_trapped]
    have ls : t.here.ls = s.here.ls := by
      rw [ht, State.here_onMe, State.here_trapped, CoreSt.endRb_eq]
      rfl
    rw [Ctx.trapEntry_eq region] at me
    refine ⟨?_, ?_, ?_, ?_, ?_, ?_, ?_, ?_, ?_, ?_, ?_, ?_, by rw [ht]; rfl, by rw [ht]; rfl, by rw [ht]; rfl, ls, fun fixed => ?_⟩
    case refine_6 =>
      intro j hj
      rw [me]
      simp [Ctx.tok, hj]
    case refine_13 =>
      rw [me, Ctx.applyFixed_nil fixed]
      exact ⟨rfl, rfl, rfl⟩
    all_goals rw [me]
    exact fun _ _ => rfl
  · have ht : t = { s with latch := .trapped cause }.fatal cause sub info epc :=
      State.enterTrap_inside inh cause sub slot late info epc
    have stopped := (congrArg State.stopped ht).trans (State.stopped_fatal _ cause sub info epc)
    have here := State.here_of_stopped stopped
    have me : t.me = { c with fatal := true, fatalCause := some cause, npc := c.pc } := by
      unfold State.me
      rw [here]
      exact State.me_onMe { s with latch := .trapped cause } _ run
    have pa : t.pa = s.pa := congrArg (fun p => p.2.2) stopped
    rw [me]
    refine ⟨rfl, rfl, rfl, rfl, rfl, ?_, pa⟩
    rw [here, State.here_onMe]
    rfl

end Sys2Proof.Machine
end
section
/-! ## Debug events
The credential, the stop, the run, the step and the snapshot of a core outside a gang, droop capture and the rereading of HEAD (R452 to
R469); O49. -/
namespace Sys2Proof.Machine

theorem State.isAt_gts (s : State) : s.isAt s.gts = true := by
  simp [State.isAt]
theorem State.debugGroup_alone {s : State} {core : Nat} (h : (s.coreOf core).gang = none) : s.debugGroup core = [core] := by
  simp [State.debugGroup, h]

theorem execDbgunlk_matches {s : State} {q hid : Nat} (h : (s.queue q).hid = some hid) :
    execDbgunlk q (s.household hid).cred s = .next (s.onHousehold hid (fun x => { x with unlocked := true })) := by
  simp [execDbgunlk, h]
theorem execDbgunlk_alarms {s : State} {q hid : Nat} {val : BitVec 64} (h : (s.queue q).hid = some hid)
    (hv : val ≠ (s.household hid).cred) : execDbgunlk q val s = .next (s.next (.securityAlarm 4)) := by
  simp [execDbgunlk, h, hv]

theorem execDebugStop_arms {s : State} {core : Nat} (alone : (s.coreOf core).gang = none) (free : s.debugLocked core = false)
    (armed : (s.coreOf core).dbg.armed = false) (stopped : (s.coreOf core).dbg.stopped = false) :
    let g := max (s.coreOf core).dbg.gts (s.gts + 64)
    execDebugStop core s = .next ((s.onDebug core (fun d => { d with armed := true, stopAt := g })).stepAt g (.debugStopTake core)) := by
  simp [execDebugStop, State.debugGroup_alone alone, free, armed, stopped]
theorem execDebugStopTake_stops {s : State} {core : Nat} (alone : (s.coreOf core).gang = none)
    (armed : (s.coreOf core).dbg.armed = true) (at_ : (s.coreOf core).dbg.stopAt = s.gts) :
    execDebugStopTake core s = .next (s.onDebug core (fun d =>
      { d with armed := false, stopped := true, steps := 0, gts := s.gts, stepReq := none })) := by
  simp [execDebugStopTake, State.debugGroup_alone alone, armed, at_, State.isAt_gts]
theorem execDebugRun_runs {s : State} {core : Nat} (alone : (s.coreOf core).gang = none) (free : s.debugLocked core = false) :
    execDebugRun core s = .next (s.onDebug core (fun d =>
      { d with armed := false, stopped := false, stepReq := none, resume := d.stopped && s.turn.contains core })) := by
  simp [execDebugRun, State.debugGroup_alone alone, free]
theorem execDebugStep_asks {s : State} {core ctx : Nat} (alone : (s.coreOf core).gang = none) (free : s.debugLocked core = false)
    (stopped : (s.coreOf core).dbg.stopped = true) (hctx : ctx ≤ 10) (live : ((s.coreOf core).ctx ctx).live = true) :
    execDebugStep core ctx s = .next (s.onDebug core (fun d => { d with stepReq := some ctx })) := by
  simp [execDebugStep, State.debugGroup_alone alone, free, stopped, live, Nat.not_lt.2 hctx]
theorem execDebugSnapshot_writes {s : State} {core : Nat} (free : s.debugLocked core = false)
    (stopped : (s.coreOf core).dbg.stopped = true) (idle : (s.coreOf core).dbg.snapBusy = false) :
    let u := s.matrixAdvance core (s.gts - 1)
    execDebugSnapshot core s = .next
      ((State.onDebug { u with host := u.host.writeBytes (pfHost + u.porch.dbgva) (u.snapshotBytes core) } core
        (fun d => { d with snapBusy := true })).soon (.snapshotDone core)) := by
  intro u
  exact if_neg (by simp [free, stopped, idle])
theorem execMolHeadReread_wakes {s : State} {core ctx : Nat} (h : ((s.coreOf core).ctx ctx).wait = .molRoom) :
    execMolHeadReread core ctx s = .next (s.onCtx core ctx (fun c => { c with wait := .none })) :=
  congrArg (fun c => Host.Outcome.next (s.setCtx core ctx c)) (if_pos (beq_iff_eq.2 h))

theorem State.dieAt_host (s : State) (die : Nat) (m : Memory) : ({ s with host := m } : State).dieAt die = s.dieAt die := rfl
/-- A droop is counted; it is captured where capture is on and none was captured lately. -/
theorem execDroopDetect_counts {s : State} {die : Nat} (hd : die < 4) (below mv : BitVec 32) :
    ∃ t, execDroopDetect die below mv s = .next t ∧ (t.dieAt die).droops = min 65535 ((s.dieAt die).droops + 1) ∧
      (s.porch.drpEn = false → t.host = s.host) ∧
      (s.porch.drpEn = true → (s.dieAt die).captured = none → (t.dieAt die).captured = some (s.gts - 1)) := by
  unfold execDroopDetect
  rw [if_neg (Nat.not_le.2 hd)]
  extract_lets at_ d j counted recent head body written
  have hcounted : (counted.dieAt die).droops = min 65535 ((s.dieAt die).droops + 1) := by
    rw [State.dieAt_onDie]
  clear_value head body
  split
  next off =>
    refine ⟨counted, rfl, hcounted, fun _ => rfl, fun on fresh => ?_⟩
    have hrecent : recent = false := by
      unfold recent d
      rw [fresh]
    exact absurd off (by rw [hrecent, show counted.porch.drpEn = s.porch.drpEn from rfl, on]; decide)
  next on =>
    refine ⟨_, rfl, ?_, fun off => absurd ?_ on, fun _ _ => ?_⟩
    · rw [State.dieAt_onDie]
      exact (congrArg Die.droops (counted.dieAt_host die _)).trans hcounted
    · rw [show counted.porch.drpEn = s.porch.drpEn from rfl, off]
      rfl
    · rw [State.dieAt_onDie]

/-- Settles O49: one lemma for each event, for a core outside a gang. -/
theorem debugEvents : Obligations.DebugEvents := by
  intro s q hid core ctx die val below mv x d free set
  refine ⟨fun hq => ⟨fun hv => hv ▸ execDbgunlk_matches hq, execDbgunlk_alarms hq⟩, fun alone hfree => ⟨?_, ?_, ?_⟩,
    execDebugStopTake_stops, execDebugSnapshot_writes, rfl, rfl, fun hd => execDroopDetect_counts hd below mv, execMolHeadReread_wakes⟩
  · exact execDebugStop_arms alone hfree
  · exact execDebugRun_runs alone hfree
  · exact execDebugStep_asks alone hfree

end Sys2Proof.Machine
end
section
/-! ## DRAM events
Rows, back-off, refresh and its takeover, and the migration of a hot page (R430 to R435); O48. -/
namespace Sys2Proof.Machine

theorem tfind_tdel {α : Type} (t : Table α) (k : Nat) : tfind (tdel t k) k = none := by
  induction t with
  | nil => rfl
  | cons p t ih =>
    unfold tdel
    split
    · exact ih
    · exact (if_neg ‹_›).trans ih
theorem State.bank_onBank (s : State) (b : Nat) (f : Bank → Bank) : (s.onBank b f).bank b = f (s.bank b) := tget_tput_same _ _ _ _
theorem State.stack_onStack (s : State) (n : Nat) (f : Stack → Stack) : (s.onStack n f).stack n = f (s.stack n) :=
  tget_tput_same _ _ _ _
theorem State.stack_clearActs (s : State) (n m : Nat) : (s.clearActs n).stack m = s.stack m := rfl
theorem State.stack_moduleEvent (s : State) (kind unit detail addr hid n : Nat) :
    (s.moduleEvent kind unit detail addr hid).stack n = s.stack n := by
  dsimp only [State.moduleEvent]
  split <;> rfl
theorem State.stack_stepAt (s : State) (g : Nat) (e : Event) (n : Nat) : (s.stepAt g e).stack n = s.stack n := rfl
theorem State.stack_next (s : State) (e : Event) (n : Nat) : (s.next e).stack n = s.stack n := rfl
theorem State.due_later (s : State) (g : Nat) (e : DueEv) : (⟨g, e⟩ : Due) ∈ (s.later g e).due :=
  List.mem_append_right _ (List.mem_singleton.2 rfl)
theorem State.due_stepAt (s : State) (g : Nat) (e : Event) : (⟨g, .step e⟩ : Due) ∈ (s.stepAt g e).due := s.due_later g _
theorem State.due_stepAt_of_mem {s : State} {d : Due} (h : d ∈ s.due) (g : Nat) (e : Event) : d ∈ (s.stepAt g e).due :=
  List.mem_append_left _ h
theorem State.agenda_next (s : State) (e : Event) : e ∈ (s.next e).agenda := List.mem_append_right _ (List.mem_singleton.2 rfl)

/-! ### Rows -/

/-- An activation that does not reach TH opens its row and counts it. -/
theorem State.activate_below {s : State} {pa : Nat} (h : s.act (bankKey pa) (s.rowAt pa) + 1 ≠ (s.stack (stackOf pa)).th) :
    let k := s.bank (bankKey pa)
    s.activate pa = s.onBank (bankKey pa) (fun _ =>
      { k with openRow := some (s.rowAt pa), lastAccess := s.gts, window := windowOf s.gts,
               acts := tput (if k.window = windowOf s.gts then k.acts else []) (s.rowAt pa) (s.act (bankKey pa) (s.rowAt pa) + 1) }) :=
  if_pos (bne_iff_ne.2 h)
theorem State.act_of_bank {s : State} {b row n : Nat} {acts : Table Nat} (w : (s.bank b).window = windowOf s.gts)
    (a : (s.bank b).acts = tput acts row n) : s.act b row = n := by
  unfold State.act
  exact (if_pos w).trans (by rw [a, tget_tput_same])
theorem execRowActivate_opens {s : State} {pa : Nat} (hbm : isHbm pa = true) (free : s.bankWait pa = none)
    (closed : s.rowOpen pa = false) (below : s.act (bankKey pa) (s.rowAt pa) + 1 ≠ (s.stack (stackOf pa)).th) :
    ∃ t, execRowActivate pa s = .next t ∧ (t.bank (bankKey pa)).openRow = some (s.rowAt pa) ∧
      (t.bank (bankKey pa)).lastAccess = s.gts ∧ t.act (bankKey pa) (s.rowAt pa) = s.act (bankKey pa) (s.rowAt pa) + 1 := by
  have bank := congrArg (fun t => t.bank (bankKey pa)) (State.activate_below below)
  simp only [State.bank_onBank] at bank
  refine ⟨s.activate pa, by simp [execRowActivate, State.touch, hbm, free, closed], by rw [bank], by rw [bank], ?_⟩
  have gts : (s.activate pa).gts = s.gts := by rw [State.activate_below below]; rfl
  exact State.act_of_bank (by rw [bank, gts]) (by rw [bank])
theorem execBackoffEnd_ends {s : State} {bank : Nat} (h : (s.bank bank).backoff ≤ s.gts) :
    execBackoffEnd bank s = .next (s.onBank bank (fun b => { b with backoff := 0 })) := congrArg Host.Outcome.next (if_pos h)
theorem execRowClose_closes {s : State} {bank : Nat} (h : (s.bank bank).lastAccess + 128 ≤ s.gts) :
    execRowClose bank s = .next (s.onBank bank (fun b => { b with openRow := none })) := congrArg Host.Outcome.next (if_pos h)

/-! ### Refresh -/

theorem execRefreshWindow_clears {s : State} {stack : Nat} (h : s.gts % 60800000 = 0) :
    execRefreshWindow stack s =
      .next ((s.clearActs stack).onStack stack (fun k => { k with hot := [], window := s.gts / 60800000 })) :=
  congrArg Host.Outcome.next (if_pos h)
theorem execBankRefresh_refreshes {s : State} {bank : Nat} (h : (s.stack (bank / 512 / 4)).takeover = none) :
    execBankRefresh bank s = .next (s.onBank bank (fun b => { b with refreshed := s.gts })) :=
  congrArg Host.Outcome.next (if_neg (by simp [stackOfBank, h]))
theorem execHeartbeat_beats (s : State) (stack : Nat) :
    ∃ t, execHeartbeat stack s = .next t ∧ (t.stack stack).heartbeat = s.gts ∧
      (⟨s.gts + 3800, .step (.refreshTakeover stack)⟩ : Due) ∈ t.due :=
  ⟨_, rfl, by rw [State.stack_stepAt, State.stack_onStack], State.due_stepAt _ _ _⟩
theorem execRefreshTakeover_takes {s : State} {stack : Nat} (free : (s.stack stack).takeover = none)
    (late : (s.stack stack).heartbeat + 3800 ≤ s.gts) (silent : Event.heartbeat stack ∉ s.agenda) :
    ∃ t, execRefreshTakeover stack s = .next t ∧ (t.stack stack).takeover = some s.gts ∧
      (⟨s.gts + 64, .step (.sequencerRefresh stack)⟩ : Due) ∈ t.due := by
  unfold execRefreshTakeover
  rw [if_neg (by simp [free, late, silent])]
  exact ⟨_, rfl, by rw [State.stack_stepAt, State.stack_moduleEvent, State.stack_onStack], State.due_stepAt _ _ _⟩
/-- The stack once the sequencer has refreshed its banks. -/
def State.sequencedRefresh (s : State) (stack : Nat) : State :=
  ((s.clearActs stack).onStack stack (fun k => { k with sequenced := (s.stack stack).sequenced + 1, busyUntil := s.gts + 665 })).stepAt
    (s.gts + 665) (.allBankRefreshEnd stack)
theorem State.stack_sequencedRefresh (s : State) (stack : Nat) : (s.sequencedRefresh stack).stack stack =
    { s.stack stack with sequenced := (s.stack stack).sequenced + 1, busyUntil := s.gts + 665 } := by
  rw [State.sequencedRefresh, State.stack_stepAt, State.stack_onStack]
  rfl
theorem execSequencerRefresh_eq {s : State} {stack : Nat} (h : (s.stack stack).takeover.isSome = true) :
    execSequencerRefresh stack s =
      .next (if (s.stack stack).handsBack s.gts then (s.sequencedRefresh stack).next (.refreshHandback stack)
        else (s.sequencedRefresh stack).stepAt (s.gts + 3705) (.sequencerRefresh stack)) := by
  obtain ⟨g, hg⟩ := Option.isSome_iff_exists.1 h
  simp only [execSequencerRefresh, hg]
  rfl
theorem execSequencerRefresh_refreshes {s : State} {stack : Nat} (h : (s.stack stack).takeover.isSome = true) :
    let k := s.stack stack
    ∃ t, execSequencerRefresh stack s = .next t ∧ (t.stack stack).busyUntil = s.gts + 665 ∧
      (t.stack stack).sequenced = k.sequenced + 1 ∧ (⟨s.gts + 665, .step (.allBankRefreshEnd stack)⟩ : Due) ∈ t.due ∧
      (k.handsBack s.gts = false → (⟨s.gts + 3705, .step (.sequencerRefresh stack)⟩ : Due) ∈ t.due) ∧
      (k.handsBack s.gts = true → Event.refreshHandback stack ∈ t.agenda) := by
  intro k
  refine ⟨_, execSequencerRefresh_eq h, ?_⟩
  cases hb : k.handsBack s.gts with
  | true =>
    rw [if_pos rfl, State.stack_next, State.stack_sequencedRefresh]
    exact ⟨rfl, rfl, State.due_stepAt _ _ _, nofun, fun _ => State.agenda_next _ _⟩
  | false =>
    rw [if_neg Bool.false_ne_true, State.stack_stepAt, State.stack_sequencedRefresh]
    exact ⟨rfl, rfl, State.due_stepAt_of_mem (State.due_stepAt _ _ _) _ _, fun _ => State.due_stepAt _ _ _, nofun⟩
theorem execRefreshHandback_ends {s : State} {stack : Nat} (h : (s.stack stack).takeover.isSome = true)
    (hb : (s.stack stack).handsBack s.gts = true) :
    ∃ t, execRefreshHandback stack s = .next t ∧ (t.stack stack).takeover = none := by
  unfold execRefreshHandback
  rw [if_neg (by simp [hb, Option.isSome_iff_ne_none.1 h])]
  exact ⟨_, rfl, by rw [State.stack_moduleEvent, State.stack_onStack]⟩
/-- What the end of an all-bank refresh makes of a bank of its stack. -/
def releaseBank (stack : Nat) (p : Nat × Bank) : Nat × Bank :=
  if stackOfBank p.1 = stack ∧ p.1 < 16384 then (p.1, { p.2 with held := false }) else p
theorem tget_releaseBank (banks : Table Bank) {b : Nat} (h : b < 16384) :
    (tget (banks.map (releaseBank (stackOfBank b))) Bank.reset b).held = false := by
  induction banks with
  | nil => rfl
  | cons p banks ih =>
    rw [List.map_cons]
    by_cases hp : p.1 = b
    · rw [releaseBank, if_pos ⟨congrArg stackOfBank hp, hp ▸ h⟩]
      unfold tget tfind
      rw [if_pos hp]
      rfl
    · have key : (releaseBank (stackOfBank b) p).1 = p.1 := by
        unfold releaseBank
        split <;> rfl
      unfold tget tfind
      rw [if_neg (key ▸ hp)]
      exact ih
theorem execAllBankRefreshEnd_frees {s : State} {stack : Nat} (h : (s.stack stack).busyUntil ≤ s.gts) :
    ∃ t, execAllBankRefreshEnd stack s = .next t ∧ (t.stack stack).busyUntil = 0 ∧
      ∀ b, b < 16384 → b / 2048 = stack → (t.bank b).held = false := by
  unfold execAllBankRefreshEnd
  rw [if_neg (Nat.not_lt.2 h)]
  refine ⟨_, rfl, congrArg Stack.busyUntil (s.stack_onStack stack (fun k => { k with busyUntil := 0 })), fun b hb hs => ?_⟩
  have same : stackOfBank b = stack := by
    unfold stackOfBank
    omega
  exact same ▸ tget_releaseBank s.banks hb

/-! ### Migration -/

theorem execPageMigrate_skips {s : State} {page : Nat} (idle : tfind s.copying page = none) (skip : s.skipReason page ≠ 0) :
    execPageMigrate page s =
      .next (s.moduleEvent 8 (page % 32 / 4) (s.skipReason page) (page * 65536) (s.mapper (page * 65536))) := by
  simp [execPageMigrate, idle, skip]
theorem State.skipReason_zero {s : State} {page : Nat} (spares : (s.stack (page % 32 / 4)).spares < 64)
    (free : (s.stack (page % 32 / 4)).takeover = none) (unmapped : s.peerMapped (page * 65536) = false) : s.skipReason page = 0 := by
  simp [State.skipReason, free, unmapped, spares]
theorem execPageMigrate_copies {s : State} {page : Nat} (idle : tfind s.copying page = none) (go : s.skipReason page = 0) :
    let n := page % 32 / 4
    ∃ t g, execPageMigrate page s = .next t ∧ tfind t.copying page = some (s.stack n).spares ∧
      (t.stack n).spares = (s.stack n).spares + 1 ∧ g ≤ s.gts + 8192 ∧ (⟨g, .step (.migrationDone page)⟩ : Due) ∈ t.due := by
  unfold execPageMigrate
  extract_lets n k copied
  rw [if_neg (by simp [idle]), if_neg (by simp [go])]
  refine ⟨_, _, rfl, tfind_tput_same _ _ _, congrArg Stack.spares (s.stack_onStack n (fun k => { k with spares := k.spares + 1 })), ?_, State.due_stepAt _ _ _⟩
  omega
theorem execMigrationDone_maps {s : State} {page r : Nat} (h : tfind s.copying page = some r) :
    ∃ t, execMigrationDone page s = .next t ∧ tfind t.copying page = none ∧ tfind t.remap page = some r := by
  unfold execMigrationDone
  rw [h]
  refine ⟨_, rfl, ?_⟩
  dsimp only [State.moduleEvent]
  split
  · exact ⟨tfind_tdel _ _, tfind_tput_same _ _ _⟩
  · exact ⟨tfind_tdel _ _, tfind_tput_same _ _ _⟩

/-- Settles O48: one lemma for each event. -/
theorem dramEvents : Obligations.DramEvents := by
  intro s pa bank stack page k w
  exact ⟨execRowActivate_opens, execBackoffEnd_ends, execRowClose_closes, execRefreshWindow_clears, execBankRefresh_refreshes,
    execHeartbeat_beats s stack, execRefreshTakeover_takes, execSequencerRefresh_refreshes, execRefreshHandback_ends,
    execAllBankRefreshEnd_frees,
    fun idle => ⟨execPageMigrate_skips idle, fun spares free unmapped =>
      execPageMigrate_copies idle (State.skipReason_zero spares free unmapped)⟩,
    fun _ => execMigrationDone_maps⟩

end Sys2Proof.Machine
end
section
/-! ## Peat words
`pmount`, `punmount`, `pinfo` and `previve` (R409 to R412); O37. -/
namespace Sys2Proof.Machine

/-- A reserved field that is zero meets no condition. -/
theorem condIf_clear {n : Nat} (h : n = 0) (c sub info : Nat) : condIf (n != 0) c sub info = [] := by
  rw [h]
  rfl
theorem bits_above {x w : Nat} (n : Nat) (h : x < 2 ^ w) : bits x w n = 0 := by
  rw [bits_eq, Nat.div_eq_of_lt h, Nat.zero_mod]

section
variable {s : State} {hd : CHead} {d a : BitVec 5} {k : BitVec 4}

theorem execPmount_asks (h : CClear s (.pmount hd d a k) hd [.s a.toNat] [] [k] (some (s.me.tokRef k.toNat)) 1 1 false)
    (hx : (s.me.sReg a.toNat).toNat < 2 ^ 52) :
    execPmount hd d a k s = .next (((s.readied [.s a.toNat] 1).longStart (.s d.toNat) (s.me.tokRef k.toNat)).askPorch 0 d.toNat
      (s.me.sReg a.toNat).toNat [] (some (s.me.tokRef k.toNat))) := by
  unfold execPmount
  refine issueC_eq h ?_ rfl rfl ?_
  · exact condIf_clear (bits_above 12 hx) 6 0 _
  · rw [State.readied_tokRef]
theorem execPunmount_asks (h : CClear s (.punmount hd a) hd [.s a.toNat] [] [] none 1 1 false)
    (hx : (s.me.sReg a.toNat).toNat < 2 ^ 52) :
    execPunmount hd a s = .next ((s.readied [.s a.toNat] 1).askPorch 1 0 (s.me.sReg a.toNat).toNat [] none) := by
  unfold execPunmount
  refine issueC_eq h ?_ rfl rfl rfl
  exact condIf_clear (bits_above 12 hx) 6 0 _
theorem execPinfo_asks (h : CClear s (.pinfo hd d a) hd [.s a.toNat] [] [] (some s.me.ltkRef) 1 1 false)
    (hx : (s.me.sReg a.toNat).toNat < 2 ^ 52) (reserved : bits (s.me.sReg a.toNat).toNat 24 8 = 0)
    (known : bits (s.me.sReg a.toNat).toNat 16 8 < 7) :
    execPinfo hd d a s = .next (((s.readied [.s a.toNat] 1).longStart (.s d.toNat) s.me.ltkRef).askPorch 2 d.toNat
      (s.me.sReg a.toNat).toNat [] (some s.me.ltkRef)) := by
  unfold execPinfo
  refine issueC_eq h ?_ rfl rfl ?_
  · simp [condIf, bits_above 12 hx, reserved, known]
  · rw [State.readied_ltkRef]
/-- The checks of the block of `previve` (R412). -/
theorem reviveBad_false {n : Nat} (zero : ∀ f ∈ [(25, 3), (31, 1), (52, 12), (180, 4), (184, 328)], n / 2 ^ f.1 % 2 ^ f.2 = 0)
    (whole : n / 2 ^ 24 % 2 = 0 → n / 2 ^ 160 % 2 ^ 16 = 0) : reviveBad n = false := by
  simp only [List.forall_mem_cons] at zero
  obtain ⟨z25, z31, z52, z180, z184, -⟩ := zero
  have z31 : bit n 31 = false := by
    simpa [bit, Nat.testBit_eq_decide_div_mod_eq] using z31
  have whole : bit n 24 = false → bits n 160 16 = 0 := fun h => by
    rw [bits_eq]
    exact whole (by simpa [bit, Nat.testBit_eq_decide_div_mod_eq] using h)
  rw [reviveBad, bits_eq, z25, z31, bits_eq, z52, bits_eq n 180, z180, bits_eq n 184, z184]
  cases hb : bit n 24 with
  | true => rfl
  | false => rw [whole hb]; rfl
theorem execPrevive_asks (h : CClear s (.previve hd d a k) hd [.s a.toNat] [] [k] (some (s.me.tokRef k.toNat)) 1 1 false)
    (aligned : (s.me.sReg a.toNat).toNat % 64 = 0) (mine : s.mayAccess (s.me.sReg a.toNat).toNat)
    (own : (s.me.sReg a.toNat).toNat < lsBytes) (free : s.lineHeld (s.me.sReg a.toNat).toNat 64 = false)
    (good : reviveBad (s.here.ls.readN (s.me.sReg a.toNat).toNat 64) = false) :
    execPrevive hd d a k s = .next (((s.readied [.s a.toNat] 1).longStart (.s d.toNat) (s.me.tokRef k.toNat)).askPorch 3 d.toNat
      (s.me.sReg a.toNat).toNat [s.here.ls.readN (s.me.sReg a.toNat).toNat 64] (some (s.me.tokRef k.toNat))) := by
  unfold execPrevive
  refine issueC_eq h ?_ free rfl ?_
  · simp only [misaligned_nil aligned, ownOnly_nil own, belowOwn_nil mine, good, condIf_false, List.append_nil]
  · rw [State.readied_tokRef]
end

/-- Settles O37: a word that its checks let pass is sent as its request. -/
theorem peatWordResults : Obligations.PeatWordResults := by
  intro s hd d a k x src t l asks blk
  refine ⟨execPmount_asks, execPunmount_asks, fun h low reserved known => ?_, fun h aligned above below free zero whole => ?_⟩
  · exact execPinfo_asks h low ((bits_eq x 24 8).trans reserved) ((bits_eq x 16 8).symm ▸ known)
  · exact execPrevive_asks h aligned (.inl ⟨above, below⟩) below free (reviveBad_false zero whole)

end Sys2Proof.Machine
end
section
/-! ## Events of the scheduler
The decision of a tick, the load and the start of a group, its end and its release (R309, R313, R317, R318); O44. -/
namespace Sys2Proof.Machine

/-! ### The tick -/

/-- The queues take in what they may take before a tick decides (R308). -/
def State.takenIn (s : State) : State := (s.queues.map (fun p => p.1)).foldl (fun s q => s.intake q 4096) s
/-- What a tick finds: the groups it passes over and its decision. -/
def State.found (s : State) : List (Nat × Group × (Nat × Nat)) × Decision :=
  s.scan (s.holders.flatMap s.groupClusters) [] s.readyGroups
theorem execSchedulerTick_decides {s : State} (h : s.takenIn.agenda.any Event.reports = false) :
    execSchedulerTick s = .next s.takenIn.decide_ := if_neg (Bool.not_eq_true _ ▸ h)
section
variable {s : State} (room : s.porch.slogSync = true → 66 ≤ s.slogFree) (on : s.porch.dispatchOff = false)
  (started : s.porch.started = true)
include room on started

theorem State.decide_dispatches {q : Nat} {g : Group} {o : Nat × Nat} (h : s.found.2 = .dispatch q g o) :
    s.decide_ = (s.dispatch q g o).logTick s.found.1 s.found.2 := by
  unfold State.found at h ⊢
  unfold State.decide_
  rw [if_neg (by simpa using room), if_neg (by simp [on, started])]
  simp only [h]
theorem State.decide_waits (h : ∀ q g o, s.found.2 ≠ .dispatch q g o) : s.decide_ = s.logTick s.found.1 s.found.2 := by
  unfold State.found at h ⊢
  unfold State.decide_
  rw [if_neg (by simpa using room), if_neg (by simp [on, started])]
  extract_lets busy r
  split
  next q g o e => exact absurd e (h q g o)
  next => rfl
end

/-! ### Loading and starting -/

section
variable {s : State} {q t core : Nat} {g : Group} (h : s.taskGroup q t = some g)
include h

theorem execCoreLoadAck_loads {parts : List (Nat × List Byte)} (loading : g.st = .loading) (mine : core ∈ g.loads)
    (first : g.revive = none) (good : (s.tableReasons g.hid g.desc).filter (fun r => r != 1) = [])
    (images : s.loadImages g.hid g.desc (s.taskOn g core - g.desc.tbase) = .ok parts)
    (free : (s.loadRanges g.hid g.desc (s.taskOn g core - g.desc.tbase)).any (fun r => s.endBusy g.hid r.1 r.2) = false) :
    execCoreLoadAck q t core s = .next ((((s.loadRanges g.hid g.desc (s.taskOn g core - g.desc.tbase)).foldl
      (fun s r => s.touchVa g.hid r.1 r.2) s).loadCore q g core parts).acknowledged q g core) := by
  simp [execCoreLoadAck, h, loading, mine, first, good, images, free]
theorem execCoreLoadAck_revives (loading : g.st = .loading) (mine : core ∈ g.loads) (revived : g.revive.isSome = true) :
    execCoreLoadAck q t core s = .next ((s.acknowledged q g core).reviveLoad q t) := by
  simp [execCoreLoadAck, h, loading, mine, revived]
/-- The first context of a core when its group starts. -/
def Ctx.begin (at_ : Nat) (x : Ctx) : Ctx := { x with live := true, readyAt := at_ + 1, born := at_ }
theorem execGroupStart_starts (running : g.st = .running) (due : g.start = s.gts) :
    execGroupStart q t s = .next ((s.groupCores g).foldl (fun u c => u.onCtx c 0 (Ctx.begin s.gts)) s) := by
  simp [execGroupStart, h, running, due, State.isAt]
  rfl
end
theorem State.ctxOf_onCtx_ne (s : State) {c n : Nat} (f : Ctx → Ctx) (h : n ≠ c) : (s.onCtx c 0 f).ctxOf n 0 = s.ctxOf n 0 := by
  unfold State.onCtx State.setCtx State.ctxOf
  rw [State.coreOf_setCore_ne _ _ h]
/-- What the update leaves of a context that it has set, it leaves through the whole fold. -/
theorem State.foldl_begin {at_ : Nat} {P : Ctx → Prop} (hP : ∀ x : Ctx, P (Ctx.begin at_ x)) (cores : List Nat) (s : State) {c : Nat}
    (h : c ∈ cores ∨ P (s.ctxOf c 0)) : P ((cores.foldl (fun u c => u.onCtx c 0 (Ctx.begin at_)) s).ctxOf c 0) := by
  induction cores generalizing s with
  | nil => exact h.resolve_left (List.not_mem_nil)
  | cons d cores ih =>
    refine ih _ ?_
    by_cases hd : c = d
    · subst hd
      exact .inr (by rw [State.ctxOf_onCtx _ _ (by decide)]; exact hP _)
    · rw [State.ctxOf_onCtx_ne _ _ hd]
      exact h.imp_left (fun m => (List.mem_cons.1 m).resolve_left hd)

/-! ### The end -/

theorem State.gts_undeclare (s : State) (cl hid : Nat) : (s.undeclare cl hid).gts = s.gts := by
  unfold State.undeclare
  dsimp only
  split
  · rfl
  · rfl
theorem State.gts_foldl_undeclare (hid : Nat) (cls : List Nat) (s : State) :
    (cls.foldl (fun s cl => s.undeclare cl hid) s).gts = s.gts := by
  induction cls generalizing s with
  | nil => rfl
  | cons cl cls ih => exact (ih _).trans (s.gts_undeclare cl hid)
theorem execGroupFree_frees {s : State} {q t : Nat} {g : Group} (h : s.taskGroup q t = some g) (draining : g.st = .draining)
    (settled : s.agenda.any (fun e => !e.settles) = false) :
    let u := (s.groupClusters g).foldl (fun s cl => s.undeclare cl g.hid) s
    execGroupFree q t s = .next (if u.drained_ q g then u.releaseGroup q g else u.stepAt (s.gts + 1) (.groupFree q t)) := by
  simp [execGroupFree, h, draining, settled, State.gts_foldl_undeclare]
theorem execTaskEndReport_counts {s : State} {core : Nat} {g : Group}
    (h : s.taskGroup (s.coreOf core).queue (s.coreOf core).ticket = some g) (running : g.st = .running) (mine : core ∈ g.runs) :
    let x := s.coreOf core
    let left : Group := { g with runs := g.runs.filter (fun c => c != core), freed := g.freed + x.freed }
    let u := s.onTaskGroup x.queue x.ticket (fun _ => left)
    execTaskEndReport core s = .next (if left.runs.isEmpty then u.drainGroup x.queue left else u) := by
  simp [execTaskEndReport, h, running, mine]

/-- Settles O44: the two decisions of a tick, the two loads, the start as a fold over the group's cores, and the end. -/
theorem schedulerEvents : Obligations.SchedulerEvents := by
  unfold Obligations.SchedulerEvents
  intro s q t core g
  refine ⟨fun quiet room on started => ?_, fun h => ⟨?_, ?_, ?_, ?_⟩, execTaskEndReport_counts⟩
  · have tick : exec .schedulerTick s = .next s.takenIn.decide_ := execSchedulerTick_decides quiet
    refine ⟨fun q g o e => ?_, fun e => ?_⟩
    · exact tick.trans (congrArg Host.Outcome.next (State.decide_dispatches (s := s.takenIn) room on started e))
    · exact tick.trans (congrArg Host.Outcome.next (State.decide_waits (s := s.takenIn) room on started e))
  · exact fun _ loading mine first good images free => execCoreLoadAck_loads h loading mine first good images free
  · exact fun loading mine revived => execCoreLoadAck_revives h loading mine revived
  · refine fun running due => ⟨_, execGroupStart_starts h running due, fun c mem => ?_⟩
    exact State.foldl_begin (P := fun x => x.live = true ∧ x.readyAt = s.gts + 1 ∧ x.born = s.gts)
      (fun _ => ⟨rfl, rfl, rfl⟩) _ _ (.inl mem)
  · exact fun draining settled => execGroupFree_frees h draining settled

end Sys2Proof.Machine
end
section
/-! ## Faults and alarms
Failed granules, the patrol scrub, links, temperature, alarms and signed blocks (R415 to R437, R446 to R451); O47. -/
namespace Sys2Proof.Machine

/-! ### What an event and a kill leave unchanged -/

theorem State.armKill_eq (s : State) (hid at_ reason : Nat) : s.armKill hid at_ reason =
    { s with households := (s.armKill hid at_ reason).households, queues := (s.armKill hid at_ reason).queues,
             due := (s.armKill hid at_ reason).due } := by
  unfold State.armKill
  dsimp only
  split
  · rfl
  · split
    · split <;> rfl
    · rfl
theorem State.dieAt_armKill (s : State) (hid at_ reason d : Nat) : (s.armKill hid at_ reason).dieAt d = s.dieAt d := by
  rw [State.armKill_eq]
  rfl
theorem State.porch_armKill (s : State) (hid at_ reason : Nat) : (s.armKill hid at_ reason).porch = s.porch := by
  rw [State.armKill_eq]
theorem State.gts_armKill (s : State) (hid at_ reason : Nat) : (s.armKill hid at_ reason).gts = s.gts := by
  rw [State.armKill_eq]
theorem State.failed_armKill (s : State) (hid at_ reason : Nat) : (s.armKill hid at_ reason).failed = s.failed := by
  rw [State.armKill_eq]
/-- The die of an overheated module keeps its sensor while its households are killed. -/
theorem State.foldl_killNow (hids : List Nat) (s : State) (d : Nat) :
    (hids.foldl State.killNow s).dieAt d = s.dieAt d ∧ (hids.foldl State.killNow s).porch = s.porch := by
  induction hids generalizing s with
  | nil => exact ⟨rfl, rfl⟩
  | cons hid hids ih =>
    obtain ⟨die, porch⟩ := ih (s.killNow hid)
    exact ⟨die.trans (s.dieAt_armKill _ _ _ _), porch.trans (s.porch_armKill _ _ _)⟩
theorem State.foldl_armKill (hs : List (Nat × Household)) (reason : Nat) (s : State) :
    (hs.foldl (fun s h => s.armKill h.1 (s.gts + 4096) reason) s).porch = s.porch ∧
      (hs.foldl (fun s h => s.armKill h.1 (s.gts + 4096) reason) s).gts = s.gts := by
  induction hs generalizing s with
  | nil => exact ⟨rfl, rfl⟩
  | cons h hs ih =>
    obtain ⟨porch, gts⟩ := ih (s.armKill h.1 (s.gts + 4096) reason)
    exact ⟨porch.trans (s.porch_armKill _ _ _), gts.trans (s.gts_armKill _ _ _)⟩
theorem State.dieAt_moduleEvent (s : State) (kind unit detail addr hid d : Nat) :
    (s.moduleEvent kind unit detail addr hid).dieAt d = s.dieAt d := by
  dsimp only [State.moduleEvent]
  split
  · rfl
  · rfl
theorem State.thr_moduleEvent (s : State) (kind unit detail addr hid : Nat) :
    (s.moduleEvent kind unit detail addr hid).porch.thr = s.porch.thr := by
  dsimp only [State.moduleEvent]
  split
  · rfl
  · rfl
theorem State.poison_moduleEvent (s : State) (kind unit detail addr hid : Nat) :
    (s.moduleEvent kind unit detail addr hid).poison = s.poison := by
  dsimp only [State.moduleEvent]
  split
  · rfl
  · rfl
theorem State.dieAt_stopReader (s : State) (kind holder d : Nat) : (s.stopReader kind holder).dieAt d = s.dieAt d := by
  dsimp only [State.stopReader]
  split
  · rfl
  · split
    · rfl
    · rfl

/-! ### Failed granules and the patrol scrub -/

theorem execSramUe_corrects {s : State} {kind holder addr : Nat} (hk : kind ≤ 5)
    (single : s.sramErrors.contains (kind, holder, addr) = true) :
    execSramUe kind holder addr s =
      .next (s.correctGranule (if kind = 2 ∨ kind = 3 then holder / 80 else dieOf holder) (kind, holder, addr)) := by
  unfold execSramUe
  rw [if_neg (Nat.not_lt.2 hk), if_pos single]
theorem execSramUe_fails {s : State} {kind holder addr : Nat} (hk : kind ≤ 5)
    (more : s.sramErrors.contains (kind, holder, addr) = false) :
    let unit := if kind = 2 ∨ kind = 3 then holder / 80 else dieOf holder
    ∃ t, execSramUe kind holder addr s = .next t ∧ (t.dieAt unit).sue = min 255 ((s.dieAt unit).sue + 1) ∧
      (∀ g, s.granuleHid kind holder = some g → (kind, holder, addr, g) ∈ t.failed) := by
  intro unit
  have more' : ¬s.sramErrors.contains (kind, holder, addr) = true := Bool.not_eq_true _ ▸ more
  unfold execSramUe
  rw [if_neg (Nat.not_lt.2 hk), if_neg more']
  extract_lets counted
  have same : ∀ g, counted.granuleHid kind holder = g ↔ s.granuleHid kind holder = g := fun _ => Iff.rfl
  have sue : (counted.dieAt unit).sue = min 255 ((s.dieAt unit).sue + 1) := congrArg Die.sue (s.dieAt_onDie _ _)
  split
  next unowned =>
    refine ⟨_, rfl, ?_, fun g hg => ?_⟩
    · rw [State.dieAt_moduleEvent, sue]
    · exact absurd (((same _).1 unowned).symm.trans hg) nofun
  next hid owned =>
    refine ⟨_, rfl, ?_, fun g hg => ?_⟩
    · unfold State.killNow
      rw [State.dieAt_armKill]
      exact congrArg Die.sue ((State.dieAt_stopReader _ _ _ _).trans (State.dieAt_moduleEvent _ _ _ _ _ _ _)) |>.trans sue
    · obtain rfl := Option.some.inj (((same _).1 owned).symm.trans hg)
      unfold State.killNow
      rw [State.failed_armKill]
      exact List.mem_append_right _ (List.mem_singleton.2 rfl)

theorem State.poison_countUe (s : State) (pa : Nat) : (s.countUe pa).poison = s.poison := by
  unfold State.countUe
  split
  · rfl
  · split
    · rfl
    · rfl

section
variable {s : State} {pa : Nat} (hbm : isHbm pa = true) (clean : s.poison.contains (pa / 32) = false)
include hbm clean

theorem State.checkAtom_whole (h : tget (s.onDie_ pa).errors 0 (pa / 32) = 0) : s.checkAtom pa = (s.onDie_ pa, true) := by
  unfold State.checkAtom
  dsimp only
  rw [if_neg (Bool.not_eq_true _ ▸ clean), if_pos hbm]
  simp only [h]
theorem State.checkAtom_single (h : tget (s.onDie_ pa).errors 0 (pa / 32) = 1) :
    s.checkAtom pa = (({ s.onDie_ pa with errors := tdel (s.onDie_ pa).errors (pa / 32) } : State).countCe pa, true) := by
  unfold State.checkAtom
  dsimp only
  rw [if_neg (Bool.not_eq_true _ ▸ clean), if_pos hbm]
  simp only [h]
theorem State.checkAtom_more (h : 2 ≤ tget (s.onDie_ pa).errors 0 (pa / 32)) :
    (s.checkAtom pa).2 = false ∧ pa / 32 ∈ (s.checkAtom pa).1.poison := by
  unfold State.checkAtom
  dsimp only
  rw [if_neg (Bool.not_eq_true _ ▸ clean), if_pos hbm]
  split
  next e => omega
  next e => omega
  next =>
    refine ⟨rfl, ?_⟩
    dsimp only
    rw [State.poison_countUe]
    exact List.mem_cons_self

variable (annex : isAnnex pa = false) (cellar : isCellar pa = false) (mapped : deviceMapped pa = true)
  (free : (s.stack (stackOf pa)).takeover = none) (last : s.burstsLeft = false)
include annex cellar mapped free last

omit hbm in
theorem execPatrolScrub_checks : execPatrolScrub pa s =
    .next (if (s.checkAtom pa).2 then (s.checkAtom pa).1
      else (s.checkAtom pa).1.moduleEvent 0x0B (unitOfPa pa) 0 (pa / 32 * 32) 0) := by
  unfold execPatrolScrub
  rw [if_neg (by simp [mapped]), if_neg (by simp [annex, cellar, free]), if_neg (by simp [last]), if_neg (by simp [cellar]), clean]
  dsimp only
  rw [Bool.or_false]
/-- The burst is as its stack's on-die correction leaves it (R430); a single wrong bit is corrected and counted. -/
theorem execPatrolScrub_finds :
    let u := s.onDie_ pa
    (tget u.errors 0 (pa / 32) = 0 → execPatrolScrub pa s = .next u) ∧
      (tget u.errors 0 (pa / 32) = 1 →
        execPatrolScrub pa s = .next (({ u with errors := tdel u.errors (pa / 32) }).countCe pa)) ∧
      (2 ≤ tget u.errors 0 (pa / 32) → ∃ t, execPatrolScrub pa s = .next t ∧ pa / 32 ∈ t.poison) := by
  intro u
  rw [execPatrolScrub_checks clean annex cellar mapped free last]
  refine ⟨fun whole => ?_, fun single => ?_, fun more => ?_⟩
  · rw [State.checkAtom_whole hbm clean whole]
    rfl
  · rw [State.checkAtom_single hbm clean single]
    rfl
  · obtain ⟨bad, mem⟩ := State.checkAtom_more hbm clean more
    rw [if_neg (Bool.not_eq_true _ ▸ bad)]
    exact ⟨_, rfl, (State.poison_moduleEvent _ _ _ _ _ _).symm ▸ mem⟩
end

/-! ### Links -/

theorem State.link_onLink (s : State) (n : Nat) (f : Link → Link) : (s.onLink n f).link n = f (s.link n) := tget_tput_same _ _ _ _
section
variable {s : State} {link : Nat} {seq : BitVec 12} (hl : link < 31) (up : (s.link link).st = 0)
include hl up

theorem execFlitReceive_expected (h : seq.toNat = (s.link link).expect) :
    ∃ t, execFlitReceive link seq true s = .next t ∧ (t.link link).expect = (seq.toNat + 1) % 4096 ∧
      seq.toNat ∉ (t.link link).buf := by
  unfold execFlitReceive
  extract_lets l n buf c
  rw [if_neg (by simp [l, up, Nat.not_le.2 hl]), if_neg (by simp [l, up]), if_neg (by simp), if_neg (by simp [n, l, h])]
  refine ⟨_, rfl, ?_, ?_⟩
  · rw [State.link_onLink]
    rfl
  · rw [State.link_onLink]
    exact fun mem => by simp [n] at mem
theorem execFlitReceive_early (h : seq.toNat ≠ (s.link link).expect) :
    execFlitReceive link seq true s = .next (s.onLink link (fun l =>
      { l with buf := if l.buf.contains seq.toNat || 512 ≤ l.buf.length then l.buf else l.buf ++ [seq.toNat] })) := by
  unfold execFlitReceive
  extract_lets l n buf c
  rw [if_neg (by simp [l, up, Nat.not_le.2 hl]), if_neg (by simp [l, up]), if_neg (by simp), if_pos (by simp [n, l, h])]
  rfl
theorem execFlitReceive_bad :
    ∃ t g, execFlitReceive link seq false s = .next t ∧ (t.link link).expect = (s.link link).expect ∧
      (⟨g, .step (.nakReplay link (BitVec.ofNat 12 (s.link link).expect))⟩ : Due) ∈ t.due := by
  unfold execFlitReceive
  extract_lets l n buf c
  rw [if_neg (by simp [l, up, Nat.not_le.2 hl]), if_neg (by simp [l, up]), if_pos (by simp)]
  refine ⟨_, s.gts + 1 + Config.latency s.ctr, rfl, ?_, ?_⟩
  · exact (congrArg Link.expect (s.link_onLink link (fun l => { l with buf := buf })) :)
  · exact List.mem_append_right _ (List.mem_singleton.2 rfl)
theorem execNakReplay_first (h : (s.link link).nakSeq ≠ seq.toNat) :
    execNakReplay link seq s = .next (s.onLink link (fun l =>
      { l with replay := min 65535 (l.replay + (l.from_ seq.toNat).length), naks := 1, nakSeq := seq.toNat })) := by
  unfold execNakReplay
  extract_lets l n naks u
  have one : naks = 1 := if_neg (by simp [n, l, h])
  rw [if_neg (by simp [l, up, Nat.not_le.2 hl]), if_neg (by omega)]
  simp only [u, one, n]
end
theorem execRetrainEnd_up {s : State} {link : Nat} (whole : (s.link link).xtrain = []) (down : (s.link link).st = 1) :
    execRetrainEnd link true s = .next ((s.onLink link (fun l =>
      { l with st := 0, retraining := false, fails := 0, replay := min 65535 (l.replay + l.buf.length) })).moduleEvent 3 link
        ((s.link link).fails + 1) 0 0) := by
  unfold execRetrainEnd
  dsimp only
  rw [whole]
  exact if_neg (by simp [down])
theorem execRetrainEnd_crossing {s : State} {link fails : Nat} {p : Nat × Nat} {rest : List ((Nat × Nat) × Nat)}
    (h : (s.link link).xtrain = (p, fails) :: rest) :
    let u := s.onLink link (fun l => { l with xtrain := rest, st := s.causewaySt link rest })
    execRetrainEnd link true s = .next ((u.onLink link (fun l =>
      { l with replay := min 65535 (l.replay + l.buf.length) })).moduleEvent 3 link (fails + 1) 0 0) := by
  unfold execRetrainEnd
  dsimp only
  rw [h]
  rfl

/-! ### Sensors and alarms -/

/-- The throttle field of a die at rank 3. -/
theorem rank_hot (thr k : Nat) : (thr % 2 ^ k + 3 % 4 * 2 ^ k + thr / 2 ^ (k + 2) * 2 ^ (k + 2)) / 2 ^ k % 4 = 3 := by
  have low : thr % 2 ^ k / 2 ^ k = 0 := Nat.div_eq_of_lt (Nat.mod_lt _ (by positivity))
  have split : thr % 2 ^ k + 3 % 4 * 2 ^ k + thr / 2 ^ (k + 2) * 2 ^ (k + 2) = thr % 2 ^ k + (3 + thr / 2 ^ (k + 2) * 4) * 2 ^ k := by
    ring
  rw [split, Nat.add_mul_div_right _ _ (by positivity), low]
  omega
section
variable {s : State} {die temp : Nat} (hd : die < 4) (settled : s.tickPending = false)
include hd settled

theorem execSensorRead_cools (h : temp < 950) : ∃ t, execSensorRead die temp s = .next t ∧ (t.dieAt die).overheat = false := by
  unfold execSensorRead
  extract_lets rank hot
  rw [if_neg (Nat.not_le.2 hd), if_neg (Bool.not_eq_true _ ▸ settled), if_neg (by omega), if_neg (by simp; omega)]
  exact ⟨_, rfl, congrArg Die.overheat (s.dieAt_onDie die (fun d => { d with overheat := false }))⟩
theorem execSensorRead_overheats (h : 1050 ≤ temp) (cool : (s.dieAt die).overheat = false) :
    ∃ t, execSensorRead die temp s = .next t ∧ (t.dieAt die).overheat = true ∧ t.porch.thr / 2 ^ (2 * die) % 4 = 3 := by
  unfold execSensorRead
  extract_lets rank hot u
  rw [if_neg (Nat.not_le.2 hd), if_neg (Bool.not_eq_true _ ▸ settled), if_pos h, if_neg (Bool.not_eq_true _ ▸ cool)]
  obtain ⟨die', porch⟩ := State.foldl_killNow (u.onDieHids die) u die
  refine ⟨_, rfl, ?_, ?_⟩
  · rw [die', State.dieAt_moduleEvent, State.dieAt_onDie]
  · rw [porch, State.thr_moduleEvent]
    exact rank_hot _ _
end

theorem execSecurityAlarm_raises {s : State} {cls : Nat} (h : cls < 5) :
    ∃ t, execSecurityAlarm cls s = .next t ∧ t.porch.almstat = s.porch.almstat ||| 2 ^ cls ∧ t.porch.aer = s.porch.aer + 1 ∧
      (⟨s.gts + 4096, .step (.alarmAction cls)⟩ : Due) ∈ t.due := by
  unfold execSecurityAlarm
  extract_lets p raised killed
  rw [if_neg (Nat.not_le.2 h)]
  obtain ⟨porch, gts⟩ := State.foldl_armKill (raised.households.filter (fun h => h.2.killedBy p)) 258 raised
  refine ⟨_, rfl, congrArg Porch.almstat porch, congrArg Porch.aer porch, ?_⟩
  rw [show s.gts = killed.gts from gts.symm]
  exact State.due_stepAt _ _ _
/-- The households that an alarm kills in its own cycle. -/
def State.struck (s : State) (cls : Nat) : State :=
  (s.households.filter (fun h => h.2.killedBy (s.policy cls) && !(s.queue h.2.queue).killStop.now s)).foldl
    (fun s h => (s.armKill h.1 s.gts 258).next (.killStop h.1)) s
theorem execAlarmAction_wipes {s : State} {cls : Nat} (h : s.policy cls = 3) :
    let keyless := (s.struck cls).wipe (fun _ => true)
    execAlarmAction cls s = .next { keyless with
      peats := keyless.peats.map (fun (p : Nat × Peat) => (p.1, { p.2 with pk := none })),
      porch := { keyless.porch with dispatchOff := true } } := by
  unfold execAlarmAction State.struck
  rw [h]
  rfl
theorem execAlarmAction_kills {s : State} {cls : Nat} (h : s.policy cls ≤ 1) : execAlarmAction cls s = .next (s.struck cls) := by
  unfold execAlarmAction State.struck
  obtain h | h := Nat.le_one_iff_eq_zero_or_eq_one.1 h
  · rw [h]
    rfl
  · rw [h]
    rfl

/-! ### Signed blocks -/

section
variable {s : State} {q idx hid : Nat} {e bs : List Byte} (owned : (s.queue q).hid = some hid) (holder : s.porch.leaseHolder ≠ 7)
  (lease : s.gts + 16384 < s.porch.leaseExpiry) (alive : (s.household hid).alive = true) (awake : (s.household hid).asleep = false)
  (running : (s.queue q).swState = 0) (listed : idx < (s.queue q).sigbCount)
  (free : s.vaBusy hid (4096 * (s.queue q).sigbBase + 32 * idx) = false)
include owned holder lease alive awake running listed free

/-- The leader reads the entry and then its block; it reports a block whose CRC is not the entry's. -/
theorem execSignatureCheck_checks :
    let u := (s.checkBytes hid (4096 * (s.queue q).sigbBase + 32 * idx) 32).1
    u.getBytes hid (4096 * (s.queue q).sigbBase + 32 * idx) 32 = .ok e →
    let w := (u.checkBytes hid (natOfBytes e % 2 ^ 64) (natOfBytes e / 2 ^ 64 % 2 ^ 32)).1
    w.getBytes hid (natOfBytes e % 2 ^ 64) (natOfBytes e / 2 ^ 64 % 2 ^ 32) = .ok bs →
    execSignatureCheck q idx s = .next (if (crc64 bs).toNat = natOfBytes e / 2 ^ 128 % 2 ^ 64 then w else w.record q 2
      (packRecord [(1, 4), (1, 3), (2, 0), (4, 0), (8, natOfBytes e % 2 ^ 64), (8, w.gts), (8, idx)]) none) := by
  intro u entry w block
  have acts : s.leaderActs = true := by simp [State.leaderActs, holder, lease]
  unfold execSignatureCheck
  dsimp only
  simp only [owned]
  rw [if_neg (by simp [acts, alive, awake, running, listed]), if_neg (by simp [free])]
  simp only [bits_eq, pow_zero, Nat.div_one, show (s.checkBytes hid (4096 * (s.queue q).sigbBase + 32 * idx) 32).1 = u from rfl, entry,
    show (u.checkBytes hid (natOfBytes e % 2 ^ 64) (natOfBytes e / 2 ^ 64 % 2 ^ 32)).1 = w from rfl, block]
  split
  · rfl
  · rfl
end

/-- Settles O47: one lemma for each event. -/
theorem faultAndAlarmEvents : Obligations.FaultAndAlarmEvents := by
  intro s kind holder addr pa link die temp cls q idx seq l n unit
  refine ⟨execSramUe_corrects, execSramUe_fails, fun unmapped => if_pos (by simp [unmapped]),
    fun hbm annex cellar mapped free clean last => execPatrolScrub_finds hbm clean annex cellar mapped free last,
    fun hl up => ⟨execFlitReceive_expected hl up, execFlitReceive_early hl up, execFlitReceive_bad hl up, execNakReplay_first hl up⟩,
    execRetrainEnd_up, fun p fails rest => execRetrainEnd_crossing,
    fun hd settled => ⟨execSensorRead_overheats hd settled, execSensorRead_cools hd settled⟩, execSecurityAlarm_raises,
    ⟨execAlarmAction_wipes, execAlarmAction_kills⟩, fun hid e bs owned leader lease alive awake running listed free => ?_⟩
  intro u entry w block
  have checked : exec (.signatureCheck q idx) s = _ :=
    execSignatureCheck_checks owned leader lease alive awake running listed free entry block
  refine ⟨fun same => ?_, fun differs => ?_⟩
  · rw [checked, if_pos same]
  · rw [checked, if_neg differs]

end Sys2Proof.Machine
end
section
/-! ## Switches, kills and peats
A switch and a kill from their command to their end, the well, the answers of the Porch (R325 to R346, R390 to R413); O45. -/
namespace Sys2Proof.Machine

/-! ### What a queue keeps -/

theorem State.onQueue_onQueue (s : State) (q : Nat) (f g : QueueSt → QueueSt) :
    (s.onQueue q f).onQueue q g = s.onQueue q (fun x => g (f x)) := by
  have same := congrArg g (s.queue_onQueue q f)
  exact congrArg (fun ts => ({ s with queues := ts } : State)) ((tput_tput _ _ _ _).trans (congrArg (tput s.queues q) same))
theorem State.household_onQueue (s : State) (q : Nat) (f : QueueSt → QueueSt) (h : Nat) :
    (s.onQueue q f).household h = s.household h := rfl
theorem State.queue_onQueue_keeps {α : Type} (g : QueueSt → α) {f : QueueSt → QueueSt} (h : ∀ x, g (f x) = g x) (s : State) (p q : Nat) :
    g ((s.onQueue p f).queue q) = g (s.queue q) := by
  by_cases e : q = p
  · rw [e, State.queue_onQueue, h]
  · exact congrArg g (tget_tput_ne s.queues QueueSt.reset _ e)
theorem State.queue_record_keeps {α : Type} (g : QueueSt → α) (h : ∀ x n r, g (QueueSt.setRing x n r) = g x) (s : State)
    (p ring : Nat) (rec : BitVec 256) (ack : Option Nat) (q : Nat) : g ((s.record p ring rec ack).queue q) = g (s.queue q) := by
  have kept := s.queue_onQueue_keeps (f := fun x => x.setRing ring
    { (s.queue p).ring ring with held := ((s.queue p).ring ring).held ++ [(rec, ack)] }) g (fun x => h x _ _) p q
  dsimp only [State.record]
  split
  · exact kept
  · exact kept
/-- The stage of a kill. -/
def QueueSt.death (x : QueueSt) : Bool × Nat := (x.killed, x.peatState)
theorem QueueSt.death_setRing (x : QueueSt) (n : Nat) (r : Ring) : (x.setRing n r).death = x.death := by
  unfold QueueSt.setRing
  split
  · rfl
  · rfl
  · rfl
theorem State.death_endWaiting (s : State) (p q : Nat) : ((s.endWaiting p).queue q).death = (s.queue q).death := by
  unfold State.endWaiting
  refine foldl_keeps (fun s : State => (s.queue q).death) (fun u g => ?_) _ s
  rw [State.queue_record_keeps _ QueueSt.death_setRing]
  exact (State.queue_onQueue_keeps QueueSt.death (fun _ => by rfl) _ p q).trans
    (State.queue_onQueue_keeps QueueSt.death (fun _ => by rfl) u p q)
theorem State.gts_record (s : State) (p ring : Nat) (rec : BitVec 256) (ack : Option Nat) : (s.record p ring rec ack).gts = s.gts := by
  dsimp only [State.record]
  split
  · rfl
  · rfl
theorem State.gts_endWaiting (s : State) (q : Nat) : (s.endWaiting q).gts = s.gts := by
  unfold State.endWaiting
  exact foldl_keeps State.gts (fun _ _ => by rw [State.gts_record]; rfl) _ s

/-! ### The clock stands while a household is put to sleep -/

theorem State.gts_actOutside (core ctx : Nat) (s : State) (a : Act) : (State.actOutside core ctx s a).gts = s.gts := by
  cases a
  case learn know => exact s.learn_gts core know
  all_goals rfl
theorem State.gts_flushLineage (s : State) (core ctx : Nat) : (s.flushLineage core ctx).gts = s.gts := by
  dsimp only [State.flushLineage]
  split
  · rfl
  · exact foldl_keeps State.gts (State.gts_actOutside core ctx) _ _
theorem State.gts_flushTables (s : State) (hid : Nat) : (s.flushTables hid).gts = s.gts := by
  unfold State.flushTables
  exact foldl_keeps State.gts (fun u p => by rw [State.gts_flushLineage]) _ s
theorem State.gts_keepMol (s : State) (core : Nat) : (s.keepMol core).gts = s.gts := by
  dsimp only [State.keepMol]
  split
  · rfl
  · rfl
theorem State.gts_releaseGroup (s : State) (q : Nat) (g : Group) : (s.releaseGroup q g).gts = s.gts := by
  have cores (l : List Nat) (u : State) : (l.foldl (fun s c => (s.keepMol c).onCore c CoreSt.freed_) u).gts = u.gts :=
    foldl_keeps State.gts (fun u c => by rw [State.onCore_gts, State.gts_keepMol]) l u
  have clusters (l : List Nat) (u : State) :
      (l.foldl (fun s cl => ((s.onCluster cl Cluster.cleared).freshCounters cl).freshRows cl) u).gts = u.gts :=
    foldl_keeps State.gts (fun _ _ => by rfl) l u
  exact (clusters _ _).trans (cores _ _)
theorem State.gts_unload (s : State) (q : Nat) : (s.unload q).gts = s.gts := by
  unfold State.unload
  exact foldl_keeps State.gts (fun u g => by exact u.gts_releaseGroup q g) _ s
theorem State.gts_readStep (s : State) (know : Seen) (loc : Nat → Loc) (byte : Nat → Nat) (a n : Nat) :
    (s.readStep know loc byte a n).2.2.gts = s.gts := by
  unfold State.readStep
  split
  · rfl
  · obtain ⟨c, e⟩ := s.pickFrom_state (s.sightAt know loc byte) a n n []
    dsimp only
    rw [e]
theorem State.gts_readInto (s : State) (know : Seen) (loc : Nat → Loc) (byte : Nat → Nat) (n : Nat) (as : List Nat) (m : Memory) :
    (s.readInto know loc byte n as m).2.2.gts = s.gts :=
  foldl_keeps (fun p : Memory × Seen × State => p.2.2.gts) (fun p a => p.2.2.gts_readStep p.2.1 loc byte a n) as (m, know, s)
theorem State.gts_matrixRead (s : State) (core : Nat) : (s.matrixRead core).gts = s.gts := by
  unfold State.matrixRead
  dsimp only
  split
  · rfl
  · split
    · rfl
    · rw [State.onCore_gts, State.learn_gts, State.gts_readInto, State.gts_readInto]
theorem State.gts_matrixAdvance (s : State) (core g : Nat) : (s.matrixAdvance core g).gts = s.gts := by
  unfold State.matrixAdvance
  rw [State.onCore_gts, State.gts_matrixRead, State.gts_mldAdvance]
theorem State.gts_onMsg (s : State) (id : Nat) (f : Msg → Msg) : (s.onMsg id f).gts = s.gts := by
  unfold State.onMsg
  split
  · rfl
  · rfl
theorem State.gts_catchMsgs (s : State) (hid : Nat) (c : Bool) : (s.catchMsgs hid c).gts = s.gts := rfl
theorem State.gts_unsign (s : State) (q : Nat) : (s.unsign q).gts = s.gts := by
  unfold State.unsign
  dsimp only
  rw [State.onQueue_gts]
  exact foldl_keeps State.gts (fun u id => by rw [State.gts_onMsg]) _ s
theorem State.gts_sleep (s : State) (hid : Nat) : (s.sleep hid).gts = s.gts := by
  have frozen (l : List Nat) (u : State) : (l.foldl (fun s cl => s.onCluster cl Cluster.freeze) u).gts = u.gts :=
    foldl_keeps State.gts (fun _ _ => by rfl) l u
  have stopped (l : List Nat) (n : Nat) (u : State) :
      (l.foldl (fun s c => (s.matrixAdvance c n).onCore c CoreSt.stopAt) u).gts = u.gts :=
    foldl_keeps State.gts (fun u c => by rw [State.onCore_gts, State.gts_matrixAdvance]) l u
  unfold State.sleep
  dsimp only
  rw [State.onHousehold_gts, State.gts_unsign, State.gts_catchMsgs, frozen, stopped, State.gts_unload]
  exact s.gts_flushTables hid

/-! ### A switch -/

section
variable {s : State} {q hid : Nat} (owned : (s.queue q).hid = some hid) (alive : (s.queue q).killed = false)
include owned alive

theorem execSwcmdSave_arms (running : (s.queue q).swState = 0) (unarmed : (s.queue q).swArm = false) :
    execSwcmdSave q 1 s =
      .next ((s.onQueue q (fun x => { x with swArm := true })).armStop q hid (max (s.queue q).swgts (s.gts + 4096))) := by
  unfold execSwcmdSave
  dsimp only
  rw [if_neg (by decide), if_neg (by decide), owned]
  dsimp only
  rw [if_neg (by simp [alive]), if_neg (by simp [running]), if_pos (by simp [running, unarmed]), if_neg (by decide), if_pos running]
  rfl
theorem execSwcmdSave_armsRel (running : (s.queue q).swState = 0) (unarmed : (s.queue q).swArm = false) :
    execSwcmdSave q 5 s = .next (s.onQueue q (fun x => { x with swArm := true, stop := .rel x.swgts })) := by
  unfold execSwcmdSave
  dsimp only
  rw [if_neg (by decide), if_neg (by decide), owned]
  dsimp only
  rw [if_neg (by simp [alive]), if_neg (by simp [running]), if_pos (by simp [running, unarmed]), if_pos (by decide)]
  exact congrArg Host.Outcome.next (s.onQueue_onQueue _ _ _)
end
theorem State.queue_armStop (s : State) (q hid g : Nat) : (s.armStop q hid g).queue q = { s.queue q with stop := .at_ g, swlast := g } := by
  unfold State.armStop
  rw [State.queue_stepAt, State.queue_onQueue]
theorem execSwcmdDisarm_disarms {s : State} {q : Nat} {val : BitVec 64} (armed : (s.queue q).swArm = true) :
    execSwcmdDisarm q val s = .next (s.onQueue q (fun x => { x with swArm := false, stop := .none, swResult := 0 })) := by
  unfold execSwcmdDisarm
  rw [if_pos armed]
  exact congrArg Host.Outcome.next (s.onQueue_onQueue _ _ _)
theorem execSwitchStop_sleeps {s : State} {hid : Nat} (armed : (s.queue (s.household hid).queue).swArm = true)
    (at_ : (s.queue (s.household hid).queue).stop = .at_ s.gts) (running : (s.queue (s.household hid).queue).swState = 0)
    (alive : (s.queue (s.household hid).queue).killed = false) (noKill : (s.queue (s.household hid).queue).killStop = .none) :
    execSwitchStop hid s = .next (((s.sleep hid).onQueue (s.household hid).queue (fun x =>
      { x with swState := 1, swArm := false, stop := .none, frameVa := x.swva })).stepAt ((s.sleep hid).gts + 64) (.sluiceClose hid)) := by
  unfold execSwitchStop
  dsimp only
  rw [if_neg (by simp [armed, at_, running, alive, StopAt.now, State.isAt]), if_neg (by simp [noKill, StopAt.now])]
theorem State.asleep_sleep (s : State) (hid : Nat) : ((s.sleep hid).household hid).asleep = true := by
  unfold State.sleep
  extract_lets
  rw [State.household_onHousehold]
theorem execSluiceClose_catches {s : State} {hid : Nat} (asleep : (s.household hid).asleep = true) :
    let u := s.catchMsgs hid true
    execSluiceClose hid s = .next (if (u.queue (u.household hid).queue).swState = 1 then u.soon (.saveComplete hid) else u) := by
  unfold execSluiceClose
  rw [if_pos asleep]

section
variable {s : State} {hid : Nat} {bytes : List Byte} {r : State × Option (Nat × Nat)}
  (saving : (s.queue (s.household hid).queue).swState = 1) (alive : (s.queue (s.household hid).queue).killed = false)
  (image : frameBytes (if (s.household hid).secured then (s.household hid).hsk else none) hid
    ((s.queue (s.household hid).queue).savecnt + 1) (s.household hid).stopped (s.sectionsOf hid) = bytes)
  (put : s.putBytes hid (s.queue (s.household hid).queue).frameVa bytes = r)
  (free : s.endBusy hid (s.queue (s.household hid).queue).frameVa bytes.length = false)
include saving alive image put free

theorem execSaveComplete_saves (whole : r.2 = none) :
    ∃ t, execSaveComplete hid s = .next t ∧
      (t.household hid).frozen = some { r.1.capture hid with sections := s.sectionsOf hid } ∧
      (t.queue (s.household hid).queue).swState = 2 := by
  unfold execSaveComplete
  dsimp only
  rw [image, put, if_neg (by simp [saving, alive]), if_neg (Bool.not_eq_true _ ▸ free), whole]
  refine ⟨_, rfl, ?_, ?_⟩
  · rw [State.swResult, State.household_onQueue, State.household_onQueue, State.household_onHousehold]
  · rw [State.swResult, State.queue_onQueue, State.queue_onQueue]
/-- A byte that cannot be written ends the save with RESULT 6. -/
theorem execSaveComplete_fails {e : Nat × Nat} (failed : r.2 = some e) :
    execSaveComplete hid s = .next (r.1.onQueue (s.household hid).queue (fun x => { x with swState := 4, swResult := 6 })) := by
  unfold execSaveComplete
  dsimp only
  rw [image, put, if_neg (by simp [saving, alive]), if_neg (Bool.not_eq_true _ ▸ free), failed]
  exact congrArg Host.Outcome.next (r.1.onQueue_onQueue _ _ _)
end

/-! ### A restore -/

theorem execRestoreResume_plans {s : State} {hid : Nat} (restoring : (s.queue (s.household hid).queue).swState = 3)
    (first : (s.household hid).resumeAt = none) (placed : s.allPlaced hid = true) :
    execRestoreResume hid s = .next ((s.onHousehold hid (fun h => { h with resumeAt := some (s.gts + 96) })).stepAt (s.gts + 96)
      (.restoreResume hid)) := by
  unfold execRestoreResume
  dsimp only
  rw [if_neg (by simp [restoring]), first]
  exact if_pos placed
/-- The stage of a switch and its frame. -/
def QueueSt.restoring (x : QueueSt) : Nat × Nat := (x.swState, x.frameVa)
theorem State.restoring_putBack (s : State) (f : Frozen) (q : Nat) : ((s.putBack f).queue q).restoring = (s.queue q).restoring := by
  have cores : (f.cores.foldl (fun s x => s.onCore x.1 x.2.into) s).queue q = s.queue q :=
    foldl_keeps (fun s : State => s.queue q) (fun _ _ => by rfl) _ s
  exact (State.queue_onQueue_keeps QueueSt.restoring (f := fun x => { x with groups := x.groups ++ f.groups })
    (fun _ => rfl) _ _ q).trans (congrArg QueueSt.restoring cores)
theorem State.queue_bringIn (s : State) (d : Due) (q : Nat) : (s.bringIn d).queue q = s.queue q := by
  unfold State.bringIn
  split
  · split
    · split
      · split
        · rfl
        · rfl
      · rfl
    · rfl
  · rfl
theorem State.restoring_load (s : State) (p hid : Nat) (f : Frozen) (q : Nat) :
    ((s.load p hid f).queue q).restoring = (s.queue q).restoring := by
  unfold State.load
  extract_lets det bag g back held busy moving rest slept
  have brought : (moving.foldl State.bringIn slept).queue q = slept.queue q :=
    foldl_keeps (fun s : State => s.queue q) (fun u d => u.queue_bringIn d q) _ slept
  exact (congrArg QueueSt.restoring brought).trans (s.restoring_putBack g q)
theorem State.queue_stubMoved (s : State) (hid : Nat) (m m0 : Move) (p : Nat × (Nat × Nat)) (q : Nat) :
    (s.stubMoved hid m m0 p).queue q = s.queue q := by
  unfold State.stubMoved
  dsimp only
  split
  · rfl
  · rfl
theorem State.households_touchVa (s : State) (hid va n : Nat) : (s.touchVa hid va n).households = s.households := by
  obtain ⟨_, _, _, _, e⟩ := s.touchVa_spec hid va n
  rw [e]
/-- Loading a frame and moving its stubs leave the stage. -/
theorem State.restoring_restored {s : State} {q hid p : Nat} {f : Frozen} {m m0 : Move} {place : Table (Nat × Nat)} {r : Nat × Nat}
    (h : (s.queue q).restoring = r) : (((place.foldl (fun s p => s.stubMoved hid m m0 p) (s.load p hid f)).queue q).restoring) = r := by
  have moved : (place.foldl (fun s p => s.stubMoved hid m m0 p) (s.load p hid f)).queue q = (s.load p hid f).queue q :=
    foldl_keeps (fun s : State => s.queue q) (fun u p => u.queue_stubMoved hid m m0 p q) _ _
  rw [moved, State.restoring_load, h]
theorem State.queue_touchVa (s : State) (hid va n q : Nat) : (s.touchVa hid va n).queue q = s.queue q := by
  obtain ⟨_, _, _, _, e⟩ := s.touchVa_spec hid va n
  rw [e]
  rfl
/-- A frame that its check admits is loaded, and the household is then in the stage of a restore. -/
theorem execSwcmdRestore_loads {s : State} {q hid : Nat} {f : Frozen} {l : List RawSection} {fens : Table Fen}
    (owned : (s.queue q).hid = some hid) (alive : (s.queue q).killed = false) (saved : (s.queue q).swState = 2)
    (frame : (s.household hid).frozen = some f) (good : s.frameCheck hid (s.queue q).swva f = .ok l)
    (free : s.vaBusy hid (s.queue q).swva = false)
    (room : placeFens s.allFens (if (s.household hid).secured then f else l.foldl Frozen.overlay f).fens = some fens) :
    ∃ t, execSwcmdRestore q 2 s = .next t ∧ (t.queue q).swState = 3 ∧ (t.queue q).frameVa = (s.queue q).swva := by
  unfold execSwcmdRestore
  dsimp only
  rw [owned]
  dsimp only
  rw [if_neg (by simp [saved, alive]), if_neg (Bool.not_eq_true _ ▸ free), frame]
  dsimp only
  rw [good]
  dsimp only
  generalize hu : s.touchVa hid (s.queue q).swva _ = u
  have households : u.households = s.households := hu ▸ s.households_touchVa _ _ _
  have queue : u.queue q = s.queue q := hu ▸ s.queue_touchVa _ _ _ _
  have secured : (u.household hid).secured = (s.household hid).secured := by
    unfold State.household
    rw [households]
  have used : u.allFens = s.allFens := by
    unfold State.allFens
    rw [households]
  rw [secured, used, room]
  dsimp only
  rw [if_neg (show ¬bit (2 : BitVec 64).toNat 3 = true by decide)]
  dsimp only
  exact ⟨_, rfl, Prod.mk.inj (State.restoring_restored (by rw [State.queue_onQueue, queue]; rfl))⟩

/-! ### A kill -/

theorem bit_of_lt {v : Nat} (n : Nat) (h : v < 2 ^ n) : bit v n = false := by
  simp [bit, Nat.testBit_lt_two_pow h]
section
variable {s : State} {q hid : Nat} {val : BitVec 64} (owned : (s.queue q).hid = some hid) (running : (s.queue q).peatState = 0)
  (alive : (s.household hid).alive = true)
include owned running alive

theorem execKill_arms (h : val.toNat < 2 ^ 62) : execKill q val s = .next (s.armKill hid (max val.toNat (s.gts + 4096)) 256) := by
  unfold execKill
  dsimp only
  rw [if_neg (by simp [bit_of_lt 62 h]), owned]
  dsimp only
  rw [if_neg (by simp [running, alive]), if_neg (by simp [bit_of_lt 63 (h.trans (by decide))])]
theorem execKill_armsRel (h : val.toNat / 2 ^ 62 = 2) : execKill q val s =
    .next (s.onQueue q (fun x => { x with killRel := some (val.toNat % 2 ^ 62, none), peatState := 1 })) := by
  have rel : bit val.toNat 63 = true := by
    rw [bit, Nat.testBit_eq_decide_div_mod_eq, decide_eq_true_iff]
    omega
  have plain : bit val.toNat 62 = false := by
    rw [bit, Nat.testBit_eq_decide_div_mod_eq, decide_eq_false_iff_not]
    omega
  unfold execKill
  dsimp only
  rw [if_neg (by simp [plain]), owned]
  dsimp only
  rw [if_neg (by simp [running, alive]), if_pos rel]
end
/-- How far a kill and a switch of a queue have come. -/
def QueueSt.standing (x : QueueSt) : Bool × StopAt × Nat := (x.killed, x.killStop, x.swState)
/-- What of a state the erasure of a region leaves. -/
def State.unscrambled (s : State) : Nat × Table QueueSt × Table Household := (s.gts, s.queues, s.households)
theorem State.unscrambled_scramble (s : State) (hid : Nat) : (s.scramble hid).unscrambled = s.unscrambled := by
  unfold State.scramble
  refine foldl_keeps State.unscrambled (fun u c => ?_) _ s
  dsimp only [State.touchPlace]
  split
  · rfl
  · rfl
/-- A household whose keys and region are erased. -/
def Household.keyless (h : Household) : Household := { h with hsk := none, pk := none, region := none, eraseAt := none }
theorem State.eraseKeys_keeps (s : State) (hid : Nat) :
    (s.eraseKeys hid).gts = s.gts ∧ (∀ q, ((s.eraseKeys hid).queue q).standing = (s.queue q).standing) ∧
      ((s.eraseKeys hid).household hid).queue = (s.household hid).queue ∧
      ((s.eraseKeys hid).household hid).alive = (s.household hid).alive := by
  unfold State.eraseKeys
  dsimp only
  generalize hu : (if (s.household hid).region.isSome = true then s.scramble hid else s) = u
  have same : u.unscrambled = s.unscrambled := by
    rw [← hu]
    split
    · exact s.unscrambled_scramble hid
    · rfl
  obtain ⟨gts, rest⟩ := Prod.mk.inj same
  obtain ⟨queues, households⟩ := Prod.mk.inj rest
  have household : u.household hid = s.household hid := congrArg (fun t => tget t Household.reset hid) households
  have queue (q : Nat) : u.queue q = s.queue q := congrArg (fun t => tget t QueueSt.reset q) queues
  refine ⟨gts, fun q => ?_, ?_, ?_⟩
  · exact (State.queue_onQueue_keeps QueueSt.standing (f := fun x => { x with savecnt := 0 }) (fun _ => rfl) _ _ q).trans
      (congrArg QueueSt.standing (queue q))
  · exact (congrArg Household.queue (State.household_onHousehold u hid Household.keyless)).trans (congrArg Household.queue household :)
  · exact (congrArg Household.alive (State.household_onHousehold u hid Household.keyless)).trans (congrArg Household.alive household :)
theorem State.eraseDue_keeps (s : State) (hid : Nat) :
    (s.eraseDue hid).gts = s.gts ∧ (∀ q, ((s.eraseDue hid).queue q).standing = (s.queue q).standing) ∧
      ((s.eraseDue hid).household hid).queue = (s.household hid).queue ∧
      ((s.eraseDue hid).household hid).alive = (s.household hid).alive := by
  unfold State.eraseDue
  split
  · split
    · exact s.eraseKeys_keeps hid
    · exact ⟨rfl, fun _ => rfl, rfl, rfl⟩
  · exact ⟨rfl, fun _ => rfl, rfl, rfl⟩
/-- The kill takes effect at its GTS; the sluice and the well follow (R391, R393). -/
theorem execKillStop_kills {s : State} {hid : Nat} (first : (s.queue (s.household hid).queue).killed = false)
    (at_ : (s.queue (s.household hid).queue).killStop = .at_ s.gts) (alive : (s.household hid).alive = true)
    (settled : (s.queue (s.household hid).queue).swState ≠ 3) :
    ∃ t, execKillStop hid s = .next t ∧ (t.queue (s.household hid).queue).killed = true ∧
      (t.queue (s.household hid).queue).peatState = 2 ∧ (⟨s.gts + 128, .step (.peatAllocate hid)⟩ : Due) ∈ t.due := by
  obtain ⟨gts, standing, queue, living⟩ := s.eraseDue_keeps hid
  unfold execKillStop
  extract_lets u q x asleep equal killed
  have hq : q = (s.household hid).queue := queue
  obtain ⟨hkilled, rest⟩ := Prod.mk.inj (hq ▸ standing q : x.standing = (s.queue (s.household hid).queue).standing)
  obtain ⟨hstop, hsw⟩ := Prod.mk.inj rest
  have hsettled : ¬x.swState = 3 := hsw ▸ settled
  rw [if_neg (by simp [hkilled, first, hstop, at_, StopAt.now, State.isAt, gts, living, alive, u]), if_neg hsettled]
  have death : (killed.queue q).death = (true, 2) := by
    rw [State.queue_onQueue]
    rfl
  have hgts : killed.gts = s.gts := by
    have awake : asleep.gts = u.gts := by
      unfold asleep
      split
      · exact u.gts_sleep hid
      · rfl
    rw [State.onQueue_gts, awake, gts]
  clear_value killed
  obtain ⟨hdead, hstage⟩ := Prod.mk.inj ((killed.death_endWaiting q q).trans death)
  refine ⟨_, rfl, hq ▸ hdead, hq ▸ hstage, ?_⟩
  rw [← hgts, ← killed.gts_endWaiting q]
  exact State.due_stepAt _ _ _

/-! ### The well -/

theorem State.noPeat_eq (s : State) (hid result : Nat) : s.noPeat hid result =
    (s.onQueue (s.household hid).queue (fun x => { x with peatState := 4, peatResult := result })).next (.peatFormed hid) := rfl
/-- A peat takes the next number of the well, or there is no room for it (RESULT 5). -/
theorem State.putPeat_allocates (s : State) (hid flags : Nat) (f : Option Frozen) (tasks : List PeatTask) (labels : List LabelEntry)
    (secs : List Section) :
    let x := (s.putPeat hid flags f tasks labels secs).queue (s.household hid).queue
    x.peat = s.porch.pwNext ∨ x.peatState = 4 ∧ x.peatResult = 5 := by
  intro x
  unfold x State.putPeat
  extract_lets h q y n place whole out first
  split
  · refine .inr ?_
    rw [State.noPeat_eq, State.queue_next, State.queue_onQueue]
    exact ⟨rfl, rfl⟩
  · refine .inl ?_
    extract_lets
    rw [State.queue_soon, State.queue_onQueue]
section
variable {s : State} {hid : Nat} (stage : (s.queue (s.household hid).queue).peatState = 2)
  (killed : (s.queue (s.household hid).queue).killed = true) (unplaced : (s.queue (s.household hid).queue).peat = 0)
  (turn : ∀ j, Event.peatAllocate j ∈ s.agenda → hid ≤ j)
include stage killed unplaced turn

theorem execPeatAllocate_turn : ∃ f tasks labels secs flags, execPeatAllocate hid s =
    .next (if s.porch.pwbSize = 0 || ((s.household hid).secured && (s.household hid).pk.isNone) then s.noPeat hid 0
      else s.putPeat hid flags f tasks labels secs) := by
  unfold execPeatAllocate
  extract_lets h q x ahead
  have quiet : ahead = false := by
    refine List.any_eq_false.2 (fun e mem => ?_)
    split
    next j => simpa using turn j mem
    next => exact Bool.false_ne_true
  rw [if_neg (by simp [x, q, h, stage, killed, unplaced]), if_neg (by simp [quiet])]
  split
  · exact ⟨.none, [], [], [], 0, by trivial⟩
  · split
    · exact ⟨_, _, _, _, _, rfl⟩
    · exact ⟨_, _, _, _, _, rfl⟩
theorem execPeatAllocate_without (h : s.porch.pwbSize = 0 ∨ (s.household hid).secured = true ∧ (s.household hid).pk = .none) :
    execPeatAllocate hid s = .next (s.noPeat hid 0) := by
  obtain ⟨f, tasks, labels, secs, flags, e⟩ := execPeatAllocate_turn stage killed unplaced turn
  rw [e, if_pos (by simpa using h)]
theorem execPeatAllocate_places (size : s.porch.pwbSize ≠ 0) (key : (s.household hid).secured = false ∨ (s.household hid).pk ≠ .none) :
    ∃ t, execPeatAllocate hid s = .next t ∧
      ((t.queue (s.household hid).queue).peat = s.porch.pwNext ∨
        (t.queue (s.household hid).queue).peatState = 4 ∧ (t.queue (s.household hid).queue).peatResult = 5) := by
  obtain ⟨f, tasks, labels, secs, flags, e⟩ := execPeatAllocate_turn stage killed unplaced turn
  have ok : ¬(s.porch.pwbSize = 0 || ((s.household hid).secured && (s.household hid).pk.isNone)) = true := by
    obtain h | h := key
    · simp [size, h]
    · simp [size, h]
  rw [e, if_neg ok]
  exact ⟨_, rfl, s.putPeat_allocates hid flags f tasks labels secs⟩
end
theorem execPeatFormed_ends {s : State} {hid : Nat} (alive : (s.household hid).alive = true)
    (killed : (s.queue (s.household hid).queue).killed = true) :
    ∃ t, execPeatFormed hid s = .next t ∧ (t.household hid).alive = false ∧ (t.household hid).fens = [] ∧
      (t.household hid).hsk = none := by
  unfold execPeatFormed
  dsimp only
  rw [if_neg (by simp [alive, killed])]
  refine ⟨_, rfl, ?_⟩
  rw [State.household_onHousehold]
  exact ⟨rfl, rfl, rfl⟩
theorem execPwrel_releases {s : State} {val : BitVec 64} {p : Peat} (small : val.toNat < 65536) (found : tfind s.peats val.toNat = some p)
    (quiet : ∀ i, Event.porchAnswer i ∉ s.agenda) (formed : p.forming = false) (unmounted : ∀ m ∈ s.mounts, m.peat ≠ val.toNat)
    (idle : s.reviving val.toNat = false) : execPwrel val s = .next { s with peats := tdel s.peats val.toNat } := by
  unfold execPwrel
  extract_lets n answers
  have silent : answers = false := by
    refine List.any_eq_false.2 (fun e mem => ?_)
    split
    next i => exact absurd mem (quiet i)
    next => exact Bool.false_ne_true
  rw [show tfind s.peats n = some p from found]
  dsimp only
  rw [if_neg (by simp [silent]), if_neg (by simpa [n, formed, idle, small] using unmounted)]
theorem execReviveResume_resumes {s : State} {q t : Nat} {g : Group} (h : s.taskGroup q t = some g) (running : g.st = .running)
    (held : g.held = true) (due : g.start ≤ s.gts) :
    execReviveResume q t s = .next (s.onTaskGroup q t (fun g => { g with held := false })) := by
  simp [execReviveResume, h, running, held, due]
/-- The answer of a `pinfo` (R411) writes its destination and ends the request. -/
theorem execPorchAnswer_pinfo {s : State} {id d arg : Nat} {m : Msg} {blk : List Nat} (found : tfind s.bag id = some m)
    (body : m.body = .porch 2 d arg blk) (first : m.app = none) (going : m.st = .going) :
    let a : Option (Nat × Nat × Nat) := some (0, 0, s.gts)
    execPorchAnswer id s = .next ((((s.onMsg id (fun m => { m with app := a, delivered := true })).logAck { m with app := a }).complete
      m.src.core m.src.ctx ([.write (.s d) (s.peatInfo m.src.hid arg), .unpend (.s d)] ++ m.lowerActs ++ m.orcActs)).dropMsg id) := by
  unfold execPorchAnswer
  simp only [found, body]
  rw [if_neg (by simp [first, going])]
  rfl

/-- Settles O45: one lemma for each event. -/
theorem switchAndPeatEvents : Obligations.SwitchAndPeatEvents := by
  unfold Obligations.SwitchAndPeatEvents
  intro s q hid id val x h y
  refine ⟨fun owned alive => ⟨?_, ?_, ?_⟩, fun armed _ _ => execSwcmdDisarm_disarms (val := val) armed, ?_, execSluiceClose_catches, ?_,
    execRestoreResume_plans, fun owned running alive => ⟨execKill_arms owned running alive, execKill_armsRel owned running alive⟩, rfl,
    fun first at_ alive settled => execKillStop_kills first at_ alive settled, ?_, execPeatFormed_ends, fun p => execPwrel_releases, fun t g => execReviveResume_resumes,
    fun m d arg blk => execPorchAnswer_pinfo⟩
  · rintro running unarmed rfl
    refine ⟨_, execSwcmdSave_arms owned alive running unarmed, ?_⟩
    rw [State.queue_armStop, State.queue_onQueue]
    exact ⟨rfl, rfl, rfl⟩
  · rintro running unarmed rfl
    exact execSwcmdSave_armsRel owned alive running unarmed
  · rintro f l fens saved frame good rfl free room
    exact execSwcmdRestore_loads owned alive saved frame good free room
  · intro armed at_ running alive noKill u
    exact ⟨s.asleep_sleep hid, execSwitchStop_sleeps armed at_ running alive noKill⟩
  · intro saving alive secs bytes r free
    exact ⟨execSaveComplete_saves saving alive rfl rfl free, fun e => execSaveComplete_fails saving alive rfl rfl free⟩
  · intro stage killed unplaced turn
    exact ⟨execPeatAllocate_without stage killed unplaced turn, execPeatAllocate_places stage killed unplaced turn⟩

end Sys2Proof.Machine
end
